-- ==== Sys2Proof/Word.lean ====
section
/-! DEFINITION. The words of the block and the sparse store in one canonical form. -/

namespace Sys2Proof

/-- A byte (R10). -/
abbrev Byte := BitVec 8
/-- A register word (R10). -/
abbrev W32 := BitVec 32
/-- A 64-bit quantity (R455). -/
abbrev W64 := BitVec 64
/-- A 48-bit host address (R61). -/
abbrev Addr := BitVec 48
/-- A job id (R61). -/
abbrev Job := BitVec 8

/-- A sparse store: values by number, a number that is not listed reads the default of its use. -/
structure SMap (α : Type) where
  entries : List (Nat × α)
deriving DecidableEq, Repr

variable {α β : Type}

/-- The empty store. -/
def SMap.empty : SMap α := ⟨[]⟩

/-- The value a list of pairs holds at a key. -/
def SMap.lookup (k : Nat) : List (Nat × α) → Option α
  | [] => none
  | (j, v) :: r => if j = k then some v else SMap.lookup k r

/-- The value at `k`, or `d` where nothing is listed. -/
def SMap.get (d : α) (m : SMap α) (k : Nat) : α := (SMap.lookup k m.entries).getD d

/-- The list without key `k`. -/
def SMap.drop (k : Nat) : List (Nat × α) → List (Nat × α)
  | [] => []
  | (j, v) :: r => if j = k then SMap.drop k r else (j, v) :: SMap.drop k r

/-- Insert a pair in front of the first greater key. -/
def SMap.ins (k : Nat) (v : α) : List (Nat × α) → List (Nat × α)
  | [] => [(k, v)]
  | (j, w) :: r => if k < j then (k, v) :: (j, w) :: r else (j, w) :: SMap.ins k v r

/-- Write `v` at `k`; writing the default removes the entry. -/
def SMap.set [DecidableEq α] (d : α) (m : SMap α) (k : Nat) (v : α) : SMap α :=
  if v = d then ⟨SMap.drop k m.entries⟩ else ⟨SMap.ins k v (SMap.drop k m.entries)⟩

/-- Change the value at `k`. -/
def SMap.mod [DecidableEq α] (d : α) (m : SMap α) (k : Nat) (f : α → α) : SMap α :=
  m.set d k (f (m.get d k))

/-- The keys listed, rising when the store is canonical. -/
def SMap.keys (m : SMap α) : List Nat := m.entries.map (·.1)

/-- Change the value at every key listed. -/
def SMap.map [DecidableEq α] (d : α) (m : SMap α) (f : α → α) : SMap α :=
  m.keys.foldl (fun n k => n.mod d k f) m

/-- Keys strictly rising. -/
def SMap.rising : List (Nat × α) → Bool
  | [] => true
  | [_] => true
  | (j, _) :: (k, w) :: r => decide (j < k) && SMap.rising ((k, w) :: r)

/-- The canonical form: keys strictly rising and no entry equal to the default. -/
def SMap.wf [DecidableEq α] (d : α) (m : SMap α) : Bool :=
  SMap.rising m.entries && m.entries.all (fun p => decide (p.2 ≠ d))

/-- A 32-bit saturating increment (R455). -/
def satInc (c : W32) : W32 := if c = BitVec.allOnes 32 then c else c + 1

/-- A 32-bit saturating addition. -/
def satAdd (c : W32) (n : Nat) : W32 := BitVec.ofNat 32 (min (c.toNat + n) (2 ^ 32 - 1))

/-- Bits [hi:lo] of a word as a number (R10). -/
def bits {w : Nat} (x : BitVec w) (hi lo : Nat) : Nat := x.toNat / 2 ^ lo % 2 ^ (hi + 1 - lo)

/-- Bit n of a word. -/
def bit {w : Nat} (x : BitVec w) (n : Nat) : Bool := x.getLsbD n

/-- A number placed at bit `lo` of a 32-bit word. -/
def at32 (n lo : Nat) : W32 := BitVec.ofNat 32 (n * 2 ^ lo)

/-- 1 for true. -/
def b2n (b : Bool) : Nat := if b then 1 else 0

/-- Two's-complement reading of the low `w` bits of a number. -/
def signedNat (w n : Nat) : Int :=
  let m := n % 2 ^ w
  if m < 2 ^ (w - 1) then (m : Int) else (m : Int) - (2 : Int) ^ w

/-- Add an element to a list used as a set. -/
def setAdd [DecidableEq α] (x : α) (l : List α) : List α := if x ∈ l then l else l ++ [x]

/-- Split a number into bytes, most significant first. -/
def bytesBE : Nat → Nat → List Byte
  | 0, _ => []
  | n + 1, x => BitVec.ofNat 8 (x / 2 ^ (8 * n)) :: bytesBE n x

/-- The number that bytes spell, most significant first. -/
def natBE (l : List Byte) : Nat := l.foldl (fun a b => a * 256 + b.toNat) 0

/-- The number that bytes spell, least significant first. -/
def natLE : List Byte → Nat
  | [] => 0
  | b :: r => b.toNat + 256 * natLE r

end Sys2Proof
end

