-- ==== Sys2Proof/Records.lean ====
section
/-! DEFINITION. Harness records as the hubs hold them: type and words (R382). -/

namespace Sys2Proof

/-- A harness record: its TYPE, all its words, and where it stood (R382, R396). -/
structure Rec where
  type : Nat
  words : List W32
  sec : Nat
  idx : Nat
deriving DecidableEq, Repr

/-- Word `i` of a record. -/
def Rec.word (r : Rec) (i : Nat) : W32 := r.words.getD i 0

/-- The field [hi:lo] of word `i` (R382). -/
def Rec.fld (r : Rec) (i hi lo : Nat) : Nat := bits (r.word i) hi lo

/-- A 48-bit address field (a–b) (R379). -/
def Rec.addr (r : Rec) (a : Nat) : Nat := (r.word a).toNat + 2 ^ 32 * r.fld (a + 1) 15 0

/-- A 64-bit field whose high word is word `a` (R389 PEER_CHIP). -/
def Rec.hiLo (r : Rec) (a : Nat) : Nat := (r.word a).toNat * 2 ^ 32 + (r.word (a + 1)).toNat

/-- A field whose range excludes 0 and that holds 0 selects its default (R382). -/
def orDef (x d : Nat) : Nat := if x = 0 then d else x

/-- The records of one type, in order. -/
def recsOf (t : Nat) (rs : List Rec) : List Rec := rs.filter (fun r => decide (r.type = t))

/-- The first record of a type that satisfies a test. -/
def findRec (t : Nat) (f : Rec → Bool) (rs : List Rec) : Option Rec :=
  rs.find? (fun r => decide (r.type = t) && f r)

end Sys2Proof
end

