-- ==== Sys2Proof/Syntax.lean ====
section
/-! DEFINITION. The commands the block takes, one constructor for each row of opcode_table.json, and the data they carry. -/

namespace Sys2Proof

/-- The two hubs (R22). -/
inductive HubId where
  | a | b
deriving DecidableEq, Repr

/-- The units with a queue of the fault network (R218). -/
inductive NetUnit where
  | agent (i : Nat)
  | conc (i : Nat)
  | engine (i : Nat)
  | linkEnd (i : Nat)
  | hub (h : HubId)
deriving DecidableEq, Repr

/-- A tap of the tile port (R418). -/
inductive Tap where
  | a | b | c
deriving DecidableEq, Repr

/-- A tap beat of elements (R418, R421); `cyc` is the tile-clock cycle of the beat; `halvesDiffer` says that the two
lane halves of a fill disagree at its end (R70). -/
structure TapBeat where
  tap : Tap
  handle : BitVec 5
  data : BitVec 256
  count : Nat
  member : Nat
  idx0 : Nat
  idx1 : Nat
  dir : Bool
  scale : Byte
  poison : Bool
  auditOnly : Bool
  sat : BitVec 32
  cyc : Nat
  halvesDiffer : Bool := false
deriving DecidableEq, Repr

/-- A PRJ beat (R421): the header when `header`, otherwise records from index `idx1`. -/
structure PrjBeat where
  header : Bool
  handle : BitVec 5
  data : BitVec 256
  count : Nat
  member : Nat
  idx1 : Nat
  poison : Bool
  auditOnly : Bool
  cyc : Nat
deriving DecidableEq, Repr

/-- A vector element beat (R418, R423). -/
structure VeBeat where
  gid : BitVec 3
  count : Nat
  data : BitVec 1024
  rowEnd : BitVec 32
  scale : Byte
  poison : Bool
deriving DecidableEq, Repr

/-- A data beat of a tag port (R428): bytes by lane, enables, old bytes of a WRITE_PARTIAL. -/
structure TgBeat where
  stream : BitVec 7
  data : List Byte
  dbe : BitVec 256
  old : List Byte
  last : Bool
  poison : Bool
deriving DecidableEq, Repr

/-- How a DMA or LINK engine's unit uses a source block in a destination block (R119 to R121, R141). -/
structure SrcUse where
  /-- the part goes into the payload of the link packet being formed (R133), not into a destination block -/
  packet : Bool
  /-- destination block address -/
  dest : Addr
  /-- digits of the destination block, or of the payload, before this part -/
  before : Nat
  /-- coefficient of a reduction (R141); 1 for a move -/
  coef : Int
  /-- the bytes of the source block: before the part that is used, of the part, and after it (R120) -/
  skip : List Byte
  part : List Byte
  rest : List Byte
  /-- the last part of the destination block -/
  final : Bool
deriving DecidableEq, Repr

/-- A tagged link packet as its LINK engine handles it (R133). -/
structure LinkPacket where
  /-- payload digits as sent or received -/
  digits : List (BitVec 16)
  /-- destination blocks with the digits each takes, in order -/
  dests : List (Addr × Nat)
deriving DecidableEq, Repr

/-- An expert-dispatch packet as the receiving engine sees it (R143, R145). -/
structure DispatchPacket where
  /-- the ledger header of R143, word 0 in bits 31 to 0 -/
  header : BitVec 128
  /-- payload digits -/
  digits : List (BitVec 16)
  /-- the packet's tag field -/
  tag : W32
  /-- destination blocks of the packet -/
  blocks : List Addr
deriving DecidableEq, Repr

/-- A known-answer unit of an agent (R87, R88). -/
inductive KatUnit where
  | lane (l : Nat)
  | reducer
  | generator (g : Nat)
deriving DecidableEq, Repr

/-- What the scrubber or a service access finds in a word (R224, R225). -/
inductive ScrubResult where
  | clean
  | corrected
  | uncorrectable
deriving DecidableEq, Repr

/-- A link whose training is attempted: the link right of die `d`, or the cross-link (R268, R329). -/
inductive TrainLink where
  | die (d : Nat)
  | cross
deriving DecidableEq, Repr

/-- A relaxing action that the leader proposes (R274, R277). -/
inductive RelaxAction where
  | unfence (pos : Nat)
  | openGate (job : Job) (step : W64)
  | settle (record : Nat)
  | removePaddock (agent : Nat)
  | lowerCurb (die : Nat)
  | admitPort (port : Nat)
  | command (op : Nat)
deriving DecidableEq, Repr

/-- A cross-link frame type (R269). -/
inductive FrameType where
  | hello | heart | digest | mirror | propose | consent | refuse | regWrite | sections | items | reserved
deriving DecidableEq, Repr

/-- A section of the state digest (R280). -/
inductive DigestSection where
  | hubState | faults | lame | fences | paddock | aborted | retakes | gates | curb | frozen | serial
deriving DecidableEq, Repr

/-- A test region (R248). -/
inductive Region where
  | tile (agent : Nat)
  | agent (agent : Nat)
  | conc (cluster : Nat)
  | hub (h : HubId)
deriving DecidableEq, Repr

/-- A pattern set (R256). -/
inductive PatSet where
  | tile | agent | conc | hub
deriving DecidableEq, Repr

/-- The response stream of a region up to a checkpoint, each word with its mask bits, and the value that the pattern set
expects in the MISR there (R249). -/
structure Checkpoint where
  response : List (W32 × W32)
  expected : W32
deriving DecidableEq, Repr

/-- One slate of a save image (R370). -/
structure SavedSlate where
  job : Job
  words : List W32
  live : W64
deriving DecidableEq, Repr

/-- One envelope of a save image, with K16, ALPHA, WARM and SIGMA_MIN in force (R165, R370). -/
structure SavedEnvelope where
  cluster : Nat
  vclass : Nat
  mu : Int
  var : Int
  steps : Nat
  k16 : Nat
  clean : Nat
  k16Base : Nat
  alpha : Nat
  warm : Nat
  sigmaMin : Nat
deriving DecidableEq, Repr

/-- One signing stream of a save image (R370); `first` is none before its first step element. -/
structure SavedStream where
  stream : Nat
  job : Job
  head : List Byte
  first : Option W64
  last : W64
deriving DecidableEq, Repr

/-- A save image by its sections, with its trailing SHA-384 (R370). -/
structure SaveImage where
  magic : BitVec 16
  format : Byte
  idRev : W32
  chipId : W64
  harness : List W32
  stepClock : W64
  slates : List SavedSlate
  envelopes : List SavedEnvelope
  /-- ODD_M in force, by cluster and job (R165) -/
  odd : List (Nat × Nat × Nat)
  /-- the VECTOR_CLASS records and the ODD record with the parameters in force (R165) -/
  classes : List Rec
  inlogHead : W64
  inlogWraps : W32
  streams : List SavedStream
  /-- source position and level, nonzero levels only -/
  buckets : List (Nat × Nat)
  recovery : List (Nat × Nat)
  /-- paddock entries in the layout of R243, with their slot -/
  paddock : List (Nat × W64)
  digest : List Byte
deriving DecidableEq, Repr

/-- An input-log entry (R366). -/
structure InlogEntry where
  tag : W32
  step : BitVec 48
  job : Job
  addr : Addr
deriving DecidableEq, Repr

/-- Event receiver modes of R402. -/
inductive EventMode where
  | disabled | polling | async | keepAlive
deriving DecidableEq, Repr

/-- The commands, one for each row of the table, in the table's families. -/
inductive Instr where
  -- reset and the register port
  | rstLAssert
  | rstLDeassert
  | registerWrite (addr : BitVec 16) (data : W32)
  | regAccessLatch (addr : BitVec 16)
  | start (tag : Byte)
  | loadHarness (tag : Byte)
  | run (tag : Byte)
  | quiesce (tag : Byte)
  | save (tag : Byte)
  | restore (tag : Byte) (image : SaveImage)
  | trotUp (tag : Byte)
  | clearSource (tag : Byte)
  | setBand (tag : Byte)
  | retireTwin (tag : Byte)
  | wrap (tag : Byte)
  | signResultOpen (tag : Byte) (weights : List (List W32))
  | signResultSign (tag : Byte)
  | signResultClose (tag : Byte)
  | launchAt (tag : Byte)
  | hotUpdate (tag : Byte) (wordsA wordsB : List W32)
  | replay (tag : Byte) (recorded : List InlogEntry)
  | commandTimeout
  | stepEnd (data : W32)
  | slateBegin (data : W32)
  | abortFifoPop (data : W32)
  | stickyClear (w : Byte) (data : W32)
  | irqStsClear (data : W32)
  | thrEvtClear (data : W32)
  | overrunClear (data : W32)
  | forceWrite (w : Byte) (data : W32)
  | injectionTimeout (pos : Nat)
  | indSelect (isAddr : Bool) (data : W32)
  | indFetchDone
  | indDataRead
  | indDataWrite (data : W32)
  | reelDataRead (word : BitVec 2)
  -- bring-up
  | stage0Identity (us : Nat) (badAgents badConcs : List Nat) (reports : List (Nat × Nat × Nat)) (hubAOk hubBOk : Bool)
  | stage1Keys (us : Nat)
  | stage2Pairing (us : Nat) (passA passB : Bool)
  | stage3DieLinks (us : Nat)
  | stage4Harness (us : Nat) (wordsA wordsB : List W32)
  | stage5AgentImage (len : Nat)
  | stage6LameList (us : Nat)
  | stage7Housekeeping (us : Nat) (crystalOk : Bool) (offset : Int) (counts : List (Nat × Nat))
  | stage8KnownAnswer (us : Nat) (lanes units : List (Nat × Nat)) (concs : List Nat)
  | stage9Discovery (us : Nat)
  | discWindowEnd
  | stage10Ready (us : Nat)
  | stageBudgetExpiry
  | keyPortBeat (data : W64) (last : Bool)
  | keyPortBad
  | keyItemTimeout
  | linkTrainAttemptEnd (l : TrainLink) (ok : Bool)
  | imagePacket (agent : Nat) (header : W64) (payload : List Byte)
  | imageCollect (silent : List Nat)
  -- the tile port
  | tdDescriptor (agent : Nat) (handle : BitVec 5) (data : BitVec 256) (cyc : Nat)
  | tapElementBeat (agent : Nat) (beat : TapBeat)
  | prjBeat (agent : Nat) (beat : PrjBeat)
  | auditBeat (agent : Nat) (tap : Tap) (handle : BitVec 5) (addr : Addr) (d : BitVec 31) (poison : Bool) (cyc : Nat)
  | cLast (agent : Nat) (beat : TapBeat)
  | handoffSlice (cluster agent : Nat)
  | verdict (cluster : Nat)
  | verdictAtAgent (agent : Nat)
  | cmtAccept (agent cycles : Nat)
  | vhHeader (agent : Nat) (gid : BitVec 3) (data : BitVec 110)
  | veBeat (agent : Nat) (beat : VeBeat)
  | vectorGroupVerdict (agent : Nat) (gid : BitVec 3)
  | choiceStrobe (agent : Nat) (job : Job)
  | fenceOrder (agent : Nat)
  | fenceAckRise (agent : Nat)
  | fenceEnd (agent : Nat)
  | fenceAckFall (agent : Nat)
  | fenceTimeout (agent : Nat)
  | scAck (agent : Nat)
  | settleOrder (agent record : Nat)
  | poisonOrder (agent record : Nat)
  | gateOpen (job : Job) (step : W64)
  | jobAbortActions (job : Job)
  | epochAnnounce
  | epochActivation
  | laneSelfCheck (agent : Nat) (unit : KatUnit) (ok : Bool) (cyc : Nat)
  | scrubAccess (unit : NetUnit) (macroNo : Byte) (word data : W32) (check : BitVec 7) (taskData : Bool) (contexts : List Nat)
  | summaryJudge (cluster agent : Nat)
  | concStepAnswer (cluster : Nat) (job : Job) (step : W64)
  | gateDecision (job : Job)
  -- the fault network
  | messageOrigin (unit : NetUnit) (src : BitVec 16) (kind : Byte) (sev : BitVec 3) (addr : Addr) (job : Job)
  | messageHop (unit : NetUnit) (dest : HubId)
  | hopBadCrc (unit : NetUnit) (dest : HubId)
  | mergedS2Send (unit : NetUnit)
  | hubAcceptMessage (hub : HubId)
  | leakTick (group : Nat)
  | quietEnd (pos : Nat)
  | reelMark
  | reconcileMaskSend (cluster : Nat)
  | reconcileCompare (hub : HubId) (cluster : Nat)
  | accountFetch (record : Nat)
  | retakeIssueTimeout (record : Nat)
  | retakeWaitExpiry (record : Nat)
  | retakeRunTimeout (record : Nat)
  -- tags
  | writeChecked (engine : Nat) (stream : BitVec 7) (addr : Addr) (job : Job)
  | writePlain (engine : Nat) (stream : BitVec 7) (addr : Addr) (job : Job)
  | writeExpect (engine : Nat) (stream : BitVec 7) (addr : Addr) (job : Job) (d : BitVec 31)
  | writePoison (engine : Nat) (stream : BitVec 7) (addr : Addr) (job : Job)
  | writeExternal (engine : Nat) (stream : BitVec 7) (addr : Addr) (job : Job)
  | writePartial (engine : Nat) (stream : BitVec 7) (addr : Addr) (job : Job) (first last : BitVec 16)
  | read (engine : Nat) (stream : BitVec 7) (addr : Addr) (job : Job) (whole : Bool)
  | tgDataBeat (engine : Nat) (beat : TgBeat)
  | commit (engine : Nat) (addr : Addr) (count : BitVec 16) (job : Job)
  | poison (engine : Nat) (addr : Addr) (count : BitVec 16) (job : Job)
  | ledgerOpen (engine : Nat) (receiver : Bool) (addr : Addr) (count : BitVec 16) (job : Job) (round : BitVec 16) (value : W32)
  | ledgerClose (engine : Nat) (receiver : Bool) (job : Job) (round : BitVec 16)
  | ledgerPacket (engine : Nat) (packet : DispatchPacket)
  | sideAck (engine : Nat) (id : BitVec 4) (rdata : W32) (ue : Bool)
  | sidecarTimeout (engine : Nat) (id : BitVec 4)
  | commitBufferFree (engine : Nat)
  | tgSourceReply (engine : Nat) (code : BitVec 4) (d : BitVec 31) (addr : Addr) (uses : List SrcUse)
  | linkPacketSend (engine : Nat) (packet : LinkPacket) (ledger : Option (BitVec 128))
  | linkPacketReceive (engine : Nat) (packet : LinkPacket) (tag : W32)
  | hostReport (engine : Nat) (line : BitVec 4) (kind : Byte) (addr : Addr) (dests : List Addr)
  -- steps, slates, beacons
  | inlogEntryWrite
  | stepSync (time : W64)
  | syncMissing
  | launchCountReached (job : Job)
  | beaconSend (port : Nat) (width : Byte)
  | beaconReceive (port : Nat) (frame : List Byte) (width : Byte)
  | slateWaitExpiry (job : Job) (step : W64) (port : Nat)
  | portSilence (port : Nat)
  | beaconTxReady (port : Nat)
  -- housekeeping
  | hkRound
  | sensorSample (chan : BitVec 9) (data : BitVec 16)
  | busSample (chan : BitVec 9)
  | marginWindowDone (cluster : Nat) (counts : List (Nat × Nat))
  | kclkCheckWindow (hub : HubId) (count : Nat)
  | curbCombine
  -- twins
  | aliveBoundary
  | hubStrobe (hub : HubId)
  | hello (hub : HubId) (selfTest : Bool)
  | heartSend (hub : HubId)
  | xlinkFrameReceive (hub : HubId) (frame : BitVec 256)
  | xlinkResend (hub : HubId)
  | digestCut
  | digest (hub : HubId) (seq : W32) (value : W64)
  | sections (hub : HubId)
  | items (hub : HubId) (sec : DigestSection)
  | propose (action : RelaxAction) (own : Option Nat)
  | consent
  | refuse
  | mirror (hub : HubId)
  | regWrite (hub : HubId)
  | twinSilence (hub : HubId)
  | aliveClaimGrant
  | twinArbitration (passA passB : Bool)
  -- paddock and test engine
  | trotDue (agent : Nat)
  | trotIdleAfterExpiry (agent : Nat)
  | secretsCleared (region : Region)
  | secretsTimeoutExpiry (region : Region)
  | trotHostBoundMiss (agent : Nat)
  | tapGrantWaitExpiry
  | scanDone (agent : Nat) (tileSet agentSet : List Checkpoint)
  | patternSetFetched (set : PatSet) (data : List Byte)
  | cacheBlockBad (block : Nat) (set : PatSet) (at_ : Nat) (streaming : List Nat) (group : Bool) (reread : List Byte)
  | persistEraseDone
  | wrapGroupDone (results : List (Nat × List Checkpoint × List Checkpoint))
  | wrapRecordWritten (readBack : List Byte)
  -- die links while running
  | dieLinkLockLoss (link : Nat)
  | dieLinkResendLimit (link : Nat)
  | dieLinkRetrainDone (link lanes : Nat)
  -- management port
  | entdaa (addr : BitVec 7)
  | setdasa (addr : BitVec 7)
  | rstdaa
  | enec (events : Byte)
  | disec (events : Byte)
  | getpid
  | getbcr
  | getdcr
  | getstatus
  | getmrl
  | getmwl
  | setmrl (n : BitVec 16)
  | setmwl (n : BitVec 16)
  | mctpDiscard
  | setEndpointId (eid : Byte)
  | getEndpointId
  | getEndpointUuid
  | getMctpVersionSupport (type : Byte)
  | getMessageTypeSupport
  | setTid (tid : Byte)
  | getTid
  | getPldmVersion (type : Byte)
  | getPldmTypes
  | getPldmCommands (type : Byte)
  | setEventReceiver (mode : EventMode) (eid : Byte) (heartbeat : Nat)
  | getEventReceiver
  | pollForPlatformEventMessage (offset : Nat)
  | eventMessageSupported
  | eventMessageBufferSize (n : Nat)
  | getSensorReading (id : BitVec 16)
  | getStateSensorReadings (id : BitVec 16)
  | getPdrRepositoryInfo
  | getPdr (index : Nat)
  | eventSend
  | eventAcknowledged
  | eventResendTimeout
  | heartbeatTimer
  -- handshake ends
  | scAckFall (agent : Nat)
  | tapGrantRise (once : Bool)
  | crossLinkRetrain
  | errorUnsupportedCmd (code : Byte)
  | errorUnsupportedPldmCmd (type code : Byte)
deriving DecidableEq, Repr

end Sys2Proof
end

