-- ==== Sys2Proof/Decode.lean ====
section
/-! DEFINITION. The decoder over the rows of opcode_table.json that give bits: no row gives any. -/

namespace Sys2Proof

/-- The command that a word spells by the table's bits: every row's "fields" is empty, so no word spells one. -/
def decodeTableWord (_nbits _w : Nat) : Option Instr := none

end Sys2Proof
end

