-- ==== Sys2Proof/Machine/Crypto.lean ====
section
/-! DEFINITION. The arithmetic units the spec names: SHA-384, the CRCs, ECDSA P-384 with RFC 6979, the mixing function
(R51 to R55, R201, R269, R280, R373, R383). -/

namespace Sys2Proof.Machine

open Sys2Proof

/-- A number as bytes, least significant first. -/
def bytesLE (n x : Nat) : List Byte := (bytesBE n x).reverse

/-! ### SHA-384 (FIPS 180-4) -/

/-- The whole `e`-th root of `x`, found bit by bit from bit `n` − 1 down over what is known of it so far. -/
def wholeRoot (e x : Nat) : Nat → Nat → Nat
  | 0, r => r
  | n + 1, r => wholeRoot e x n (if (r + 2 ^ n) ^ e ≤ x then r + 2 ^ n else r)

/-- The first 64 bits of the fractional part of the `e`-th root of a number. -/
def rootBits64 (e x : Nat) : W64 := BitVec.ofNat 64 (wholeRoot e (x * 2 ^ (64 * e)) 69 0)

/-- The primes below 410: the first 80. -/
def shaPrimes : List Nat :=
  (List.range 410).filter (fun x => decide (1 < x) && (List.range 21).all (fun d => decide (d < 2 ∨ x ≤ d ∨ x % d ≠ 0)))

/-- The round constants: bits of the cube roots of the first 80 primes. -/
def shaK : List W64 := shaPrimes.map (rootBits64 3)

/-- The initial hash value of SHA-384: bits of the square roots of the ninth to the sixteenth prime. -/
def shaInit : List W64 := ((shaPrimes.drop 8).take 8).map (rootBits64 2)

/-- A word turned right by each of some numbers of bits, the results added without carry. -/
def turns (x : W64) (l : List Nat) : W64 := l.foldl (fun s n => s ^^^ ((x >>> n) ||| (x <<< (64 - n)))) 0

/-- The message word after a window of 16 words, the oldest first. -/
def shaNext (win : List W64) : W64 :=
  let at_ (i : Nat) : W64 := win.getD i 0
  at_ 0 + at_ 9 + (turns (at_ 1) [1, 8] ^^^ (at_ 1 >>> 7)) + (turns (at_ 14) [19, 61] ^^^ (at_ 14 >>> 6))

/-- A step of the compression over the window of message words and the eight working words. -/
def shaStep (x : List W64 × List W64) (k : W64) : List W64 × List W64 :=
  match x.2 with
  | [a, b, c, d, e, f, g, h] =>
    let u := x.1.headD 0 + k + h + (g ^^^ (e &&& (f ^^^ g))) + turns e [14, 18, 41]
    (x.1.tail ++ [shaNext x.1], [u + (a &&& b ||| c &&& (a ||| b)) + turns a [28, 34, 39], a, b, c, d + u, e, f, g])
  | v => (x.1, v)

/-- The hash value after one more block of 128 bytes. -/
def shaTake (h : List W64) (block : List Byte) : List W64 :=
  let words := (List.range 16).map (fun i => BitVec.ofNat 64 (natBE ((block.drop (8 * i)).take 8)))
  List.zipWith (· + ·) h (shaK.foldl shaStep (words, h)).2

/-- SHA-384 of a list of bytes, as 48 bytes. -/
def sha384 (m : List Byte) : List Byte :=
  let fill := (239 - m.length % 128) % 128
  let l := m ++ 0x80#8 :: List.replicate fill 0 ++ bytesBE 16 (8 * m.length)
  let h := (List.range (l.length / 128)).foldl (fun h i => shaTake h ((l.drop (128 * i)).take 128)) shaInit
  (h.take 6).flatMap (fun w => bytesBE 8 w.toNat)

/-! ### CRCs -/

/-- One bit of an unreflected CRC. -/
def crcBit {w : Nat} (poly : BitVec w) (c : BitVec w) (b : Bool) : BitVec w :=
  if (c.getMsbD 0) ^^ b then (c <<< 1) ^^^ poly else c <<< 1

/-- An unreflected CRC over the low `n` bits of a number, from the highest down. -/
def crcBits {w : Nat} (poly : BitVec w) (x : Nat) : Nat → BitVec w → BitVec w
  | 0, c => c
  | n + 1, c => crcBits poly x n (crcBit poly c (x.testBit n))

/-- CRC-8 of R201 over bits [127:8] of a message. -/
def crc8 (bits120 : Nat) : Byte := crcBits 0x2F#8 bits120 120 0xFF#8

/-- CRC-64 of R280 over bytes. -/
def crc64 (l : List Byte) : W64 := l.foldl (fun c b => crcBits 0x42F0E1EBA9EA3693#64 b.toNat 8 c) 0

/-- One bit of a reflected CRC-32C. -/
def crc32cStep : Nat → W32 → W32
  | 0, x => x
  | n + 1, x => crc32cStep n (if x.getLsbD 0 then (x >>> 1) ^^^ 0x82F63B78#32 else x >>> 1)

/-- CRC-32C of bytes (R269, R419): reflected, initial value and final XOR all ones. -/
def crc32c (l : List Byte) : W32 :=
  (l.foldl (fun c b => crc32cStep 8 (c ^^^ b.zeroExtend 32)) 0xFFFFFFFF#32) ^^^ 0xFFFFFFFF#32

/-! ### The mixing function (R51 to R53) -/

/-- The round constants of R52. -/
def mixC : List W64 := [0x6A3D000000009E5B#64, 0x53C900000000B167#64, 0x7E1500000000C4A3#64, 0x4B8700000000D38D#64]

/-- One round of mix. -/
def mixRound (x c : W64) : W64 :=
  let y := (x ^^^ (x >>> 29)) * c
  y ^^^ (y >>> 32)

/-- mix of R51. -/
def mix (k : W64) (t : W32) (side index : Nat) : W64 :=
  mixC.foldl mixRound (k ^^^ (t.zeroExtend 64 <<< 32) ^^^ BitVec.ofNat 64 (side * 2 ^ 24) ^^^ BitVec.ofNat 64 index)

/-- The modulus 2³¹ − 1. -/
def p31 : Nat := 2147483647

/-- The exact weight (R53). -/
def exactWeight (k : W64) (t : W32) (side index : Nat) : Nat := (mix k t side index).toNat % p31

/-- The bounded weight (R53). -/
def boundedWeight (k : W64) (t : W32) (side index : Nat) : Nat := 0x8000 ||| (mix k t side index).toNat / 2 ^ 49

/-- The key of an epoch (R55). -/
def epochKeyOf (checkRoot : List Byte) (e : Nat) : W64 :=
  BitVec.ofNat 64 (natBE ((sha384 (checkRoot ++ bytesBE 8 e)).take 8))

/-! ### ECDSA P-384 (R373, R377, R383) -/

/-- The field prime. -/
def ecP : Nat := 0xfffffffffffffffffffffffffffffffffffffffffffffffffffffffffffffffeffffffff0000000000000000ffffffff
/-- The group order. -/
def ecN : Nat := 0xffffffffffffffffffffffffffffffffffffffffffffffffc7634d81f4372ddf581a0db248b0a77aecec196accc52973
/-- The coefficient b. -/
def ecB : Nat := 0xb3312fa7e23ee7e4988e056be3f82d19181d9c6efe8141120314088f5013875ac656398d8a2ed19d2a85c8edd3ec2aef
/-- The generator. -/
def ecG : Nat × Nat :=
  (0xaa87ca22be8b05378eb1c71ef320ad746e1d3b628ba79b9859f741e082542a385502f25dbf55296c3a545e3872760ab7,
   0x3617de4a96262c6f5d9e98bf9292dc29f8f41dbd289a147ce9da3113b5f0b8c00a60b1ce1d7e819d7a431d7c90ea0e5f)

/-- Modular power with an exponent of `n` bits. -/
def powMod (m : Nat) (b e : Nat) : Nat → Nat → Nat
  | 0, acc => acc
  | n + 1, acc =>
    let a2 := acc * acc % m
    powMod m b e n (if e.testBit n then a2 * b % m else a2)

/-- The inverse modulo a prime. -/
def invMod (m x : Nat) : Nat := powMod m (x % m) (m - 2) 384 1

/-- The sum of two affine points; none is the point at infinity. -/
def ecAdd : Option (Nat × Nat) → Option (Nat × Nat) → Option (Nat × Nat)
  | none, q => q
  | p, none => p
  | some (x1, y1), some (x2, y2) =>
    if x1 = x2 ∧ (y1 + y2) % ecP = 0 then none
    else
      let l := if x1 = x2 then (3 * x1 * x1 + (ecP - 3)) * invMod ecP (2 * y1) % ecP
        else (y2 + ecP - y1) * invMod ecP (x2 + ecP - x1) % ecP
      let x3 := (l * l + 2 * ecP - x1 - x2) % ecP
      some (x3, (l * (x1 + ecP - x3) + ecP - y1) % ecP)

/-- Scalar multiple by the low `n` bits of `k`. -/
def ecMulBits (k : Nat) (p : Option (Nat × Nat)) : Nat → Option (Nat × Nat) → Option (Nat × Nat)
  | 0, acc => acc
  | n + 1, acc =>
    let d := ecAdd acc acc
    ecMulBits k p n (if k.testBit n then ecAdd d p else d)

/-- Scalar multiple. -/
def ecMul (k : Nat) (p : Option (Nat × Nat)) : Option (Nat × Nat) := ecMulBits k p 384 none

/-- A point on the curve. -/
def ecOn (q : Nat × Nat) : Bool :=
  decide (q.1 < ecP ∧ q.2 < ecP ∧ q.2 * q.2 % ecP = (q.1 * q.1 * q.1 + (ecP - 3) * q.1 + ecB) % ecP)

/-- ECDSA verification of a hash given as a number. -/
def ecdsaVerify (q : Nat × Nat) (z r s : Nat) : Bool :=
  if ecOn q && decide (0 < r ∧ r < ecN ∧ 0 < s ∧ s < ecN) then
    let w := invMod ecN s
    match ecAdd (ecMul (z * w % ecN) (some ecG)) (ecMul (r * w % ecN) (some q)) with
    | none => false
    | some (x, _) => decide (x % ecN = r)
  else false

/-- HMAC with SHA-384 (a key of at most 128 bytes). -/
def hmac384 (key msg : List Byte) : List Byte :=
  let k := key ++ List.replicate (128 - key.length) 0
  sha384 (k.map (· ^^^ 0x5C#8) ++ sha384 (k.map (· ^^^ 0x36#8) ++ msg))

/-- The nonce search of RFC 6979, with at most `n` tries. -/
def nonceSearch : Nat → List Byte → List Byte → Nat
  | 0, _, _ => 1
  | n + 1, k, v =>
    let v := hmac384 k v
    let t := natBE v
    if 0 < t ∧ t < ecN then t
    else
      let k := hmac384 k (v ++ [0x00#8])
      nonceSearch n k (hmac384 k v)

/-- The deterministic nonce of RFC 6979 for a 384-bit hash. -/
def nonce (d : Nat) (h : List Byte) : Nat :=
  let x := bytesBE 48 d ++ bytesBE 48 (natBE h % ecN)
  let v0 := List.replicate 48 0x01#8
  let k0 := List.replicate 48 0x00#8
  let k1 := hmac384 k0 (v0 ++ [0x00#8] ++ x)
  let v1 := hmac384 k1 v0
  let k2 := hmac384 k1 (v1 ++ [0x01#8] ++ x)
  nonceSearch 4 k2 (hmac384 k2 v1)

/-- ECDSA signature of a 48-byte hash (R377). -/
def ecdsaSign (d : Nat) (h : List Byte) : Nat × Nat :=
  let k := nonce d h
  match ecMul k (some ecG) with
  | none => (0, 0)
  | some (x, _) => (x % ecN, invMod ecN k * (natBE h + x % ecN * d) % ecN)

end Sys2Proof.Machine
end

