-- ==== Sys2Proof/Config.lean ====
section
/-! DEFINITION. The generation parameters (R4), the identity (R1), and the free values. -/

namespace Sys2Proof

/-- The generation parameters, fixed at synthesis (R4), and the die of each cluster (R5, R324). -/
structure Build where
  agents : Nat
  clusterSize : Nat
  clusters : Nat
  dies : Nat
  lanes : Nat
  contexts : Nat
  hubs : Nat
  tagEngines : Nat
  hkChannels : Nat
  /-- the die of cluster 0, 1, ...; a cluster that is not listed lies on the die of an even spread (log 5) -/
  clusterDie : List Nat
deriving DecidableEq, Repr

/-- The reference host (00_scope, The reference host). -/
def Build.reference : Build :=
  { agents := 4096, clusterSize := 16, clusters := 256, dies := 8, lanes := 48, contexts := 16,
    hubs := 2, tagEngines := 48, hkChannels := 512, clusterDie := [] }

/-- The cluster of an agent (R21). -/
def Build.clusterOf (b : Build) (agent : Nat) : Nat := agent / b.clusterSize

/-- The die of a cluster (R5). -/
def Build.dieOfCluster (b : Build) (c : Nat) : Nat := b.clusterDie.getD c (c * b.dies / b.clusters)

/-- The die of an agent (R5, R21). -/
def Build.dieOfAgent (b : Build) (agent : Nat) : Nat := b.dieOfCluster (b.clusterOf agent)

/-- The die of hub B; hub A lies on die 0 (R22). -/
def Build.hubBDie (b : Build) : Nat := if b.dies > 1 then b.dies / 2 else 0

/-- The ranges and constraints of R4. -/
def Build.wf (b : Build) : Bool :=
  decide (1 ≤ b.agents ∧ b.agents ≤ 4096 ∧ 1 ≤ b.clusterSize ∧ b.clusterSize ≤ 16
    ∧ 1 ≤ b.clusters ∧ b.clusters ≤ 256 ∧ 1 ≤ b.dies ∧ b.dies ≤ 8
    ∧ b.lanes ∈ [16, 32, 48, 64] ∧ b.contexts ∈ [4, 8, 16] ∧ b.hubs ∈ [1, 2]
    ∧ 1 ≤ b.tagEngines ∧ b.tagEngines ≤ 64 ∧ 16 ≤ b.hkChannels ∧ b.hkChannels ≤ 512
    ∧ b.agents ≤ b.clusterSize * b.clusters
    ∧ b.clusters = (b.agents + b.clusterSize - 1) / b.clusterSize
    ∧ b.dies ≤ b.clusters ∧ (b.dies > 1 → b.hubs = 2))

/-- ID_REV of the device this model describes (R1). -/
def idRev : W32 := 0x7A34C210#32

/-- The value of the I3C GETSTATUS word, which R398 answers and does not define (log 9). -/
opaque Config.freeStatus : Nat → BitVec 16

/-- The task id of a FAIL whose account was never stored: the message carries none (R177, R200; log 11). -/
opaque Config.freeTask : Nat → BitVec 32

/-- How the stream number is written in the first chain element: R374 gives no width (log 4). -/
opaque Config.streamBytes : Nat → List Byte

/-- The value of a set LATE byte, which R376 places and does not define (log 4). -/
opaque Config.lateByte : Nat → Byte

/-- The housekeeping channel that KIND 0x2A names: R204 gives its group only (log 4). -/
opaque Config.kclkChannel : BitVec 9

/-- The normalised margin of a count where R307 has no die temperature or no positive expected count (log 4). -/
opaque Config.freeMargin : Nat → Nat

/-- The bytes of an item of the state digest after its code: R280 gives no width for keys and values (log 4). -/
opaque Config.itemBytes : Nat → Nat → Nat → List Byte

/-- The mandatory data byte of the in-band interrupt: the DMTF binding assigns it (R398; log 4). -/
opaque Config.mctpMdb : Byte

/-- A completion code that R401 and R402 do not give, by the request's argument (log 4). -/
opaque Config.freeCompletion : Nat → Byte

/-- A byte of a packet's payload in the agent image, which the loader builds from the harness: no rule gives its layout (log 103). -/
opaque Config.imageByte : List W32 → Nat → Nat → Byte

/-- A byte of the static parameters and ODD_M in a save image, from the words of the records, ODD_M by cluster and job, and the
bound parameters of each envelope: R370 gives the section's length only (log 102). -/
opaque Config.paramByte : List (List W32) → List (Nat × Nat × Nat) → List (List Nat) → Nat → Byte

/-- The depth of the lane input queue in lane operations, of which R68 and R87 speak and which no rule gives (log 82). -/
opaque Config.laneQueue : Nat

/-- The 200 payload bits of a cross-link frame, by its TYPE and its content: R269 gives them a meaning per TYPE and no layout
(log 4). -/
opaque Config.framePayload : Byte → List Nat → BitVec 200

/-- The next value of a MISR, from its value and a response word: R249 gives its width and no polynomial (log 89). -/
opaque Config.misrNext : BitVec 32 → BitVec 32 → BitVec 32

/-- The 16 entries of the trim table of the fall-back oscillator: R309 gives their temperatures and not their codes (log 94). -/
opaque Config.trimTable : Nat → Int

/-- The length of a message whose form DMTF's texts give: an event of a class other than the CPER event (R404), an answer by its kind
(R401, R402; log 114). -/
opaque Config.messageBytes : Nat → Nat

/-- The bytes of the CPER event header in front of a daily (R412, its example; log 4). -/
opaque Config.cperHeader : Nat → Byte

end Sys2Proof
end

