-- ==== Sys2Proof/Machine/State.lean ====
section
/-! DEFINITION. The state of the block as plain data: every register, buffer, counter, mode and pin the spec gives it. -/

namespace Sys2Proof.Machine

/-- Why the machine stops: raised only by the host's breaking a "must" for which no rule states what Lenvi does
(R6). Safe: nothing is claimed about the hardware there. -/
inductive Fault where
  /-- Raised by a tile-port, vector or tag-port beat whose fields lie outside the bounds that the named rule sets (R421, R423, R428). Safe. -/
  | hostContract (rule : Nat)
deriving DecidableEq, Repr

/-- Why a command has no meaning here. -/
inductive Refusal where
  /-- Raised by an arm of `exec` whose command has no meaning yet. Safe. -/
  | notModelled (mnemonic : String)
deriving DecidableEq, Repr

/-! ### The fault network -/

/-- A fault message or reel entry (R200), without its CRC, which is computed. -/
structure Msg where
  source : BitVec 16 := 0
  kind : Byte := 0
  sev : BitVec 3 := 0
  dropped : Bool := false
  injected : Bool := false
  twin : Bool := false
  again : Bool := false          -- REPEAT
  ovr : Bool := false           -- OVERRIDE
  addr : Addr := 0
  job : Job := 0
  stamp : BitVec 24 := 0
  seq : Byte := 0
deriving DecidableEq, Repr

/-- A message in a queue, with the hubs it is still to reach and its bad receptions at this hop (R23, R203). -/
structure QEntry where
  msg : Msg := {}
  toA : Bool := true
  toB : Bool := true
  bad : Nat := 0
  /-- time of its arrival in this queue (R216, R217) -/
  at_ : Nat := 0
deriving DecidableEq, Repr

/-- A queue of the fault network (R218 to R220, R233). -/
structure Queue where
  ordinary : List QEntry := []
  reserved : List QEntry := []
  /-- a relaying unit's own severe messages (R219) -/
  own : List QEntry := []
  /-- jobs whose S2 messages were merged, with the first of each (R219) -/
  merged : List (Nat × Msg) := []
  droppedBefore : Bool := false
  droppedS0 : W32 := 0
  droppedS1 : W32 := 0
  mergedS2 : W32 := 0
  hopResends : W32 := 0
  /-- the SEQ of the unit's next message (R202) -/
  seq : Byte := 0
deriving DecidableEq, Repr

/-! ### Agents -/

/-- The audit unit of a retake context on one tap: payload bits since the last audit beat, low bits first (R181). -/
structure AuditTap where
  value : Nat := 0
  len : Nat := 0
deriving DecidableEq, Repr

/-- The audit of a retake run (R181). -/
structure Audit where
  tapA : AuditTap := {}
  tapB : AuditTap := {}
  blocks : Nat := 0
  bad : Bool := false
  missing : Bool := false        -- any condition of NONE
  cycle : Nat := 0
  cycleBytes : Nat := 0
deriving DecidableEq, Repr

/-- Context states (R63, Stream orders). FREE is the absence of a context. -/
inductive CtxState where
  | armed | accumulating | awaiting
deriving DecidableEq, Repr

/-- Outcomes of a task (R29). -/
inductive Outcome where
  | pass | fail | inconclusive | passEmpty | sampledOut | uncheckedOrder | uncheckedContext | uncheckedOversize
deriving DecidableEq, Repr

/-- A verdict of the residue engine (R45, R89). -/
inductive Verdict where
  | pass | fail | inconclusive
deriving DecidableEq, Repr

/-- The state of a WPC task's cache entry (R72). -/
inductive CacheState where
  | none | waiting | accepted | rejected
deriving DecidableEq, Repr

/-- An unsigned floating value significand · 2^exp of the bounded reducer (R100). -/
structure UFloat where
  sig : Nat := 0
  exp : Int := 0
deriving DecidableEq, Repr

/-- B elements that stream while a cache entry is in use: what the lanes form from them, for the case that the entry is
rejected (R72). -/
structure BSide where
  r : SMap Int := ⟨[]⟩
  h : SMap Int := ⟨[]⟩
  seen : SMap Bool := ⟨[]⟩
  trunc : W32 := 0
  reasons : List Nat := []
  nonfinite : Bool := false
  /-- the newest panel of each member, the cycle after the last element of each panel, and the cycle of the last element, of A
  and B elements alone (R66, R97) -/
  newest : SMap Nat := ⟨[]⟩
  panelEnd : SMap Nat := ⟨[]⟩
  lastOp : Nat := 0
  /-- the reason with which the A and B elements depart from their order, if they do -/
  bad : Option Nat := none
deriving DecidableEq, Repr

/-- A context of an agent (R63 to R68, R90 to R103, R181). -/
structure Ctx where
  id : Nat := 0
  handle : BitVec 5 := 0
  desc : BitVec 256 := 0
  /-- the launched step of its job, if any (R170) -/
  step : Option W64 := none
  epoch : Nat := 0
  bounded : Bool := false
  state : CtxState := .armed
  fill : Bool := false
  /-- tile cycle of acceptance (R50) -/
  cyc : Nat := 0
  /-- the retake record it serves (R179) -/
  retake : Option Nat := none
  crcGood : Bool := true
  audit : Audit := {}
  nA : Nat := 0
  nB : Nat := 0
  nC : Nat := 0
  nPrj : Nat := 0
  /-- operand elements that have arrived, by member and coordinates (output-stationary, R66) -/
  seenA : SMap Bool := ⟨[]⟩
  seenB : SMap Bool := ⟨[]⟩
  /-- members, or panels of members, of which an A element has arrived (R67, R68) -/
  begunA : SMap Bool := ⟨[]⟩
  /-- members, or rows of members, of which a C element has arrived (R66, R67) -/
  begunC : SMap Bool := ⟨[]⟩
  /-- the newest panel of each member (R66) -/
  newest : SMap Nat := ⟨[]⟩
  /-- the cycle after the last operand element of each panel (R97) -/
  panelEnd : SMap Nat := ⟨[]⟩
  /-- P, G, R, H by member and index (R74, R90); in the exact personality P and R hold residues -/
  p : SMap Int := ⟨[]⟩
  g : SMap Int := ⟨[]⟩
  r : SMap Int := ⟨[]⟩
  h : SMap Int := ⟨[]⟩
  s : Int := 0
  t : Int := 0
  gam : UFloat := {}
  gMax : Int := 0
  hMax : Int := 0
  tA : W32 := 0
  tB : W32 := 0
  tC : W32 := 0
  /-- INCONCLUSIVE reasons seen (R103), lowest first -/
  reasons : List Nat := []
  operandNonfinite : Bool := false
  poison : Bool := false
  cache : CacheState := .none
  /-- B elements beside a cache entry (R72) -/
  bside : BSide := {}
  /-- cycle of the last operand element (R97) -/
  lastOp : Nat := 0
  /-- lane operations that wait in the lane input queue after its last beat, in units of its demand's denominator, and the
  cycle of that beat (R68) -/
  backlog : Nat := 0
  beatAt : Nat := 0
  /-- its place in the order in which the agent's contexts became AWAITING (R83) -/
  awaitNo : Nat := 0
  /-- handed off, in the present slice rotation (R83) -/
  handed : Bool := false
  /-- the count result of R76 -/
  countError : Bool := false
  /-- ended FAIL without a verdict (R31, R32, R77, R88) -/
  ended : Bool := false
  /-- it ended so at a fence (R187) -/
  fenced : Bool := false
  /-- the abort of its job has reached it (R174) -/
  aborted : Bool := false
  /-- its commit range waits for the gate in AWAITING (R173) -/
  held : Bool := false
  /-- the gate of its step has opened while its agent is fenced (R174, R196) -/
  opened : Bool := false
  /-- waits for the hub's settle or poison order (R182) -/
  waiting : Bool := false
deriving DecidableEq, Repr

/-- A task that the agent does not check, until its last C element (R28, R420). -/
structure Unchecked where
  desc : BitVec 256 := 0
  outcome : Outcome := .sampledOut
  reason : Nat := 0
  step : Option W64 := none
  retake : Option Nat := none
  poison : Bool := false
  /-- the abort of its job has reached it (R174) -/
  aborted : Bool := false
  /-- the epoch of its agent or context (R391) -/
  epoch : Nat := 0
  /-- a retake's descriptor has the CRC-32C of its record (R179) -/
  crcGood : Bool := true
deriving DecidableEq, Repr

/-- What a bound handle stands for (R420). -/
inductive Bound where
  | ctx (id : Nat)
  | task (u : Unchecked)
deriving DecidableEq, Repr

/-- A presentation on the commit channel (R418, R424). -/
structure Cmt where
  poison : Bool := false
  job : Job := 0
  base : Addr := 0
  count : BitVec 16 := 0
deriving DecidableEq, Repr

/-- A range of a gate list (R173). -/
structure GateRange where
  job : Job := 0
  /-- none before the job's first launch (R170) -/
  step : Option W64 := none
  base : Nat := 0
  count : Nat := 0
  /-- its gate has opened while the agent is fenced (R174, R196) -/
  opened : Bool := false
deriving DecidableEq, Repr

/-- An operation of the stand-in control channel (R426). -/
structure ScOp where
  op : Nat := 0
  data : BitVec 96 := 0
  record : Nat := 0
  /-- nothing waits for its acknowledgement any more; it stays presented until that comes (R426) -/
  stale : Bool := false
deriving DecidableEq, Repr

/-- An open vector group (R148 to R153, R479, R481). -/
structure Group where
  head : BitVec 110 := 0
  judged : Bool := true
  gated : Bool := false
  hasRecord : Bool := true
  stepGated : Bool := false
  /-- its range has been presented already (fence) -/
  settled : Bool := false
  step : Option W64 := none
  rowsDone : Nat := 0
  rowElems : Nat := 0
  nonfinite : Nat := 0
  failed : List Nat := []
  rowNonfinite : Bool := false
  rowBig : Bool := false
  sum : Int := 0
  sumSq : Int := 0
  /-- the running statistic Y of the largest finite magnitude, if any (R154) -/
  stat : Option Int := none
  poison : Bool := false
  complete : Bool := false
  /-- parameters of its class bound at the header (R162) -/
  params : List W32 := []
  /-- the abort of its job has reached it (R174) -/
  aborted : Bool := false
deriving DecidableEq, Repr

/-- A summary (R158). -/
structure Summary where
  job : Job := 0
  step : Option W64 := none
  vclass : Nat := 0
  stat : Option Int := none
  failed : List Nat := []
  running : Bool := false
  /-- its group ended with a poison: it never leaves the count of R172 -/
  poisoned : Bool := false
deriving DecidableEq, Repr

/-- The class counters of an agent (R82). -/
structure ClassCtr where
  checked : W32 := 0
  inconclusive : W32 := 0
  passEmpty : W32 := 0
  sampledOut : W32 := 0
  unchecked : W32 := 0
  macsChecked : BitVec 48 := 0
  macsAll : BitVec 48 := 0
deriving DecidableEq, Repr

/-- A choice count for a job and step (R354). -/
structure ChoiceCount where
  job : Job := 0
  step : Option W64 := none
  n : Nat := 0
deriving DecidableEq, Repr

/-- An epoch key as an agent holds it (R57). -/
structure EpochKey where
  epoch : Nat := 0
  key : W64 := 0
deriving DecidableEq, Repr

/-- A verdict on its way back to the agent (R84). -/
structure VerdictMsg where
  ctx : Nat := 0
  verdict : Verdict := .pass
  reason : Nat := 0
  storeFull : Bool := false
deriving DecidableEq, Repr

/-- A tile agent (R26, R473). -/
structure Agent where
  fence : Bool := false
  fenceReq : Bool := false
  fenceAck : Bool := false
  /-- time of the last edge of FENCE_REQ, and whether its bound has been missed (R425) -/
  fenceSince : Nat := 0
  fenceLate : Bool := false
  boundedSram : Bool := false
  retired : List Nat := []
  /-- when each lane last ran its known-answer vector, and the lanes that are withdrawn from admission for one, with the tile
  cycle at which it begins (R87) -/
  katLast : SMap Nat := ⟨[]⟩
  withdrawn : List (Nat × Nat) := []
  unitFailed : Bool := false
  /-- lanes whose self-check a failed fill has called for (R70) -/
  katDue : List Nat := []
  /-- the built LANES and CONTEXTS it reported where they differ from the build (R324, R473) -/
  oddBuild : Option W32 := none
  /-- the next place in the order of becoming AWAITING (R83) -/
  awaitCtr : Nat := 0
  keys : List EpochKey := []
  announced : Option (EpochKey × W64) := none
  epoch : Nat := 0
  regionKeys : Bool := false
  zeroised : Bool := false
  bound : SMap (List Bound) := ⟨[]⟩
  ctxs : List Ctx := []
  cmt : List Cmt := []
  gates : List GateRange := []
  sc : List ScOp := []
  scWaitFall : Bool := false
  retakeBind : Option Nat := none
  po : List W32 := []
  paddock : Bool := false
  groups : SMap (Option Group) := ⟨[]⟩
  summaries : List Summary := []
  verdicts : List VerdictMsg := []
  queue : Queue := {}
  steps : SMap (Option W64) := ⟨[]⟩
  choices : List ChoiceCount := []
  ring : SMap W64 := ⟨[]⟩
  ringHead : W32 := 0
  ringLost : W32 := 0
  /-- every place of the ring has been written: each further entry overwrites one (R81) -/
  ringFull : Bool := false
  groupRing : SMap (BitVec 128) := ⟨[]⟩
  groupRingHead : W32 := 0
  lastPass : W64 := 0
  lostAtPass : W32 := 0
  incl : SMap W32 := ⟨[]⟩
  groupsJudged : W32 := 0
  groupsUnchecked : W32 := 0
  runSkipped : W32 := 0
  failBits : SMap W32 := ⟨[]⟩
  tapStray : W32 := 0
  commitLate : W32 := 0
  paddockGaps : W32 := 0
  classes : SMap ClassCtr := ⟨[]⟩
  allocated : Nat := 0
  lowRounds : Nat := 0
  margin : Nat := 0
  /-- a reading of its monitors has been taken -/
  measured : Bool := false
  image : W64 := 0
  secReq : Bool := false
  secClr : Bool := false
  tileClr : Bool := false
  scanEnable : Bool := false
deriving DecidableEq, Repr

/-! ### Concentrators -/

/-- A handed-off context in the residue engine (R83, R101). -/
structure Handed where
  agent : Nat := 0
  ctx : Ctx := {}
deriving DecidableEq, Repr

/-- Audit results (R181, R189). -/
inductive AuditResult where
  | none | ok | bad
deriving DecidableEq, Repr

/-- A task's account (R177). -/
structure Account where
  task : W32 := 0
  job : Job := 0
  base : Addr := 0
  count : BitVec 16 := 0
  step : Option W64 := none
  epoch : Nat := 0
  bounded : Bool := false
  agent : Nat := 0
  crc : W32 := 0
  retake : Option Nat := none
  verdict : Verdict := .fail
  reason : Nat := 0
  /-- it carries s and t, and tau in the bounded personality -/
  scalars : Bool := true
  s : Int := 0
  t : Int := 0
  tau : Nat := 0
  audit : AuditResult := .none
  crcGood : Bool := true
  /-- time of the FAIL or the verdict (R180) -/
  since : Nat := 0
  /-- it ended at a fence: its run draws no placement (R187) -/
  excused : Bool := false
  /-- the abort of its job has poisoned its range (R174) -/
  aborted : Bool := false
deriving DecidableEq, Repr

/-- A running envelope (R155 to R157). -/
structure Envelope where
  mu : Int := 0
  var : Int := 0
  steps : Nat := 0
  k16 : Nat := 0
  clean : Nat := 0
  n : Nat := 0
  sy : Int := 0
  syy : Int := 0
  excursion : Bool := false
  /-- K16, ALPHA, WARM, SIGMA_MIN in force (R157, R391) -/
  k16Base : Nat := 128
  alpha : Nat := 4
  warm : Nat := 4
  sigmaMin : Nat := 16
deriving DecidableEq, Repr

/-- A concentrator's counts of one job (R159, R160, R164). -/
structure ConcJob where
  excStep : Nat := 0
  agentMask : BitVec 16 := 0
  oddSent : Bool := false
  excTotal : W32 := 0
  oddEvents : W32 := 0
  inconclusive : W32 := 0
  /-- tasks of the job that ended PASS_EMPTY (R29) -/
  passEmpty : W32 := 0
  /-- ODD_M bound at the job's last launch pulse; none before its first (R391) -/
  oddM : Option Nat := none
deriving DecidableEq, Repr

/-- A dispatch round at the sender's ledger home (R144). -/
structure SendRound where
  job : Job := 0
  round : BitVec 16 := 0
  expected : Nat := 0
  total : Nat := 0
deriving DecidableEq, Repr

/-- Tasks and groups without an outcome, by job and step (R172). -/
structure OpenCount where
  job : Job := 0
  step : W64 := 0
  n : Nat := 0
deriving DecidableEq, Repr

/-- A concentrator (R26, R474). -/
structure Conc where
  /-- secrets-cleared request and indication (R248) -/
  secReq : Bool := false
  secClr : Bool := false
  enabledMask : BitVec 16 := 0
  maskSent : BitVec 16 := 0
  pointer : Nat := 0
  engine : List Handed := []
  accounts : List Account := []
  /-- FAILs of original tasks that found the store full, until the hub has ended them DENIED (R177) -/
  refused : List Account := []
  queue : Queue := {}
  env : SMap Envelope := ⟨[]⟩
  /-- ODD_M of the accepted harness, in force for a job before its first launch pulse (R391) -/
  oddFirst : Nat := 8
  jobs : SMap ConcJob := ⟨[]⟩
  opens : List OpenCount := []
  rounds : List SendRound := []
deriving DecidableEq, Repr

/-! ### Tag engines -/

/-- Memory operations of R129. -/
inductive MemOp where
  | checked | plain | expect | poison | external | part | read
deriving DecidableEq, Repr

/-- A stream bound at a tag engine (R129, R429). -/
structure Stream where
  op : MemOp := .read
  /-- base of the block, or the address of untagged traffic -/
  addr : Nat := 0
  job : Job := 0
  expected : Nat := 0
  /-- byte offsets of a WRITE_PARTIAL -/
  first : Nat := 0
  final : Nat := 0
  whole : Bool := true
  untagged : Bool := false
  /-- content residue so far, of the new and of the old bytes -/
  d : Nat := 0
  dOld : Nat := 0
  bytes : Nat := 0
  bytesOld : Nat := 0
  beats : Nat := 0
  /-- its last beat has come -/
  closed : Bool := false
  poison : Bool := false
  /-- two writers, a reused id or a 65th stream: the block is poisoned when the stream closes -/
  broken : Bool := false
  /-- a commit came while the stream was open (R130) -/
  commitAtClose : Bool := false
  /-- a commit of the block took effect while the read was under way (R130) -/
  committed : Bool := false
  /-- the sidecar word, once it is there: word, and whether it is bad -/
  word : Option (W32 × Bool) := none
  requested : Bool := false
  /-- held at PENDING, and made stale by a retake's rewrite (R131, R168) -/
  held : Bool := false
  stale : Bool := false
  /-- the step of its job at acceptance (R367) -/
  step : W64 := 0
deriving DecidableEq, Repr

/-- What a sidecar request is for (R431). -/
inductive SidePurpose where
  /-- the stream that asked for it has ended -/
  | ended
  | readWord (stream : Nat)
  | partRead (stream : Nat)
  | tagWrite
  | poisonWrite
  | commitRead (entry : Nat)
  | commitWrite (entry : Nat)
deriving DecidableEq, Repr

/-- An outstanding sidecar request (R428, R431). -/
structure SideReq where
  id : Nat := 0
  addr : Nat := 0
  write : Bool := false
  data : W32 := 0
  purpose : SidePurpose := .poisonWrite
  /-- the block whose word it is, and the job it serves -/
  block : Nat := 0
  job : Job := 0
  since : Nat := 0
  /-- timed out; the id stays held until its completion -/
  late : Bool := false
deriving DecidableEq, Repr

/-- A range in the commit buffer (R130). -/
structure CommitEntry where
  key : Nat := 0
  base : Nat := 0
  count : Nat := 0
  job : Job := 0
  /-- the first block whose sidecar word has not been rewritten, by index -/
  next : Nat := 0
  /-- indices of blocks that need no rewrite -/
  skip : List Nat := []
deriving DecidableEq, Repr

/-- A flow of a receive round (R143, R145). -/
structure Flow where
  src : BitVec 16 := 0
  next : Nat := 0
  last : Bool := false
  /-- The flow's sequence has failed: all its blocks are poisoned, those to come too (R145). -/
  failed : Bool := false
  blocks : List Addr := []
  /-- The block that the flow's last packet left partly filled: its base, its bytes so far, their content residue. -/
  part : Option (Nat × Nat × Nat) := none
deriving DecidableEq, Repr

/-- A dispatch round at a receiving engine (R145). -/
structure RecvRound where
  job : Job := 0
  round : BitVec 16 := 0
  base : Addr := 0
  count : Nat := 0
  flowsExpected : Nat := 0
  flows : List Flow := []
  poisoned : List Addr := []
deriving DecidableEq, Repr

/-- An expected residue being formed for a destination block (R132). -/
structure DestForm where
  dest : Addr := 0
  d : Nat := 0
  poison : Bool := false
  crossKey : Bool := false
deriving DecidableEq, Repr

/-- The payload residue of the link packet that a LINK engine forms (R133). -/
structure PayloadForm where
  /-- a source part has been taken -/
  started : Bool := false
  /-- its digits are LINEAR32 elements -/
  linear : Bool := false
  d : Nat := 0
  poison : Bool := false
deriving DecidableEq, Repr

/-- A tag engine (R127 to R147, R475). -/
structure Engine where
  streams : SMap (Option Stream) := ⟨[]⟩
  side : List SideReq := []
  /-- poison words that wait for a free id -/
  sideWait : List SideReq := []
  commits : List CommitEntry := []
  waitCommits : List CommitEntry := []
  nextKey : Nat := 0
  rounds : List RecvRound := []
  forms : List DestForm := []
  payload : PayloadForm := {}
  queue : Queue := {}
  ctr : SMap W32 := ⟨[]⟩
deriving DecidableEq, Repr

/-! ### Die links -/

/-- A die-link end (R329, R348, R475). -/
structure LinkEnd where
  lanes : Nat := 0
  tries : Nat := 0
  down : Bool := false
  retraining : Bool := false
  retrains : W32 := 0
  /-- times of the newest 256 resends over the link from this end, the newest first (R348) -/
  resentAt : List Nat := []
  queue : Queue := {}
deriving DecidableEq, Repr

/-! ### Hubs -/

/-- HUB_STATE.STATE (R459). -/
inductive HubSt where
  | off | bringup | ready | run | degraded | saved | wrap | stopped | failedBringup
deriving DecidableEq, Repr

/-- The state of one source at one hub (R197, R212, R232). -/
structure Source where
  fault : Bool := false
  lame : Bool := false
  bucket : Nat := 0
  recovery : Nat := 0
  quietSince : Nat := 0
  /-- an injection is outstanding, with its DRY_RUN -/
  injection : Option Bool := none
  /-- time of the force write (R232) -/
  injAt : Nat := 0
  lastSeq : Option Byte := none
deriving DecidableEq, Repr

/-- Paddock entry states (R243). -/
inductive PadState where
  | watch | due | testing | deferred
deriving DecidableEq, Repr

/-- A paddock entry (R235, R241, R243). -/
structure PadEntry where
  valid : Bool := false
  agent : Nat := 0
  tile : Bool := false
  agentSus : Bool := false
  state : PadState := .watch
  clean : Nat := 0
  events : Nat := 0
  cause : Nat := 0
  gap : Bool := false
  dirty : Bool := false
  /-- due time on the step clock -/
  due : Nat := 0
deriving DecidableEq, Repr

/-- The RW registers of a hub (R460, R467, R469, R471, R472, R476, R314, R396). -/
structure Regs where
  arg0 : W32 := 0
  arg1 : W32 := 0
  arg2 : W32 := 0
  arg3 : W32 := 0
  harnessAddrLo : W32 := 0
  harnessAddrHi : W32 := 0
  harnessLen : W32 := 0
  forceCtrl : W32 := 0x00100000#32
  forceAddrLo : W32 := 0
  forceAddrHi : W32 := 0
  srcSel : W32 := 0
  gateSel : W32 := 0
  slateSel : W32 := 0
  tccSel : W32 := 0
  bandSel : W32 := 0
  bandLo : W32 := 0
  bandHi : W32 := 0
  indSel : W32 := 0
  indAddr : W32 := 0
  reelSel : W32 := 0
  bootCtl : W32 := 1
  bootLocked : Bool := false
  slate : SMap W32 := ⟨[]⟩
deriving DecidableEq, Repr

/-- The thermal state of a die (R298). -/
structure DieThermal where
  ask : Bool := false
  req : Nat := 0
  curb : Nat := 0
  graceEnd : Nat := 0
  /-- what the hub broadcast at the start of the last round: the die temperature, and the sum and number of the die's fresh
  CORE rails, in mV (R296, R307) -/
  temp : Option Int := none
  rails : Nat × Nat := (0, 0)
  /-- T_WARN − T_HYST as the last round had it: a hot update takes effect at the next one (R297) -/
  release : Option Int := none
deriving DecidableEq, Repr

/-- A housekeeping channel (R294, R295, R303). -/
structure Channel where
  value : BitVec 16 := 0
  /-- a sample has come since the last round -/
  arrived : Bool := false
  /-- the last round took a fresh sample -/
  fresh : Bool := false
  missed : Nat := 0
  stale : Bool := false
  /-- bus conditions in force and when each was last present (R303) -/
  lowHigh : Bool := false
  lowHighAt : Nat := 0
  droop : Bool := false
  droopAt : Nat := 0
  collapse : Nat := 0
  /-- time of the last sample of the bus watch -/
  busAt : Nat := 0
  ring : List (BitVec 16) := []
  ringStamp : W64 := 0
deriving DecidableEq, Repr

/-- A snapshot of the bus watch (R305). -/
structure Snapshot where
  chan : Nat := 0
  /-- step-clock count of its newest sample, and the time of the snapshot -/
  stamp : W64 := 0
  taken : Nat := 0
  samples : List (BitVec 16) := []
deriving DecidableEq, Repr

/-- A job entry of a daily (R410). -/
structure DailyJob where
  job : Job := 0
  earliest : W64 := 0
  latest : W64 := 0
deriving DecidableEq, Repr

/-- A daily (R406 to R411): the fields of its Lenvi section. -/
structure Daily where
  seq : W32 := 0
  /-- DAILY_SEQ: dailies built before it since READY -/
  number : W32 := 0
  trigger : Msg := {}
  stepClock : W64 := 0
  state : Nat := 0
  twin : Nat := 0
  duplicate : Bool := false
  snapshot : Option Snapshot := none
  touchedComplete : Bool := false
  droppedBefore : Bool := false
  jobs : List DailyJob := []
  recovery : Nat := 0
  bucket : Nat := 0
  paddock : W64 := 0
  lastPass : W64 := 0
  lostAtPass : W32 := 0
  ringLost : W32 := 0
  failClock : W64 := 0
  temps : List (BitVec 16) := []
  curb : W32 := 0
  margin : Nat := 0
  context : List Msg := []
  /-- being sent, or sent without an observed acknowledgement (R412) -/
  sending : Bool := false
deriving DecidableEq, Repr

/-- A hub (R26). -/
structure Hub where
  st : HubSt := .off
  srcs : SMap Source := ⟨[]⟩
  lameSinceReady : Bool := false
  s4 : Bool := false
  /-- fence orders in force, by agent, with the time of the order (R228) -/
  fences : List (Nat × Nat) := []
  sticky : SMap W32 := ⟨[]⟩
  reel : SMap Msg := ⟨[]⟩
  reelHead : W32 := 0
  /-- entries written before READY, from which REEL_HEAD and the slots count (R476) -/
  reelBase : W32 := 0
  reelWraps : W32 := 0
  reelStopped : W32 := 0
  afterS4 : Option Nat := none
  tailA : SMap Msg := ⟨[]⟩
  tailB : SMap Msg := ⟨[]⟩
  ctr : SMap W32 := ⟨[]⟩
  intake : Queue := {}
  paddock : SMap PadEntry := ⟨[]⟩
  aborted : List Nat := []
  /-- FAILs that the hub has accepted as the follower and whose record the leader has not opened (R275, R482) -/
  fails : List Msg := []
  regs : Regs := {}
  irq : W32 := 0
  thrEvt : W32 := 0
  thermal : SMap DieThermal := ⟨[]⟩
  chans : SMap Channel := ⟨[]⟩
  snaps : List Snapshot := []
  roundMs : Nat := 0
  /-- time of the last round -/
  roundAt : Nat := 0
  busWatch : Bool := false
  fallback : Bool := false
  badKclk : Nat := 0
  /-- the offset measured at stage 7, and the oscillator's trim code (R309) -/
  oscOffset : Int := 0
  trim : Int := 0
  reconcile : SMap Nat := ⟨[]⟩
  /-- it has erased its secrets (R248): its copy of `State.keys` reads as `State.hubKeys` says -/
  zeroised : Bool := false
  secReq : Bool := false
  secClr : Bool := false
  selfTest : Bool := true
  actionDisagree : W32 := 0
  digestMismatches : W32 := 0
  xlinkBadFrames : W32 := 0
  /-- consecutive cuts that ended in mismatch, and a merge under way (R281) -/
  digestMiss : Nat := 0
  merging : Bool := false
  dailies : List Daily := []
  dailiesBuilt : W32 := 0
  /-- dailies built before READY, from which DAILY_SEQ counts (R410) -/
  dailyBase : W32 := 0
  dailiesSent : W32 := 0
  dailiesDropped : W32 := 0
  dailyDropped : Bool := false
  mctpDiscarded : W32 := 0
  harnessSts : W32 := 0
  harnessOver : W32 := 0
  odd : Byte := 0
deriving DecidableEq, Repr

/-! ### State kept once: the leader's serialised state, mirrored by the follower (R275) -/

/-- What the command in progress does once the follower consents (R276). -/
inductive CmdAct where
  | start | loadHarness | run | save | restore (image : SaveImage) | clearSource
  /-- BAND_SEL, BAND_LO and BAND_HI as the command found them -/
  | setBand (sel lo hi : W32)
  | signOpen (weights : List (List W32))
  | sign
  | launchAt
  /-- the words of the update as each hub has read them -/
  | hotUpdate (wordsA wordsB : List W32)
  | replay (recorded : List InlogEntry)
deriving DecidableEq, Repr

/-- HUB_CMD_STS and the command in progress (R460, R461). -/
structure Cmd where
  tag : Byte := 0
  op : Nat := 0
  code : Nat := 0
  overrun : Bool := false
  at_ : Nat := 0
  refusedCnt : W32 := 0
  arg0 : W32 := 0
  arg1 : W32 := 0
  arg2 : W32 := 0
  arg3 : W32 := 0
  /-- what it does, while it waits for the follower's consent -/
  act : Option CmdAct := none
deriving DecidableEq, Repr

/-- A call-sheet record (R321). -/
structure StageRec where
  stage : Nat := 0
  cause : Nat := 0
  status : Nat := 0
  good : Nat := 0
  bad : Nat := 0
  duration : Nat := 0
  started : Nat := 0
deriving DecidableEq, Repr

/-- The items taken from the key port and what is derived from them (R325, R116, R373). -/
structure Keys where
  grade : W32 := 0
  chipId : W64 := 0
  checkRoot : List Byte := []
  tagRoot : List Byte := []
  signSeed : List Byte := []
  harnessAuth : List Byte := []
  kcv : W32 := 0
  addrKey : W64 := 0
  regions : List Nat := []
  signKey : Nat := 0
  pubX : Nat := 0
  pubY : Nat := 0
deriving DecidableEq, Repr

/-- The key port (R438). -/
structure KeyPort where
  req : Bool := false
  item : Nat := 0
  beats : List Byte := []
  done : Nat := 0
  since : Nat := 0
deriving DecidableEq, Repr

/-- The accepted harness and its updates (R317, R392, R396). -/
structure Harness where
  located : Bool := false
  addr : Nat := 0
  len : Nat := 0
  accepted : Bool := false
  recs : List Rec := []
  digest : List W32 := []
  hotSeq : W32 := 0
  hotCount : W32 := 0
  /-- CHECK_CLASS records by epoch (R105) -/
  epochClasses : List (Nat × List Rec) := []
deriving DecidableEq, Repr

/-- A launched step whose gate has not opened (R360, R364, R469). -/
structure OpenStep where
  step : W64 := 0
  launchedAt : W64 := 0
  digest : W64 := 0
  ended : Bool := false
  answered : List Nat := []
  choices : Nat := 0
  /-- ports judged at the step, with their agreement (R360) -/
  judged : List (Nat × Bool) := []
  /-- input-log entries of the step, in log order (R366 to R368, R375) -/
  logEntries : List InlogEntry := []
deriving DecidableEq, Repr

/-- A mismatch record (R361). -/
structure Mismatch where
  reason : Nat := 0
  port : Nat := 0
  peerStep : W64 := 0
deriving DecidableEq, Repr

/-- A job as the hubs hold it (R356 to R364, R469 to R471). -/
structure JobSt where
  active : Bool := false
  slate : SMap W32 := ⟨[]⟩
  tcc : W64 := 0
  tccLive : W64 := 0
  pending : Option (W64 × BitVec 16) := none
  opens : List OpenStep := []
  /-- steps whose gate is open and whose GATE_OPEN the agents have not received (R174) -/
  opened : List W64 := []
  launchedOnce : Bool := false
  mask : BitVec 16 := 0
  /-- ports judged at the newest step (R360) -/
  judgedPorts : List Nat := []
  /-- the abort's FIFO entry is not yet popped -/
  abortHeld : Bool := false
  /-- an abort was raised since the last launch pulse (R137) -/
  abortRaised : Bool := false
  history : List (W64 × W64) := []
  mismatch : Option Mismatch := none
  digest : W64 := 0
  /-- its frozen ranges are enforced (R139) -/
  launched : Bool := false
  /-- an abort has ended the enforcement of its frozen ranges (R139, R195) -/
  thawed : Bool := false
deriving DecidableEq, Repr

/-- What the beacons of a slice carry (R359): the slate of the job whose most recent LAUNCH_AT named it, or the abort of that job
until a launch names the slice again. -/
inductive SliceHold where
  | free
  | job (n : Nat)
  | aborted (step : W64)
deriving DecidableEq, Repr

/-- An entry of the job abort FIFO (R469, R470). -/
structure AbortEntry where
  job : Job := 0
  kind : Byte := 0
  stamp : W64 := 0
deriving DecidableEq, Repr

/-- A run of a retake record (R185). -/
structure Run where
  agent : Nat := 0
  acked : Bool := false
  /-- time of the acknowledgement (R291) -/
  ackAt : Nat := 0
  /-- it ended without an account -/
  lost : Bool := false
  /-- it was fenced, timed out, or refused for its descriptor (R187) -/
  excused : Bool := false
  account : Option Account := none
deriving DecidableEq, Repr

/-- Where a retake record stands. -/
inductive RetPhase where
  | waitStandin | requested | running | decide
  /-- the leader has proposed the settling decision to the follower (R277) -/
  | proposed
  | settling | poisoning
deriving DecidableEq, Repr

/-- A retake record (R175 to R189). -/
structure Retake where
  used : Bool := false
  task : W32 := 0
  job : Job := 0
  base : Addr := 0
  count : BitVec 16 := 0
  step : Option W64 := none
  epoch : Nat := 0
  bounded : Bool := false
  crc : W32 := 0
  runs : List Run := []
  phase : RetPhase := .waitStandin
  /-- STAMP and SEQ of the FAIL, which the entries about the record carry (R202) -/
  cause : BitVec 24 × Byte := (0, 0)
  /-- time of the request, or of the decision -/
  since : Nat := 0
  /-- time of the FAIL, or of the previous run's verdict (R180) -/
  waitFrom : Nat := 0
  decision : Nat := 0
  /-- STAMP of the decision (R189) -/
  stamp : W32 := 0
deriving DecidableEq, Repr

/-- A retake log entry (R189). -/
structure RetakeLog where
  task : W32 := 0
  job : Job := 0
  decision : Nat := 0
  runs : Nat := 0
  blame1 : Nat := 0
  blame2 : Nat := 0
  blame3 : Nat := 0
  agent1 : Nat := 0
  agent2 : Nat := 0
  agent3 : Nat := 0
  audit2 : Nat := 0
  audit3 : Nat := 0
  bounded : Bool := false
  stamp : W32 := 0
deriving DecidableEq, Repr

/-- The epoch state of the hubs (R55 to R57, R460). -/
structure Epoch where
  cur : Nat := 0
  started : Bool := false
  since : Nat := 0
  announced : Bool := false
  next : Nat := 0
  act : W64 := 0
deriving DecidableEq, Repr

/-- A beacon port (R337, R344, R347, R437). -/
structure Port where
  seen : Nat := 0
  lastBytes : List Byte := []
  result : Nat := 0
  admitted : Bool := false
  entryPort : Nat := 0
  v1 : Bool := false
  width : Nat := 0
  peerChip : W64 := 0
  peerPort : Nat := 0
  slice : Nat := 0
  lastGood : Nat := 0
  /-- the result that would admit it, and its record's port, while the leader's proposal waits (R277, R346) -/
  offer : Option (Nat × Nat) := none
  /-- beacons held for the launch of their step, one for a job: job, STEP, SLATE -/
  held : List (Nat × W64 × W64) := []
  /-- BC_WIDTH as last seen -/
  bcWidth : Byte := 0
  /-- beacons presented that the host has not accepted yet, the oldest first (R445) -/
  tx : List (List Byte) := []
  lastSent : Nat := 0
deriving DecidableEq, Repr

/-- The input log (R366). -/
structure Inlog where
  head : W64 := 0
  wraps : W32 := 0
  waiting : List InlogEntry := []
deriving DecidableEq, Repr

/-- A replay and its report (R368, R471). -/
structure Replay where
  active : Bool := false
  liveJob : Job := 0
  recJob : Job := 0
  recorded : List InlogEntry := []
  diverged : Bool := false
  liveAbsent : Bool := false
  recAbsent : Bool := false
  byTcc : Bool := false
  step : W64 := 0
  liveCnt : W32 := 0
  recCnt : W32 := 0
  liveEntry : List W32 := []
  recEntry : List W32 := []
deriving DecidableEq, Repr

/-- A step element that waits for the commits of its gate opening to be reported (R375). -/
structure SignElem where
  step : W64 := 0
  nIn : Nat := 0
  aIn : Nat := 0
  nOut : Nat := 0
  aOut : Nat := 0
  late : Bool := false
  /-- output blocks that the GATE_OPEN commits -/
  waiting : List Nat := []
deriving DecidableEq, Repr

/-- A signing stream (R374 to R377). -/
structure SignStream where
  bound : Bool := false
  job : Job := 0
  head : List Byte := []
  first : Option W64 := none
  last : W64 := 0
  /-- commits in an output range that came from no GATE_OPEN, for the next element (R376) -/
  nOut : Nat := 0
  aOut : Nat := 0
  late : Bool := false
  elems : List SignElem := []
deriving DecidableEq, Repr

/-- The signing block (R471). -/
structure Sign where
  valid : Bool := false
  closed : Bool := false
  stream : Nat := 0
  job : Job := 0
  first : W64 := 0
  last : W64 := 0
  head : List Byte := []
  r : Nat := 0
  s : Nat := 0
  ungated : W32 := 0
deriving DecidableEq, Repr

/-- A trot-up in progress (R244). -/
structure Trot where
  agent : Nat := 0
  /-- 1 swap, 2 save, 3 secrets, 4 to 7 configure and scan, 8 restore, 9 swap back, 10 swap end -/
  step : Nat := 0
  standin : Option Nat := none
  slot : Nat := 0
  /-- the scan failed, at this set and checkpoint -/
  failed : Option (Bool × Nat) := none
  /-- the scan passed: the step-clock count and the agent's RING_LOST at the end of step 7 (R250) -/
  passed : Option (W64 × W32) := none
  tapWait : Bool := false
  since : Nat := 0
  /-- a host bound was missed after its entry had left the paddock (R251) -/
  missed : Bool := false
  /-- the numbers were odd for its tile meanwhile: the next trot-up is due at the end of this one (R267) -/
  oddMeanwhile : Bool := false
deriving DecidableEq, Repr

/-- The test engine (R242, R257, R477). -/
structure TestEngine where
  sets : List PatSet := []
  fetchFails : List (PatSet × Nat) := []
  trots : List Trot := []
  /-- saves kept by abandoned trot-ups: agent, stand-in, slot (R250) -/
  kept : List Trot := []
  deferredSince : List (Nat × Nat) := []
  deferred : W32 := 0
  abandoned : W32 := 0
  exits : W32 := 0
  passed : W32 := 0
  failed : W32 := 0
  tapGrant : Bool := false
  /-- the host lowers `TAP_GRANT` once no scan runs any more (R440) -/
  tapOnce : Bool := false
  wrapping : Bool := false
  wrapDone : Bool := false
  wrapNext : Nat := 0
  imageAbsent : Bool := false
  recordWritten : Bool := false
  hubTested : Byte := 0
  groupsDone : BitVec 16 := 0
  wrapFails : W32 := 0
  wrapLame : List Nat := []
  /-- the secrets of the present wrap group have been asked for, and when; its scan runs; the units left out of it, by source
  position; it is to be rerun (R248, R259, R267) -/
  groupAsked : Bool := false
  groupSince : Nat := 0
  groupScan : Bool := false
  groupLeft : List Nat := []
  rerun : Bool := false
  eraseDone : Bool := false
  tapWait : Bool := false
deriving DecidableEq, Repr

/-- The bands of the adaptive loops (R310). -/
structure Bands where
  curbLo : Nat := 1
  curbHi : Nat := 7
  /-- a SET_BAND of the curb waits for the next round -/
  curbMoved : Bool := false
  tpMin : Nat := 10
  tpMax : Nat := 600
  roundLo : Nat := 2
  roundHi : Nat := 10
  /-- bands that SET_BAND has recorded, by vector class -/
  k16 : SMap (Option (Nat × Nat)) := ⟨[]⟩
deriving DecidableEq, Repr

/-- An event of the management endpoint (R404). -/
inductive MgmtEvent where
  | sensor (id : BitVec 16) (value : Int)
  | pdrChange (ids : List (BitVec 16))
  | heartbeat
  /-- pldmMessagePollEvent: an event held for polling is announced -/
  | pollNotice
  | daily (seq : W32)
deriving DecidableEq, Repr

/-- The management endpoint (R398 to R413). -/
structure Mgmt where
  active : Bool := false
  eventsOn : Bool := true
  hotJoinOn : Bool := false
  hotJoined : Bool := false
  dynAddr : BitVec 7 := 0
  eid : Byte := 0
  tid : Byte := 0
  mrl : BitVec 16 := 256
  mwl : BitVec 16 := 256
  receiver : Bool := false
  mode : EventMode := .disabled
  receiverEid : Byte := 0
  heartbeat : Nat := 0
  bufferSize : Nat := 256
  events : List MgmtEvent := []
  inFlight : Option MgmtEvent := none
  resends : Nat := 0
  /-- time of the last sending of the event in flight, and of the last heartbeat (R404) -/
  sentAt : Nat := 0
  heartbeatAt : Nat := 0
  /-- events held for polling only (R404) -/
  polled : List MgmtEvent := []
  /-- the event whose parts are being polled (R402) -/
  polling : Option MgmtEvent := none
  /-- threshold state of the numeric sensors: 0 normal (R403) -/
  thr : SMap Nat := ⟨[]⟩
deriving DecidableEq, Repr

/-- The indirect window (R472). -/
structure Ind where
  data : W32 := 0
  pending : Bool := false
  posted : Option W32 := none
  err : Bool := false
  noUnit : Bool := false
deriving DecidableEq, Repr

/-- The step clock (R362). -/
structure StepClock where
  count : W64 := 0
  frac : BitVec 16 := 0
  hold : Option W64 := none
  synced : Bool := false
  lost : Bool := false
  running : Bool := false
  /-- time of the last sync, or of the end of stage 0 -/
  lastSync : Nat := 0
  /-- what the time is past `State.now`, in units of 2⁻¹⁶ ns -/
  part : Nat := 0
deriving DecidableEq, Repr

/-- TWIN_STS (R288). -/
structure Twin where
  mode : Nat := 0
  leader : HubId := .a
  serving : HubId := .a
  aAttached : Bool := false
  bAttached : Bool := false
  lanes : Nat := 0
  /-- HELLO frames received: by hub A from B, by hub B from A (self-test, tested field) -/
  helloA : Option (Bool × Byte) := none
  helloB : Option (Bool × Byte) := none
  /-- the leader's proposals that wait for an answer, and the follower's answer -/
  proposals : List RelaxAction := []
  answer : Option (RelaxAction × Bool) := none
  /-- actions that the follower has refused, with what the leader's proposal and the follower's answer rested on (R277) -/
  refused : List (RelaxAction × List Nat × List Nat) := []
  /-- the follower's own decision about the record that its answer is about, where its accounts are others (R277) -/
  dissent : Option Nat := none
  /-- the command in progress as each hub's digest has it: the leader's only once a pending REG_WRITE is acknowledged (R293) -/
  cmdA : Nat := 0
  cmdB : Nat := 0
  /-- digests cut last: sequence number, hub A's, hub B's -/
  cutSeq : W32 := 0
  cutA : W64 := 0
  cutB : W64 := 0
  arbitration : Bool := false
  paired : Bool := false
deriving DecidableEq, Repr

/-- A frame that its sender holds (R269, R270). -/
structure XFrame where
  seq : Byte := 0
  bits : BitVec 256 := 0
  /-- time of its last sending -/
  at_ : Nat := 0
deriving DecidableEq, Repr

/-- A cross-link sender (R269 to R271). -/
structure XSend where
  seq : Byte := 0
  /-- SEQ of the last frame received in order -/
  got : Byte := 0
  unacked : List XFrame := []
  mirrors : List Msg := []
  writes : List (BitVec 16 × W32) := []
  aborts : List (Job × Byte) := []
  /-- a DIGEST that waits behind a PROPOSE, and the SECTIONS, ITEMS and HELLO frames that wait for their turn (R271) -/
  cut : Option (List Nat) := none
  wait : List (FrameType × List Nat) := []
  lastSent : Nat := 0
  lastGood : Nat := 0
deriving DecidableEq, Repr

/-- The cross-link (R268). -/
structure XLink where
  a : XSend := {}
  b : XSend := {}
  tries : Nat := 0
  down : Bool := false
  retraining : Bool := false
deriving DecidableEq, Repr

/-- The alive cell (R226, R283). -/
structure Alive where
  started : Bool := false
  level : Bool := false
  stopped : Bool := false
  forWant : Bool := false
  strobed : Bool := false
  lastEdge : Nat := 0
  claimA : Bool := false
  claimB : Bool := false
  /-- when each was raised (R283) -/
  claimAtA : Nat := 0
  claimAtB : Nat := 0
  granted : Option HubId := none
deriving DecidableEq, Repr

/-- The curb port (R435). -/
structure CurbPort where
  level : BitVec 24 := 0
  toggle : Bool := false
deriving DecidableEq, Repr

/-- A persistence copy (R262). -/
structure Persist where
  sequence : W32 := 0
  idRev : W32 := 0
  hubTested : Byte := 0xFF#8
  lame : List Nat := []
  recovery : List (Nat × Nat) := []
  paddock : List (Nat × W64) := []
  tailA : SMap Msg := ⟨[]⟩
  tailB : SMap Msg := ⟨[]⟩
deriving DecidableEq, Repr

/-- What the flash declares in its SFDP header and Basic Flash Parameter Table (R254). -/
structure Sfdp where
  fastRead144 : Bool := true
  erase4k : Bool := true
  program256 : Bool := true
  /-- 3-byte or 4-byte addressing -/
  addressing : Bool := true
  /-- S, in bytes -/
  density : Nat := 67108864
deriving DecidableEq, Repr

/-- The serial flash (R254 to R256, R262). A copy that is not valid (R263) is none. -/
structure Flash where
  present : Bool := true
  sfdp : Sfdp := {}
  /-- the words of the image header and directory, 4 KiB (R256) -/
  header : List W32 := []
  copyA : Option Persist := none
  copyB : Option Persist := none
deriving DecidableEq, Repr

/-- A management answer (R398, R401, R402). -/
inductive SensorUnit where
  | celsius | volt | count | ratio
deriving DecidableEq, Repr

/-- What the management endpoint answers. -/
inductive MgmtReply where
  | i3cAck
  | i3cByte (b : Byte)
  | i3cWord (w : BitVec 16)
  | i3cPid (p : Addr)
  /-- EID, endpoint type (0: simple endpoint) and static EID flag (R401) -/
  | mctpEid (eid : Byte) (type : Nat) (isStatic : Bool)
  | mctpUuid (first : BitVec 16) (node : W64)
  | mctpVersion (major minor update : Nat)
  | mctpTypes (l : List Byte)
  | pldmTid (tid : Byte)
  | pldmVersion (major minor update : Nat)
  | pldmTypes (l : List Byte)
  | pldmCommands (l : List Byte)
  | receiver (mode : EventMode) (eid : Byte) (heartbeat : Nat)
  | event (e : Option MgmtEvent) (offset : Nat) (part : List Byte) (final : Bool)
  | eventClasses (l : List Byte)
  | bufferSize (n : Nat)
  | sensor (value : Option Int)
  | stateSensor (value : Option Nat)
  | pdrInfo (records : Nat)
  /-- the terminus locator PDR (R402), and the public key d·G (R373) -/
  | pdrLocator (pubX pubY : Nat)
  /-- a numeric sensor's PDR: unit, resolution as a numerator and a denominator, thresholds (R403) -/
  | pdrNumeric (id : BitVec 16) (unit : SensorUnit) (resolution : Nat × Nat) (thresholds : List Int)
  /-- a state sensor's PDR (R403) -/
  | pdrState (id : BitVec 16)
  | completion (code : Byte)
deriving DecidableEq, Repr

/-- What a command presents at a port. -/
inductive PortOut where
  | cmt (agent : Nat) (c : Cmt)
  | fenceReq (agent : Nat) (level : Bool)
  | paddock (agent : Nat) (level : Bool)
  | sc (agent : Nat) (op : ScOp)
  | po (agent : Nat) (words : List W32)
  | rsp (engine : Nat) (stream : BitVec 7) (code : BitVec 4) (d : BitVec 31)
  | tgcDone (engine : Nat)
  | side (engine : Nat) (r : SideReq)
  | xd (engine : Nat) (addr : Addr) (d : BitVec 31) (poison : Bool)
  | ptag (engine : Nat) (tag : W32)
  /-- RP_ACK of a read, with RP_RDATA -/
  | rpAck (data : W32)
  /-- RP_ACK of a write, which has taken effect (R433) -/
  | rpWritten
  | launch (job : Job)
  | beacon (port : Nat) (bytes : List Byte)
  | keyReq (item : Nat)
  | secReq (r : Region)
  | scanEnable (agent : Nat) (level : Bool)
  | alive (level : Bool)
  | curb (level : BitVec 24) (toggle : Bool)
  | saved (addr : Nat) (i : SaveImage)
  | inlog (addr : Nat) (e : InlogEntry)
  | mgmt (r : MgmtReply)
  /-- the payload bytes of each MCTP packet of the message before it (R401) -/
  | mctp (packets : List Nat)
  | event (e : MgmtEvent)
  | pollEvent (e : MgmtEvent)
  | ibi (mdb : Byte)
  | hotJoin
  | image (header : W64) (payload : List Byte) (dest : Option Nat)
  | frame (hub : HubId) (bits : BitVec 256)
  | flash (addr : Nat) (bytes : List Byte)
  /-- blocks of the pattern cache written with operation 0x2, at an offset of a set (R257) -/
  | cacheFill (set : PatSet) (at_ : Nat) (data : List Byte)
deriving DecidableEq, Repr

/-- The block (INVENTORY.md, State). -/
structure State where
  pending : List Instr := []
  out : List PortOut := []
  now : Nat := 0
  /-- time of READY, from which leak ticks and reel marks are counted (R212, R222) -/
  readyAt : Nat := 0
  freeCtr : Nat := 0
  build : Build := Build.reference
  rstL : Bool := false
  hubA : Hub := {}
  hubB : Hub := {}
  /-- time of the last leak of each source group; from READY before the first (R212) -/
  leakAt : SMap Nat := ⟨[]⟩
  agents : SMap Agent := ⟨[]⟩
  concs : SMap Conc := ⟨[]⟩
  engines : SMap Engine := ⟨[]⟩
  links : SMap LinkEnd := ⟨[]⟩
  /-- the next equal-length way out of each die towards each hub (R25): keys 2·die + hub -/
  ways : SMap Bool := ⟨[]⟩
  twin : Twin := {}
  xlink : XLink := {}
  alive : Alive := {}
  curbPort : CurbPort := {}
  flash : Flash := {}
  latch : SMap (Option W32) := ⟨[]⟩
  cmd : Cmd := {}
  stage : Option Nat := none
  /-- time from which the stage's budget counts (R319) -/
  stageFrom : Nat := 0
  stages : SMap StageRec := ⟨[]⟩
  image : Option (Nat × Nat) := none
  keyPort : KeyPort := {}
  keys : Keys := {}
  harness : Harness := {}
  clock : StepClock := {}
  epoch : Epoch := {}
  jobs : SMap JobSt := ⟨[]⟩
  abortFifo : List AbortEntry := []
  tccOrphan : W32 := 0
  retakes : SMap Retake := ⟨[]⟩
  retakeLog : SMap (Option RetakeLog) := ⟨[]⟩
  logHead : W32 := 0
  decCnt : SMap W32 := ⟨[]⟩
  retakesOrdered : W32 := 0
  retakeTimeouts : W32 := 0
  staleReleases : W32 := 0
  bands : Bands := {}
  ports : SMap Port := ⟨[]⟩
  /-- what the beacons of each slice carry (R359) -/
  slices : SMap SliceHold := ⟨[]⟩
  inlog : Inlog := {}
  replay : Replay := {}
  streams : SMap SignStream := ⟨[]⟩
  sign : Sign := {}
  restoreSkipped : W32 := 0
  test : TestEngine := {}
  mgmt : Mgmt := {}
  ind : Ind := {}
deriving DecidableEq, Repr

/-- The machine right after reset: RST_L is deasserted, every hub is in OFF, and all state but the flash is at its
reset value (R316, R447). -/
def State.reset : State := {}

end Sys2Proof.Machine
end

