-- ==== Sys2Proof/Machine/Operands.lean ====
section
/-! DEFINITION. The operand forms the commands share: the fields of the accepted harness with their defaults
(R379 to R391), source ids and positions (R197), and the fields of a task descriptor (R419) and a vector header. -/

namespace Sys2Proof.Machine

open Sys2Proof

/-- The accepted records. -/
def State.recs (s : State) : List Rec := s.harness.recs

/-- The first accepted record of a type that satisfies a test. -/
def State.rec? (s : State) (t : Nat) (f : Rec → Bool) : Option Rec := findRec t f s.recs

/-- A field of the only record of a type, with its default (R382). -/
def State.single (s : State) (t i hi lo d : Nat) : Nat :=
  match s.rec? t (fun _ => true) with
  | none => d
  | some r => orDef (r.fld i hi lo) d

/-- A field of the only record of a type whose range includes 0; `d` where the record is omitted. -/
def State.single0 (s : State) (t i hi lo d : Nat) : Nat :=
  match s.rec? t (fun _ => true) with
  | none => d
  | some r => r.fld i hi lo

/-! ### Structure (R385) -/

/-- The CLUSTER record of a cluster. -/
def State.clusterRec (s : State) (c : Nat) : Option Rec := s.rec? 0x01 (fun r => decide (r.fld 1 7 0 = c))

/-- The accepted harness enables an agent (R21, R385). -/
def State.agentOn (s : State) (a : Nat) : Bool :=
  match s.clusterRec (s.build.clusterOf a) with
  | none => false
  | some r => decide (r.fld 1 31 20 ≤ a ∧ a < r.fld 1 31 20 + r.fld 1 19 15)
      && (r.word 2).getLsbD (a - r.fld 1 31 20)

/-- The harness names an agent a stand-in (R178). -/
def State.isStandin (s : State) (a : Nat) : Bool :=
  match s.clusterRec (s.build.clusterOf a) with
  | none => false
  | some r => s.agentOn a && (r.word 2).getLsbD (16 + (a - r.fld 1 31 20))

/-- The agents a record enables or, with bit 16, names stand-ins. -/
def clusterAgents (r : Rec) (lo : Nat) : List Nat :=
  (List.range (r.fld 1 19 15)).filterMap (fun i =>
    if (r.word 2).getLsbD (lo + i) then some (r.fld 1 31 20 + i) else none)

/-- Every enabled agent, cluster by cluster in the harness's order. -/
def State.enabledAgents (s : State) : List Nat := (recsOf 0x01 s.recs).flatMap (fun r => clusterAgents r 0)

/-- Every stand-in (R178). -/
def State.standins (s : State) : List Nat := (recsOf 0x01 s.recs).flatMap (fun r => clusterAgents r 16)

/-- STANDIN_RESERVE of a die (R178). -/
def State.standinReserve (s : State) (die : Nat) : Nat :=
  match s.rec? 0x02 (fun r => decide (r.fld 1 2 0 = die)) with
  | none => 1
  | some r => orDef (r.fld 1 12 8) 1

/-- AGENTS_MIN of the LIMITS record (R338); 1 by default. -/
def State.agentsMin (s : State) : Nat := s.single 0x03 1 12 0 1

/-! ### Tags (R124, R127, R139) -/

/-- The TAG_ENGINE record of an engine. -/
def State.engineRec (s : State) (e : Nat) : Option Rec := s.rec? 0x10 (fun r => decide (r.fld 1 31 26 = e))

/-- The role of an engine: 1 MEM, 2 DMA, 3 LINK; 0 where no record names it. -/
def State.engineRole (s : State) (e : Nat) : Nat := ((s.engineRec e).map (·.fld 1 25 24)).getD 0

/-- The ledger home of an engine (R127). -/
def State.engineHome (s : State) (e : Nat) : Nat := ((s.engineRec e).map (·.fld 1 23 16)).getD 0

/-- A MEM engine owns an address (R385). -/
def State.ownsAddr (s : State) (e a : Nat) : Bool :=
  match s.engineRec e with
  | none => false
  | some r => decide (r.fld 1 25 24 = 1) && decide (a &&& r.addr 4 = r.addr 2)

/-- A tagged region (R124). -/
structure Region124 where
  index : Nat
  log2 : Nat
  key : Nat
  linear : Bool
  base : Nat
  blocks : Nat
  side : Nat
deriving DecidableEq, Repr

/-- The region a REGION record describes. -/
def regionOf (r : Rec) : Region124 :=
  { index := r.fld 1 31 24, log2 := orDef (r.fld 1 23 19) 12, key := r.fld 1 18 16, linear := bit (r.word 1) 15,
    base := r.addr 2, blocks := (r.word 4).toNat, side := r.addr 5 }

/-- Bytes of a block. -/
def Region124.blockBytes (g : Region124) : Nat := 2 ^ g.log2

/-- The region that holds an address, if it is tagged (R124, R126). -/
def State.regionAt (s : State) (a : Nat) : Option Region124 :=
  ((recsOf 0x11 s.recs).map regionOf).find? (fun g => decide (g.base ≤ a ∧ a < g.base + g.blocks * g.blockBytes))

/-- The base of the block that holds an address. -/
def Region124.blockBase (g : Region124) (a : Nat) : Nat := g.base + (a - g.base) / g.blockBytes * g.blockBytes

/-- The address of the sidecar word of the block that holds an address (R124). -/
def Region124.sideAddr (g : Region124) (a : Nat) : Nat := g.side + 4 * ((a - g.base) / g.blockBytes)

/-! ### Check plan (R386) -/

/-- LANE_MIN of the PLAN record (R88). -/
def State.laneMin (s : State) : Nat := s.single0 0x20 1 7 0 0

/-- EPOCH_TASKS as a power of two (R56). -/
def State.epochTasksLog2 (s : State) : Nat := s.single 0x21 1 31 27 20

/-- EPOCH_TIME in s (R56). -/
def State.epochTime (s : State) : Nat := s.single 0x21 1 26 15 60

/-- EPOCH_LEAD in ns (R56). -/
def State.epochLead (s : State) : Nat := s.single 0x21 1 9 0 20 * 100000

/-! ### Vector (R387) -/

/-- The current VECTOR_CLASS record of a class. -/
def State.vclass? (s : State) (v : Nat) : Option Rec := s.rec? 0x30 (fun r => decide (r.fld 1 31 26 = v))

/-- ODD_ACTION is WITHHOLD (R160). -/
def State.oddWithhold (s : State) : Bool :=
  match s.rec? 0x31 (fun _ => true) with
  | none => true
  | some r => bit (r.word 1) 8

/-- ODD_M (R160). -/
def State.oddM (s : State) : Nat := s.single 0x31 1 7 0 8

/-! ### Fault (R214, R387) -/

/-- The GROUP record of a source group. -/
def State.group? (s : State) (g : Nat) : Option Rec := s.rec? 0x40 (fun r => decide (r.fld 1 31 29 = g))

/-- N of a source group (R214). -/
def State.grpN (s : State) (g : Nat) : Nat := ((s.group? g).map (fun r => orDef (r.fld 1 28 21) 8)).getD 8

/-- L of a source group (R214). -/
def State.grpL (s : State) (g : Nat) : Nat := ((s.group? g).map (fun r => orDef (r.fld 1 20 17) 3)).getD 3

/-- Q of a source group in s (R214). -/
def State.grpQ (s : State) (g : Nat) : Nat := ((s.group? g).map (fun r => orDef (r.fld 1 11 0) 60)).getD 60

/-- W of a source group in ms (R214). -/
def State.grpW (s : State) (g : Nat) : Nat := ((s.group? g).map (fun r => orDef (r.fld 2 21 0) 10000)).getD 10000

/-- The HOST_CHANNEL record of a report line (R199). -/
def State.hostChan? (s : State) (engine line : Nat) : Option Rec :=
  s.rec? 0x41 (fun r => decide (r.fld 1 19 14 = engine ∧ r.fld 1 13 10 = line))

/-- RETAKE_ISSUE in ns (R179). -/
def State.retakeIssue (s : State) : Nat := s.single 0x42 1 25 16 20 * 1000

/-- RETAKE_WAIT in ns (R180). -/
def State.retakeWait (s : State) : Nat := s.single 0x42 2 31 0 1000 * 1000

/-- RETAKE_RUN in ns (R291). -/
def State.retakeRun (s : State) : Nat := s.single 0x42 3 31 0 100 * 1000000

/-- ALIVE_PERIOD in ns (R226). -/
def State.alivePeriod (s : State) : Nat := s.single 0x42 1 3 0 10 * 100000

/-! ### Test (R240, R251, R259, R265, R388) -/

/-- TP0 in s (R240). -/
def State.tp0 (s : State) : Nat := s.single 0x50 1 16 0 600
/-- PADDOCK_CLEAN (R240). -/
def State.paddockClean (s : State) : Nat := s.single 0x50 1 31 28 3
/-- TROT_MAX (R251). -/
def State.trotMax (s : State) : Nat := s.single 0x51 1 31 24 8
/-- TROT_IDLE_AFTER in ns (R251). -/
def State.trotIdleAfter (s : State) : Nat := s.single 0x51 1 11 0 10 * 1000000000
/-- SWAP_ISSUE in ns (R251). -/
def State.swapIssue (s : State) : Nat := s.single 0x51 2 31 0 1000 * 1000
/-- SAVE_BOUND in ns (R251). -/
def State.saveBound (s : State) : Nat := s.single 0x51 3 31 0 2000 * 1000
/-- SECRETS_TIMEOUT in ns (R251). -/
def State.secretsTimeout (s : State) : Nat := s.single 0x51 4 31 0 100 * 1000
/-- SAVE_BYTES in bytes; its range includes 0 (R251). -/
def State.saveBytes (s : State) : Nat := s.single0 0x51 5 31 0 2048 * 1024
/-- The address of a save slot (R251, R426). -/
def State.saveSlot (s : State) (i : Nat) : Nat :=
  ((s.rec? 0x51 (fun _ => true)).map (·.addr 6)).getD 0 + i * s.saveBytes
/-- TEST_GROUP (R259). -/
def State.testGroup (s : State) : Nat := s.single 0x52 1 9 0 64
/-- G of R259: min(TEST_GROUP, ⌊TEST_POWER / P_SCAN⌋). -/
def State.wrapGroup (s : State) : Nat :=
  match s.rec? 0x52 (fun _ => true) with
  | none => 0
  | some r => if (r.word 3).toNat = 0 then s.testGroup else min s.testGroup ((r.word 2).toNat / (r.word 3).toNat)

/-! ### Housekeeping (R294, R297, R388) -/

/-- The CHANNEL record of a channel. -/
def State.chan? (s : State) (c : Nat) : Option Rec := s.rec? 0x60 (fun r => decide (r.fld 1 31 23 = c))

/-- The channels of a kind, in the harness's order. -/
def State.chansOf (s : State) (kind : Nat) : List Nat :=
  ((recsOf 0x60 s.recs).filter (fun r => decide (r.fld 1 22 19 = kind))).map (·.fld 1 31 23)

/-- The channels of a kind on a die. -/
def State.dieChans (s : State) (kind die : Nat) : List Nat :=
  ((recsOf 0x60 s.recs).filter (fun r => decide (r.fld 1 22 19 = kind ∧ r.fld 1 18 16 = die))).map (·.fld 1 31 23)

/-- The THERMAL record of a die. -/
def State.thermal? (s : State) (die : Nat) : Option Rec := s.rec? 0x61 (fun r => decide (r.fld 1 2 0 = die))

/-- A field of a die's THERMAL record with its default. -/
def State.thermalFld (s : State) (die i hi lo d : Nat) : Nat :=
  ((s.thermal? die).map (fun r => orDef (r.fld i hi lo) d)).getD d

/-- T_WARN in units of 0.0625 °C (R297). -/
def State.tWarn (s : State) (die : Nat) : Int := 16 * s.thermalFld die 1 31 24 95
/-- T_CRIT in units of 0.0625 °C (R297). -/
def State.tCrit (s : State) (die : Nat) : Int := 16 * s.thermalFld die 1 23 16 105
/-- T_HYST in units of 0.0625 °C (R297). -/
def State.tHyst (s : State) (die : Nat) : Int := 16 * s.thermalFld die 1 15 11 5
/-- T_NEAR in units of 0.0625 °C; its range includes 0 (R297). -/
def State.tNear (s : State) (die : Nat) : Int := 16 * (((s.thermal? die).map (·.fld 1 10 6)).getD 5 : Nat)
/-- T_STEP in units of 0.0625 °C (R297, R388). -/
def State.tStep (s : State) (die : Nat) : Int := 2 * s.thermalFld die 2 31 24 16
/-- G in ns (R297). -/
def State.tGrace (s : State) (die : Nat) : Nat := s.thermalFld die 2 8 0 20 * 1000000
/-- CURB_FAILSAFE (R297). -/
def State.curbFailsafe (s : State) (die : Nat) : Nat := s.thermalFld die 1 5 3 4
/-- MARGIN_LOW in units of 2⁻¹⁶ (R308). -/
def State.marginLow (s : State) (d : Nat) : Nat := s.single 0x63 1 15 0 d
/-- HCLK_PERIOD in units of 2⁻¹⁶ ns (R362, R388). -/
def State.hclkPeriod (s : State) : Nat := s.single0 0x66 1 31 0 0

/-! ### Links and determinism (R389) -/

/-- The PORT record of a port. -/
def State.port? (s : State) (p : Nat) : Option Rec := s.rec? 0x71 (fun r => decide (r.fld 1 31 24 = p))

/-- DISC_WINDOW in ns (R337). -/
def State.discWindow (s : State) (d : Nat) : Nat := s.single 0x73 1 11 0 d * 1000000
/-- SLATE_WAIT in ns (R360). -/
def State.slateWait (s : State) : Nat := s.single 0x73 2 31 0 10000 * 1000

/-! ### Source ids and positions (R197) -/

/-- The first position and the count of indices of a source group. -/
def groupBase : Nat → Nat × Nat
  | 0 => (0, 4096)
  | 1 => (4096, 256)
  | 2 => (4352, 16)
  | 3 => (4368, 16)
  | 4 => (4384, 512)
  | 5 => (4896, 3264)
  | 6 => (8160, 32)
  | _ => (8192, 0)

/-- A source id. -/
def srcId (g i : Nat) : BitVec 16 := BitVec.ofNat 16 (g * 8192 + i)

/-- The group of a source id. -/
def srcGroup (x : BitVec 16) : Nat := x.toNat / 8192

/-- The index of a source id. -/
def srcIndex (x : BitVec 16) : Nat := x.toNat % 8192

/-- The position of a source id; none outside the table of R197. -/
def srcPos (x : BitVec 16) : Option Nat :=
  if srcIndex x < (groupBase (srcGroup x)).2 then some ((groupBase (srcGroup x)).1 + srcIndex x) else none

/-- The group of a position. -/
def posGroup (p : Nat) : Nat :=
  if p < 4096 then 0 else if p < 4352 then 1 else if p < 4368 then 2 else if p < 4384 then 3
  else if p < 4896 then 4 else if p < 8160 then 5 else 6

/-- The source id at a position. -/
def posSrc (p : Nat) : BitVec 16 := srcId (posGroup p) (p - (groupBase (posGroup p)).1)

/-- The hub of an index of group 2 or of the twin sources (R197). -/
def hubIdx : HubId → Nat
  | .a => 0
  | .b => 1

/-- The other hub. -/
def twinHub : HubId → HubId
  | .a => .b
  | .b => .a

/-- The die of a hub (R22). -/
def State.hubDie (s : State) : HubId → Nat
  | .a => 0
  | .b => s.build.hubBDie

/-- The hub is built (R22). -/
def State.hubBuilt (s : State) : HubId → Bool
  | .a => true
  | .b => decide (s.build.hubs = 2)

/-- The source's index lies in its group's range, and names a part that exists and that the accepted harness enables
(R198). -/
def State.sourceOn (s : State) (x : BitVec 16) : Bool :=
  let i := srcIndex x
  (srcPos x).isSome && match srcGroup x with
  | 0 => s.agentOn i
  | 1 => (s.clusterRec i).isSome
  | 2 => if i < 2 then s.hubBuilt (if i = 0 then .a else .b) else decide (8 ≤ i ∧ i < 8 + s.build.dies)
  | 3 => decide (i < 2 * s.build.dies ∧ 1 < s.build.dies)
  | 4 => decide (i < 512) && (s.chan? i).isSome
  | 5 => if i < 64 then (s.engineRec i).isSome
         else decide (i < 3264) && (s.rec? 0x41 (fun r => decide (r.fld 1 31 20 = i))).isSome
  | 6 => decide (i < 3 ∧ s.build.hubs = 2)
  | _ => false

/-! ### Task descriptors (R419) -/

/-- A field of a descriptor. -/
def dfld (d : BitVec 256) (hi lo : Nat) : Nat := bits d hi lo

end Sys2Proof.Machine
end

