-- ==== Sys2Proof/Machine/Flags.lean ====
section
/-! DEFINITION. Flags that are computed from the state: which hub acts, fault conditions, fenced sets, pins and
interrupt lines. -/

namespace Sys2Proof.Machine

open Sys2Proof

/-! ### Access to the parts -/

/-- A hub. -/
def State.hub (s : State) : HubId → Hub
  | .a => s.hubA
  | .b => s.hubB

/-- An agent. -/
def State.agent (s : State) (i : Nat) : Agent := s.agents.get {} i
/-- A concentrator. -/
def State.conc (s : State) (i : Nat) : Conc := s.concs.get {} i
/-- A tag engine. -/
def State.engine (s : State) (i : Nat) : Engine := s.engines.get {} i
/-- A die-link end. -/
def State.linkEnd (s : State) (i : Nat) : LinkEnd := s.links.get {} i
/-- A job. -/
def State.job (s : State) (j : Nat) : JobSt := s.jobs.get {} j
/-- A retake record. -/
def State.retake (s : State) (r : Nat) : Retake := s.retakes.get {} r
/-- A beacon port. -/
def State.port (s : State) (p : Nat) : Port := s.ports.get {} p

/-! ### Hubs -/

/-- A hub that is built and not detached (R283, R288). -/
def State.hubUp (s : State) (h : HubId) : Bool :=
  s.hubBuilt h && (!s.twin.paired || (match h with | .a => s.twin.aAttached | .b => s.twin.bAttached))

/-- A second hub takes part: the pair has formed and both are attached (R287). -/
def State.pairUp (s : State) : Bool := s.twin.paired && s.twin.aAttached && s.twin.bAttached

/-- Both hubs have failed or are detached: neither is attached, or none has strobed the alive cell (R226, R292). -/
def State.noHub (s : State) : Bool := (s.twin.paired && !s.twin.aAttached && !s.twin.bAttached) || s.alive.forWant

/-- The hub that serves the register port (R454). -/
def State.sv (s : State) : Hub := s.hub s.twin.serving

/-- The leader. -/
def State.ld (s : State) : Hub := s.hub s.twin.leader

/-- The hubs that act. -/
def State.upHubs (s : State) : List HubId := [HubId.a, HubId.b].filter s.hubUp

/-- A source of a hub. -/
def Hub.src (h : Hub) (p : Nat) : Source := h.srcs.get {} p

/-- Some source is in its fault state. -/
def Hub.anyFault (h : Hub) : Bool := h.srcs.entries.any (fun e => e.2.fault)

/-- HUB_STATE.FAULTED (R208, R459). -/
def Hub.faulted (h : Hub) : Bool := h.anyFault || h.lameSinceReady

/-- READY, RUN, DEGRADED: the states of ordinary work (R465). -/
def HubSt.working : HubSt → Bool
  | .ready | .run | .degraded => true
  | _ => false

/-- RUN or DEGRADED. -/
def HubSt.running : HubSt → Bool
  | .run | .degraded => true
  | _ => false

/-- The state after READY has been reached. -/
def HubSt.pastReady : HubSt → Bool
  | .ready | .run | .degraded | .saved | .wrap => true
  | _ => false

/-- The code of HUB_STATE.STATE (R459). -/
def HubSt.code : HubSt → Nat
  | .off => 0
  | .bringup => 1
  | .ready => 2
  | .run => 3
  | .degraded => 4
  | .saved => 5
  | .wrap => 6
  | .stopped => 7
  | .failedBringup => 15

/-- Chip stop: an S4 is recorded at a hub (R209). -/
def State.stopped (s : State) : Bool := s.hubA.s4 || s.hubB.s4

/-- Every commit is withheld: an S4 at a hub, or no hub left (R209, R292). -/
def State.withheld (s : State) : Bool := s.stopped || s.noHub

/-- No commit is started: withheld, or a wrap test is under way (R258, The wrap test). -/
def State.noCommit (s : State) : Bool := s.withheld || s.test.wrapping

/-- Neither task nor group is admitted: SAVED (R369), and while the wrap test runs and after it, for its agents are stopped. -/
def State.shut (s : State) : Bool := decide (s.ld.st = .saved ∨ s.ld.st = .wrap) || s.test.wrapping

/-- Stage 0 has ended. -/
def State.pastStage0 (s : State) : Bool :=
  decide (s.ld.st ≠ .off) && !(decide (s.ld.st = .bringup) && decide (s.stage = some 0))

/-- FLT_L is driven low: a fault state or an S4 at an acting hub, a failed call sheet, or the alive cell stopped for want of
a strobe (R226, R319); it is released until stage 0 has ended (R443). -/
def State.fltAsserted (s : State) : Bool :=
  s.pastStage0 &&
    ((s.upHubs.any (fun h => (s.hub h).anyFault || (s.hub h).s4 || decide ((s.hub h).st = .failedBringup))) || s.alive.forWant)

/-- IRQ_EVENT (R466). -/
def State.irqEvent (s : State) : Bool := decide (s.sv.irq &&& 0xF#32 ≠ 0#32)
/-- IRQ_THROTTLE (R299). -/
def State.irqThrottle (s : State) : Bool := decide (s.sv.thrEvt ≠ 0#32)
/-- IRQ_JOB (R466). -/
def State.irqJob (s : State) : Bool := !s.abortFifo.isEmpty || decide (s.sv.irq &&& 0xC0#32 ≠ 0#32)

/-! ### Fences -/

/-- The position of an agent's concentrator. -/
def State.concPos (s : State) (a : Nat) : Nat := 4096 + s.build.clusterOf a
/-- The position of a die. -/
def diePos (d : Nat) : Nat := 4352 + 8 + d

/-- The source at a position holds a fence: in its fault state or lame. -/
def Hub.fences? (h : Hub) (p : Nat) : Bool := (h.src p).fault || (h.src p).lame

/-- An agent in a trot-up, from the acknowledgement of SWAP_OUT on (R247). -/
def State.inTrot (s : State) (a : Nat) : Bool := (s.test.trots ++ s.test.kept).any (fun t => decide (t.agent = a ∧ 2 ≤ t.step))

/-- A CLOCK channel that is in its fault state or lame fences the units on its clock (R213, R306): the die's agents for a tile clock
(SRC 0), its concentrators too for CCLK (SRC 1). -/
def State.clockFault (s : State) (h : HubId) (srcs : List Nat) (die : Nat) : Bool :=
  (recsOf 0x60 s.recs).any (fun r => decide (r.fld 1 22 19 = 4 ∧ r.fld 1 18 16 = die ∧ r.fld 1 14 12 ∈ srcs)
    && (s.hub h).fences? (4384 + r.fld 1 31 23))

/-- A CLOCK channel of a source (R388) is in its fault state or lame at an acting hub (R306): 4 MCLK, 5 a test clock. -/
def State.clockBad (s : State) (src : Nat) : Bool :=
  s.upHubs.any (fun h => (recsOf 0x60 s.recs).any (fun r => decide (r.fld 1 22 19 = 4 ∧ r.fld 1 14 12 = src)
    && (s.hub h).fences? (4384 + r.fld 1 31 23)))

/-- The hub's fenced set (R228, R247, R306). -/
def State.fencedAt (s : State) (h : HubId) (a : Nat) : Bool :=
  (s.hub h).fences? a || (s.hub h).fences? (s.concPos a) || (s.hub h).fences? (diePos (s.build.dieOfAgent a))
    || s.clockFault h [0, 1] (s.build.dieOfAgent a) || s.inTrot a

/-- Some acting hub orders the agent fenced (R274: the union). -/
def State.fenceOrdered (s : State) (a : Nat) : Bool :=
  s.upHubs.any (fun h => (s.hub h).fences.any (fun e => decide (e.1 = a)))

/-- The concentrator is fenced at some acting hub: it returns no verdict (R229). -/
def State.concFenced (s : State) (c : Nat) : Bool := s.upHubs.any (fun h =>
  (s.hub h).fences? (4096 + c) || s.clockFault h [1] (s.build.dieOfCluster c))

/-- An agent is lame at some acting hub. -/
def State.agentLame (s : State) (a : Nat) : Bool := s.upHubs.any (fun h => ((s.hub h).src a).lame)

/-- The agents whose unit a position is (R207). -/
def State.unitAgents (s : State) (p : Nat) : List Nat :=
  match posGroup p with
  | 0 => if s.agentOn p then [p] else []
  | 1 => ((s.clusterRec (p - 4096)).map (clusterAgents · 0)).getD []
  | 2 => if 4360 ≤ p then s.enabledAgents.filter (fun a => decide (s.build.dieOfAgent a = p - 4360)) else []
  | 4 =>
    match s.chan? (p - 4384) with
    | none => []
    | some r => if r.fld 1 22 19 = 4 ∧ r.fld 1 14 12 ≤ 1
        then s.enabledAgents.filter (fun a => decide (s.build.dieOfAgent a = r.fld 1 18 16)) else []
  | _ => []

/-- A link end may carry messages: trained, not retraining, and withdrawn by no hub (R207, R348). -/
def State.linkOk (s : State) (i : Nat) : Bool :=
  decide (0 < (s.linkEnd i).lanes) && !(s.linkEnd i).down && !(s.linkEnd i).retraining
    && !(s.upHubs.any (fun h => (s.hub h).fences? (4368 + i)))

/-! ### Channels and curbs -/

/-- A channel whose sample counts: fresh enough, not in its fault state and not lame (R207, R213, R295). -/
def State.chanUsable (s : State) (h : HubId) (c : Nat) : Bool :=
  let x := (s.hub h).chans.get {} c
  x.fresh && !x.stale && !((s.hub h).fences? (4384 + c))

/-- The die temperature: the highest fresh sample among the die's TEMP channels, in units of 0.0625 °C (R298). -/
def State.dieTemp (s : State) (h : HubId) (die : Nat) : Option Int :=
  (((s.dieChans 1 die).filter (s.chanUsable h)).map (fun c => ((s.hub h).chans.get {} c).value.toInt)).foldl
    (fun a v => match a with | none => some v | some w => some (max v w)) none

/-- The curb level of a die at a hub. -/
def State.curbAt (s : State) (h : HubId) (die : Nat) : Nat := ((s.hub h).thermal.get {} die).curb

/-- The level the curb port presents for a die: the higher of the acting hubs' levels (R300). -/
def State.curbLevel (s : State) (die : Nat) : Nat := s.upHubs.foldl (fun a h => max a (s.curbAt h die)) 0

/-- CURB_STS.LEVEL of a die: the level that the curb port presents (R300, R314). -/
def State.curbShown (s : State) (die : Nat) : Nat := bits s.curbPort.level (3 * die + 2) (3 * die)

/-- CURB_STS: the levels that the curb port presents, and the dies whose curb level lies above CURB_HI (R314). -/
def State.curbSts (s : State) : W32 :=
  (List.range s.build.dies).foldl (fun w d =>
    w ||| at32 (s.curbShown d) (3 * d) ||| (if s.bands.curbHi < s.curbLevel d then at32 1 (24 + d) else 0)) 0

/-! ### Kinds (R204) -/

/-- A KIND of the catalogue. -/
def kindKnown (k : Nat) : Bool :=
  decide (k ≤ 0x0C ∨ (0x10 ≤ k ∧ k ≤ 0x1A) ∨ (0x20 ≤ k ∧ k ≤ 0x2A) ∨ (0x30 ≤ k ∧ k ≤ 0x3C)
    ∨ (0x40 ≤ k ∧ k ≤ 0x47) ∨ (0x50 ≤ k ∧ k ≤ 0x54))

/-- The catalogue's bucket column: "yes" for a KIND at a severity (R204, R205). The row of KIND 0x05 has no cell for it;
like the vector groups of KIND 0x06 it does not count. DEDUCED (log 25). -/
def Msg.counts (m : Msg) : Bool :=
  let k := m.kind.toNat
  if k = 0x06 ∨ k = 0x40 then decide (m.sev = 1#3)
  else decide (k ∈ [0x01, 0x02, 0x03, 0x0B, 0x10, 0x11, 0x13, 0x15, 0x18, 0x21, 0x23, 0x24, 0x25, 0x28, 0x29, 0x2A,
    0x30, 0x31, 0x34, 0x50, 0x51, 0x52, 0x53, 0x54])

/-- The catalogue's abort column (R204): the hub raises JOB_ABORT for the message's job. -/
def State.aborts (s : State) (m : Msg) : Bool :=
  let k := m.kind.toNat
  if k ∈ [0x04, 0x07, 0x08, 0x0C] then true
  else if k = 0x05 then
    if srcGroup m.source = 1 then s.oddWithhold else decide (m.sev = 2#3)
  else if k = 0x06 ∨ k = 0x12 ∨ k = 0x14 then decide (m.sev = 2#3)
  else if k = 0x09 then decide (srcGroup m.source = 1)
  else false

/-- AG_BUILD as an agent reports it: its built LANES and CONTEXTS (R3, R473). -/
def buildWord (lanes contexts : Nat) : W32 := at32 (lanes % 256) 8 ||| at32 (contexts % 32) 0

end Sys2Proof.Machine
end

