-- ==== Sys2Proof/Machine/Ops.lean ====
section
/-! DEFINITION. The operations the commands share: time, parts, the queues of the fault network, the reel, fault
states, fences, the paddock, job aborts and chip stop. -/

namespace Sys2Proof.Machine

open Sys2Proof

/-! ### Running a command, time -/

/-- Run an effect; while RST_L is asserted every unit is held in reset (R447). The outputs presented by the command
before are cleared first. -/
def live (s : State) (f : State → State) : Host.Outcome State Fault Refusal :=
  if s.rstL then .next s else .next (f { s with out := [] })

/-- The step clock moved on by `u` units of 2⁻¹⁶ ns (R362): a count that is ahead holds until the delivered time
reaches it. -/
def StepClock.advance (k : StepClock) (u : Nat) : StepClock :=
  if k.running then
    match k.hold with
    | none =>
      let t := k.count.toNat * 65536 + k.frac.toNat + u
      { k with count := BitVec.ofNat 64 (t / 65536), frac := BitVec.ofNat 16 t }
    | some h =>
      let t := h.toNat * 65536 + k.frac.toNat + u
      if k.count.toNat ≤ t / 65536 then
        { k with count := BitVec.ofNat 64 (t / 65536), frac := BitVec.ofNat 16 t, hold := none }
      else { k with hold := some (BitVec.ofNat 64 (t / 65536)), frac := BitVec.ofNat 16 t }
  else k

/-- Time moves up to `t`, if it is not past it; the step clock moves with it (log 2): every HCLK cycle advances it by the declared
period (R362), which is what the cycle takes (log 64). -/
def State.advanceTo (s : State) (t : Nat) : State :=
  if t ≤ s.now then s
  else { s with now := t, clock := { s.clock.advance ((t - s.now) * 65536 - s.clock.part) with part := 0 } }

/-- One HCLK cycle: time and the step clock advance by the declared period, 1 ns where no harness declares one (R362). -/
def State.tick (s : State) : State :=
  let p := orDef s.hclkPeriod 65536
  let t := s.clock.part + p
  { s with now := s.now + t / 65536, clock := { s.clock.advance p with part := t % 65536 } }

/-- The step clock as a number. -/
def State.clk (s : State) : Nat := s.clock.count.toNat

/-- Time moves on until the step clock reaches a count. -/
def State.advanceClk (s : State) (c : Nat) : State :=
  s.advanceTo (s.now + (c - ((s.clock.hold.map (·.toNat)).getD s.clk)))

/-- The step clock has reached a count or will: it stands at 0 until the first sync (R362). -/
def State.clkReaches (s : State) (c : Nat) : Bool := s.clock.running || decide (c ≤ s.clk)

/-- STAMP: step-clock bits [33:10] (R200). -/
def State.stamp (s : State) : BitVec 24 := BitVec.ofNat 24 (s.clk / 1024)

/-! ### Changing the parts -/

/-- Change a hub. -/
def State.modHub (s : State) (h : HubId) (f : Hub → Hub) : State :=
  match h with
  | .a => { s with hubA := f s.hubA }
  | .b => { s with hubB := f s.hubB }

/-- Change both hubs. -/
def State.modHubs (s : State) (f : Hub → Hub) : State := { s with hubA := f s.hubA, hubB := f s.hubB }

/-- The hubs' self-test results (R282, R324). -/
def State.selfTests (s : State) (a b : Bool) : State :=
  (s.modHub .a (fun k => { k with selfTest := a })).modHub .b (fun k => { k with selfTest := b })

/-- Change an agent. -/
def State.modAgent (s : State) (i : Nat) (f : Agent → Agent) : State := { s with agents := s.agents.mod {} i f }
/-- Change a concentrator. -/
def State.modConc (s : State) (i : Nat) (f : Conc → Conc) : State := { s with concs := s.concs.mod {} i f }
/-- Change a tag engine. -/
def State.modEngine (s : State) (i : Nat) (f : Engine → Engine) : State := { s with engines := s.engines.mod {} i f }
/-- Change a die-link end. -/
def State.modLink (s : State) (i : Nat) (f : LinkEnd → LinkEnd) : State := { s with links := s.links.mod {} i f }
/-- Change a job. -/
def State.modJob (s : State) (j : Nat) (f : JobSt → JobSt) : State := { s with jobs := s.jobs.mod {} j f }
/-- Change a retake record. -/
def State.modRetake (s : State) (r : Nat) (f : Retake → Retake) : State := { s with retakes := s.retakes.mod {} r f }
/-- Change a beacon port. -/
def State.modPort (s : State) (p : Nat) (f : Port → Port) : State := { s with ports := s.ports.mod {} p f }

/-- Change a source of a hub. -/
def Hub.modSrc (h : Hub) (p : Nat) (f : Source → Source) : Hub := { h with srcs := h.srcs.mod {} p f }

/-- Count in a counter of the fault block (R467), by its index there. -/
def Hub.count (h : Hub) (i : Nat) : Hub := { h with ctr := h.ctr.mod 0 i satInc }

/-- Present something at a port. -/
def State.present (s : State) (o : PortOut) : State := { s with out := s.out ++ [o] }

/-- Do the same at every acting hub. -/
def State.eachHub (s : State) (f : HubId → State → State) : State := s.upHubs.foldl (fun s h => f h s) s

/-- Do the same for every element of a list. -/
def State.each {α : Type} (s : State) (l : List α) (f : α → State → State) : State := l.foldl (fun s x => f x s) s

/-! ### The queues of the fault network (R217 to R220) -/

/-- The ordinary and reserved slots of a unit's queue (R218). -/
def netSlots : NetUnit → Nat × Nat
  | .agent _ => (4, 2)
  | .engine _ => (6, 2)
  | .conc _ => (16, 4)
  | .linkEnd _ => (28, 4)
  | .hub _ => (60, 4)

/-- A unit through which other units' messages pass keeps places of its own for its severe messages (R219). -/
def netRelays : NetUnit → Bool
  | .agent _ => false
  | .engine _ => false
  | _ => true

/-- The lowest severity held. -/
def minSev (l : List QEntry) : Nat := l.foldl (fun a e => min a e.msg.sev.toNat) 7

/-- Remove the first entry of a severity. -/
def dropFirst (v : Nat) : List QEntry → List QEntry
  | [] => []
  | e :: r => if e.msg.sev.toNat = v then r else e :: dropFirst v r

/-- Drop the newest of the least severe messages held. -/
def dropNewest (l : List QEntry) : List QEntry := (dropFirst (minSev l) l.reverse).reverse

/-- Count a drop of a severity, and remember that one happened (R219). -/
def Queue.dropped (q : Queue) (sev : Nat) : Queue :=
  if sev = 0 then { q with droppedS0 := satInc q.droppedS0, droppedBefore := true }
  else { q with droppedS1 := satInc q.droppedS1, droppedBefore := true }

/-- The newest of the least severe messages makes room for one (R219). -/
def Queue.displace (q : Queue) (e : QEntry) : Queue :=
  { q.dropped (minSev q.ordinary) with ordinary := dropNewest q.ordinary ++ [e] }

/-- Merge a severe message into the most recent, which keeps its time of arrival (R217, R220). -/
def mergeSevere (l : List QEntry) (n : QEntry) : List QEntry :=
  match l.getLast? with
  | none => [n]
  | some e => l.dropLast ++ [{ e with msg := { e.msg with sev := if e.msg.sev.toNat < n.msg.sev.toNat then n.msg.sev else e.msg.sev,
                                                          again := true, injected := e.msg.injected && n.msg.injected } }]

/-- Merge an S2 message into its job's flag (R219). -/
def mergeS2 (l : List (Nat × Msg)) (m : Msg) : List (Nat × Msg) :=
  if l.any (fun p => decide (p.1 = m.job.toNat)) then
    l.map (fun p => if p.1 = m.job.toNat then (p.1, { p.2 with injected := p.2.injected && m.injected }) else p)
  else l ++ [(m.job.toNat, { m with again := true })]

/-- A free ordinary slot is there for a message: a merged S2 message is owed it before any S0 or S1 (R219). -/
def Queue.takes (q : Queue) (m : Msg) : Bool := decide (q.merged = []) || decide (2 ≤ m.sev.toNat)

/-- A message enters the queue of the unit at which it originates (R219, R220); `now` is the time of its arrival. -/
def Queue.origin (q : Queue) (u : NetUnit) (m : Msg) (now : Nat) : Queue :=
  let e : QEntry := { msg := m, at_ := now }
  if 3 ≤ m.sev.toNat then
    if netRelays u then
      if q.own.length < 2 then { q with own := q.own ++ [e] }
      else { q with own := mergeSevere q.own e, droppedBefore := true }
    else if q.reserved.length < 2 then { q with reserved := q.reserved ++ [e] }
    else { q with reserved := mergeSevere q.reserved e, droppedBefore := true }
  else if q.ordinary.length < (netSlots u).1 ∧ q.takes m then { q with ordinary := q.ordinary ++ [e] }
  else if m.sev.toNat = 2 then
    if minSev q.ordinary < 2 then q.displace e
    else { q with merged := mergeS2 q.merged m, mergedS2 := satInc q.mergedS2, droppedBefore := true }
  else if m.sev.toNat ≤ minSev q.ordinary then q.dropped m.sev.toNat
  else q.displace e

/-- A message comes from the previous hop; none where it waits there (R219). -/
def Queue.hop (q : Queue) (u : NetUnit) (e : QEntry) : Option Queue :=
  if 3 ≤ e.msg.sev.toNat then
    if q.reserved.length < (netSlots u).2 then some { q with reserved := q.reserved ++ [e] } else none
  else if q.ordinary.length < (netSlots u).1 ∧ q.takes e.msg then some { q with ordinary := q.ordinary ++ [e] }
  else if e.msg.sev.toNat = 2 ∧ minSev q.ordinary < 2 then some (q.displace e)
  else none

/-- Every message of a queue: reserved, own, ordinary. -/
def Queue.all (q : Queue) : List QEntry := q.reserved ++ q.own ++ q.ordinary

/-- An entry is served before another: the more severe first, then the earlier arrival, and of arrivals in one cycle the
lower SOURCE (R216, R217). -/
def QEntry.before (e f : QEntry) : Bool :=
  decide (f.msg.sev.toNat < e.msg.sev.toNat)
    || (decide (e.msg.sev = f.msg.sev) && (decide (e.at_ < f.at_)
      || (decide (e.at_ = f.at_) && decide (e.msg.source.toNat < f.msg.source.toNat))))

/-- The entry that is served first of those that satisfy a test, with its place, from place `i` on (R217). -/
def bestFrom (want : QEntry → Bool) : Nat → List QEntry → Option (Nat × QEntry) → Option (Nat × QEntry)
  | _, [], b => b
  | i, e :: r, b =>
    let b' := match b with
      | none => if want e then some (i, e) else none
      | some (j, f) => if want e && e.before f then some (i, e) else some (j, f)
    bestFrom want (i + 1) r b'

/-- The message a queue serves next (R217). -/
def Queue.best (q : Queue) (want : QEntry → Bool) : Option (Nat × QEntry) := bestFrom want 0 q.all none

/-- Change or remove the entry at a place. -/
def updAt (f : QEntry → Option QEntry) : Nat → List QEntry → List QEntry
  | _, [] => []
  | 0, e :: r => (match f e with | none => r | some x => x :: r)
  | n + 1, e :: r => e :: updAt f n r

/-- Change or remove the entry at a place of `Queue.all`. -/
def Queue.upd (q : Queue) (i : Nat) (f : QEntry → Option QEntry) : Queue :=
  let r := q.reserved.length
  let o := r + q.own.length
  if i < r then { q with reserved := updAt f i q.reserved }
  else if i < o then { q with own := updAt f (i - r) q.own }
  else { q with ordinary := updAt f (i - o) q.ordinary }

/-- The queue of a unit. -/
def State.queueOf (s : State) : NetUnit → Queue
  | .agent i => (s.agent i).queue
  | .conc i => (s.conc i).queue
  | .engine i => (s.engine i).queue
  | .linkEnd i => (s.linkEnd i).queue
  | .hub h => (s.hub h).intake

/-- Write the queue of a unit. -/
def State.setQueue (s : State) (u : NetUnit) (q : Queue) : State :=
  match u with
  | .agent i => s.modAgent i (fun x => { x with queue := q })
  | .conc i => s.modConc i (fun x => { x with queue := q })
  | .engine i => s.modEngine i (fun x => { x with queue := q })
  | .linkEnd i => s.modLink i (fun x => { x with queue := q })
  | .hub h => s.modHub h (fun x => { x with intake := q })

/-- A unit emits a message: it stamps STAMP and SEQ and puts it into its own queue (R202, R219). -/
def State.emit (s : State) (u : NetUnit) (m : Msg) : State :=
  let q := s.queueOf u
  s.setQueue u ({ q with seq := q.seq + 1 }.origin u { m with stamp := s.stamp, seq := q.seq } s.now)

/-- An agent reports an event of its own (R147, R200). -/
def State.report (s : State) (a : Nat) (kind : Byte) (sev : BitVec 3) (addr : Addr) (job : Job) : State :=
  s.emit (.agent a) { source := srcId 0 a, kind := kind, sev := sev, addr := addr, job := job }

/-! ### Management events (R404) -/

/-- Sensor events are generated: in every mode but the disabled one (R404). -/
def Mgmt.sensing (m : Mgmt) : Bool := !(m.receiver && decide (m.mode = .disabled))

/-- An event of the management endpoint; in disabled mode only dailies are held (R404). -/
def State.mgmtPush (s : State) (e : MgmtEvent) : State :=
  let isDaily := match e with | .daily _ => true | _ => false
  if s.mgmt.active && (isDaily || s.mgmt.sensing) then
    { s with mgmt := { s.mgmt with events := s.mgmt.events ++ [e] } }
  else s

/-- HUB_STATE.STATE of a hub changes; the serving hub's change is a sensor event (R403). -/
def State.setSt (s : State) (h : HubId) (x : HubSt) : State :=
  let s' := s.modHub h (fun k => { k with st := x })
  if (s.hub h).st ≠ x ∧ h = s.twin.serving then s'.mgmtPush (.sensor 0x0100 (x.code + 1)) else s'

/-- RUN and DEGRADED follow FAULTED (R208, R464). -/
def State.syncState (s : State) (h : HubId) : State :=
  match (s.hub h).st with
  | .run => if (s.hub h).faulted then s.setSt h .degraded else s
  | .degraded => if (s.hub h).faulted then s else s.setSt h .run
  | _ => s

/-- TWIN_STS.MODE changes (R288, R403). -/
def State.setMode (s : State) (m : Nat) : State :=
  let s' := { s with twin := { s.twin with mode := m } }
  if s.twin.mode ≠ m then s'.mgmtPush (.sensor 0x0101 (m + 1)) else s'

/-! ### Commands (R461) -/

/-- A busy command ends with a code. -/
def State.endCmd (s : State) (code : Nat) : State :=
  { s.modHubs (fun h => { h with irq := h.irq ||| 8#32 }) with cmd := { s.cmd with code := code } }

/-- A command of an operation is in progress. -/
def State.busyWith (s : State) (op : Nat) : Bool := decide (s.cmd.code = 1 ∧ s.cmd.op = op)

/-- A WRAP in progress ends DONE, and the state is WRAP (R261, R463); one that has ended TIMEOUT leaves the state as it is (R461). -/
def State.endWrap (s : State) : State :=
  if s.busyWith 0xB then (s.eachHub (fun h s => s.setSt h .wrap)).endCmd 0 else s

/-- No launch is pending, no launched step open, no retake record open and no trot-up in progress (R462). -/
def State.quiet (s : State) : Bool :=
  s.jobs.entries.all (fun e => e.2.pending.isNone && e.2.opens.isEmpty) && s.retakes.entries.all (fun e => !(e.2.used && decide (e.1 < 64)))
    && s.test.trots.isEmpty

/-- A QUIESCE in progress ends once everything is quiet; the state is then READY (R462, R463). -/
def State.endQuiesce (s : State) : State :=
  if s.busyWith 4 && s.quiet && (s.hub s.twin.leader).st.running then
    (s.eachHub (fun h s => s.setSt h .ready)).endCmd 0
  else s

/-! ### The reel (R211, R222, R223, R305) -/

/-- Write an entry into the ring. -/
def Hub.reelPut (h : Hub) (m : Msg) : Hub :=
  let head := h.reelHead + 1
  { h with reel := h.reel.set {} (h.reelHead.toNat % 65536) m, reelHead := head,
           reelWraps := if (head - h.reelBase).toNat % 65536 = 0 then satInc h.reelWraps else h.reelWraps }

/-- The reel records entries: after an S4 at most 4,096 more (R223). -/
def Hub.reelOpen (h : Hub) : Bool :=
  match h.afterS4 with
  | none => true
  | some n => decide (n < 4096)

/-- The reel records an entry, or counts one that it does not record (R223). -/
def Hub.reelWrite (h : Hub) (m : Msg) : Hub :=
  if h.reelOpen then { h.reelPut m with afterS4 := h.afterS4.map (· + 1) } else { h with reelStopped := satInc h.reelStopped }

/-- Set the sticky bit of a source (R211). -/
def Hub.stick (h : Hub) (m : Msg) : Hub :=
  match srcPos m.source with
  | none => h
  | some p => { h with sticky := h.sticky.mod 0 (p / 32) (fun w => w ||| at32 1 (p % 32)) }

/-- A snapshot of the first BUS channel that is judged (R305). -/
def State.snapshot (s : State) (h : HubId) (c : Nat) : State :=
  s.modHub h (fun k =>
    let x := k.chans.get {} c
    let n : Snapshot := { chan := c, stamp := x.ringStamp, samples := x.ring, taken := s.now }
    { k with snaps := (k.snaps ++ [n]).drop (k.snaps.length + 1 - 4) })

/-- An S3 or S4 takes a snapshot (R305). -/
def State.severeSnapshot (s : State) (h : HubId) (m : Msg) : State :=
  if 3 ≤ m.sev.toNat then
    match (s.chansOf 3).find? (fun c => !((s.hub h).fences? (4384 + c))) with
    | none => s
    | some c => s.snapshot h c
  else s

/-- Record an entry: reel, sticky bit, snapshot. -/
def State.record (s : State) (h : HubId) (m : Msg) : State :=
  (s.modHub h (fun k => (k.reelWrite m).stick m)).severeSnapshot h m

/-! ### Dailies (R406 to R411) -/

/-- The condition of R406. -/
def dailyDue (m : Msg) : Bool :=
  decide (3 ≤ m.sev.toNat) || decide (m.kind.toNat ∈ [0x14, 0x17, 0x43, 0x44])

/-- The full time of a 19-bit stamp in units of 2²⁰ ns: the latest one not after `now` (R81). -/
def stampTime (now st : Nat) : Nat :=
  let c := now / 2 ^ 20
  c - (c + 2 ^ 19 - st % 2 ^ 19) % 2 ^ 19

/-- The (job, time) of every entry of an agent's ring and of its ring of failing groups. -/
def ringTimes (g : Agent) (now : Nat) : List (Nat × Nat) :=
  g.ring.entries.map (fun e => (bits e.2 31 24, stampTime now (bits e.2 18 0)))
    ++ g.groupRing.entries.map (fun e => (bits e.2 79 72, stampTime now (bits e.2 18 0)))

/-- Keep the earliest and the latest time of a job. -/
def addDailyJob : Nat × Nat → List DailyJob → List DailyJob
  | (j, t), [] => [{ job := BitVec.ofNat 8 j, earliest := BitVec.ofNat 64 (t * 2 ^ 20),
                     latest := BitVec.ofNat 64 (t * 2 ^ 20) }]
  | (j, t), d :: r =>
    if j < d.job.toNat then
      { job := BitVec.ofNat 8 j, earliest := BitVec.ofNat 64 (t * 2 ^ 20), latest := BitVec.ofNat 64 (t * 2 ^ 20) }
        :: d :: r
    else if j = d.job.toNat then
      { d with earliest := BitVec.ofNat 64 (min d.earliest.toNat (t * 2 ^ 20)),
               latest := BitVec.ofNat 64 (max d.latest.toNat (t * 2 ^ 20)) } :: r
    else d :: addDailyJob (j, t) r

/-- The touched set of an agent, by job, and whether it is complete (R193, R194, R410). -/
def touched (g : Agent) (f now : Nat) : List DailyJob × Bool :=
  let t0 := g.lastPass.toNat
  let es := (ringTimes g now).filter (fun e => decide (t0 / 2 ^ 20 ≤ e.2 ∧ e.2 ≤ f / 2 ^ 20))
  let old := (g.ring.entries.map (fun e => stampTime now (bits e.2 18 0))).foldl min (now / 2 ^ 20)
  ((es.foldl (fun l e => addDailyJob e l) []).take 8,
    decide ((g.ringLost = g.lostAtPass ∨ old < t0 / 2 ^ 20) ∧ f - t0 < 2 ^ 39))

/-- The packed word of a paddock entry (R243). -/
def PadEntry.pack (e : PadEntry) : W64 :=
  if e.valid then
    BitVec.ofNat 64 (e.agent * 2 ^ 52 + 2 ^ 51 + b2n e.tile * 2 ^ 50 + b2n e.agentSus * 2 ^ 49
      + (match e.state with | .watch => 0 | .due => 1 | .testing => 2 | .deferred => 3) * 2 ^ 47
      + e.clean * 2 ^ 43 + e.events * 2 ^ 39 + e.cause * 2 ^ 36 + b2n e.gap * 2 ^ 35 + b2n e.dirty * 2 ^ 34
      + e.due / 2 ^ 26 % 2 ^ 32)
  else 0

/-- The slot of an agent's paddock entry. -/
def Hub.padSlot (h : Hub) (a : Nat) : Option Nat :=
  (h.paddock.entries.find? (fun e => e.2.valid && decide (e.2.agent = a))).map (·.1)

/-- The paddock entry of an agent. -/
def Hub.pad? (h : Hub) (a : Nat) : Option PadEntry := (h.padSlot a).map (fun i => h.paddock.get {} i)

/-- The entries of the trigger's source that the reel took before the trigger, most recent first, at most 8 (R410). -/
def Hub.contextOf (h : Hub) (trigger : Msg) : List Msg :=
  let n := h.reelHead.toNat
  let l := (List.range (min n 65536)).map (fun i => h.reel.get {} ((n - 1 - i) % 65536))
  (((l.dropWhile (fun m => decide (m ≠ trigger))).drop 1).filter (fun m => decide (m.source = trigger.source))).take 8

/-- The lowest CPER severity held (R408): S0 below S1 below S2 and S3 below S4. -/
def cperRank (m : Msg) : Nat := match m.sev.toNat with | 0 => 0 | 1 => 1 | 4 => 3 | _ => 2

/-- Remove the last daily of the lowest rank. -/
def dropDaily (r : Nat) (l : List Daily) : List Daily :=
  let rec go : List Daily → List Daily
    | [] => []
    | d :: t => if cperRank d.trigger = r then t else d :: go t
  (go l.reverse).reverse

/-- Hold a daily (R407): 30 ordinary places, and 2 that dailies of an S4 take first. -/
def Hub.holdDaily (h : Hub) (d : Daily) : Hub :=
  let h := { h with dailiesBuilt := satInc h.dailiesBuilt, dailyDropped := false }
  let ord := h.dailies.filter (fun x => decide (x.trigger.sev ≠ 4#3))
  let stops : Nat := h.dailies.length - ord.length
  let low := ord.foldl (fun a x => min a (cperRank x.trigger)) 9
  if ord.length + (stops - 2) < 30 ∨ (d.trigger.sev = 4#3 ∧ stops < 2) then
    { h with dailies := h.dailies ++ [d] }
  else if low < cperRank d.trigger then
    { h with dailies := dropDaily low h.dailies ++ [d], dailiesDropped := satInc h.dailiesDropped, dailyDropped := true }
  else { h with dailiesDropped := satInc h.dailiesDropped, dailyDropped := true }

/-- The most recent snapshot within 10 ms before an event (R305). -/
def Hub.snapFor (h : Hub) (now : Nat) : Option Snapshot :=
  match h.snaps.getLast? with
  | none => none
  | some x => if now ≤ x.taken + 10000000 then some x else none

/-- The endpoint sends its events itself (R404). -/
def Mgmt.sends (m : Mgmt) : Bool := m.receiver && decide (m.mode = .async ∨ m.mode = .keepAlive)

/-- On an S4 the hub-state event and the S4's daily come before every other event held; the event is one of its own, though the state
may be STOPPED already (R405). In disabled mode there are no sensor events (R404). -/
def State.stopEvents (s : State) (h : HubId) (seq : W32) : State :=
  let e : MgmtEvent := .sensor 0x0100 ((s.hub h).st.code + 1)
  let d : MgmtEvent := .daily seq
  let l := if s.mgmt.sends then s.mgmt.events else s.mgmt.polled ++ s.mgmt.events
  let l' := (if s.mgmt.sensing then [e] else []) ++ l.filter (fun x => decide (x = d)) ++ l.filter (fun x => decide (x ≠ e ∧ x ≠ d))
  if !s.mgmt.active then s
  else { s with mgmt := { s.mgmt with events := l', polled := if s.mgmt.sends then s.mgmt.polled else [] } }

/-- Events of dailies that a hub no longer holds are gone (R407). -/
def State.dropLostDailies (s : State) (h : HubId) : State :=
  let keep (e : MgmtEvent) : Bool := match e with
    | .daily n => (s.hub h).dailies.any (fun x => decide (x.seq = n))
    | _ => true
  { s with mgmt := { s.mgmt with events := s.mgmt.events.filter keep, polled := s.mgmt.polled.filter keep } }

/-- Build the daily of an entry that the reel has recorded, after its reaction (R406, R410): `t` is the state in which the entry came,
`f` the end of a failing test. -/
def State.buildDaily (s t : State) (h : HubId) (m : Msg) (f : Nat) : State :=
  if dailyDue m && (t.hub h).reelOpen then
    let k := s.hub h
    let p := (srcPos m.source).getD 0
    let isAgent := decide (srcGroup m.source = 0)
    let g := s.agent p
    let test := decide (m.kind.toNat = 0x43 ∨ m.kind.toNat = 0x44)
    let tt := touched g f s.clk
    let d : Daily :=
      { seq := k.dailiesBuilt, number := k.dailiesBuilt - k.dailyBase, trigger := m, stepClock := s.clock.count, state := k.st.code,
        twin := s.twin.mode + 8 * hubIdx s.twin.leader + 16 * hubIdx s.twin.serving,
        snapshot := k.snapFor s.now, touchedComplete := test && tt.2, droppedBefore := k.dailyDropped,
        jobs := if test then tt.1 else [], recovery := (k.src p).recovery, bucket := (k.src p).bucket,
        paddock := if isAgent then ((k.pad? p).map PadEntry.pack).getD 0 else 0,
        lastPass := if isAgent then g.lastPass else 0, lostAtPass := if isAgent then g.lostAtPass else 0,
        ringLost := if isAgent then g.ringLost else 0, failClock := if test then BitVec.ofNat 64 f else 0,
        temps := (List.range 8).map (fun d => match s.dieTemp h d with
          | none => 0x8000#16 | some x => BitVec.ofInt 16 x),
        curb := t.curbSts, margin := if isAgent then g.margin else 0, context := k.contextOf m }
    let s := s.modHub h (·.holdDaily d)
    let held := (s.hub h).dailies.any (fun x => decide (x.seq = d.seq))
    if h = s.twin.serving then
      let s := s.dropLostDailies h
      let s := if held then s.mgmtPush (.daily d.seq) else s
      if m.sev = 4#3 then s.stopEvents h d.seq else s
    else s
  else s

/-! ### The cross-link's queues (R271, R279) -/

/-- The sender of a hub. -/
def State.xsend (s : State) : HubId → XSend
  | .a => s.xlink.a
  | .b => s.xlink.b

/-- Change the sender of a hub. -/
def State.modX (s : State) (h : HubId) (f : XSend → XSend) : State :=
  match h with
  | .a => { s with xlink := { s.xlink with a := f s.xlink.a } }
  | .b => { s with xlink := { s.xlink with b := f s.xlink.b } }

/-- The MIRROR queue of a hub is full (R271). -/
def State.mirrorFull (s : State) (h : HubId) : Bool := decide (256 ≤ (s.xsend h).mirrors.length)

/-- A hub-generated entry goes to the other hub as a MIRROR frame (R279). One that finds the queue full is not sent: the
digests bring the hubs together again (R281). DESIGN CHOICE (log 88). -/
def State.mirrorOut (s : State) (h : HubId) (m : Msg) : State :=
  if s.pairUp && !s.mirrorFull h then s.modX h (fun x => { x with mirrors := x.mirrors ++ [m] }) else s

/-- A write is mirrored to the other hub as a REG_WRITE frame (R275, R454). -/
def State.mirrorWrite (s : State) (a : Nat) (data : W32) : State :=
  if s.pairUp then
    s.modX s.twin.serving (fun x => { x with writes := x.writes ++ [(BitVec.ofNat 16 a, data)] })
  else s

/-- The serving hub answers; while no hub is left none does (R292). -/
def State.answers (s : State) : Bool := s.hubUp s.twin.serving

/-- A write on the register port: RP_ACK rises once it has taken effect; no hub, no answer (R432, R433, R454). That RP_ACK falls after
RP_REQ no row of the table shows (log 113). -/
def State.portDo (s : State) (f : State → State) : State := if s.answers then (f s).present .rpWritten else s

/-- A message of the hub's own: with the hub's SEQ, or with the SEQ and STAMP of the message that causes it (R202). -/
def State.hubMsg (s : State) (h : HubId) (src : BitVec 16) (kind : Byte) (sev : BitVec 3) (addr : Addr) (job : Job)
    (by_ : Option Msg := none) : Msg × State :=
  match by_ with
  | some c => ({ source := src, kind := kind, sev := sev, addr := addr, job := job, stamp := c.stamp, seq := c.seq }, s)
  | none => ({ source := src, kind := kind, sev := sev, addr := addr, job := job, stamp := s.stamp, seq := (s.hub h).intake.seq },
      s.modHub h (fun k => { k with intake := { k.intake with seq := k.intake.seq + 1 } }))

/-- An entry the hub generates: recorded, mirrored, a daily where R406 asks for one. -/
def State.generate (s : State) (h : HubId) (m : Msg) : State :=
  ((s.record h m).mirrorOut h m).buildDaily s h m s.clk

/-- An entry generated under R212 or R213 raises IRQ_STS.ENTRY (R210). -/
def State.generateIrq (s : State) (h : HubId) (m : Msg) : State :=
  (s.generate h m).modHub h (fun k => { k with irq := k.irq ||| 2#32 })

/-! ### Fences (R207, R228, R425) -/

/-- The hub orders agents fenced; the agent takes the order up with FENCE_ORDER. -/
def State.orderFences (s : State) (h : HubId) (l : List Nat) : State :=
  s.modHub h (fun k =>
    { k with fences := l.foldl (fun f a => if f.any (fun e => decide (e.1 = a)) then f else f ++ [(a, s.now)]) k.fences })

/-- The hub ends the orders of agents that nothing else keeps in its fenced set. -/
def State.endFences (s : State) (h : HubId) (l : List Nat) : State :=
  s.modHub h (fun k =>
    { k with fences := k.fences.filter (fun e => !(l.contains e.1) || s.fencedAt h e.1) })

/-! ### The paddock (R235 to R243) -/

/-- interval(x) of R241, in ns. -/
def State.padInterval (s : State) (e : PadEntry) : Nat :=
  min s.bands.tpMax (max s.bands.tpMin (s.tp0 / 2 ^ e.events)) * 1000000000

/-- on_further_event (R241). -/
def State.furtherPad (s : State) (e : PadEntry) : PadEntry :=
  let e := { e with events := min (e.events + 1) 15, clean := 0, dirty := true }
  { e with due := min e.due (s.clk + s.padInterval e) }

/-- A further event for a unit that has an entry. -/
def State.furtherEvent (s : State) (h : HubId) (a : Nat) : State :=
  match (s.hub h).padSlot a with
  | none => s
  | some i => s.modHub h (fun k => { k with paddock := k.paddock.mod {} i s.furtherPad })

/-- The paddock indication of an agent follows the entries of the acting hubs (R238, R427). -/
def State.syncPaddock (s : State) (a : Nat) : State :=
  let lvl := s.upHubs.any (fun h => ((s.hub h).padSlot a).isSome)
  if (s.agent a).paddock = lvl then s
  else (s.modAgent a (fun g => { g with paddock := lvl })).present (.paddock a lvl)

/-- Remove a unit's entry (R237); a deferral of its trot-up ends with it (R245). -/
def State.removePad (s : State) (h : HubId) (a : Nat) : State :=
  match (s.hub h).padSlot a with
  | none => s
  | some i =>
    let s := s.modHub h (fun k => { k with paddock := k.paddock.set {} i {} })
    let s := { s with test := { s.test with deferredSince := s.test.deferredSince.filter (fun e => decide (e.1 ≠ a)) } }
    s.syncPaddock a

/-- The unit leaves the paddock by the exit rule: its entry is removed, and the leader counts it (R237, R242). -/
def State.exitPad (s : State) (h : HubId) (a : Nat) : State :=
  let n := ((s.hub h).padSlot a).isSome && decide (h = s.twin.leader)
  let s := s.removePad h a
  if n then { s with test := { s.test with exits := satInc s.test.exits } } else s

/-! ### The commit channel (R166, R174, R196, R424) -/

/-- The job is aborted at an acting hub, and its entry has not been popped. -/
def State.jobAborted (s : State) (j : Job) : Bool := s.upHubs.any (fun h => (s.hub h).aborted.contains j.toNat)

/-- Put a presentation on an agent's commit channel. A commit is withheld after an S4, without a hub, from WRAP on, and at a
fenced agent (R196, R209, R258, R292). -/
def State.presentCmt (s : State) (a : Nat) (c : Cmt) : State :=
  if !c.poison && (s.noCommit || (s.agent a).fence) then s
  else
    let free := (s.agent a).cmt.isEmpty
    let s := s.modAgent a (fun g => { g with cmt := g.cmt ++ [c] })
    if free then s.present (.cmt a c) else s

/-! ### Outcomes not yet reached, by job and step (R172) -/

/-- Change a count. -/
def addOpen (job : Job) (step : W64) (f : Nat → Nat) : List OpenCount → List OpenCount
  | [] => if f 0 = 0 then [] else [{ job := job, step := step, n := f 0 }]
  | x :: r => if x.job = job ∧ x.step = step then (if f x.n = 0 then r else { x with n := f x.n } :: r)
    else x :: addOpen job step f r

/-- A task or group of a step is accepted at an agent. -/
def State.openInc (s : State) (a : Nat) (job : Job) (step : Option W64) : State :=
  match step with
  | none => s
  | some st => s.modConc (s.build.clusterOf a) (fun c => { c with opens := addOpen job st (· + 1) c.opens })

/-- A task or group of a step reaches an outcome that lets its gate open. One that fails stays in the count until its record
settles (R172), and one that ends poisoned stays in it until the abort of its job (R37). -/
def State.openDec (s : State) (a : Nat) (job : Job) (step : Option W64) : State :=
  match step with
  | none => s
  | some st => s.modConc (s.build.clusterOf a) (fun c => { c with opens := addOpen job st (· - 1) c.opens })

/-! ### Retake records (R189) -/

/-- The STAMP of a decision taken now: step-clock bits [41:10]. -/
def State.stamp32 (s : State) : W32 := BitVec.ofNat 32 (s.clk / 1024)

/-- A run has an account that the decision weighs (R185). -/
def Run.acc (x : Run) : Option Account :=
  match x.account with
  | none => none
  | some a => if x.lost || !a.scalars || !a.crcGood || decide (a.verdict = .inconclusive) then none else some a

/-- The log entry of a record that closes. -/
def Retake.logOf (r : Retake) (dec : Nat) (blame : Nat → Nat) : RetakeLog :=
  let aud (i : Nat) : Nat := match (r.runs.drop i).head? with
    | none => 3
    | some x => match x.acc with
      | none => 3
      | some a => match a.audit with | .none => 0 | .ok => 1 | .bad => 2
  let ag (i : Nat) : Nat := ((r.runs.drop i).head?.map (·.agent)).getD 0
  { task := r.task, job := r.job, decision := dec, runs := r.runs.length, blame1 := blame 0, blame2 := blame 1,
    blame3 := blame 2, agent1 := ag 0, agent2 := ag 1, agent3 := ag 2,
    audit2 := if r.runs.length < 2 then 0 else aud 1, audit3 := if r.runs.length < 3 then 0 else aud 2,
    bounded := r.bounded, stamp := r.stamp }

/-- A failed task that waits for its hand-off goes. -/
def Agent.dropEnded (g : Agent) (task : W32) (job : Job) : Agent :=
  { g with ctxs := g.ctxs.filter (fun x => !(x.ended && decide (bits x.desc 255 224 = task.toNat ∧ bits x.desc 223 216 = job.toNat))) }

/-- Log a decision about a task: ring entry and counter (R189), and free its account entries, one still to be handed off
among them (R177, R188). -/
def State.logRetake (s : State) (r : Retake) (dec : Nat) (blame : Nat → Nat) : State :=
  let agents := r.runs.map (·.agent)
  let s := { s with retakeLog := s.retakeLog.set none (s.logHead.toNat % 64)
                      (some (r.logOf dec blame)),
                    logHead := s.logHead + 1, decCnt := s.decCnt.mod 0 dec satInc }
  s.each agents (fun a s => (s.modConc (s.build.clusterOf a) (fun c =>
    { c with accounts := c.accounts.filter (fun x => !(decide (x.agent = a ∧ x.task = r.task ∧ x.job = r.job))) })).modAgent a
    (·.dropEnded r.task r.job))

/-- A record number that no record has: a run whose record has closed serves it. -/
def closedRecord : Nat := 2 ^ 40

/-- The contexts of a closed record at an agent: one that waits for the order is freed, one still running serves no
record (R166, R188). -/
def Agent.releaseRuns (g : Agent) (n : Nat) : Agent :=
  { g with ctxs := (g.ctxs.filter (fun x => !(decide (x.retake = some n) && x.waiting))).map (fun x =>
             if x.retake = some n then { x with retake := some closedRecord } else x),
           retakeBind := if g.retakeBind = some n then some closedRecord else g.retakeBind,
           sc := g.sc.map (fun o => if o.op = 1 ∧ o.record = n then { o with stale := true } else o) }

/-- A run of a record that ended before its descriptor came: the descriptor is bound to it all the same (R179). -/
def Agent.bindClosed (g : Agent) (n : Nat) : Agent :=
  { g with retakeBind := if g.retakeBind = some n then some closedRecord else g.retakeBind }

/-- The task of a record that settles leaves the count of its step (R172). -/
def State.settled (s : State) (r : Retake) : State :=
  match r.runs.head? with
  | none => s
  | some x => s.openDec x.agent r.job r.step

/-- Close a record with a decision code. -/
def State.closeRetake (s : State) (n : Nat) (dec : Nat) (blame : Nat → Nat) : State :=
  let r := s.retake n
  let s := s.each r.runs (fun x s => s.modAgent x.agent (·.releaseRuns n))
  let s := if dec ≤ 3 then s.settled r else s
  ({ s with retakes := s.retakes.set {} n {} }.logRetake r dec blame).endQuiesce

/-- The open records that satisfy a test, by number. -/
def State.openRetakes (s : State) (f : Retake → Bool) : List Nat :=
  (s.retakes.entries.filter (fun e => e.2.used && decide (e.1 < 64) && f e.2)).map (·.1)

/-- The entry KIND 0x14 of a decision (R204): S1 for a settling code, S2 otherwise; it carries the SEQ and STAMP of the
FAIL that opened the record (R202). -/
def Retake.entry (r : Retake) (dec : Nat) : Msg :=
  { source := srcId 0 ((r.runs.head?.map (·.agent)).getD 0), kind := 0x14, sev := if dec ≤ 3 then 1 else 2,
    addr := r.base, job := r.job, stamp := r.cause.1, seq := r.cause.2 }

/-- The entry of a record that ends ABORTED. -/
def State.abortedEntry (s : State) (h : HubId) (r : Retake) : State :=
  (s.generate h (r.entry 8)).modHub h (fun k => { k with irq := k.irq ||| 1#32 })

/-- On an S4 every open record ends ABORTED; its blocks stay pending (R191, R209). -/
def State.stopRetakes (s : State) (h : HubId) : State :=
  s.each (s.openRetakes (fun _ => true)) (fun n s =>
    ((s.modRetake n (fun r => { r with stamp := s.stamp32 })).closeRetake n 8 (fun _ => 0)).abortedEntry h (s.retake n))

/-- A job's open records end ABORTED: the hub's poison order to the agent of the most recent run is outstanding
(R166, R174, R191). -/
def State.abortRetakes (s : State) (j : Nat) : State :=
  s.each (s.openRetakes (fun r => decide (r.job.toNat = j ∧ r.phase ≠ .poisoning))) (fun n s =>
    (s.modRetake n (fun r =>
      { r with phase := .poisoning, decision := 8, since := s.now, stamp := s.stamp32 })).abortedEntry s.twin.leader (s.retake n))

/-! ### Beacons that carry slates (R339, R340, R359) -/

/-- The current step of a job's slate. -/
def JobSt.stepNo (j : JobSt) : W64 :=
  BitVec.ofNat 64 ((j.slate.get 0 2).toNat + 2 ^ 32 * (j.slate.get 0 3).toNat)

/-- The harness digest's first `n` bytes. -/
def State.harnessBytes (s : State) (n : Nat) : List Byte := (s.harness.digest.flatMap (fun w => bytesBE 4 w.toNat)).take n

/-- The slice of the entry that applies to a port. -/
def State.portSlice (s : State) (p : Nat) : Option Nat :=
  if (s.port p).admitted then some (s.port p).slice else (s.port? p).map (·.fld 1 18 15)

/-- SLATE and STEP of a port's beacon: the job that holds its slice, abort beacons after an abort, 0 before READY and
while no job holds the slice (R359). -/
def State.portSlate (s : State) (p : Nat) : W64 × W64 :=
  match s.portSlice p with
  | none => (0, 0)
  | some c => match s.slices.get .free c with
    | .free => (0, 0)
    | .aborted step => (BitVec.allOnes 64, step)
    | .job n => if (s.job n).active && (s.job n).launchedOnce then ((s.job n).digest, (s.job n).stepNo) else (0, 0)

/-- A beacon as its port sends it: v1 on COMPAT ports, v2 on all others (R337, R339, R340). -/
def State.beaconBytes (s : State) (p : Nat) (width : Byte) : List Byte :=
  let e := s.port? p
  let cls := (e.map (·.fld 1 23 21)).getD 0
  let b := if (e.map (fun r => bit (r.word 1) 20)).getD false then
      [0x6C#8, 0x5A#8, 0x01#8, BitVec.ofNat 8 cls] ++ bytesBE 8 s.keys.chipId.toNat ++ bytesBE 2 p ++ [width, 0#8]
        ++ bytesBE 4 idRev.toNat ++ s.harnessBytes 8
    else
      let x := s.portSlate p
      [0x6C#8, 0x5A#8, 0x02#8, 0#8] ++ bytesBE 8 s.keys.chipId.toNat ++ bytesBE 2 p ++ [0#8, 0#8] ++ bytesBE 4 idRev.toNat
        ++ s.harnessBytes 16 ++ [BitVec.ofNat 8 cls, width, 0#8, 0#8] ++ bytesBE 8 x.1.toNat ++ bytesBE 8 x.2.toNat
        ++ [0#8, 0#8, 0#8, 0#8]
  b ++ bytesBE 4 (crc32c b).toNat

/-- A beacon is presented on a port; it waits behind one that the host has not accepted yet (R437, R445). -/
def State.sendBeacon (s : State) (p : Nat) : State :=
  let x := s.port p
  let b := s.beaconBytes p x.bcWidth
  let q := if x.tx.length < 2 then x.tx ++ [b] else x.tx.dropLast ++ [b]
  let s := s.modPort p (fun x => { x with tx := q, lastSent := s.now })
  if x.tx = [] then s.present (.beacon p b) else s

/-- Beacon ports that the plan lists. -/
def State.plannedPorts (s : State) : List Nat := (recsOf 0x71 s.recs).map (·.fld 1 31 24)

/-- Beacon ports of the slices that a launch names. -/
def State.slicePorts (s : State) (mask : BitVec 16) : List Nat :=
  s.plannedPorts.filter (fun p => match s.portSlice p with | none => false | some c => mask.getLsbD c)

/-! ### Job aborts (R37, R137, R174, R195, R482) -/

/-- The abort of a job unbinds its signing streams with no further element, and ends its replay without a report
(R377, R378). -/
def State.abortStreams (s : State) (j : Nat) : State :=
  { s with streams := ⟨s.streams.entries.filter (fun e => !(e.2.bound && decide (e.2.job.toNat = j)))⟩,
           replay := if s.replay.active && decide (s.replay.liveJob.toNat = j) then { s.replay with active := false } else s.replay }

/-- A refusal about a gate of a job is forgotten: the job has no gate to open any more (R37, R293). -/
def State.dropRefused (s : State) (j : Nat) : State :=
  { s with twin := { s.twin with refused := s.twin.refused.filter (fun e =>
      match e.1 with
      | .openGate k _ => decide (k.toNat ≠ j)
      | _ => true) } }

/-- The slices that a job holds, and those that its pending launch names. -/
def State.slicesOf (s : State) (j : Nat) : BitVec 16 :=
  (List.range 16).foldl (fun m i => if s.slices.get .free i = .job j then m ||| (1#16 <<< i) else m)
    (((s.job j).pending.map (·.2)).getD 0)

/-- The abort of a job: the beacons of its slices carry it from now on until a launch names them, and the first leaves at once
(R359, R378). -/
def State.abortBeacons (s : State) (mask : BitVec 16) (step : W64) : State :=
  let s := { s with slices := (List.range 16).foldl (fun m i => if mask.getLsbD i then m.set .free i (.aborted step) else m) s.slices }
  s.each (s.slicePorts mask) (fun p s => s.sendBeacon p)

/-- A beacon that waits for the launch of a job is held no longer (R360). -/
def State.dropHeld (s : State) (j : Nat) : State :=
  { s with ports := s.ports.map {} (fun x => { x with held := x.held.filter (fun y => decide (y.1 ≠ j)) }) }

/-- A job is marked aborted: its slate ends, no launch of it is left, no gate of it opens, its records close, and its slices
carry the abort. -/
def State.markAborted (s : State) (j : Nat) : State :=
  let mask := s.slicesOf j
  let step := (s.job j).stepNo
  let s := (((s.dropRefused j).modJob j (fun x =>
    { x with active := false, pending := none, opens := [], opened := [], launched := false, thawed := x.thawed || x.launched })).abortStreams j).abortRetakes j
  ((s.dropHeld j).abortBeacons mask step).endQuiesce

/-- The leader writes the job's entry into the FIFO, once between two launch pulses (R137, R470). -/
def State.fifoAbort (s : State) (j : Nat) (kind : Byte) : State :=
  if (s.job j).abortRaised || (s.job j).abortHeld then s
  else { s.modJob j (fun x => { x with abortRaised := true, abortHeld := true }) with
         abortFifo := s.abortFifo ++ [{ job := BitVec.ofNat 8 j, kind := kind, stamp := s.clock.count }] }

/-- A hub raises JOB_ABORT for a job; the follower sends the abort to the leader (R482). Between the pop of the job's entry and
its next launch pulse there is no further abort (R137). -/
def State.raiseAbort (s : State) (h : HubId) (job : Job) (kind : Byte) : State :=
  let j := job.toNat
  if (s.job j).abortRaised && !(s.job j).abortHeld then s else
  let s := (s.modHub h (fun k => { k with aborted := setAdd j k.aborted })).markAborted j
  if s.pairUp && decide (h ≠ s.twin.leader) then s.modX h (fun x => { x with aborts := x.aborts ++ [(job, kind)] })
  else s.fifoAbort j kind

/-! ### Chip stop (R209, R312, R405) -/

/-- The curb change entry of a die at a hub (R299). -/
def State.curbEntry (s : State) (h : HubId) (die level : Nat) (ovr : Bool) (by_ : Option Msg := none) : State :=
  let src := srcId 4 ((s.dieChans 1 die).headD 0)
  let (m, s) := s.hubMsg h src 0x22 0 (BitVec.ofNat 48 level) 0 by_
  s.record h { m with ovr := ovr }

/-- Write the curb level of a die at a hub, with THR_EVT and the entry of R299. -/
def State.setCurb (s : State) (h : HubId) (die level : Nat) (ovr : Bool) (by_ : Option Msg := none) : State :=
  if s.curbAt h die = level then s
  else (s.modHub h (fun k => { k with thermal := k.thermal.mod {} die (fun t => { t with curb := level }),
                                      thrEvt := k.thrEvt ||| at32 1 (24 + die) })).curbEntry h die level ovr by_

/-- The round period of 1 ms that a critical die or an S4 sets is logged with OVERRIDE where it lies outside its band (R311, R312);
R200 to R205 have no entry for the period: it is a further one of KIND 0x22, of a die with its curb level. DESIGN CHOICE (log 93). -/
def State.periodEntry (s : State) (h : HubId) (die : Nat) (by_ : Option Msg := none) : State :=
  if 1 < s.bands.roundLo then s.curbEntry h die (s.curbAt h die) true by_ else s

/-- Every curb to 7 and the round period to 1 ms (R312). -/
def State.stopCurbs (s : State) (h : HubId) (by_ : Option Msg := none) : State :=
  let ovr := decide (s.bands.curbHi < 7)
  let s := s.each (List.range s.build.dies) (fun d s => s.setCurb h d 7 ovr by_)
  let s := if (s.hub h).roundMs ≠ 1 then s.periodEntry h 0 by_ else s
  s.modHub h (fun k => { k with roundMs := 1 })

/-- A stage ends with FAIL: the call sheet ends in FAILED_BRINGUP, each hub records KIND 0x47, and START ends with `code`
(R318, R319, R322). -/
def State.failStage (s : State) (cause code good bad : Nat) (by_ : Option Msg := none) : State :=
  match s.stage with
  | none => s
  | some n =>
    let s := { s with stages := s.stages.mod {} n (fun r => { r with cause := cause, status := 4, good := good, bad := bad,
                                                                     duration := (s.now - r.started) / 1000 }),
                      stage := none, keyPort := { s.keyPort with req := false } }
    let s := s.eachHub (fun h s =>
      let (m, s) := (s.setSt h .failedBringup).hubMsg h (srcId 2 (hubIdx h)) 0x47 0 (BitVec.ofNat 48 n) 0 by_
      s.record h m)
    s.endCmd code

/-- GOOD and BAD of a stage that its budget or an S4 ends, as far as its work has gone (R323). -/
def State.stageCounts (s : State) : Nat → Nat × Nat
  | 1 => (s.keyPort.done, 0)
  | 3 =>
    let e := (List.range (2 * s.build.dies)).map s.linkEnd
    ((e.filter (fun l => decide (0 < l.lanes))).length, (e.filter (·.down)).length)
  | 5 =>
    match s.image with
    | none => (0, 0)
    | some (len, _) =>
      let c := (len + 255) / 256
      (((List.range s.build.agents).filter (fun a => s.agentOn a && (List.range c).all (fun i => (s.agent a).image.getLsbD i))).length, 0)
  | 9 =>
    let l := s.ports.entries.filter (fun e => decide (e.2.result ≠ 0))
    ((l.filter (·.2.admitted)).length, (l.filter (fun e => !e.2.admitted)).length)
  | _ => (0, 0)

/-- The stage in progress fails for its budget (1), and START ends DONE, or for an S4 (2), which ends it TIMEOUT (R318, R319, R322,
R478). -/
def State.breakStage (s : State) (cause : Nat) (by_ : Option Msg := none) : State :=
  let c := s.stageCounts (s.stage.getD 10)
  s.failStage cause (if cause = 2 then 5 else 0) c.1 c.2 by_

/-- What the leader has proposed is proposed no longer: its S4 decides (R234, R293). -/
def State.dropProposals (s : State) : State := { s with twin := { s.twin with proposals := [], answer := none } }

/-- Every scan stops; the wrappers stay clamped (R267). -/
def State.stopScans (s : State) : State :=
  s.each ((s.agents.entries.filter (fun e => e.2.scanEnable)).map (·.1)) (fun a s =>
    (s.modAgent a (fun g => { g with scanEnable := false })).present (.scanEnable a false))

/-- Chip stop at a hub (R209); during the call sheet it fails the stage (R319). -/
def State.chipStop (s : State) (h : HubId) (by_ : Option Msg := none) : State :=
  let first := !(s.hub h).s4
  let s := s.modHub h (fun k => { k with s4 := true, afterS4 := k.afterS4 <|> some 0 })
  let s := if first then
      let s := s.breakStage 2 by_
      let s := if (s.hub h).st.pastReady then s.setSt h .stopped else if (s.hub h).st = .bringup then s.setSt h .failedBringup else s
      let s := s.stopCurbs h by_
      let s := s.stopRetakes h
      let s := if h = s.twin.leader then s.dropProposals else s
      let s := s.stopScans
      if s.cmd.code = 1 then s.endCmd 5 else s
    else s
  s

/-! ### Detaching a hub (R283, R284, R292) -/

/-- A scan has ended: a grant that the host gave for the scans alone falls with the last of them (R440). -/
def State.endGrant (s : State) : State :=
  if s.test.tapOnce && !s.test.groupScan && s.test.trots.all (fun t => decide (t.step ≠ 4)) then
    { s with test := { s.test with tapGrant := false } }
  else s

/-- A trot-up is abandoned (R250): the work and a completed save stay, the entry is due at once. -/
def State.abandonTrot (s : State) (t : Trot) : State :=
  let k : Trot := { t with step := min t.step 3, failed := none, passed := none, tapWait := false, oddMeanwhile := false }
  let s := { s with test := { s.test with
      trots := s.test.trots.filter (fun x => decide (x.agent ≠ t.agent)),
      kept := if t.step < 2 then s.test.kept else s.test.kept ++ [k],
      abandoned := satInc s.test.abandoned } }
  let s := if t.step = 4 then s.endGrant else s
  let s := s.modAgent t.agent (fun g => { g with scanEnable := false, secReq := false, secClr := false, tileClr := false })
  (s.eachHub (fun h s => match (s.hub h).padSlot t.agent with
    | none => s
    | some i => s.modHub h (fun k => { k with paddock := k.paddock.mod {} i (fun e => { e with due := s.clk, state := .due }) }))).endQuiesce

/-- After a takeover the survivor sends every daily it still holds; the one in flight may arrive twice (R412). A survivor that served
before goes on with what it sends. -/
def State.handDailies (s : State) (h w : HubId) (served : Bool) : State :=
  if served then s
  else
    let ids := ((s.hub h).dailies.filter (·.sending)).map (fun d => (d.trigger.source, d.trigger.kind, d.trigger.seq, d.trigger.sev, d.trigger.stamp))
    let s := s.modHub w (fun k => { k with dailies := k.dailies.map (fun d =>
      if ids.contains (d.trigger.source, d.trigger.kind, d.trigger.seq, d.trigger.sev, d.trigger.stamp) then
        { d with duplicate := true } else d) })
    let rest (l : List MgmtEvent) : List MgmtEvent := l.filter (fun e => match e with | .daily _ => false | _ => true)
    let l := rest s.mgmt.inFlight.toList ++ rest s.mgmt.events ++ (s.hub w).dailies.map (fun d => MgmtEvent.daily d.seq)
    { s with mgmt := { s.mgmt with inFlight := none, polling := none, resends := 0, events := l, polled := rest s.mgmt.polled } }

/-- The survivor presents every order again that is not acknowledged (R191, R284). -/
def State.representOrders (s : State) : State :=
  s.each (s.agents.entries.map (·.1)) (fun a s =>
    let g := s.agent a
    let s := match g.sc with
      | [] => s
      | o :: _ => if g.scWaitFall then s else s.present (.sc a o)
    if g.fenceReq && !g.fenceAck then s.present (.fenceReq a true) else s)

/-- The hub that RETIRE_TWIN names (R286). -/
def Cmd.named (c : Cmd) : HubId := if bit c.arg0 0 then .b else .a

/-- A hub is detached through the alive cell; the other one takes sole control (R283, R284). What the leader has proposed
and the follower has not refused, the survivor takes on its own state; a refusal stands where the leader survives (R293).
A takeover, which RETIRE_TWIN (mode 2) is not, abandons every trot-up (R267, R284) and decides a RETIRE_TWIN that waits
(R293). -/
def State.detach (s : State) (h : HubId) (mode : Nat) : State :=
  let w := twinHub h
  let stands := s.twin.answer.filter (fun x => !x.2 && decide (s.twin.leader = w))
  let served := decide (s.twin.serving = w)
  let s := { s with twin := { s.twin with
      aAttached := s.twin.aAttached && decide (h ≠ HubId.a), bAttached := s.twin.bAttached && decide (h ≠ HubId.b),
      leader := w, serving := w, answer := stands, arbitration := false },
                    alive := { s.alive with granted := some w } }
  let s := (s.handDailies h w served).setMode mode
  let s := (s.each (s.xsend w).aborts (fun p s => s.fifoAbort p.1.toNat p.2)).modX w (fun x => { x with aborts := [], mirrors := [], writes := [], cut := none, wait := [] })
  if mode = 2 then s
  else
    let s := (s.each s.test.trots (fun t s => s.abandonTrot t)).representOrders
    if s.busyWith 0xA then s.endCmd (if w = s.cmd.named then 6 else 0) else s

/-! ### Fault states (R207, R208, R212, R213) -/

/-- The hub that a group 2 or group 6 source names, or the hub a faulty CLOCK channel runs (R207, R306). -/
def State.hubOfPos (s : State) (p : Nat) : Option HubId :=
  if p = 4352 ∨ p = 8161 then some .a
  else if p = 4353 ∨ p = 8160 then some .b
  else if posGroup p = 4 then
    match s.chan? (p - 4384) with
    | none => none
    | some r => if r.fld 1 22 19 = 4 then
        (if r.fld 1 14 12 = 2 then some .a else if r.fld 1 14 12 = 3 then some .b else none) else none
  else none

/-- A hub claims sole control at the alive cell (R283). -/
def State.claims (s : State) : HubId → Bool
  | .a => s.alive.claimA
  | .b => s.alive.claimB

/-- A source enters its fault state and its unit is fenced (R207). A hub is detached: after a digest mismatch by the
arbitration (R282), unless a silence claim stands, which decides (R293), after a silence that its twin claims by the grant (R283),
otherwise at once. While no other hub takes
part, only the fault state of the hub's own source is an S4 (R287). -/
def State.enterFault (s : State) (h : HubId) (p : Nat) (kind : Byte) (by_ : Option Msg := none) : State :=
  let k := (s.hub h).src p
  if k.fault || k.lame then s
  else
    let s := s.modHub h (fun x => x.modSrc p (fun y => { y with fault := true, quietSince := s.now }))
    let s := s.orderFences h (s.unitAgents p)
    let s := if posGroup p = 0 then s.removePad h p else s
    let s := s.syncState h
    match s.hubOfPos p with
    | none => s
    | some v =>
      if s.pairUp then
        if posGroup p = 6 ∧ kind = 0x18#8 then
          { s with twin := { s.twin with arbitration := !(s.claims .a || s.claims .b) } }
        else if posGroup p = 6 ∧ kind = 0x19#8 ∧ s.claims (twinHub v) then s
        else s.detach v 3
      else if posGroup p ≠ 6 ∧ v = h then s.chipStop h by_
      else s

/-- The serving hub's count of lame sources has changed (R403). -/
def State.lameEvent (s : State) (h : HubId) : State :=
  if h = s.twin.serving then s.mgmtPush (.sensor 0x0103 ((s.hub h).srcs.entries.filter (fun e => e.2.lame)).length) else s

/-- A unit is made lame (R212, R213); it stays fenced and no longer holds FLT_L. -/
def State.makeLame (s : State) (h : HubId) (p : Nat) (by_ : Option Msg := none) : State :=
  let k := (s.hub h).src p
  let s := s.modHub h (fun x => { x.modSrc p (fun y => { y with fault := false, lame := true }) with
    lameSinceReady := x.lameSinceReady || x.st.pastReady })
  let s := s.modHub h (·.count 9)
  let s := s.orderFences h (s.unitAgents p)
  let s := if posGroup p = 0 then s.removePad h p else s
  let (m, s) := s.hubMsg h (posSrc p) 0x17 0 (BitVec.ofNat 48 k.recovery) 0 by_
  let s := s.generateIrq h m
  (s.lameEvent h).syncState h

/-- The bucket step of on_accept (R212) for a message that is not dry. -/
def State.bucketStep (s : State) (h : HubId) (m : Msg) : State :=
  match srcPos m.source with
  | none => s
  | some p =>
    let s := s.modHub h (fun k => k.modSrc p (fun x => { x with quietSince := s.now }))
    let x := (s.hub h).src p
    if x.fault || x.lame then s
    else if 3 ≤ m.sev.toNat then s.enterFault h p m.kind (some m)
    else if m.counts then
      let s := s.furtherEvent h (if posGroup p = 0 then p else 4096)
      if s.grpN (posGroup p) ≤ x.bucket + 1 then
        let s := s.modHub h (fun k => (k.modSrc p (fun y => { y with bucket := 0 })).count 7)
        let pm := { m with sev := 3#3, again := true, dropped := false }
        let t := s
        let s := (s.record h pm).mirrorOut h pm
        let s := s.modHub h (fun k => { k with irq := k.irq ||| 2#32 })
        let s := s.enterFault h p m.kind (some m)
        s.buildDaily t h pm s.clk
      else s.modHub h (fun k => k.modSrc p (fun y => { y with bucket := y.bucket + 1 }))
    else s

/-- A unit enters the paddock at a hub (R235, R236); `by_` is the entry that causes the placement. Only an agent that the
harness enables is a unit (R483). -/
def State.place (s : State) (h : HubId) (a : Nat) (tile agentSus : Bool) (cause : Nat) (by_ : Msg) : State :=
  if (s.hub h).fences? a || !(s.agentOn a) then s
  else
    match (s.hub h).padSlot a with
    | some i =>
      s.modHub h (fun k => { k with paddock := k.paddock.mod {} i (fun e =>
        s.furtherPad { e with tile := e.tile || tile, agentSus := e.agentSus || agentSus }) })
    | none =>
      match (List.range 64).find? (fun i => !((s.hub h).paddock.get {} i).valid) with
      | some i =>
        let e : PadEntry := { valid := true, agent := a, tile := tile, agentSus := agentSus, state := .due, cause := cause, due := s.clk }
        (s.modHub h (fun k => { k with paddock := k.paddock.set {} i e })).syncPaddock a
      | none =>
        let m : Msg := { source := srcId 0 a, kind := by_.kind, sev := 3, again := true, stamp := by_.stamp, seq := by_.seq }
        let t := s
        let s := (s.record h m).mirrorOut h m
        let s := s.enterFault h a by_.kind (some by_)
        s.buildDaily t h m s.clk

/-! ### Acceptance (R206) -/

/-- The reaction to a message that is not dry: bucket and fault state, chip stop, abort (R206). An S4 decides alone
(R234). -/
def State.react (s : State) (h : HubId) (m : Msg) : State :=
  let s := s.bucketStep h m
  if m.sev = 4#3 then s.chipStop h (some m)
  else if s.aborts m then s.raiseAbort h m.job m.kind
  else s

/-- Record a message and raise IRQ_STS.SEVERE at S2 and above (R210). -/
def State.acceptRecord (s : State) (h : HubId) (m : Msg) : State :=
  let s := s.record h m
  if 2 ≤ m.sev.toNat then s.modHub h (fun k => { k with irq := k.irq ||| 1#32 }) else s

/-- A hub records an event that it finds itself, with the full reaction. -/
def State.hubEntry (s : State) (h : HubId) (m : Msg) : State :=
  ((s.acceptRecord h m).react h m).buildDaily s h m s.clk

/-- A hub records an event about a source. -/
def State.note (s : State) (h : HubId) (src : BitVec 16) (kind : Byte) (sev : BitVec 3) (addr : Addr) (job : Job)
    (by_ : Option Msg := none) : State :=
  let (m, s) := s.hubMsg h src kind sev addr job by_
  s.hubEntry h m

/-- A hub records an event of its own making about a source and mirrors it (R279). -/
def State.noteMirror (s : State) (h : HubId) (src : BitVec 16) (kind : Byte) (sev : BitVec 3) (addr : Addr) (job : Job) : State :=
  let (m, s) := s.hubMsg h src kind sev addr job
  (s.hubEntry h m).mirrorOut h m

/-- Every acting hub records an event about a source. -/
def State.noteAll (s : State) (src : BitVec 16) (kind : Byte) (sev : BitVec 3) (addr : Addr) (job : Job) : State :=
  s.eachHub (fun h s => s.note h src kind sev addr job)

/-! ### Consent (R274, R277) -/

/-- The follower refuses: KIND 0x18 against its twin source, ACTION_DISAGREE (R277). -/
def State.refusal (s : State) : State :=
  let l := s.twin.leader
  let s := s.modHub l (fun k => { k with actionDisagree := satInc k.actionDisagree })
  s.note l (srcId 6 (match l with | .a => 0 | .b => 1)) 0x18 1 (BitVec.ofNat 48 s.twin.cutSeq.toNat) 0

/-- The leader has an action to propose (R277). -/
def State.propose (s : State) (x : RelaxAction) : State :=
  { s with twin := { s.twin with proposals := setAdd x s.twin.proposals } }

/-- What the follower's answer about an action rests on (R277). -/
def State.answerState (s : State) (x : RelaxAction) : List Nat :=
  let w := twinHub s.twin.leader
  let f := s.hub w
  b2n f.s4 :: (match x with
    | .unfence p => [b2n (f.src p).lame, b2n (f.src p).fault, (f.src p).quietSince,
        b2n (decide ((f.src p).quietSince + s.grpQ (posGroup p) * 1000000000 ≤ s.now))]
    | .openGate _ _ => f.aborted
    | .settle _ => f.aborted
    | .removePaddock a => [((f.pad? a).map (fun e => e.pack.toNat)).getD 0]
    | .lowerCurb d => [b2n (match s.dieTemp w d, (f.thermal.get {} d).release with
        | some t, some r => decide (t < r)
        | _, _ => false)]
    | .admitPort _ => []
    | .command _ => [])

/-- What the leader's proposal rests on: of the quiet end of a source, and of the passed trot-up of a unit, each is another one. -/
def State.proposalState (s : State) (x : RelaxAction) : List Nat :=
  match x with
  | .unfence p => [(s.ld.src p).quietSince]
  | .removePaddock a => [((s.ld.pad? a).map (fun e => e.pack.toNat)).getD 0]
  | _ => []

/-- The follower has refused an action, and its refusal stands: while its state is the same, and where the leader has taken over
since (R277, R293). -/
def State.refusalStands (s : State) (x : RelaxAction) : Bool :=
  decide (s.twin.answer = some (x, false)) || s.twin.refused.any (fun e => decide (e.1 = x ∧ e.2.1 = s.proposalState x) &&
    (!s.pairUp || decide (e.2.2 = s.answerState x)))

/-- A refusal is kept (R277). -/
def State.keepRefusal (s : State) (x : RelaxAction) : State :=
  { s with twin := { s.twin with refused := s.twin.refused.filter (fun e => decide (e.1 ≠ x)) ++ [(x, s.proposalState x, s.answerState x)] } }

/-- A relaxing action: a hub alone takes it at once, a leader with a twin proposes it, and neither while the follower's refusal
of it stands (R274, R277, R287, R293). -/
def State.relax (s : State) (x : RelaxAction) (act : State → State) : State :=
  if s.refusalStands x then s else if s.pairUp then s.propose x else act s

end Sys2Proof.Machine
end

