-- ==== Sys2Proof/Machine/Projection.lean ====
section
/-! DEFINITION. The arithmetic of a check context: formats and residues (R59), footprints, slots and demands (R62 to R65,
R78, R95, R98, R100), the accumulation of panels (R66 to R68, R94 to R100), and the verdicts (R84, R89, R102). -/

namespace Sys2Proof.Machine

open Sys2Proof

/-! ### Element formats (R59, R421) -/

/-- The width of a format in bits (R421). The PRJ code 0xD of a WPC task gives B elements beside its entry no width: they are
taken as 32 bits wide. DESIGN CHOICE (log 80). -/
def fmtWidth : Nat → Nat
  | 0 | 2 | 3 | 4 => 8
  | 1 | 7 => 4
  | 5 | 6 => 6
  | 8 | 9 => 16
  | _ => 32

/-- The MX formats, which take a block scale (R59). -/
def fmtMX (f : Nat) : Bool := decide (2 ≤ f ∧ f ≤ 7)

/-- An element as R59 maps it: ±m · 2^e. -/
structure Elem where
  m : Nat := 0
  e : Int := 0
  neg : Bool := false
  nonfinite : Bool := false
deriving DecidableEq, Repr

/-- A signed integer of `w` bits with exponent `e`. -/
def intElem (w n : Nat) (e : Int) : Elem :=
  let x := signedNat w n
  { m := x.natAbs, e := e, neg := decide (x < 0) }

/-- A floating value with `eb` exponent bits and `fb` fraction bits: (2^fb + f) · 2^(E−c), or f · 2^(1−c) at E = 0. -/
def floatElem (eb fb : Nat) (c : Int) (nonfin : Nat → Nat → Bool) (n : Nat) : Elem :=
  let f := n % 2 ^ fb
  let x := n / 2 ^ fb % 2 ^ eb
  { m := if x = 0 then f else 2 ^ fb + f, e := if x = 0 then 1 - c else (x : Int) - c,
    neg := decide (n / 2 ^ (fb + eb) % 2 = 1), nonfinite := nonfin x f }

/-- The table of R59, without the block scale. A B element of a WPC task, whose format is the PRJ code 0xD, is read as a 32-bit
integer times 2^E_OUT. DESIGN CHOICE (log 80). -/
def baseElem (fmt n : Nat) (eOut : Int) : Elem :=
  match fmt with
  | 0 => intElem 8 n 0
  | 1 => intElem 4 n 0
  | 2 => intElem 8 n (-6)
  | 3 => floatElem 4 3 10 (fun x f => decide (x = 15 ∧ f = 7)) n
  | 4 => floatElem 5 2 17 (fun x _ => decide (x = 31)) n
  | 5 => floatElem 3 2 5 (fun _ _ => false) n
  | 6 => floatElem 2 3 4 (fun _ _ => false) n
  | 7 => floatElem 2 1 2 (fun _ _ => false) n
  | 8 => floatElem 8 7 134 (fun x _ => decide (x = 255)) n
  | 9 => floatElem 5 10 25 (fun x _ => decide (x = 31)) n
  | 10 => floatElem 8 23 150 (fun x _ => decide (x = 255)) n
  | 11 => intElem 32 n 0
  | _ => intElem 32 n eOut

/-- Decode an element; an MX element takes its block's scale, and scale 0xFF is non-finite (R59, R60). -/
def decodeElem (fmt n : Nat) (scale : Byte) (eOut : Int) : Elem :=
  let x := baseElem fmt n eOut
  if fmtMX fmt then { x with e := x.e + (scale.toNat : Int) - 127, nonfinite := x.nonfinite || decide (scale.toNat = 255) }
  else x

/-- The fold of R48. -/
def fold31 (x : Nat) : Nat :=
  let x := x % 2 ^ 31 + x / 2 ^ 31
  let x := x % 2 ^ 31 + x / 2 ^ 31
  if p31 ≤ x then x - p31 else x

/-- The rotation of R48. -/
def rotate31 (x r : Nat) : Nat := fold31 (x * 2 ^ r % 2 ^ 31 + x / 2 ^ (31 - r))

/-- The residue of an element: M rotated left by e mod 31, negated for a negative value (R59). -/
def Elem.residue (x : Elem) : Nat :=
  let r := rotate31 (x.m % p31) (x.e % 31).toNat
  if x.neg then (if r = 0 then 0 else p31 - r) else r

/-- |M · 2^e| ≥ 2^x. -/
def Elem.atLeast (v : Elem) (x : Int) : Bool := decide (v.m ≠ 0) && decide (x ≤ (v.m.log2 : Int) + v.e)

/-! ### Descriptor fields (R61, R419) -/

def tdTask (d : BitVec 256) : W32 := BitVec.ofNat 32 (dfld d 255 224)
def tdJob (d : BitVec 256) : Job := BitVec.ofNat 8 (dfld d 223 216)
def tdM (d : BitVec 256) : Nat := dfld d 215 203
def tdN (d : BitVec 256) : Nat := dfld d 202 190
def tdK (d : BitVec 256) : Nat := dfld d 189 166
def tdQ (d : BitVec 256) : Nat := dfld d 165 155
def tdFmtA (d : BitVec 256) : Nat := dfld d 154 151
def tdFmtB (d : BitVec 256) : Nat := dfld d 150 147
def tdFmtC (d : BitVec 256) : Nat := dfld d 146 143
def tdEOut (d : BitVec 256) : Int := signedNat 8 (dfld d 142 135)
def tdOrder (d : BitVec 256) : Nat := dfld d 134 133
def tdClass (d : BitVec 256) : Nat := dfld d 132 127
def tdBatch (d : BitVec 256) : Nat := dfld d 126 125
/-- Members of the batch: BCOUNT for a strided batch, otherwise 1. A strided batch with BCOUNT 0, which R61 does not provide
for, counts as one member. DESIGN CHOICE (log 80). -/
def tdMembers (d : BitVec 256) : Nat := if tdBatch d = 2 then max 1 (dfld d 124 113) else 1
/-- RATE in sixteenths; 0 means 16 (R61). -/
def tdRate (d : BitVec 256) : Nat := orDef (dfld d 112 109) 16
def tdWpc (d : BitVec 256) : Bool := bit d 108
def tdWtId (d : BitVec 256) : Nat := dfld d 107 84
def tdBase (d : BitVec 256) : Addr := BitVec.ofNat 48 (dfld d 83 36)
def tdCount (d : BitVec 256) : BitVec 16 := BitVec.ofNat 16 (dfld d 35 20)

/-- MACs of a task. -/
def tdMacs (d : BitVec 256) : Nat := tdM d * tdN d * tdK d * tdMembers d

/-- A fill task (R70). -/
def tdFill (d : BitVec 256) : Bool := decide (tdOrder d = 2)

/-- Panels of one member (R66). -/
def tdPanels (d : BitVec 256) : Nat := if tdQ d = 0 then 0 else (tdK d + tdQ d - 1) / tdQ d

/-- Indices of a panel of the batch. -/
def tdPanelLen (d : BitVec 256) (x : Nat) : Nat :=
  let p := x % max 1 (tdPanels d)
  min (tdQ d * (p + 1)) (tdK d) - tdQ d * p

/-! ### Check classes (R386, R105) -/

/-- The CHECK_CLASS record of a class that holds in an epoch (R105). -/
def State.classAt (s : State) (epoch cls : Nat) : Option Rec :=
  let rs := match s.harness.epochClasses.find? (fun e => decide (e.1 = epoch)) with
    | none => recsOf 0x22 s.recs
    | some e => e.2
  rs.find? (fun r => decide (r.fld 1 31 26 = cls))

/-- The current CHECK_CLASS record of a class; fields that are not hot are the same in every epoch. -/
def State.class? (s : State) (cls : Nat) : Option Rec := s.rec? 0x22 (fun r => decide (r.fld 1 31 26 = cls))

def clsBounded (r : Rec) : Bool := bit (r.word 1) 25
def clsStrict (r : Rec) : Bool := bit (r.word 1) 24
def clsGated (r : Rec) : Bool := bit (r.word 1) 23
/-- f of R79, in sixteenths; LOAD holds f − 1 and 0 selects the default 12/16 (R382, R386). -/
def clsLoad (r : Rec) : Nat := orDef (r.fld 1 19 16) 11 + 1
def clsExactAcc (r : Rec) : Bool := bit (r.word 1) 3
def clsMacRate (r : Rec) : Nat := r.fld 2 31 16
def clsExpA (r : Rec) : Int := signedNat 9 (r.fld 5 8 0)
def clsExpB (r : Rec) : Int := signedNat 9 (r.fld 8 8 0)

def clsFmtA (r : Rec) : Nat := r.fld 1 15 12
def clsFmtB (r : Rec) : Nat := r.fld 1 11 8

/-! ### Formats that a task may name (R46, R68, R108) -/

/-- The harness declares the host's accumulation exact for the task's operand format pair (R46, R386): EXACT_ACC speaks of
the pair that the class declares. The PRJ code of a WPC task names no operand format of the host; it stands for the class's
FMT_B, as FMT_B of a fill does for the slice it folds. DEDUCED (log 81). -/
def exactPair (d : BitVec 256) (c : Rec) : Bool :=
  clsExactAcc c && (tdFill d || (decide (tdFmtA d = clsFmtA c) && (decide (tdFmtB d = 13) || decide (tdFmtB d = clsFmtB c))))

/-- The taps can carry the operand and result formats, and the class's personality accepts the result format. The B tap of
a fill carries elements, never the PRJ code. -/
def formatsOk (d : BitVec 256) (c : Rec) : Bool :=
  let b := decide (tdFmtB d ≤ 10) || (decide (tdFmtB d = 13) && tdWpc d && !(tdFill d))
  decide (tdFmtA d ≤ 10) && b &&
    (if clsBounded c then decide (tdFmtC d ∈ [8, 9, 10]) else decide (tdFmtC d ∈ [11, 12]) && exactPair d c)

/-! ### Footprints, limits and slots -/

/-- Words of the weight store (R64, R98). A fill has no rows: its M counts as 0 here. DESIGN CHOICE (log 80). -/
def footprint (d : BitVec 256) (bounded : Bool) : Nat :=
  let m := if tdFill d then 0 else tdM d
  let n := tdN d
  let strided := decide (tdBatch d = 2)
  if bounded then (m + 1) / 2 + (n + 1) / 2 + 2 * min m n + (if strided then (m + 1) / 2 else 0)
  else
    let b := if tdOrder d = 1 ∨ (tdOrder d = 0 ∧ tdWpc d) then m else 0
    (if strided then n + 2 * m else m + n) + min m n + b

/-- The task exceeds a limit of R62 or R110. -/
def oversize (d : BitVec 256) (bounded : Bool) : Bool :=
  let m := tdM d
  let q := tdQ d
  let k := tdK d
  let bc := tdMembers d
  if tdFill d then decide (4096 < footprint d bounded)
  else
    decide (4096 < footprint d bounded)
      || (decide (tdOrder d = 1) && decide (1024 < k ∨ q ≠ k))
      || (decide (tdOrder d = 0) && decide (q < 1 ∨ (if bounded ∧ q < k then 512 else 1024) < q))
      || (decide (tdOrder d = 0) && tdWpc d && !bounded && decide (1024 < m))
      || (decide (tdBatch d = 2) && decide (4095 * 4096 < bc * m))
      || (bounded && decide (tdBatch d = 2) && decide (2 ^ 31 < bc * m * tdN d))
      || decide (0 < m ∧ 0 < tdN d ∧ (tdCount d).toNat < 1)

/-- Slots of the vector SRAM that an ACCUMULATING context holds (R65, R95). The table has no row for a fill, which takes one
slot whatever its k, and a WPC task whose entry is rejected keeps the slot and the footprint of its descriptor's form, with
several panels too. DESIGN CHOICE (log 80). -/
def slotsOf (d : BitVec 256) (bounded : Bool) : Nat :=
  if bounded then 4
  else if tdFill d then 1
  else if tdOrder d = 1 ∨ tdWpc d ∨ tdK d ≤ tdQ d then 1
  else (16 * tdQ d + 8191) / 8192

/-! ### The lane input queue (R68) -/

/-- Lane operations of a context that wait in the lane input queue with a beat of `n` elements at a cycle; `rate` is what the
lanes take for it in a tile cycle, as a fraction whose denominator is the unit. -/
def Ctx.queued (x : Ctx) (rate : Nat × Nat) (n cyc : Nat) : Nat := x.backlog - rate.1 * (cyc - x.beatAt) + n * rate.2

/-- The beat overruns the lane input queue (R68). The spec gives the queue no depth: it is a free value, of which only a
beat of every tap, 96 elements, is taken as certain (log 82). A task without a demand is not rated. -/
def Ctx.overRate (x : Ctx) (rate : Nat × Nat) (n cyc : Nat) : Bool :=
  let w := x.queued rate n cyc
  decide (rate.1 ≠ 0) && decide (rate.1 + 96 * rate.2 < w) && decide (rate.1 + Config.laneQueue * rate.2 < w)

/-! ### Demand, coverage and selection (R78 to R80, R100) -/

/-- D as a fraction; 0 where the task has no operand elements (R78). -/
def demand (d : BitVec 256) (macRate : Nat) (wpc : Bool) : Nat × Nat :=
  let m := tdM d
  let n := tdN d
  let k := tdK d
  if m = 0 ∨ n = 0 ∨ k = 0 then (0, 1)
  else if wpc then (macRate * (k + n), n * k)
  else (macRate * (n * k + m * k + m * n), m * n * k)

/-- The reducer demand is within its limit (R78, R100). -/
def reducerOk (d : BitVec 256) (macRate : Nat) (wpc bounded : Bool) : Bool :=
  let m := tdM d
  let n := tdN d
  let k := tdK d
  if bounded then decide ((k + min m n) * macRate ≤ m * n * k)
  else if tdOrder d = 0 ∧ !wpc then decide ((k + min m n) * macRate ≤ 2 * (m * n * k))
  else decide (2 * m * macRate ≤ 2 * (m * n * k))

/-- The task is within the coverage rule (R78). A fill counts as within it, and the demand of one whose M field is 0 is 0:
R78 gives no D for a fill. DESIGN CHOICE (log 80). -/
def covered (d : BitVec 256) (macRate lanes : Nat) (wpc bounded : Bool) : Bool :=
  decide (tdK d = 0) || tdFill d ||
    (let x := demand d macRate wpc
     decide (x.1 ≤ lanes * x.2) && reducerOk d macRate wpc bounded)

/-- The selection level L of R79. -/
def selLevel (d : BitVec 256) (macRate lanes load : Nat) (wpc : Bool) : Nat :=
  let x := demand d macRate wpc
  if x.1 = 0 then 256 else min 256 (256 * load * lanes * x.2 / (16 * x.1))

/-- The sampling value z of R53. -/
def sampleZ (key : W64) (task : W32) : Nat := exactWeight key task 3 0 % 256

/-- Sum of two fractions. -/
def fracAdd (a b : Nat × Nat) : Nat × Nat := (a.1 * b.2 + b.1 * a.2, a.2 * b.2)

/-! ### Windows and floating sums (R90, R94, R100, R102) -/

/-- A product placed at a window: rounded towards zero, rounded up, and whether bits were lost. -/
def place (x : Nat) (sh : Int) : Nat × Nat × Bool :=
  if 0 ≤ sh then (x * 2 ^ sh.toNat, x * 2 ^ sh.toNat, false)
  else
    let d := 2 ^ (-sh).toNat
    (x / d, (x + d - 1) / d, decide (x % d ≠ 0))

/-- A 64-bit significand, rounded towards +∞. -/
def UFloat.norm (x : UFloat) : UFloat :=
  if x.sig < 2 ^ 64 then x
  else
    let n := x.sig.log2 + 1 - 64
    let v := (x.sig + 2 ^ n - 1) / 2 ^ n
    if v < 2 ^ 64 then { sig := v, exp := x.exp + n } else { sig := v / 2, exp := x.exp + n + 1 }

/-- A product rounded towards +∞. -/
def UFloat.mul (a b : UFloat) : UFloat := UFloat.norm { sig := a.sig * b.sig, exp := a.exp + b.exp }

/-- A sum rounded towards +∞. -/
def UFloat.add (a b : UFloat) : UFloat :=
  if a.sig = 0 then b.norm
  else if b.sig = 0 then a.norm
  else
    let e := min a.exp b.exp
    UFloat.norm { sig := a.sig * 2 ^ (a.exp - e).toNat + b.sig * 2 ^ (b.exp - e).toNat, exp := e }

/-- A whole number. -/
def UFloat.ofNat (n : Nat) : UFloat := UFloat.norm { sig := n, exp := 0 }

/-- Times a power of two. -/
def UFloat.shift (a : UFloat) (e : Int) : UFloat := { a with exp := a.exp + e }

/-- Rounded towards +∞ to a whole number. -/
def UFloat.ceil (a : UFloat) : Nat :=
  if 0 ≤ a.exp then a.sig * 2 ^ a.exp.toNat else (a.sig + 2 ^ (-a.exp).toNat - 1) / 2 ^ (-a.exp).toNat

/-! ### Reduction (R68, R95, R100) -/

/-- Parameters that a context takes from its class. -/
structure Params where
  key : W64
  expA : Int
  expB : Int
deriving DecidableEq, Repr

/-- W of a bounded task (R91). -/
def Ctx.w (x : Ctx) : Int := tdEOut x.desc

/-- Note an INCONCLUSIVE reason. -/
def Ctx.reason (x : Ctx) (r : Nat) : Ctx := { x with reasons := setAdd r x.reasons }

/-- One index step of the bounded reducer (R100). -/
def Ctx.indexStep (x : Ctx) (q : Params) (l : Nat) : Ctx :=
  let d := q.expA + q.expB - x.w - 6
  let pr := x.p.get 0 l * x.r.get 0 l
  let mag := (place pr.natAbs d).1
  let sh : Int := if pr < 0 then -(mag : Int) else mag
  let s := x.s + sh
  let ovr := decide (2 ^ 127 ≤ mag) || decide (2 ^ 127 ≤ s.natAbs)
  let g := x.g.get 0 l
  let h := x.h.get 0 l
  let y := { x with s := s, gam := x.gam.add (UFloat.norm { sig := g.toNat * h.toNat, exp := 0 }) }
  if ovr then y.reason 6 else y

/-- The largest value of a store. -/
def maxVal (m : SMap Int) (a : Int) : Int := m.entries.foldl (fun a e => max a e.2) a

/-- The operands are in: the dot products of every member enter s (and Γ) (R68, R94, R100). -/
def Ctx.reduce (x : Ctx) (q : Params) : Ctx :=
  if x.bounded then
    let z := x.g.keys.foldl (fun x l => x.indexStep q l) x
    { z with gMax := maxVal x.g z.gMax, hMax := maxVal x.h z.hMax }
  else { x with s := x.p.keys.foldl (fun a l => (a + x.p.get 0 l * x.r.get 0 l) % (p31 : Int)) x.s }

/-- B comes from the weight-projection cache: the entry is awaited or accepted (R72). -/
def Ctx.cached (x : Ctx) : Bool := decide (x.cache = .waiting ∨ x.cache = .accepted)

/-! ### Operand elements (R66, R67, R90, R94, R97) -/

/-- Count a truncation (R94, R99); a saturated count is reason 7 (R103). -/
def Ctx.truncA (x : Ctx) (lost : Bool) : Ctx :=
  if lost then
    let y := { x with tA := satInc x.tA }
    if y.tA = BitVec.allOnes 32 then y.reason 7 else y
  else x

/-- As `truncA`, for B. -/
def Ctx.truncB (x : Ctx) (lost : Bool) : Ctx :=
  if lost then
    let y := { x with tB := satInc x.tB }
    if y.tB = BitVec.allOnes 32 then y.reason 7 else y
  else x

/-- As `truncA`, for C. -/
def Ctx.truncC (x : Ctx) (lost : Bool) : Ctx :=
  if lost then
    let y := { x with tC := satInc x.tC }
    if y.tC = BitVec.allOnes 32 then y.reason 7 else y
  else x

/-- Row weight u_i of member b (R53, R74). -/
def Ctx.u (x : Ctx) (q : Params) (b i : Nat) : Nat :=
  if x.bounded then boundedWeight q.key (tdTask x.desc) 0 (b * 4096 + i) else exactWeight q.key (tdTask x.desc) 0 (b * 4096 + i)

/-- Column weight v_j (R53). -/
def Ctx.v (x : Ctx) (q : Params) (j : Nat) : Nat :=
  if x.bounded then boundedWeight q.key (tdTask x.desc) 1 j else exactWeight q.key (tdTask x.desc) 1 j

/-- A signed truncated product. -/
def signed (neg : Bool) (n : Nat) : Int := if neg then -(n : Int) else n

/-- The key of an index, a row or a panel of a member (R74). -/
def memKey (b l : Nat) : Nat := b * 2 ^ 24 + l

/-- Project an A element at row i, index l of member b. -/
def Ctx.projA (x : Ctx) (q : Params) (b i l : Nat) (el : Elem) : Ctx :=
  if el.nonfinite then { x.reason 1 with operandNonfinite := true }
  else if x.bounded then
    let x := if el.atLeast q.expA then x.reason 3 else x
    let c := place (x.u q b i * el.m) (el.e - (q.expA - 35))
    ({ x with p := x.p.mod 0 (memKey b l) (· + signed el.neg c.1), g := x.g.mod 0 (memKey b l) (· + (c.2.1 : Int)) }).truncA c.2.2
  else { x with p := x.p.mod 0 (memKey b l) (fun a => (a + (x.u q b i * el.residue : Nat)) % (p31 : Int)) }

/-- Project a B element at index l, column j of member b. -/
def Ctx.projB (x : Ctx) (q : Params) (b l j : Nat) (el : Elem) : Ctx :=
  if el.nonfinite then { x.reason 1 with operandNonfinite := true }
  else if x.bounded then
    let x := if el.atLeast q.expB then x.reason 4 else x
    let c := place (x.v q j * el.m) (el.e - (q.expB - 35))
    ({ x with r := x.r.mod 0 (memKey b l) (· + signed el.neg c.1), h := x.h.mod 0 (memKey b l) (· + (c.2.1 : Int)) }).truncB c.2.2
  else { x with r := x.r.mod 0 (memKey b l) (fun a => (a + (x.v q j * el.residue : Nat)) % (p31 : Int)) }

/-- Project a C element at (i, j) of member b (R68, R99). -/
def Ctx.projC (x : Ctx) (q : Params) (b i j : Nat) (el : Elem) (sat : Bool) : Ctx :=
  let x := if sat then x.reason 2 else x
  if el.nonfinite then x.reason 1
  else if x.bounded then
    let x := if el.atLeast x.w then x.reason 5 else x
    let byRow := decide (tdM x.desc ≤ tdN x.desc)
    let wl := if byRow then x.v q j else x.u q b i
    let wr := if byRow then x.u q b i else x.v q j
    let c := place (wl * el.m) (el.e - (x.w - 35))
    ({ x with t := x.t + (wr : Int) * signed el.neg c.1 * 2 ^ 29 }).truncC c.2.2
  else { x with t := (x.t + (x.u q b i * x.v q j * el.residue : Nat)) % (p31 : Int) }

/-- The result of taking an element: the context, and the reason of UNCHECKED_ORDER if the stream departs from its order. -/
abbrev Taken := Ctx × Option Nat

/-- The second requirement of R97 is broken: an operand of panel p+2 within q cycles of the last one of panel p. -/
def Ctx.tooSoon (x : Ctx) (b p cyc : Nat) : Bool :=
  let e := x.panelEnd.get 0 (memKey b (p - 2))
  x.bounded && decide (2 ≤ p ∧ 0 < e ∧ cyc + 1 < e + tdQ x.desc)

/-- The panel of an index; a member has one in weight-stationary order. -/
def Ctx.panelOf (x : Ctx) (l : Nat) : Nat := if tdOrder x.desc = 1 then 0 else l / tdQ x.desc

/-- Its cycle and panel are noted for an operand element (R66, R97). -/
def Ctx.noteOp (x : Ctx) (b l cyc : Nat) : Ctx :=
  let p := x.panelOf l
  { x with lastOp := cyc, newest := x.newest.set 0 b p, panelEnd := x.panelEnd.set 0 (memKey b p) (cyc + 1) }

/-- An operand element departs from panel order: a later panel of its member has begun, or a C element of its member has
come (R66). -/
def Ctx.departs (x : Ctx) (b l : Nat) : Bool :=
  decide (x.panelOf l < x.newest.get 0 b) || x.begunC.get false (memKey b 0)

/-- The order of the A and B elements alone, beside a cache entry that may still be rejected (R66, R72, R97): an A element is
noted, or departs from it. -/
def Ctx.shadowA (x : Ctx) (b l cyc : Nat) : Ctx :=
  let y : Ctx := { x with newest := x.bside.newest, panelEnd := x.bside.panelEnd, lastOp := x.bside.lastOp }
  let bad : Option Nat :=
    if tdOrder x.desc = 1 then none
    else if y.departs b l then some 0
    else if y.tooSoon b (y.panelOf l) cyc then some 2
    else none
  match bad with
  | some r => { x with bside := { x.bside with bad := x.bside.bad <|> some r } }
  | none =>
    let z := y.noteOp b l cyc
    { x with bside := { x.bside with newest := z.newest, panelEnd := z.panelEnd, lastOp := z.lastOp } }

/-- The A element is noted for both ways in which the task can go on. -/
def Ctx.noteA (x : Ctx) (b l cyc : Nat) : Ctx := (if x.cached then x.shadowA b l cyc else x).noteOp b l cyc

/-- An A element (R66, R67). -/
def Ctx.takeA (x : Ctx) (q : Params) (b i l : Nat) (el : Elem) (cyc : Nat) : Taken :=
  let d := x.desc
  let x := { x with nA := x.nA + 1 }
  if tdM d ≤ i ∨ tdK d ≤ l ∨ tdMembers d ≤ b then (x, none)
  else
    let y := { x with begunA := x.begunA.set false (memKey b (x.panelOf l)) true }
    if tdOrder d = 1 then
      if x.begunC.get false (memKey b i) then (x, some 0) else ((y.noteA b l cyc).projA q b i l el, none)
    else
      let id := memKey (b * 4096 + i) l
      if x.departs b l ∨ x.seenA.get false id then (x, some 0)
      else if x.tooSoon b (x.panelOf l) cyc then (x, some 2)
      else (({ y with seenA := y.seenA.set false id true }.noteA b l cyc).projA q b i l el, none)

/-- A B element that the lanes project (R66, R67). -/
def Ctx.laneB (x : Ctx) (q : Params) (b l j : Nat) (el : Elem) (cyc : Nat) : Taken :=
  let d := x.desc
  if tdK d ≤ l ∨ tdN d ≤ j ∨ tdMembers d ≤ b then (x, none)
  else if tdFill d then ((x.noteOp b l cyc).projB q b l j el, none)
  else if tdOrder d = 1 then
    if x.begunA.get false (memKey b 0) then (x, some 0) else ((x.noteOp b l cyc).projB q b l j el, none)
  else
    let id := memKey (b * 4096 + j) l
    if x.departs b l ∨ x.seenB.get false id then (x, some 0)
    else if x.tooSoon b (x.panelOf l) cyc then (x, some 2)
    else (({ x with seenB := x.seenB.set false id true }.noteOp b l cyc).projB q b l j el, none)

/-- The context as it stands without the cache: what the lanes have formed from the B elements takes the place of the
entry's residues or records (R72). -/
def Ctx.withBside (x : Ctx) : Ctx :=
  { x with cache := .rejected, r := x.bside.r, h := x.bside.h, seenB := x.bside.seen, tB := x.bside.trunc,
           newest := x.bside.newest, panelEnd := x.bside.panelEnd, lastOp := x.bside.lastOp }

/-- A B element beside a cache entry that may still be rejected (R72): the lanes' result is kept apart. -/
def Ctx.shadowB (x : Ctx) (q : Params) (b l j : Nat) (el : Elem) (cyc : Nat) : Ctx :=
  match x.withBside.laneB q b l j el cyc with
  | (y, bad) =>
    { x with bside := { r := y.r, h := y.h, seen := y.seenB, trunc := y.tB,
                        newest := y.newest, panelEnd := y.panelEnd, lastOp := y.lastOp,
                        reasons := y.reasons.foldl (fun l r => if r ∈ x.reasons then l else setAdd r l) x.bside.reasons,
                        nonfinite := x.bside.nonfinite || (y.operandNonfinite && !x.operandNonfinite),
                        bad := x.bside.bad <|> bad } }

/-- A B element (R66, R67, R72). -/
def Ctx.takeB (x : Ctx) (q : Params) (b l j : Nat) (el : Elem) (cyc : Nat) : Taken :=
  let x := { x with nB := x.nB + 1 }
  if x.cached then (x.shadowB q b l j el cyc, none) else x.laneB q b l j el cyc

/-- The context goes on without its rejected entry (R72). -/
def Ctx.rejected (x : Ctx) : Ctx :=
  { x.withBside with nPrj := 0, reasons := x.bside.reasons.foldl (fun l r => setAdd r l) x.reasons,
                     operandNonfinite := x.operandNonfinite || x.bside.nonfinite, bside := {}, backlog := 0 }

/-- A C element (R66, R67). -/
def Ctx.takeC (x : Ctx) (q : Params) (b i j : Nat) (el : Elem) (sat : Bool) : Ctx :=
  let d := x.desc
  let x := { x with nC := x.nC + 1 }
  if tdM d ≤ i ∨ tdN d ≤ j ∨ tdMembers d ≤ b then x
  else
    { x with begunC := x.begunC.set false (memKey b (if tdOrder d = 1 then i else 0)) true }.projC q b i j el sat

/-! ### The weight-projection cache (R70 to R72, R96) -/

/-- The bits [lo + 31 : lo] of a beat. -/
def word256 (x : BitVec 256) (i : Nat) : W32 := BitVec.ofNat 32 (bits x (32 * i + 31) (32 * i))

/-- The header of an entry is acceptable for the context (R72, R96). -/
def Ctx.headerOk (x : Ctx) (q : Params) (data : BitVec 256) : Bool :=
  let w0 := word256 data 0
  decide (bits w0 31 16 = 0xB7E1 ∧ bits w0 15 8 = (if x.bounded then 2 else 1))
    && decide ((word256 data 1).toNat = x.epoch) && decide (bits (word256 data 2) 23 0 = tdWtId x.desc)
    && decide (bits (word256 data 3) 23 0 = tdK x.desc)
    && (!x.bounded || decide (signedNat 9 (bits (word256 data 4) 8 0) = q.expB))

/-- A signed 64-bit quantity of a record, low word first. -/
def rec64 (data : BitVec 256) (i : Nat) : Int := signedNat 64 ((word256 data i).toNat + 2 ^ 32 * (word256 data (i + 1)).toNat)

/-- One residue or record of an accepted entry, at index l of member b (R68, R72). -/
def Ctx.takePrj (x : Ctx) (b l : Nat) (data : BitVec 256) (e cyc : Nat) : Taken :=
  let d := x.desc
  let x := { x with nPrj := x.nPrj + 1 }
  let k := memKey b l
  if tdK d ≤ l ∨ tdMembers d ≤ b then (x, none)
  else if x.departs b l ∨ x.begunA.get false (memKey b (x.panelOf l)) then (x, some 0)
  else if x.tooSoon b (x.panelOf l) cyc then (x, some 2)
  else
    let y := if x.bounded then
        { x with r := x.r.set 0 k (rec64 data (4 * e)), h := x.h.set 0 k (rec64 data (4 * e + 2)) }
      else { x with r := x.r.set 0 k (bits (word256 data e) 30 0 : Nat) }
    (y.noteOp b l cyc, none)

/-- The words of the entry that a fill presents (R71, R96). -/
def Ctx.entryWords (x : Ctx) (q : Params) : List W32 :=
  let k := tdK x.desc
  let head := [at32 0xB7E1 16 ||| at32 (if x.bounded then 2 else 1) 8, BitVec.ofNat 32 x.epoch,
    BitVec.ofNat 32 (tdWtId x.desc), BitVec.ofNat 32 k]
  let w64 (v : Int) : List W32 := [BitVec.ofInt 32 v, BitVec.ofInt 32 (v / 2 ^ 32)]
  if x.bounded then
    head ++ [BitVec.ofNat 32 ((q.expB % 512).toNat)]
      ++ (List.range k).flatMap (fun l => w64 (x.r.get 0 l) ++ w64 (x.h.get 0 l))
  else head ++ (List.range k).map (fun l => BitVec.ofInt 32 (x.r.get 0 l))

/-! ### Counts and verdicts (R76, R84, R89, R102) -/

/-- The counts differ from the descriptor (R76). -/
def Ctx.badCounts (x : Ctx) : Bool :=
  let m := tdM x.desc
  let n := tdN x.desc
  let k := tdK x.desc
  let b := tdMembers x.desc
  decide (x.nA ≠ m * k * b) || decide (x.nC ≠ m * n * b)
    || (if x.cached then decide (x.nPrj ≠ k * b) else decide (x.nB ≠ k * n * b))

/-- GAMMA_K with its default (R92, R107, R386). -/
def gammaK (r : Rec) : UFloat :=
  if r.fld 6 31 8 = 0 then { sig := 33096, exp := -39 } else { sig := r.fld 6 31 16, exp := -(r.fld 6 15 8 : Int) }

/-- GAMMA_0 with its default by result format (R92, R107, R386). -/
def gamma0 (r : Rec) (fmtC : Nat) : UFloat :=
  if r.fld 7 31 8 = 0 then
    (match fmtC with
     | 8 => { sig := 0x8000, exp := -23 }
     | 9 => { sig := 0x8000, exp := -26 }
     | _ => { sig := 0, exp := 0 })
  else { sig := r.fld 7 31 16, exp := -(r.fld 7 15 8 : Int) }

/-- tau of R102, in units of 2^λ_S. The FMT_C that selects a default GAMMA_0 is the descriptor's, where it differs from the
class's. DESIGN CHOICE (log 80). -/
def Ctx.tau (x : Ctx) (r : Rec) : Nat :=
  let expA := clsExpA r
  let expB := clsExpB r
  let lamA := expA - 35
  let lamB := expB - 35
  let lamC := x.w - 35
  let lamS := x.w - 64
  let k := tdK x.desc
  let gamma := ((gammaK r).mul (UFloat.ofNat k)).add (gamma0 r (tdFmtC x.desc))
  let dwin := (((UFloat.ofNat x.tA.toNat).mul (UFloat.ofNat x.hMax.toNat)).add
    ((UFloat.ofNat x.tB.toNat).mul (UFloat.ofNat x.gMax.toNat))).shift (lamA + lamB)
  let dwin := dwin.add ((UFloat.ofNat x.tC.toNat).shift (lamC + 16))
  let dwin := if expA + expB - x.w - 6 < 0 then
      dwin.add (((UFloat.ofNat k).mul (UFloat.ofNat (tdMembers x.desc))).shift lamS) else dwin
  ((((gamma.mul x.gam).shift (lamA + lamB)).add dwin).shift (-lamS)).ceil

/-- The reason recorded: the lowest that holds (R103); 0 for none. -/
def Ctx.lowest (x : Ctx) : Nat := x.reasons.foldl (fun a r => if a = 0 ∨ r < a then r else a) 0

/-- The verdict of the residue engine (R84, R89, R102, R60). -/
def Ctx.judge (x : Ctx) (r : Option Rec) : Verdict :=
  if x.countError then .fail
  else if x.reasons ≠ [] then .inconclusive
  else if x.bounded then
    match r with
    | none => .fail
    | some c => if (x.s - x.t).natAbs ≤ x.tau c then .pass else .fail
  else if x.s % (p31 : Int) = x.t % (p31 : Int) then .pass else .fail

end Sys2Proof.Machine
end

