-- ==== Sys2Proof/Machine/Retake.lean ====
section
/-! DEFINITION. Retake records: opening, stand-in choice, the decision and its effects (R175 to R191, R291). -/

namespace Sys2Proof.Machine

open Sys2Proof

/-! ### The stand-in control channel (R426) -/

/-- A new operation for an agent's channel; the first is presented at once where the channel is free. -/
def State.scPush (s : State) (a : Nat) (op : ScOp) : State :=
  let free := (s.agent a).sc.isEmpty && !(s.agent a).scWaitFall
  let s := s.modAgent a (fun g => { g with sc := g.sc ++ [op] })
  if free then s.present (.sc a op) else s

/-- Withdraw the operations of an agent's channel that satisfy a test; the one presented stays until it is acknowledged
(R426). -/
def State.scDrop (s : State) (a : Nat) (f : ScOp → Bool) : State :=
  s.modAgent a (fun g => { g with sc :=
    if g.scWaitFall then g.sc.filter (fun o => !(f o))
    else match g.sc with
      | [] => []
      | o :: r => { o with stale := o.stale || f o } :: r.filter (fun o => !(f o)) })

/-! ### Stand-ins (R178) -/

/-- Distance of two dies round the ring. -/
def State.dieDistance (s : State) (d e : Nat) : Nat :=
  let x := if d ≤ e then e - d else d - e
  min x (s.build.dies - x)

/-- An agent serves a swap (R245, R249). -/
def State.swapping (s : State) (a : Nat) : Bool :=
  (s.test.trots ++ s.test.kept).any (fun t => decide (t.standin = some a ∨ t.agent = a))

/-- An agent runs a retake: a record counts on its run, or it still holds the context or the task of a run, one that is
lost and one whose record has closed among them. -/
def State.retaking (s : State) (a : Nat) : Bool :=
  let g := s.agent a
  s.retakes.entries.any (fun e => e.2.used && (match e.2.runs.tail.getLast? with
    | none => false
    | some x => decide (x.agent = a) && !x.lost))
    || g.retakeBind.isSome || g.ctxs.any (·.retake.isSome)
    || g.bound.entries.any (fun e => e.2.any (fun b => match b with
      | .ctx _ => false
      | .task u => u.retake.isSome))

/-- Eligible for any run: not fenced, not lame, not in the paddock, not retaking, not swapping. -/
def State.eligible (s : State) (a : Nat) : Bool :=
  s.isStandin a && !(s.upHubs.any (fun h => s.fencedAt h a || ((s.hub h).padSlot a).isSome))
    && !(s.fenceOrdered a) && !(s.agent a).fence && !(s.retaking a) && !(s.swapping a)

/-- The best of a list: the lowest (rank, agent). -/
def bestBy (rank : Nat → Nat) : List Nat → Option Nat
  | [] => none
  | a :: r => match bestBy rank r with
    | none => some a
    | some b => if rank b < rank a ∨ (rank b = rank a ∧ b < a) then some b else some a

/-- The stand-in for the next run of a record (R178). -/
def State.chooseStandin (s : State) (r : Retake) : Option Nat :=
  let o := (r.runs.head?.map (·.agent)).getD 0
  let used := r.runs.map (·.agent)
  bestBy (fun a =>
    if s.build.clusterOf a = s.build.clusterOf o then 0
    else 1 + s.dieDistance (s.build.dieOfAgent a) (s.build.dieOfAgent o))
    (s.standins.filter (fun a => s.eligible a && !(used.contains a)))

/-! ### The decision (R185 to R187) -/

/-- The values of s of runs whose audit is OK, without repeats. -/
def auditedS (rs : List Run) : List Int :=
  (rs.filterMap (fun x => x.acc.bind (fun a => if a.audit = .ok then some a.s else none))).foldl
    (fun l v => setAdd v l) []

/-- The first value of s on which two runs agree, neither audited BAD. -/
def agreedS : List Run → Option Int
  | [] => none
  | x :: r => match x.acc with
    | none => agreedS r
    | some a => if a.audit ≠ .bad ∧ r.any (fun y => match y.acc with
          | none => false
          | some b => decide (b.audit ≠ .bad ∧ b.s = a.s)) then some a.s else agreedS r

/-- accepted(runs) of R185. -/
def accepted (rs : List Run) : Option Int :=
  match auditedS rs with
  | [v] => some v
  | _ :: _ :: _ => none
  | [] => agreedS rs

/-- agrees(x, sa) of R185. -/
def agrees (x : Run) (sa : Int) : Bool :=
  match x.acc with
  | none => false
  | some a => if a.bounded then decide ((a.t - sa).natAbs ≤ a.tau) else decide (a.t = sa)

/-- A run that ended INCONCLUSIVE for an input-side reason, its audit not BAD (R185, R186). -/
def inputReason (x : Run) : Option Nat :=
  match x.account with
  | none => none
  | some a => if a.verdict = .inconclusive ∧ a.audit ≠ .bad ∧ a.reason ∈ [1, 2, 3, 4, 6] then some a.reason else none

/-- input_fault(runs) of R185. -/
def inputFault : List Run → Bool
  | [] => false
  | x :: r => (match inputReason x with
      | none => false
      | some k => r.any (fun y => decide (inputReason y = some k))) || inputFault r

/-- The outcome of decide: a decision code of R189, or a further retake. -/
inductive Decision where
  | code (n : Nat)
  | again
deriving DecidableEq, Repr

/-- decide(runs, r) of R185; `more` says that a further run can be had. -/
def decideRuns (rs : List Run) (more : Bool) : Decision :=
  let r := rs.length
  let sa := accepted rs
  let last := rs.getLast?
  let settled := match sa, last with
    | some v, some x => decide (2 ≤ r) && agrees x v
    | _, _ => false
  if settled then
    if r = 2 then
      let s1 := (rs.head?.bind Run.acc).map (·.s)
      .code (if s1 = sa then 1 else 2)
    else .code 3
  else if inputFault rs then .code 6
  else if decide (r < 3) && more then .again
  else if r = 1 then .code 7
  else if sa.isSome then .code 4
  else .code 5

/-- The blame bits of a run (R187, R189): bit 1 the agent, bit 0 the tile. A run that was fenced, timed out or refused for
its descriptor draws no placement. -/
def blameOf (dec : Nat) (sa : Option Int) (x : Run) : Nat :=
  if 5 < dec ∨ x.excused then 0
  else if dec = 5 then 3
  else
    let bad := match x.account with | none => false | some a => decide (a.audit = .bad)
    let ag := bad || (match x.acc, sa with | some a, some v => decide (a.s ≠ v) | _, _ => false)
    let incl := match x.account with
      | none => false
      | some a => decide (a.verdict = .inconclusive ∧ (a.reason = 5 ∨ a.reason = 7))
    let ti := incl || (match x.acc, sa with | some _, some v => !(agrees x v) | _, _ => false)
    if x.lost then 0 else 2 * b2n ag + b2n ti

/-- The blame of a record's runs, by index. -/
def Retake.blame (r : Retake) (dec i : Nat) : Nat :=
  ((r.runs.drop i).head?.map (blameOf dec (accepted r.runs))).getD 0

/-! ### Requests -/

/-- The CRC-32C of a descriptor with RATE read as 0 (R419). -/
def descCrc (d : BitVec 256) : W32 :=
  crc32c (bytesBE 32 (d.toNat - dfld d 112 109 * 2 ^ 109))

/-- Order a further run of a record (R179), or wait for a stand-in (R180). -/
def State.requestRun (s : State) (n : Nat) : State :=
  let r := s.retake n
  match s.chooseStandin r with
  | none => s.modRetake n (fun x => { x with phase := .waitStandin })
  | some a =>
    let s := s.modRetake n (fun x => { x with runs := x.runs ++ [{ agent := a }], phase := .requested, since := s.now })
    let s := { s with retakesOrdered := satInc s.retakesOrdered }
    let d := r.task.toNat * 2 ^ 64 + r.job.toNat * 2 ^ 56 + r.crc.toNat
    s.scPush a { op := 1, record := n, data := BitVec.ofNat 96 d }

/-- Every record that waits for a stand-in looks for one again. -/
def State.startWaiting (s : State) : State :=
  s.each (s.openRetakes (fun r => decide (r.phase = .waitStandin))) (fun n s => s.requestRun n)

/-! ### Decisions and their effects -/

/-- The hub records a decision (KIND 0x14), takes its reaction and mirrors it (R204, R279). -/
def State.decisionEntry (s : State) (r : Retake) (dec : Nat) : State :=
  (s.hubEntry s.twin.leader (r.entry dec)).mirrorOut s.twin.leader (r.entry dec)

/-- Place the units that a decision implicates, at every acting hub (R187). -/
def State.placeBlamed (s : State) (r : Retake) (dec : Nat) : State :=
  s.each (List.range r.runs.length) (fun i s =>
    let b := r.blame dec i
    if b = 0 then s
    else s.eachHub (fun h s => s.place h (((r.runs.drop i).head?.map (·.agent)).getD 0) (decide (b % 2 = 1))
      (decide (2 ≤ b)) 1 (r.entry dec)))

/-- Take a decision of a record: entry, placements, and the order it calls for (R186, R188). -/
def State.takeDecision (s : State) (n dec : Nat) : State :=
  let r := s.retake n
  let ph : RetPhase := if dec ≤ 3 then .settling else .poisoning
  let s := s.modRetake n (fun x => { x with decision := dec, since := s.now, phase := ph, stamp := s.stamp32 })
  (s.placeBlamed r dec).decisionEntry r dec

/-- Decide a record from the runs made so far (R185); a settle order is relaxing (R274, R277). -/
def State.decideStep (s : State) (n : Nat) (more : Bool) : State :=
  let r := s.retake n
  match decideRuns r.runs more with
  | .again => s.requestRun n
  | .code d =>
    if d ≤ 3 then
      (s.modRetake n (fun x => { x with phase := .proposed, decision := d })).relax (.settle n) (fun s => s.takeDecision n d)
    else s.takeDecision n d

/-- A run ends without an account: the record is ready for the decision (R185); `excused` says that it was fenced, timed out
or refused for its descriptor (R187). -/
def State.loseRun (s : State) (n agent : Nat) (excused : Bool) : State :=
  let r := s.retake n
  match r.runs.getLast? with
  | none => s
  | some x =>
    if x.agent = agent ∧ 2 ≤ r.runs.length ∧ r.phase ∈ [RetPhase.requested, .running] then
      let l := r.runs.dropLast ++ [{ x with lost := true, excused := excused }]
      s.modRetake n (fun y => { y with runs := l, phase := .decide, waitFrom := s.now })
    else s

/-! ### Opening (R175, R176, R190) -/

/-- A message that ends an original task FAIL (R175). -/
def failKind (m : Msg) : Bool :=
  decide (srcGroup m.source = 0) &&
    (decide ((m.kind = 0x01#8 ∨ m.kind = 0x02#8)) || decide (m.kind = 0x12#8 ∧ m.sev = 0#3))

/-- The account of a context: identity, range and personality (R177); a verdict adds what the residue engine found. A fill
belongs to no step's count. -/
def Ctx.account (x : Ctx) (agent now : Nat) : Account :=
  { task := tdTask x.desc, job := tdJob x.desc, base := tdBase x.desc, count := tdCount x.desc,
    step := if x.fill then none else x.step, epoch := x.epoch, bounded := x.bounded, agent := agent, crc := descCrc x.desc,
    retake := x.retake, scalars := false, crcGood := x.crcGood, since := now, excused := x.fenced, aborted := x.aborted }

/-- A record is open for the task of an account, or its poison order is outstanding. -/
def State.taken (s : State) (x : Account) : Bool :=
  s.retakes.entries.any (fun e => e.2.used && decide (e.2.task = x.task ∧ e.2.job = x.job) && (match e.2.runs.head? with
    | none => false
    | some y => decide (y.agent = x.agent)))

/-- The account of a failed task is the one that a message names. -/
def Account.named (x : Account) (a : Nat) (m : Msg) : Bool :=
  decide (x.agent = a ∧ x.job = m.job ∧ x.base = m.addr ∧ x.retake = none)

/-- The account of the failed task: stored by the agent's concentrator or still to be handed off, not taken by a record
yet (R177). -/
def State.failedAccount (s : State) (a : Nat) (m : Msg) : Option Account :=
  let l := (s.conc (s.build.clusterOf a)).accounts
    ++ ((s.agent a).ctxs.filter (·.ended)).map (fun x => x.account a s.now)
  l.find? (fun x => x.named a m && !(s.taken x))

/-- The failed task that found the store full, if the message names one (R177). -/
def State.refusedAccount (s : State) (a : Nat) (m : Msg) : Option Account :=
  (s.conc (s.build.clusterOf a)).refused.find? (fun x => x.named a m)

/-- A record for an account, opened for a message. -/
def Account.record (x : Account) (m : Msg) (s : State) : Retake :=
  { used := true, task := x.task, job := x.job, base := x.base, count := x.count, step := x.step, epoch := x.epoch,
    bounded := x.bounded, crc := x.crc,
    runs := [{ agent := x.agent, acked := true, excused := x.excused, account := some x }],
    phase := .waitStandin, since := s.now, waitFrom := x.since, cause := (m.stamp, m.seq), stamp := s.stamp32 }

/-- The hub declines to open a record for a failed task, whose job is aborted: its account goes, and its range is poisoned
unless the abort has poisoned it (R174, R175, R177). -/
def State.declineRetake (s : State) (x : Account) : State :=
  let s := if x.aborted then s
    else s.presentCmt x.agent { poison := true, job := x.job, base := x.base, count := x.count }
  let s := s.modConc (s.build.clusterOf x.agent) (fun c => { c with accounts := c.accounts.filter (fun y => decide (y ≠ x)) })
  s.modAgent x.agent (·.dropEnded x.task x.job)

/-- A task ends DENIED or NO_STANDINS without a record: logged, and its job aborted (R177, R190). -/
def State.denyRetake (s : State) (h : HubId) (m : Msg) (r : Retake) (dec : Nat) : State :=
  ((s.logRetake r dec (fun _ => 0)).decisionEntry r dec).raiseAbort h m.job m.kind

/-- A FAIL without an account entry (R177, R186): the task is ended DENIED; its agent has poisoned the range. -/
def State.denyUnheld (s : State) (h : HubId) (m : Msg) : State :=
  let a := srcIndex m.source
  match s.refusedAccount a m with
  | some x =>
    let s := s.modConc (s.build.clusterOf a) (fun c => { c with refused := c.refused.filter (fun y => decide (y ≠ x)) })
    if s.jobAborted m.job then s else s.denyRetake h m (x.record m s) 7
  | none =>
    if s.jobAborted m.job || s.retakes.entries.any (fun e => e.2.used && decide (e.2.job = m.job ∧ e.2.base = m.addr)) then s
    else
      let r : Retake := { used := true, task := Config.freeTask s.freeCtr, job := m.job, base := m.addr,
                          runs := [{ agent := a, acked := true }], cause := (m.stamp, m.seq), stamp := s.stamp32 }
      { s with freeCtr := s.freeCtr + 1 }.denyRetake h m r 7

/-- The leader, or a hub without a twin, takes up a FAIL: it opens a record, or declines (R175 to R180, R190). -/
def State.leadRetake (s : State) (h : HubId) (m : Msg) : State :=
  match s.failedAccount (srcIndex m.source) m with
  | none => s.denyUnheld h m
  | some x =>
    let r := x.record m s
    if (s.hub h).s4 || s.test.wrapping then s
    else if x.aborted || s.jobAborted m.job then s.declineRetake x
    else if s.standins.isEmpty then s.denyRetake h m r 9
    else
      match (List.range 64).find? (fun i => !(s.retake i).used) with
      | some n => { s with retakes := s.retakes.set {} n r }.requestRun n
      | none =>
        let n := 64 + s.logHead.toNat
        let s := s.denyRetake h m r 7
        { s with retakes := s.retakes.set {} n { r with phase := .poisoning, decision := 7 } }

/-- Two messages are receptions of one FAIL. -/
def sameFail (m n : Msg) : Bool := decide (m.source = n.source ∧ m.seq = n.seq ∧ m.addr = n.addr ∧ m.job = n.job)

/-- A hub accepts a FAIL. The leader opens the one record at its own acceptance; the follower holds the FAIL, for the case
that it takes over before that (R275, R482). -/
def State.openRetake (s : State) (h : HubId) (m : Msg) : State :=
  if s.pairUp && decide (h ≠ s.twin.leader) then
    let a := srcIndex m.source
    if (s.failedAccount a m).isSome || (s.refusedAccount a m).isSome then s.modHub h (fun k => { k with fails := k.fails ++ [m] })
    else s
  else
    (s.leadRetake h m).modHub (twinHub h) (fun k => { k with fails := k.fails.filter (fun n => !(sameFail m n)) })

/-- A hub that has taken over takes up the FAILs that it had accepted as the follower (R275). -/
def State.takeUpFails (s : State) (h : HubId) : State :=
  if s.pairUp && decide (h ≠ s.twin.leader) then s
  else (s.each (s.hub h).fails (fun m s => s.leadRetake h m)).modHub h (fun k => { k with fails := [] })

/-- The hub that leads takes them up. -/
def State.takeUpLead (s : State) : State := s.takeUpFails s.twin.leader

/-! ### Retiring a twin (R286) -/

/-- An order of a serialised operation is outstanding: a stand-in operation not acknowledged, a settle, poison or gate order
that its agents have not received (R275). -/
def State.ordersOut (s : State) : Bool :=
  s.agents.entries.any (fun e => e.2.sc.any (fun o => !o.stale))
    || !(s.openRetakes (fun r => decide (r.phase = .settling ∨ r.phase = .poisoning))).isEmpty
    || s.jobs.entries.any (fun e => !e.2.opened.isEmpty)

/-- The named hub is detached, and the survivor records KIND 0x1A at S0 (R286). -/
def State.retire (s : State) : State :=
  let n := s.cmd.named
  let w := twinHub n
  ((s.detach n 2).note w (srcId 6 (hubIdx w)) 0x1A 0 0 0).endCmd 0

/-- The last cut of a digest before the 10 µs are over within which the lead passes (R286). -/
def State.retireDue (s : State) : Bool := decide (s.cmd.at_ + 10000 ≤ s.now + 1024)

/-- RETIRE_TWIN goes on: at once where it names the follower, and where it names the leader once no order is outstanding, but within
10 µs (R286); while a hub claims sole control the cell's grant decides (R293). The survivor takes up the FAILs it holds. -/
def State.endRetire (s : State) : State :=
  if s.busyWith 0xA && s.pairUp && !(s.claims .a) && !(s.claims .b)
      && !(decide (s.cmd.named = s.twin.leader) && s.ordersOut && !s.retireDue) then s.retire.takeUpLead
  else s

/-! ### The commands -/

/-- The account of a record's most recent run, where its concentrator holds one. -/
def State.runAccount (s : State) (n : Nat) : Option Account :=
  match (s.retake n).runs.getLast? with
  | none => none
  | some x => (s.conc (s.build.clusterOf x.agent)).accounts.find? (fun y =>
      decide (y.agent = x.agent ∧ y.retake = some n))

/-- ACCOUNT_FETCH: the hub holds the accounts of the most recent run and decides (R185). -/
def execAccountFetch (record : Nat) (s : State) : Host.Outcome State Fault Refusal :=
  live s fun s =>
    let r := s.retake record
    if !r.used then s
    else
      match r.phase with
      | .decide => s.decideStep record true
      | .running =>
        match s.runAccount record, r.runs.getLast? with
        | some a, some x =>
          let s := s.modRetake record (fun y =>
            { y with runs := y.runs.dropLast ++ [{ x with account := some a }], waitFrom := a.since })
          s.decideStep record true
        | _, _ => s
      | _ => s

/-- A bound of a retake has been missed (R179, R291). -/
def State.countTimeout (s : State) : State := { s with retakeTimeouts := satInc s.retakeTimeouts }

/-- RETAKE_ISSUE_TIMEOUT: no acknowledgement and descriptor within RETAKE_ISSUE (R179). -/
def execRetakeIssueTimeout (record : Nat) (s : State) : Host.Outcome State Fault Refusal :=
  live s fun s =>
    let r := s.retake record
    match r.runs.getLast? with
    | none => s
    | some x =>
      if r.used ∧ r.phase = .requested then
        let s := (s.advanceTo (r.since + s.retakeIssue)).countTimeout
        let s := s.scDrop x.agent (fun o => decide (o.op = 1 ∧ o.record = record))
        let s := s.modAgent x.agent (·.bindClosed record)
        let s := s.loseRun record x.agent true
        let s := s.noteAll (srcId 0 x.agent) 0x15 1 r.base r.job
        (s.decideStep record true).endRetire
      else s

/-- RETAKE_WAIT_EXPIRY: a stand-in that has become eligible by then makes the run; without one within RETAKE_WAIT the hub decides
with the runs made (R180). -/
def execRetakeWaitExpiry (record : Nat) (s : State) : Host.Outcome State Fault Refusal :=
  live s fun s =>
    let r := s.retake record
    if r.used ∧ r.phase = .waitStandin then
      let s := s.advanceTo (r.waitFrom + s.retakeWait)
      if (s.chooseStandin r).isSome then s.requestRun record else s.decideStep record false
    else s

/-- RETAKE_RUN_TIMEOUT: the verdict has not reached its account within RETAKE_RUN (R291). -/
def execRetakeRunTimeout (record : Nat) (s : State) : Host.Outcome State Fault Refusal :=
  live s fun s =>
    let r := s.retake record
    match r.runs.getLast? with
    | none => s
    | some x =>
      if r.used ∧ x.acked ∧ r.phase ∈ [RetPhase.requested, .running] ∧ s.runAccount record = none then
        let s := (s.advanceTo (x.ackAt + s.retakeRun)).countTimeout
        let s := s.modAgent x.agent (·.bindClosed record)
        (s.loseRun record x.agent true).decideStep record true
      else s

end Sys2Proof.Machine
end

