-- ==== Sys2Proof/Machine/Network.lean ====
section
/-! DEFINITION. The fault network and the hubs' reaction to what it carries (R197 to R234). -/

namespace Sys2Proof.Machine

open Sys2Proof

/-! ### Hops (R24, R25, R203, R219) -/

/-- The source id of a unit. -/
def unitSrc : NetUnit → BitVec 16
  | .agent i => srcId 0 i
  | .conc i => srcId 1 i
  | .engine i => srcId 5 i
  | .linkEnd i => srcId 3 i
  | .hub h => srcId 2 (hubIdx h)

/-- The far end of a die link (R328). -/
def State.farEnd (s : State) (i : Nat) : Nat :=
  let d := i / 2
  if i % 2 = 1 then 2 * ((d + 1) % s.build.dies) else 2 * ((d + s.build.dies - 1) % s.build.dies) + 1

/-- Both ends of a die link carry messages. -/
def State.linkUsable (s : State) (i : Nat) : Bool := s.linkOk i && s.linkOk (s.farEnd i)

/-- Every link of the way round the ring from a die to another, by the links of one side, is usable. -/
def State.wayUsable (s : State) (side to_ : Nat) : Nat → Nat → Bool
  | 0, d => decide (d = to_)
  | n + 1, d => decide (d = to_) || (s.linkUsable (2 * d + side) && s.wayUsable side to_ n (s.farEnd (2 * d + side) / 2))

/-- The link end by which messages of a die leave towards a hub (R25): the shorter way, the ways in turn where they
are of equal length, the other way where a link of one is unavailable. -/
def State.wayOut (s : State) (d : Nat) (h : HubId) : Option Nat :=
  let n := s.build.dies
  let r := (s.hubDie h + n - d) % n
  let right := decide (r < n - r) || (decide (r = n - r) && !(s.ways.get false (2 * d + hubIdx h)))
  let first := b2n right
  if s.wayUsable first (s.hubDie h) n d then some (2 * d + first)
  else if s.wayUsable (1 - first) (s.hubDie h) n d then some (2 * d + (1 - first))
  else none

/-- The two ways from a die to a hub are of equal length. -/
def State.equalWays (s : State) (d : Nat) (h : HubId) : Bool :=
  let n := s.build.dies
  decide (2 * ((s.hubDie h + n - d) % n) = n)

/-- An entry still has to reach a hub. -/
def toHub (e : QEntry) : HubId → Bool
  | .a => e.toA
  | .b => e.toB

/-- A unit that forwards one copy for each hub. -/
def forksCopies : NetUnit → Bool
  | .conc _ => true
  | .linkEnd _ => true
  | _ => false

/-- The message a unit serves next towards a hub. -/
def State.hopHead (s : State) (u : NetUnit) (h : HubId) : Option (Nat × QEntry) :=
  (s.queueOf u).best (fun e => !(forksCopies u) || toHub e h)

/-- The message that a unit serves next was emitted on its die, and takes a way of its own: a concentrator's message, those of its
agents and engines among them, or a die-link end's own. -/
def State.ownsWay (s : State) (u : NetUnit) (h : HubId) : Bool :=
  match u with
  | .conc _ => true
  | .linkEnd i => (s.hopHead u h).any (fun x => decide (x.2.msg.source = srcId 3 i))
  | _ => false

/-- The next stage of a unit's messages towards a hub; none where no way is available. Two ways of equal length alternate for
the messages that leave a die (R25); one that a die-link end emits itself may leave by the die's other end. A relayed message
goes on in its direction, and back where the way on is not usable. The queue of a link end is the one of the direction in
which it sends; what arrives over the link goes straight to the next stage of its way. DEDUCED (log 87). -/
def State.nextHop (s : State) (u : NetUnit) (h : HubId) : Option NetUnit :=
  match u with
  | .agent i => some (.conc (s.build.clusterOf i))
  | .engine e => some (.conc (s.engineHome e))
  | .conc c =>
    let d := s.build.dieOfCluster c
    if d = s.hubDie h then some (.hub h) else (s.wayOut d h).map .linkEnd
  | .linkEnd i =>
    let d := s.farEnd i / 2
    let other := 2 * (i / 2) + (1 - i % 2)
    let turned := s.ownsWay u h && s.equalWays (i / 2) h && decide (s.wayOut (i / 2) h = some other)
    if i / 2 = s.hubDie h then some (.hub h)
    else if turned then some (.linkEnd other)
    else if !s.linkUsable i then (if s.linkUsable other then some (.linkEnd other) else none)
    else if d = s.hubDie h then some (.hub h)
    else
      let on := 2 * d + i % 2
      let back := 2 * d + (1 - i % 2)
      if s.wayUsable (i % 2) (s.hubDie h) s.build.dies d then some (.linkEnd on)
      else if s.linkUsable on && !(s.wayUsable (1 - i % 2) (s.hubDie h) s.build.dies d) then some (.linkEnd on)
      else if s.linkUsable back then some (.linkEnd back) else none
  | .hub _ => none

/-- The entry after its copy for a hub has gone; none when no acting hub is left. -/
def State.afterHop (s : State) (u : NetUnit) (h : HubId) (m : Msg) (e : QEntry) : Option QEntry :=
  if forksCopies u then
    let e' : QEntry := { e with msg := m, bad := 0, toA := e.toA && decide (h ≠ HubId.a),
                                toB := e.toB && decide (h ≠ HubId.b) }
    if (e'.toA && s.hubUp .a) || (e'.toB && s.hubUp .b) then some e' else none
  else none

/-- A merged S2 message is to be sent before an S0 or S1 message (R219). -/
def Queue.mergedFirst (q : Queue) (m : Msg) : Bool := decide (q.merged ≠ []) && decide (m.sev.toNat < 2)

/-- The die of a concentrator or of a die-link end. -/
def State.dieOfUnit (s : State) : NetUnit → Nat
  | .conc c => s.build.dieOfCluster c
  | .linkEnd i => i / 2
  | _ => 0

/-- Move one message on (R203, R217, R219). -/
def State.hopMessage (s : State) (u : NetUnit) (h : HubId) : State :=
  if s.hubUp h then
    match s.hopHead u h, s.nextHop u h with
    | some (i, e), some v =>
      let q := s.queueOf u
      let d := s.dieOfUnit u
      let turn := s.ownsWay u h && s.equalWays d h
      let m := if q.droppedBefore then { e.msg with dropped := true } else e.msg
      let e' : QEntry := if forksCopies u then { msg := m, toA := decide (h = HubId.a), toB := decide (h = HubId.b), at_ := s.now }
        else { msg := m, at_ := s.now }
      match (if q.mergedFirst e.msg then none else (s.queueOf v).hop v e') with
      | none => s
      | some qv =>
        let s := s.setQueue u ({ q with droppedBefore := false }.upd i (s.afterHop u h m))
        let s := s.setQueue v qv
        if turn then { s with ways := s.ways.mod false (2 * d + hubIdx h) not } else s
    | _, _ => s
  else s

/-- A message is resent over a die link: the end that holds it keeps the time (R348). -/
def State.noteResend (s : State) (u v : NetUnit) : State :=
  match u, v with
  | .linkEnd i, .linkEnd _ => s.modLink i (fun l => { l with resentAt := (s.now :: l.resentAt).take 256 })
  | _, _ => s

/-- A bad reception at the next stage: resend, or discard after the third and report KIND 0x34 (R203). -/
def State.hopBad (s : State) (u : NetUnit) (h : HubId) : State :=
  match s.hopHead u h, s.nextHop u h with
  | some (i, e), some v =>
    let q := s.queueOf u
    if 2 ≤ e.bad then
      let s := s.setQueue u (q.upd i (s.afterHop u h e.msg))
      s.emit v { source := unitSrc u, kind := 0x34, sev := 1 }
    else (s.noteResend u v).setQueue u ({ q with hopResends := satInc q.hopResends }.upd i (fun x => some { x with bad := x.bad + 1 }))
  | _, _ => s

/-- MESSAGE_ORIGIN: a unit emits a message into its own queue (R202, R219, R220). -/
def execMessageOrigin (unit : NetUnit) (src : BitVec 16) (kind : Byte) (sev : BitVec 3) (addr : Addr) (job : Job)
    (s : State) : Host.Outcome State Fault Refusal :=
  live s fun s => s.emit unit { source := src, kind := kind, sev := sev, addr := addr, job := job }

/-- MESSAGE_HOP: the next stage takes the message a unit serves next towards a hub. -/
def execMessageHop (unit : NetUnit) (dest : HubId) (s : State) : Host.Outcome State Fault Refusal :=
  live s fun s => s.hopMessage unit dest

/-- HOP_BAD_CRC: the next stage receives that message with a bad CRC (R203). -/
def execHopBadCrc (unit : NetUnit) (dest : HubId) (s : State) : Host.Outcome State Fault Refusal :=
  live s fun s => s.hopBad unit dest

/-- The lowest job of a merge list. -/
def lowestJob : List (Nat × Msg) → Option (Nat × Msg)
  | [] => none
  | p :: r => match lowestJob r with
    | none => some p
    | some q => if q.1 < p.1 then some q else some p

/-- MERGED_S2_SEND: an ordinary slot is free, and the lowest flagged job's message takes it (R219). -/
def execMergedS2Send (unit : NetUnit) (s : State) : Host.Outcome State Fault Refusal :=
  live s fun s =>
    let q := s.queueOf unit
    match lowestJob q.merged with
    | none => s
    | some (j, m) =>
      if q.ordinary.length < (netSlots unit).1 then
        s.setQueue unit { q with merged := q.merged.filter (fun p => decide (p.1 ≠ j)),
                                 ordinary := q.ordinary ++ [{ msg := m, at_ := s.now }] }
      else s

/-! ### Recovery (R212, R213) -/

/-- A source leaves its fault state at a hub: KIND 0x16, the unit unfenced, an agent to the paddock where stand-ins
exist (R212, R213); a link that is down trains again from 4 lanes (R348). -/
def State.recover (s : State) (h : HubId) (p : Nat) : State :=
  let rc := ((s.hub h).src p).recovery
  let s := s.modHub h (fun k => (k.modSrc p (fun x => { x with fault := false })).count 8)
  let (m, s) := s.hubMsg h (posSrc p) 0x16 0 (BitVec.ofNat 48 rc) 0
  let s := s.generateIrq h m
  let s := s.endFences h (s.unitAgents p)
  let s := if posGroup p = 0 ∧ !s.standins.isEmpty then s.place h p true true 2 m else s
  let s := if posGroup p = 3 ∧ (s.linkEnd (p - 4368)).down then
      s.modLink (p - 4368) (fun l => { l with down := false, retraining := true, tries := 0, lanes := 0 })
    else s
  s.syncState h

/-- on_quiet of R212 at a hub, for a source in its fault state. -/
def State.onQuiet (s : State) (h : HubId) (p : Nat) : State :=
  let rc := min (((s.hub h).src p).recovery + 1) 15
  let s := s.modHub h (fun k => k.modSrc p (fun x => { x with recovery := rc }))
  if s.grpL (posGroup p) ≤ rc then s.makeLame h p else s.recover h p

/-- The follower's own state permits an unfence: its source is not lame, and not in a fault state whose quiet period
still runs (R277). -/
def State.permitsUnfence (s : State) (p : Nat) (f : Hub) : Bool :=
  !f.s4 && !(f.src p).lame &&
    (!(f.src p).fault || decide ((f.src p).quietSince + s.grpQ (posGroup p) * 1000000000 ≤ s.now))

/-! ### The commands of the hubs -/

/-- Numbers odd place a tile; where its trot-up is in progress the next one is due at the end of it (R160, R267). -/
def State.placeOdd (s : State) (h : HubId) (a : Nat) (m : Msg) : State :=
  let s := s.place h a true false 3 m
  { s with test := { s.test with trots := s.test.trots.map (fun t =>
      if t.agent = a then { t with oddMeanwhile := true } else t) } }

/-- The hub's further actions for a KIND: a retake record, numbers odd (R160, R175). -/
def State.kindActions (s : State) (h : HubId) (m : Msg) : State :=
  if failKind m && !m.injected then s.openRetake h m
  else if m.kind = 0x05#8 ∧ srcGroup m.source = 1 then
    let first := ((s.clusterRec (srcIndex m.source)).map (·.fld 1 31 20)).getD 0
    let s := s.each (List.range 16) (fun i s => if m.addr.getLsbD i then s.placeOdd h (first + i) m else s)
    if s.oddWithhold then s
    else s.modHub h (fun k => { k with irq := k.irq ||| 0x40#32, odd := m.job })
  else s

/-! ### Dies without a path (R330, R348) -/

/-- Both ends of a die link still stand: trained or retraining, not down, withdrawn by no hub (R330, R349). -/
def State.linkStands (s : State) (i : Nat) : Bool :=
  let ok (j : Nat) : Bool := (decide (0 < (s.linkEnd j).lanes) || (s.linkEnd j).retraining) && !(s.linkEnd j).down
    && !(s.upHubs.any (fun h => (s.hub h).fences? (4368 + j)))
  ok i && ok (s.farEnd i)

/-- The dies that links of one side join to a die, in order round the ring. -/
def State.joined (s : State) (side : Nat) : Nat → Nat → List Nat
  | 0, _ => []
  | n + 1, d =>
    if s.linkStands (2 * d + side) then
      let e := s.farEnd (2 * d + side) / 2
      e :: s.joined side n e
    else []

/-- The dies that no path of working links joins to the leader's die. -/
def State.unreachable (s : State) : List Nat :=
  let d := s.hubDie s.twin.leader
  let r := d :: (s.joined 0 s.build.dies d ++ s.joined 1 s.build.dies d)
  (List.range s.build.dies).filter (fun x => !(r.contains x))

/-- The messages held on a die are discarded. -/
def State.dropQueues (s : State) (d : Nat) : State :=
  let clear (q : Queue) : Queue := { q with ordinary := [], reserved := [], own := [], merged := [] }
  let s := s.each (s.agents.keys.filter (fun a => decide (s.build.dieOfAgent a = d))) (fun a s =>
    s.modAgent a (fun g => { g with queue := clear g.queue }))
  let s := s.each (s.concs.keys.filter (fun c => decide (s.build.dieOfCluster c = d))) (fun c s =>
    s.modConc c (fun g => { g with queue := clear g.queue }))
  let s := s.each (s.engines.keys.filter (fun e => decide (s.build.dieOfCluster (s.engineHome e) = d))) (fun e s =>
    s.modEngine e (fun g => { g with queue := clear g.queue }))
  s.each [2 * d, 2 * d + 1] (fun i s => s.modLink i (fun g => { g with queue := clear g.queue }))

/-- A unit and everything that is lame with it: the agents of a concentrator, the concentrators and agents of a die
(R320, R330); before a harness is accepted, those that are wired (R21). -/
def State.lameUnits (s : State) (p : Nat) : List Nat :=
  let b := s.build
  if s.recs = [] then
    match posGroup p with
    | 1 => (List.range b.agents).filter (fun a => decide (4096 + b.clusterOf a = p))
    | 2 => if 4360 ≤ p then
        ((List.range b.clusters).filter (fun c => decide (b.dieOfCluster c = p - 4360))).map (4096 + ·)
          ++ (List.range b.agents).filter (fun a => decide (b.dieOfAgent a = p - 4360))
      else []
    | _ => []
  else match posGroup p with
  | 1 => s.unitAgents p
  | 2 => if 4360 ≤ p then
      (((recsOf 0x01 s.recs).map (·.fld 1 7 0)).filter (fun c => decide (s.build.dieOfCluster c = p - 4360))).map (4096 + ·)
        ++ s.unitAgents p
    else []
  | _ => []

/-- A unit is made lame with everything that depends on it. -/
def State.lameAll (s : State) (h : HubId) (p : Nat) (by_ : Option Msg := none) : State :=
  s.each (p :: s.lameUnits p) (fun q s => if ((s.hub h).src q).lame then s else s.makeLame h q by_)

/-- A call-sheet test records a finding; the unit is made lame without a fault state (R320). -/
def State.finding (s : State) (h : HubId) (src : BitVec 16) (kind : Byte) (sev : BitVec 3) (addr : Addr)
    (by_ : Option Msg := none) : State :=
  let (m, s) := s.hubMsg h src kind sev addr 0 by_
  (s.acceptRecord h m).buildDaily s h m s.clk

/-- A die without a path: KIND 0x33, then lame with every agent and concentrator on it (R330, R348). -/
def State.loseDie (s : State) (h : HubId) (d : Nat) (by_ : Option Msg := none) : State :=
  if ((s.hub h).src (4360 + d)).lame then s
  else
    let s := if (s.hub h).st = .bringup then s.finding h (srcId 2 (8 + d)) 0x33 3 0 by_ else s.note h (srcId 2 (8 + d)) 0x33 3 0 0 by_
    (s.lameAll h (4360 + d) by_).dropQueues d

/-- The dies are judged at every hub (R330). -/
def State.judgeDies (s : State) (by_ : Option Msg := none) : State :=
  if s.build.dies = 1 then s else s.eachHub (fun h s => s.each s.unreachable (fun d s => s.loseDie h d by_))

/-- A hub accepts a message (R198, R202, R205, R206, R232). -/
def State.acceptMsg (s : State) (h : HubId) (m : Msg) : State :=
  if s.sourceOn m.source then
    let p := (srcPos m.source).getD 0
    let x := (s.hub h).src p
    let gap := match x.lastSeq with | none => false | some q => decide (m.seq ≠ q + 1)
    let s := s.modHub h (fun k => k.modSrc p (fun y => { y with lastSeq := some m.seq }))
    let s := if gap then s.modHub h (·.count 0) else s
    let s := if kindKnown m.kind.toNat then s else s.modHub h (·.count 2)
    let s := if 5 ≤ m.sev.toNat then s.modHub h (·.count 3) else s
    let dry := m.injected && x.injection.getD true
    let s := if m.injected then s.modHub h (fun k => k.modSrc p (fun y => { y with injection := none })) else s
    if dry then
      let s := s.modHub h (fun k => (k.reelWrite m).stick m)
      if 2 ≤ m.sev.toNat then s.modHub h (fun k => { k with irq := k.irq ||| 1#32 }) else s
    else
      let t := s
      let s := s.acceptRecord h m
      let m' := if 5 ≤ m.sev.toNat then { m with sev := 3#3 } else m
      let s := s.react h m'
      let s := if srcGroup m'.source = 3 then s.judgeDies (some m') else s
      let s := if m'.sev = 4#3 then s else s.kindActions h m'
      (s.buildDaily t h m s.clk).takeUpLead
  else s.modHub h (·.count 1)

/-- HUB_ACCEPT_MESSAGE: the hub takes the message its intake serves next (R206, R217). -/
def execHubAcceptMessage (hub : HubId) (s : State) : Host.Outcome State Fault Refusal :=
  live s fun s =>
    if s.hubUp hub then
      let q := (s.hub hub).intake
      match q.best (fun _ => true) with
      | none => s
      | some (i, e) =>
        if q.mergedFirst e.msg then s
        else
        let m := if q.droppedBefore then { e.msg with dropped := true } else e.msg
        let s := s.setQueue (.hub hub) ({ q with droppedBefore := false }.upd i (fun _ => none))
        s.acceptMsg hub m
    else s

/-- The end of the period that contains `now`, counted from `from_`. -/
def nextDue (now from_ period : Nat) : Nat :=
  if period = 0 then now else from_ + ((now - from_) / period + 1) * period

/-- A hub that counts: acting, and past READY. -/
def State.ticking (s : State) (h : HubId) : Bool :=
  s.hubUp h && ((s.hub h).st.pastReady || decide ((s.hub h).st = .stopped))

/-- LEAK_TICK: every bucket of a group above 0 falls by one, at the end of the group's own period (R212). -/
def execLeakTick (group : Nat) (s : State) : Host.Outcome State Fault Refusal :=
  live s fun s =>
    if [HubId.a, HubId.b].any s.ticking && decide (group ≤ 6) then
      let w := s.grpW group * 1000 / s.grpN group * 1000
      let due := max s.readyAt (s.leakAt.get 0 group) + w
      let s := { s.advanceTo due with leakAt := s.leakAt.set 0 group due }
      s.modHubs (fun k =>
        let ks := k.srcs.keys.filter (fun p => decide (posGroup p = group))
        { k with srcs := ks.foldl (fun m p => m.mod {} p (fun x => { x with bucket := x.bucket - 1 })) k.srcs })
    else s

/-- QUIET_END: the quiet period of a source is over at the leader; leaving the fault state is relaxing (R212, R213,
R274). -/
def execQuietEnd (pos : Nat) (s : State) : Host.Outcome State Fault Refusal :=
  live s fun s =>
    let h := s.twin.leader
    let x := (s.hub h).src pos
    if s.hubUp h && x.fault && !(s.hub h).s4 && decide (pos < 8160) then
      let s := s.advanceTo (x.quietSince + s.grpQ (posGroup pos) * 1000000000)
      if s.grpL (posGroup pos) ≤ x.recovery + 1 then s.onQuiet h pos
      else s.relax (.unfence pos) (fun s => (s.onQuiet h pos).startWaiting)
    else s

/-- The reel mark of a hub: the step clock in ADDRESS and JOB (R204, R222). -/
def State.reelMark (s : State) (h : HubId) : State :=
  let (m, s) := s.hubMsg h (srcId 2 (hubIdx h)) 0x00 0 (BitVec.ofNat 48 (s.clk / 2 ^ 10))
    (BitVec.ofNat 8 (s.clk / 2 ^ 58))
  s.record h m

/-- REEL_MARK: every 2³² ns from READY each hub writes a reel mark (R222). -/
def execReelMark (s : State) : Host.Outcome State Fault Refusal :=
  live s fun s =>
    if [HubId.a, HubId.b].any s.ticking then
      (s.advanceTo (nextDue s.now s.readyAt (2 ^ 32))).eachHub (fun h s => if s.ticking h then s.reelMark h else s)
    else s

/-! ### Reconciliation (R228, R229) -/

/-- The fence bits of a cluster's agents. -/
def State.fenceMask (s : State) (c : Nat) : BitVec 16 :=
  (List.range 16).foldl (fun w i =>
    if (s.agent (c * s.build.clusterSize + i)).fence ∧ i < s.build.clusterSize then w ||| (1#16 <<< i) else w) 0

/-- RECONCILE_MASK_SEND: the concentrator sends its agents' fence bits (R228). -/
def execReconcileMaskSend (cluster : Nat) (s : State) : Host.Outcome State Fault Refusal :=
  live s fun s =>
    if (s.clusterRec cluster).isSome then
      let m := s.fenceMask cluster
      s.modConc cluster (fun c => { c with maskSent := m })
    else s

/-- The more restrictive state of a disagreement, at one hub: an agent that alone is fenced enters its fault state, one that the hub
alone holds fenced is ordered fenced (R228). -/
def State.reconcileTake (s : State) (h : HubId) (a : Nat) (bitSet : Bool) : State :=
  if bitSet then s.enterFault h a 0x13
  else s.modHub h (fun k => { k with fences := k.fences.filter (fun e => decide (e.1 ≠ a)) ++ [(a, s.now)] })

/-- Compare one agent's bit with the hub's fenced set (R228, R229). -/
def State.reconcileAgent (s : State) (h : HubId) (c i : Nat) : State :=
  let a := c * s.build.clusterSize + i
  let young := (s.hub h).fences.any (fun e => decide (e.1 = a ∧ s.now < e.2 + 2000))
  if !(s.agentOn a) || young then s
  else
    let bitSet := (s.conc c).maskSent.getLsbD i
    let hubSet := s.fencedAt h a
    if bitSet = hubSet then s.modHub h (fun k => { k with reconcile := k.reconcile.set 0 a 0 })
    else
      let s := s.noteMirror h (srcId 0 a) 0x13 1 (if bitSet then 1 else 0) 0
      let s := s.reconcileTake h a bitSet
      let s := s.modHub h (fun k => { k with reconcile := k.reconcile.mod 0 a (· + 1) })
      if 4 ≤ (s.hub h).reconcile.get 0 a then
        let s := s.modHub h (fun k => { k with reconcile := k.reconcile.set 0 a 0 })
        s.noteMirror h (srcId 1 c) 0x13 3 0 0
      else s

/-- RECONCILE_COMPARE: a hub compares a concentrator's mask with its own fenced set (R228, R229). -/
def execReconcileCompare (hub : HubId) (cluster : Nat) (s : State) : Host.Outcome State Fault Refusal :=
  live s fun s =>
    if s.hubUp hub && !(s.hub hub).s4 && (s.clusterRec cluster).isSome then
      s.each (List.range (min 16 s.build.clusterSize)) (fun i s => s.reconcileAgent hub cluster i)
    else s

end Sys2Proof.Machine
end

