-- ==== Sys2Proof/Machine/Stages.lean ====
section
/-! DEFINITION. The stages of the call sheet: how one begins, passes and fails, with its record (R316 to R323). -/

namespace Sys2Proof.Machine

open Sys2Proof

/-- How the work of a stage ends (R322, R323): it passes with a cause of 0, 3, 9, 10 or 12, it fails, or it is not at its
end. -/
inductive StageEnd where
  | pass (cause good bad : Nat)
  | fail (cause code good bad : Nat)
  | open_
deriving DecidableEq, Repr

/-- The budget of a stage in ns (R323); stage 9 has its window. -/
def State.stageBudget (s : State) : Nat → Nat
  | 0 => 40000000
  | 1 => 7000000
  | 2 => 10000000
  | 3 => 30000000
  | 4 => 60000000
  | 5 => 25000000
  | 6 => 10000000
  | 7 => 250000000
  | 8 => 120000000
  | 9 => s.discWindow 2000
  | _ => 1000000

/-- A stage begins (R318, R321); stage 1 requests its first key-port item (R325). -/
def State.beginStage (s : State) (n : Nat) : State :=
  let s := { s with stage := some n, stageFrom := s.now, image := none,
                    stages := s.stages.set {} n { stage := n, status := 1, started := s.now } }
  if n = 1 then { s with keyPort := { req := true, since := s.now } }.present (.keyReq 0) else s

/-- A stage passes, PASS or PASS_DEGRADED, and the next one begins (R318, R322). -/
def State.passStage (s : State) (cause good bad : Nat) : State :=
  match s.stage with
  | none => s
  | some n =>
    let s := { s with stages := s.stages.mod {} n (fun r =>
      { r with cause := cause, status := if cause = 0 then 2 else 3, good := good, bad := bad,
               duration := (s.now - r.started) / 1000 }) }
    if n = 10 then { s with stage := none } else s.beginStage (n + 1)

/-- The stage in progress ends. -/
def State.endStage (s : State) : StageEnd → State
  | .pass cause good bad => s.passStage cause good bad
  | .fail cause code good bad => s.failStage cause code good bad
  | .open_ => s

/-- The work of a stage ends `us` after the stage's start; beyond its budget the stage fails with TIMEOUT (R319). -/
def State.runStage (s : State) (n us : Nat) (work : State → State × StageEnd) : State :=
  if s.stage ≠ some n then s
  else if s.stageBudget n < us * 1000 then (s.advanceTo (s.stageFrom + s.stageBudget n)).breakStage 1
  else
    let r := work (s.advanceTo (s.stageFrom + us * 1000))
    r.1.endStage r.2

/-- STAGE_BUDGET_EXPIRY: a stage exceeds its budget (R319); stage 9 ends at its window instead. -/
def execStageBudgetExpiry (s : State) : Host.Outcome State Fault Refusal :=
  live s fun s =>
    match s.stage with
    | none => s
    | some n => if n = 9 then s else (s.advanceTo (s.stageFrom + s.stageBudget n)).breakStage 1

end Sys2Proof.Machine
end

