-- ==== Sys2Proof/Machine/Residue.lean ====
section
/-! DEFINITION. Content residues of blocks and the tag that a sidecar word holds (R112 to R117). -/

namespace Sys2Proof.Machine

open Sys2Proof

/-- The residue of a LINEAR32 element: the magnitude, or p minus it (R115). -/
def linDigit (n : Nat) : Nat :=
  let x := signedNat 32 n
  let r := x.natAbs % p31
  if x < 0 then (if r = 0 then 0 else p31 - r) else r

/-- The digits of `len` bits, first digit first: 16-bit digits of a RAW region, 32-bit elements of a LINEAR32 one. -/
def digitsOf (linear : Bool) : Nat → Nat → List Nat
  | 0, _ => []
  | n + 1, v => if linear then linDigit v :: digitsOf linear n (v / 2 ^ 32) else v % 2 ^ 16 :: digitsOf linear n (v / 2 ^ 16)

/-- Σ d_j · ρ^(j+1) mod p over a list of digits (R114). -/
def contentOf (rho : Nat) : List Nat → Nat
  | [] => 0
  | d :: r => (d + contentOf rho r) * rho % p31

/-- Bits of a digit. -/
def digitBits (linear : Bool) : Nat := if linear then 32 else 16

/-- D over the first `len` bits of a value whose low byte comes first. -/
def contentBits (linear : Bool) (rho len v : Nat) : Nat := contentOf rho (digitsOf linear (len / digitBits linear) v)

/-- The key of a region. -/
def State.rho (s : State) (key : Nat) : Nat := s.keys.regions.getD key 0

end Sys2Proof.Machine
end

