-- ==== Sys2Proof/Machine/Sign.lean ====
section
/-! DEFINITION. Slate bytes and digests, and the chains of the signing streams (R356, R358, R374 to R377). -/

namespace Sys2Proof.Machine

open Sys2Proof

/-! ### Slates (R356, R358) -/

/-- A word of a job's slate. -/
def JobSt.word (j : JobSt) (i : Nat) : W32 := j.slate.get 0 i

/-- A 64-bit slate field, low word first, as 8 bytes. -/
def JobSt.pair (j : JobSt) (i : Nat) : List Byte := bytesBE 8 ((j.word i).toNat + 2 ^ 32 * (j.word (i + 1)).toNat)

/-- A digest of slate words, byte 0 first. -/
def JobSt.digestAt (j : JobSt) (i : Nat) : List Byte := (List.range 12).flatMap (fun k => bytesBE 4 (j.word (i + k)).toNat)

/-- The 94-byte shared part of a slate (R358). -/
def JobSt.shared (j : JobSt) : List Byte :=
  j.pair 2 ++ bytesBE 2 (bits (j.word 0) 31 16) ++ bytesBE 4 (j.word 40).toNat
    ++ j.pair 4 ++ j.pair 6 ++ j.pair 8 ++ j.pair 10 ++ j.digestAt 12

/-- The slate digest (R358). -/
def slateDigest (shared : List Byte) : W64 :=
  let d := BitVec.ofNat 64 (natBE ((sha384 shared).take 8))
  if d = 0 ∨ d = BitVec.allOnes 64 then 1 else d

/-! ### Signing streams (R374 to R377) -/

/-- The STREAM record of a stream (R389). -/
def State.stream? (s : State) (n : Nat) : Option Rec := s.rec? 0x81 (fun r => decide (r.fld 1 5 0 = n))

/-- Weight ranges of a STREAM record. -/
def streamWeights (r : Rec) : List (Nat × Nat) :=
  (List.range (r.fld 1 11 9)).map (fun i => (r.addr (2 + 4 * i), r.addr (4 + 4 * i)))

/-- Output ranges of a STREAM record. -/
def streamOutputs (r : Rec) : List (Nat × Nat) :=
  (List.range (r.fld 1 14 12)).map (fun i =>
    let k := 2 + 4 * (r.fld 1 11 9 + i)
    (r.addr k, r.addr (k + 2)))

/-- A block lies in an output range of a stream. -/
def State.inOutputs (s : State) (n block : Nat) : Bool :=
  match s.stream? n with
  | none => false
  | some r => (streamOutputs r).any (fun x => decide (x.1 ≤ block ∧ block < x.2))

/-- A (block address, tag word) pair: 10 bytes. -/
def tagPair (block : Nat) (tag : W32) : List Byte := bytesBE 6 block ++ bytesBE 4 tag.toNat

/-- The step element's bytes after the head (R375); the LATE byte follows the 0x03 where it is set (R376). -/
def SignElem.encode (e : SignElem) : List Byte :=
  [0x03#8] ++ (if e.late then [Config.lateByte 0] else []) ++ bytesBE 8 e.step.toNat ++ bytesBE 4 e.nIn ++ bytesBE 48 e.aIn
    ++ bytesBE 4 e.nOut ++ bytesBE 48 e.aOut

/-- Absorb a step element. -/
def SignStream.absorb (t : SignStream) (e : SignElem) : SignStream :=
  { t with head := sha384 (t.head ++ e.encode), first := t.first <|> some e.step, last := e.step }

/-- Absorb the elements whose commits are all reported, oldest first. -/
def SignStream.settle (t : SignStream) : List SignElem → SignStream
  | [] => { t with elems := [] }
  | e :: r => if e.waiting = [] then (t.absorb e).settle r else { t with elems := e :: r }

/-- Change a stream. -/
def State.modStream (s : State) (n : Nat) (f : SignStream → SignStream) : State := { s with streams := s.streams.mod {} n f }

/-- The keys that a hub holds: its copy of what stage 1 gave, its secrets read back as zero once it has erased them (R248). -/
def State.hubKeys (s : State) (h : HubId) : Keys :=
  if (s.hub h).zeroised then
    { s.keys with checkRoot := [], tagRoot := [], signSeed := [], signKey := 0, addrKey := 0, regions := [] }
  else s.keys

/-- Sign a stream's head and present the record; CLOSE then unbinds the stream (R377). -/
def State.signHead (s : State) (n : Nat) (close : Bool) : State :=
  let t := s.streams.get {} n
  let sg := ecdsaSign (s.hubKeys s.twin.leader).signKey (sha384 t.head)
  let s := { s with sign := { s.sign with valid := true, closed := close, stream := n, job := t.job, first := t.first.getD 0,
                                          last := t.last, head := t.head, r := sg.1, s := sg.2 } }
  let s := if close then s.modStream n (fun _ => {}) else s
  s.endCmd 0

/-- A SIGN or CLOSE in progress ends once the stream's step elements are absorbed (R378). -/
def State.finishSign (s : State) (n : Nat) : State :=
  if s.busyWith 0xC ∧ bits s.cmd.arg0 13 8 = n ∧ bits s.cmd.arg0 1 0 ≠ 0 ∧ (s.streams.get {} n).elems = []
      ∧ (s.streams.get {} n).bound then
    s.signHead n (decide (bits s.cmd.arg0 1 0 = 2))
  else s

/-- A block's commit is reported to one stream: to the element that waits for it, or as an ungated one. -/
def State.reportTo (s : State) (n block : Nat) (tag : W32) : State :=
  let t := s.streams.get {} n
  if !(t.bound && s.inOutputs n block) then s
  else
    let a := natBE (sha384 (tagPair block tag))
    if t.elems.any (fun e => e.waiting.contains block) then
      let l := t.elems.map (fun e => if e.waiting.contains block then
        { e with waiting := e.waiting.erase block, nOut := e.nOut + 1, aOut := (e.aOut + a) % 2 ^ 384 } else e)
      (s.modStream n (fun t => t.settle l)).finishSign n
    else
      { s.modStream n (fun t => { t with nOut := t.nOut + 1, aOut := (t.aOut + a) % 2 ^ 384, late := true }) with
        sign := { s.sign with ungated := satInc s.sign.ungated } }

/-- A MEM engine reports a committed block of an output range on the account class (R375, R376). -/
def State.reportCommit (s : State) (block : Nat) (tag : W32) : State :=
  s.each s.streams.keys (fun n s => s.reportTo n block tag)

/-- A block of a gate opening's commits is not committed after all: it is poisoned, or was not pending. -/
def State.dropWaiting (s : State) (block : Nat) : State :=
  s.each s.streams.keys (fun n s =>
    if (s.streams.get {} n).elems.any (fun e => e.waiting.contains block) then
      (s.modStream n (fun t => t.settle (t.elems.map (fun e => { e with waiting := e.waiting.erase block })))).finishSign n
    else s)

end Sys2Proof.Machine
end

