-- ==== Sys2Proof/Machine/Tags.lean ====
section
/-! DEFINITION. The tag engines: streams, reads, the commit buffer, poison, links and the dispatch ledger
(R112 to R147, R166 to R169, R199, R366, R367, R428 to R431). -/

namespace Sys2Proof.Machine

open Sys2Proof

/-! ### Counters, messages, addresses (R117, R124, R147) -/

/-- Count in a counter of R147, by its place there. -/
def State.countTag (s : State) (e i : Nat) : State := s.modEngine e (fun g => { g with ctr := g.ctr.mod 0 i satInc })

/-- An engine reports an event at S2 (R147). -/
def State.tagReport (s : State) (e : Nat) (kind : Byte) (addr : Nat) (job : Job) : State :=
  s.emit (.engine e) { source := srcId 5 e, kind := kind, sev := 2, addr := BitVec.ofNat 48 addr, job := job }

/-- KIND 0x03, counted in MISMATCHES. -/
def State.mismatch (s : State) (e addr : Nat) (job : Job) : State := (s.countTag e 1).tagReport e 0x03 addr job

/-- The poison word (R113). -/
def poisonWord : W32 := 0x7FFFFFFF#32

/-- RESIDUE of a tag word (R112). -/
def residueOf (w : W32) : Nat := bits w 30 0

/-- A word is poison, whatever its PENDING bit holds (R113). -/
def isPoison (w : W32) : Bool := decide (residueOf w = p31)

/-- PENDING of a word (R112, R113). -/
def isPending (w : W32) : Bool := bit w 31 && !isPoison w

/-- A tag word. -/
def tagWord (pending : Bool) (residue : Nat) : W32 := BitVec.ofNat 32 (b2n pending * 2 ^ 31 + residue)

/-- H of a block's address (R117). -/
def State.addrTerm (s : State) (block : Nat) : Nat :=
  exactWeight s.keys.addrKey (BitVec.ofNat 32 (block / 2 ^ 24 % 2 ^ 24)) 0 (block % 2 ^ 24)

/-- The content residue of a tag word (R114). -/
def State.contentOfTag (s : State) (block : Nat) (w : W32) : Nat := (residueOf w + (p31 - s.addrTerm block % p31)) % p31

/-- The base of the block at an address, in a tagged region. -/
def State.blockAt (s : State) (a : Nat) : Option Nat := (s.regionAt a).map (·.blockBase a)

/-- The `i`-th block after an address, where it is tagged (R126, R130). -/
def State.nthBlock (s : State) (a i : Nat) : Option Nat :=
  match s.regionAt a with
  | none => none
  | some g => s.blockAt (g.blockBase a + i * g.blockBytes)

/-- The `i`-th block after an address, where an engine owns it: only the owner touches its sidecar word (R127). -/
def State.ownBlock (s : State) (e a i : Nat) : Option Nat := (s.nthBlock a i).filter (fun b => s.ownsAddr e b)

/-- The MEM engine that owns an address (R127). -/
def State.ownerEngine (s : State) (a : Nat) : Option Nat :=
  ((recsOf 0x10 s.recs).map (·.fld 1 31 26)).find? (fun e => s.ownsAddr e a)

/-- The term of byte `i` of a block in D (R114, R115): bytes of a digit are little-endian. -/
def byteTerm (linear : Bool) (rho i b : Nat) : Nat :=
  let n := if linear then 4 else 2
  let k := i % n
  let c := b * 256 ^ k
  let c := if linear && decide (k = 3 ∧ 128 ≤ b) then (c + (p31 - 2 ^ 32 % p31)) % p31 else c
  c * powMod p31 rho (i / n + 1) 17 1 % p31

/-! ### Changing streams -/

/-- A stream of an engine. -/
def Engine.stream (g : Engine) (id : Nat) : Option Stream := g.streams.get none id

/-- Write a stream. -/
def State.setStream (s : State) (e id : Nat) (t : Option Stream) : State :=
  s.modEngine e (fun g => { g with streams := g.streams.set none id t })

/-- The streams bound at an engine. -/
def Engine.bound (g : Engine) : List (Nat × Stream) := g.streams.entries.filterMap (fun x => x.2.map (fun t => (x.1, t)))

/-- Present a reply (R430). -/
def State.reply (s : State) (e id code d : Nat) : State :=
  s.present (.rsp e (BitVec.ofNat 7 id) (BitVec.ofNat 4 code) (BitVec.ofNat 31 d))

/-- A request serves a stream. -/
def SideReq.serves (r : SideReq) (id : Nat) : Bool := decide (r.purpose = .readWord id ∨ r.purpose = .partRead id)

/-- The operation on a stream id is over, or another takes its place: a word that it has asked for serves nothing any more. -/
def State.endStream (s : State) (e id : Nat) (t : Option Stream) : State :=
  (s.modEngine e (fun g => { g with side := g.side.map (fun r => if r.serves id then { r with purpose := .ended } else r) })).setStream
    e id t

/-- The final reply of a stream: its id is free (R429). -/
def State.finalReply (s : State) (e id : Nat) (code d : Nat) : State := (s.endStream e id none).reply e id code d

/-- An open write stream on a block. -/
def Stream.writes (t : Stream) (block : Nat) : Bool :=
  decide (t.op ≠ .read ∧ t.addr = block) && !t.untagged

/-! ### Sidecar requests (R131, R431) -/

/-- Ids that are not held. -/
def Engine.freeSideId (g : Engine) : Option Nat :=
  (List.range 16).find? (fun i => !(g.side.any (fun r => decide (r.id = i))))

/-- Issue a request; a poison word, with which an access without an id ends, waits for one (log 60). Answers whether the request
goes. -/
def State.sideIssue (s : State) (e : Nat) (r : SideReq) : State × Bool :=
  match (s.engine e).freeSideId with
  | none =>
    if r.purpose = .poisonWrite then (s.modEngine e (fun g => { g with sideWait := g.sideWait ++ [r] }), true) else (s, false)
  | some i =>
    let r := { r with id := i, since := s.now }
    ((s.modEngine e (fun g => { g with side := g.side ++ [r] })).present (.side e r), true)

/-- The word that the engine itself is writing at a sidecar address, if any: a later access sees it. -/
def Engine.ownWord (g : Engine) (addr : Nat) : Option W32 :=
  ((g.side ++ g.sideWait).reverse.find? (fun r => r.write && decide (r.addr = addr))).map (·.data)

/-- The sidecar address of a block. -/
def State.sideOf (s : State) (block : Nat) : Nat := ((s.regionAt block).map (·.sideAddr block)).getD 0

/-- Write a block's sidecar word. Answers whether the request goes. -/
def State.writeWord (s : State) (e block : Nat) (w : W32) (job : Job) (p : SidePurpose) : State × Bool :=
  s.sideIssue e { addr := s.sideOf block, write := true, data := w, purpose := p, block := block, job := job }

/-! ### Poison (R113, R129, R131, R138) -/

/-- Index of a block in a commit entry. -/
def State.entryIndex (s : State) (c : CommitEntry) (block : Nat) : Option Nat :=
  match s.regionAt c.base with
  | none => none
  | some g => if g.blockBase c.base ≤ block ∧ block < g.blockBase c.base + c.count * g.blockBytes
      then some ((block - g.blockBase c.base) / g.blockBytes) else none

/-- The commit buffer holds a commit in effect for the block (R130). -/
def State.committing (s : State) (e block : Nat) : Bool :=
  (s.engine e).commits.any (fun c => match s.entryIndex c block with
    | none => false
    | some i => !(c.skip.contains i))

/-- Commits in effect have nothing left to rewrite for a block whose word is replaced. -/
def State.skipBlock (s : State) (e block : Nat) : State :=
  s.modEngine e (fun g => { g with commits := g.commits.map (fun c => match s.entryIndex c block with
    | none => c
    | some i => { c with skip := setAdd i c.skip }) })

/-- Held reads of a block. -/
def Engine.heldOn (g : Engine) (block : Nat) : List Nat :=
  (g.bound.filter (fun x => x.2.held && decide (x.2.addr = block))).map (·.1)

/-- Change the streams on a block. -/
def State.modOn (s : State) (e block : Nat) (f : Stream → Stream) : State :=
  s.modEngine e (fun g => { g with streams := g.streams.map none (fun x => x.map (fun t =>
    if decide (t.addr = block) && !t.untagged then f t else t)) })

/-- A stream that has asked for its block's word sees the poison (R131, R138). -/
def Stream.seePoison (t : Stream) : Stream := if t.requested then { t with word := some (poisonWord, false) } else t

/-- Poison a block: its word, the reads and partial writes under way, its held reads, a report where KIND 0x03 is due
(R113, R131, R138). -/
def State.poisonBlock (s : State) (e block : Nat) (job : Job) (report : Bool) : State :=
  let s := if report then s.mismatch e block job else s
  let s := ((s.skipBlock e block).writeWord e block poisonWord job .poisonWrite).1.modOn e block (·.seePoison)
  let s := s.each ((s.engine e).heldOn block) (fun id s => (s.countTag e 2).finalReply e id 5 0)
  s.dropWaiting block

/-- Write a block's tag word; where all ids are held it is handled as a response that comes too late: MISMATCH, and the block is
poisoned (R292, R431). Answers whether the request goes. -/
def State.writeTag (s : State) (e block : Nat) (w : W32) (job : Job) (p : SidePurpose) : State × Bool :=
  let r := s.writeWord e block w job p
  if r.2 then (r.1, true) else (r.1.poisonBlock e block job true, false)

/-! ### Reads (R130, R131, R167, R168) -/

/-- Judge a whole-block read against a tag word; `rel` says that the reply is a RELEASE. -/
def State.verifyRead (s : State) (e id : Nat) (t : Stream) (w : W32) (rel : Bool) : State :=
  if t.d = s.contentOfTag t.addr w then (s.countTag e 0).finalReply e id (if rel then 3 else 1) t.d
  else (s.finalReply e id (if rel then 4 else 7) 0).poisonBlock e t.addr t.job true

/-- Answer a read whose word is there (R131). -/
def State.judgeRead (s : State) (e id : Nat) (t : Stream) (w : W32) (bad : Bool) : State :=
  if bad then (s.finalReply e id 7 0).poisonBlock e t.addr t.job true
  else if isPoison w then (s.countTag e 2).finalReply e id 6 0
  else if isPending w && !t.committed && !(s.committing e t.addr) then
    (s.setStream e id (some { t with word := some (w, false), held := true })).reply e id 2 0
  else if !t.whole then (s.countTag e 3).finalReply e id 8 0
  else s.verifyRead e id t w false

/-- The word of a read has arrived. -/
def State.readWord (s : State) (e id : Nat) (w : W32) (bad : Bool) : State :=
  match (s.engine e).stream id with
  | none => s
  | some t =>
    let (w, bad) := t.word.getD (w, bad)
    if t.held then s
    else if t.whole && !t.closed then s.setStream e id (some { t with word := some (w, bad) })
    else s.judgeRead e id t w bad

/-- Request the word of a read; where all ids are held, it is handled as MISMATCH (R431). -/
def State.requestWord (s : State) (e id : Nat) (t : Stream) : State :=
  let s := s.setStream e id (some { t with requested := true })
  match (s.engine e).ownWord (s.sideOf t.addr) with
  | some w => s.readWord e id w false
  | none =>
    let (s, ok) := s.sideIssue e { addr := s.sideOf t.addr, purpose := .readWord id, block := t.addr, job := t.job }
    if ok then s else s.readWord e id 0 true

/-- Release a held read at its block's commit (R131, R168). -/
def State.releaseRead (s : State) (e id : Nat) : State :=
  match (s.engine e).stream id with
  | none => s
  | some t =>
    if !t.held then s
    else if !t.whole then (s.countTag e 3).finalReply e id 8 0
    else if t.stale then { s.finalReply e id 4 0 with staleReleases := satInc s.staleReleases }
    else s.verifyRead e id t ((t.word.map (·.1)).getD 0) true

/-- Release every held read of a block. -/
def State.releaseBlock (s : State) (e block : Nat) : State :=
  s.each ((s.engine e).heldOn block) (fun id s => s.releaseRead e id)

/-! ### Storing a tag at the close of a write (R112, R129, R130, R168, R366) -/

/-- INLOG_LOG2 and INLOG_BASE of the accepted harness (R366, R389). -/
def State.inlogLog2 (s : State) : Nat := ((s.rec? 0x80 (fun _ => true)).map (·.fld 1 4 0)).getD 0
def State.inlogBase (s : State) : Nat := ((s.rec? 0x80 (fun _ => true)).map (·.addr 2)).getD 0

/-- The 16 bytes of an input-log entry, its words little-endian (R366, R10). -/
def entryBytes (x : InlogEntry) : List Byte :=
  let w : List Nat := [x.tag.toNat, x.step.toNat, x.step.toNat / 2 ^ 32 * 2 ^ 16 + x.job.toNat * 2 ^ 8 + x.addr.toNat / 2 ^ 42,
                       x.addr.toNat / 2 ^ 10]
  w.flatMap (fun n => [BitVec.ofNat 8 n, BitVec.ofNat 8 (n / 2 ^ 8), BitVec.ofNat 8 (n / 2 ^ 16), BitVec.ofNat 8 (n / 2 ^ 24)])

/-- A sum mod 2³⁸⁴ of SHA-384 over input-log entries (R368, R375). -/
def entrySum (l : List InlogEntry) : Nat := l.foldl (fun a x => (a + natBE (sha384 (entryBytes x))) % 2 ^ 384) 0

/-- A passed WRITE_EXTERNAL waits for its input-log entry, which belongs to its job's step (R366, R367). -/
def State.queueInlog (s : State) (t : Stream) (w : W32) : State :=
  if t.op = .external ∧ s.inlogLog2 ≠ 0 then
    let x : InlogEntry := { tag := w, step := BitVec.ofNat 48 t.step.toNat, job := t.job, addr := BitVec.ofNat 48 t.addr }
    let s := s.modJob t.job.toNat (fun j => { j with opens := j.opens.map (fun o =>
      if o.step = t.step then { o with logEntries := o.logEntries ++ [x] } else o) })
    { s with inlog := { s.inlog with waiting := s.inlog.waiting ++ [x] } }
  else s

/-- The commit of a block in effect, whose word is now replaced: reported with its tag where the block was pending, else a
stray commit (R130, R375). -/
def State.commitNow (s : State) (e block : Nat) (pending : Bool) (w : W32) : State :=
  if pending then s.reportCommit block w else (s.countTag e 5).dropWaiting block

/-- A whole-block write replaces a word that a commit in effect has not rewritten yet: the commit is reported with the tag
that the engine holds, else it is reported no more (R130, R375). -/
def State.overtaken (s : State) (e block : Nat) : State :=
  if s.committing e block then
    match (s.engine e).ownWord (s.sideOf block) with
    | some w => s.commitNow e block (isPending w) (tagWord false (residueOf w))
    | none => s.dropWaiting block
  else s

/-- Store the tag of a closing whole-block write. Reads held on the block, or under way, hold bytes that are now replaced
(R168); a commit that came while the stream was open takes effect here (R130). -/
def State.storeTag (s : State) (e : Nat) (t : Stream) : State :=
  let res := (t.d + s.addrTerm t.addr) % p31
  let pend := decide (t.op = .checked) && !t.commitAtClose
  let w := tagWord pend res
  let s := s.modOn e t.addr (fun r => if r.held || (decide (r.op = .read) && r.requested) then { r with stale := true } else r)
  let s := (((s.overtaken e t.addr).skipBlock e t.addr).writeTag e t.addr w t.job .tagWrite).1
  let s := if t.commitAtClose then s.commitNow e t.addr (decide (t.op = .checked)) w else s
  let s := if pend then s else s.releaseBlock e t.addr
  s.queueInlog t w

/-- Bytes of the block of a tagged stream. -/
def State.streamBytes (s : State) (t : Stream) : Nat := ((s.regionAt t.addr).map (·.blockBytes)).getD 0

/-- A closing stream stores poison; a commit that waited for it finds no pending block. -/
def State.storePoison (s : State) (e : Nat) (t : Stream) (report : Bool) : State :=
  let s := s.poisonBlock e t.addr t.job report
  if t.commitAtClose then s.countTag e 5 else s

/-- The close of a whole-block write (R129, R138). -/
def State.closeWrite (s : State) (e id : Nat) (t : Stream) : State :=
  let t := { t with closed := true }
  if t.broken then (s.storePoison e t false).finalReply e id 0 0
  else if t.bytes ≠ s.streamBytes t then (s.storePoison e t true).finalReply e id 0 0
  else if t.op = .poison ∨ t.poison then (s.storePoison e t false).finalReply e id 0 0
  else if t.op = .expect ∧ t.d ≠ t.expected then (s.storePoison e t true).finalReply e id 7 0
  else (s.storeTag e t).finalReply e id 0 0

/-- A read held on a block, or about to be, its word still on the way where the block is pending, is judged against the tag that a
partial write leaves (R131). -/
def Stream.seePart (t : Stream) (pending : Bool) (w : W32) : Stream :=
  if t.op = .read ∧ (t.held ∨ t.word.any (fun x => isPending x.1) ∨ (pending ∧ t.requested ∧ t.word = none)) then
    { t with word := some (w, false) } else t

/-- A partial write updates the residue; PENDING and poison stand (R122, R138). A commit that came while it was open takes
effect here (R130). -/
def State.finishPart (s : State) (e id : Nat) (t : Stream) (w : W32) (bad : Bool) : State :=
  let (w, bad) := t.word.getD (w, bad)
  if bad then (s.storePoison e t true).finalReply e id 0 0
  else if isPoison w then (if t.commitAtClose then s.countTag e 5 else s).finalReply e id 0 0
  else
    let res := (residueOf w + t.d + (p31 - t.dOld % p31)) % p31
    let now := s.committing e t.addr || t.commitAtClose
    let w' := tagWord (isPending w && !now) res
    let s := if now then s.commitNow e t.addr (isPending w) w' else s
    let (s, ok) := (s.skipBlock e t.addr).writeTag e t.addr w' t.job .tagWrite
    let s := if ok then s.modOn e t.addr (·.seePart (isPending w) w') else s
    (if t.commitAtClose then s.releaseBlock e t.addr else s).finalReply e id 0 0

/-- The close of a partial write (R122, R129). -/
def State.closePart (s : State) (e id : Nat) (t : Stream) : State :=
  let t := { t with closed := true }
  let n := t.final + 1 - t.first
  if t.broken ∨ t.poison then (s.storePoison e t false).finalReply e id 0 0
  else if t.final < t.first ∨ t.bytes ≠ n ∨ t.bytesOld ≠ n then (s.storePoison e t true).finalReply e id 0 0
  else
    let t := { t with requested := true }
    let s := s.setStream e id (some t)
    match (s.engine e).ownWord (s.sideOf t.addr) with
    | some w => s.finishPart e id t w false
    | none =>
      let (s, ok) := s.sideIssue e { addr := s.sideOf t.addr, purpose := .partRead id, block := t.addr, job := t.job }
      if ok then s else s.finishPart e id t 0 true

/-! ### The memory operations (R129, R139, R140, R429) -/

/-- An enforced frozen range that a span of bytes touches (R139, R140). -/
def State.frozen (s : State) (lo hi : Nat) : Bool :=
  (recsOf 0x12 s.recs).any (fun r => (s.job (r.fld 1 7 0)).launched && decide (lo < r.addr 4 ∧ r.addr 2 < hi))

/-- A write is refused (R140). -/
def State.refuseWrite (s : State) (e id : Nat) (t : Stream) (addr : Nat) : State :=
  ((s.countTag e 7).tagReport e 0x07 addr t.job).finalReply e id 10 0

/-- Open write streams of an engine (R129). -/
def Engine.openWrites (g : Engine) : Nat := (g.bound.filter (fun x => decide (x.2.op ≠ .read))).length

/-- A memory operation on a stream id that is still bound: both reads are answered MISMATCH, a held one by its RELEASE; both
blocks are poisoned and reported (R129). -/
def State.reuseStream (s : State) (e id : Nat) (old t : Stream) : State :=
  let s := if t.op = .read then s.finalReply e id (if old.held then 4 else 7) 0 else s
  let s := if old.untagged then s else s.poisonBlock e old.addr old.job true
  let s := if t.untagged then s else s.poisonBlock e t.addr t.job true
  if t.op = .read then s.finalReply e id 7 0 else s.endStream e id (some { t with broken := true })

/-- Reads of a block that have been accepted and have not begun ask for its word: they see the state before the write that
now opens (R146). -/
def State.sampleReads (s : State) (e block : Nat) : State :=
  s.each ((s.engine e).bound.filter (fun x => decide (x.2.op = .read ∧ x.2.addr = block) && x.2.whole && !x.2.requested
    && !x.2.untagged)) (fun x s => s.requestWord e x.1 x.2)

/-- A write operation takes its stream. -/
def State.openWrite (s : State) (e id : Nat) (t : Stream) : State :=
  if t.untagged then s.setStream e id (some t)
  else
    let lo := if t.op = .part then t.addr + t.first else t.addr
    let hi := if t.op = .part then t.addr + t.final + 1 else t.addr + s.streamBytes t
    if s.frozen lo hi then s.refuseWrite e id t t.addr
    else
      let s := if t.op = .part then s else s.sampleReads e t.addr
      let two := (s.engine e).bound.filter (fun x => x.2.writes t.addr)
      let many := decide (64 ≤ (s.engine e).openWrites)
      if two ≠ [] ∨ many then
        let s := s.each two (fun x s => s.setStream e x.1 (some { x.2 with broken := true }))
        (s.setStream e id (some { t with broken := true })).poisonBlock e t.addr t.job true
      else s.setStream e id (some t)

/-- A read operation takes its stream (R126, R131). -/
def State.openRead (s : State) (e id : Nat) (t : Stream) : State :=
  if t.untagged then (s.countTag e 4).finalReply e id 9 0
  else if t.whole then s.setStream e id (some t)
  else s.requestWord e id t

/-- The step of a job that is current (R367). -/
def State.stepOf (s : State) (job : Job) : W64 := (s.job job.toNat).stepNo

/-- A memory operation at an engine; only MEM engines perform them (R129). -/
def State.memOp (s : State) (e : Nat) (stream : BitVec 7) (addr : Addr) (job : Job) (f : Stream → Stream) : State :=
  if s.engineRole e ≠ 1 then s
  else
    let b := s.blockAt addr.toNat
    let t := f { addr := b.getD addr.toNat, job := job, untagged := b.isNone, step := s.stepOf job }
    match (s.engine e).stream stream.toNat with
    | some old => s.reuseStream e stream.toNat old t
    | none => if t.op = .read then s.openRead e stream.toNat t else s.openWrite e stream.toNat t

/-- WRITE_CHECKED: operation 0x1 (R129). -/
def execWriteChecked (engine : Nat) (stream : BitVec 7) (addr : Addr) (job : Job) (s : State) : Host.Outcome State Fault Refusal :=
  live s fun s => s.memOp engine stream addr job (fun t => { t with op := .checked })

/-- WRITE_PLAIN: operation 0x2 (R129). -/
def execWritePlain (engine : Nat) (stream : BitVec 7) (addr : Addr) (job : Job) (s : State) : Host.Outcome State Fault Refusal :=
  live s fun s => s.memOp engine stream addr job (fun t => { t with op := .plain })

/-- WRITE_EXPECT: operation 0x3 with the expected D (R129). -/
def execWriteExpect (engine : Nat) (stream : BitVec 7) (addr : Addr) (job : Job) (d : BitVec 31) (s : State) :
    Host.Outcome State Fault Refusal :=
  live s fun s => s.memOp engine stream addr job (fun t => { t with op := .expect, expected := d.toNat })

/-- WRITE_POISON: operation 0x4 (R129). -/
def execWritePoison (engine : Nat) (stream : BitVec 7) (addr : Addr) (job : Job) (s : State) : Host.Outcome State Fault Refusal :=
  live s fun s => s.memOp engine stream addr job (fun t => { t with op := .poison })

/-- WRITE_EXTERNAL: operation 0x5 (R129). -/
def execWriteExternal (engine : Nat) (stream : BitVec 7) (addr : Addr) (job : Job) (s : State) : Host.Outcome State Fault Refusal :=
  live s fun s => s.memOp engine stream addr job (fun t => { t with op := .external })

/-- WRITE_PARTIAL: operation 0x6 over bytes `first` to `last` of the block (R122, R129). -/
def execWritePartial (engine : Nat) (stream : BitVec 7) (addr : Addr) (job : Job) (first last : BitVec 16) (s : State) :
    Host.Outcome State Fault Refusal :=
  live s fun s => s.memOp engine stream addr job (fun t => { t with op := .part, first := first.toNat, final := last.toNat })

/-- READ: operation 0x8 (R131). -/
def execRead (engine : Nat) (stream : BitVec 7) (addr : Addr) (job : Job) (whole : Bool) (s : State) : Host.Outcome State Fault Refusal :=
  live s fun s => s.memOp engine stream addr job (fun t => { t with op := .read, whole := whole })

/-! ### Data beats (R114, R115, R122, R129) -/

/-- The enabled bytes of a beat, in lane order, with their lanes. -/
def beatLanes (b : TgBeat) (l : List Byte) : List (Nat × Nat) :=
  (List.range 256).filterMap (fun i => if b.dbe.getLsbD i then some (i, (l.getD i 0).toNat) else none)

/-- Fold bytes into a residue from byte `i` of the block on. -/
def foldBytes (linear : Bool) (rho : Nat) : Nat → List (Nat × Nat) → Nat → Nat
  | _, [], d => d
  | i, (_, b) :: r, d => foldBytes linear rho (i + 1) r ((d + byteTerm linear rho i b) % p31)

/-- A beat folded into a tagged stream. -/
def State.foldBeat (s : State) (t : Stream) (b : TgBeat) : Stream :=
  match s.regionAt t.addr with
  | none => t
  | some g =>
    let new := beatLanes b b.data
    let rho := s.rho g.key
    let off := if t.op = .part then t.first else 0
    let t := { t with d := foldBytes g.linear rho (off + t.bytes) new t.d, bytes := t.bytes + new.length,
                      beats := t.beats + 1, poison := t.poison || (b.poison && decide (t.op ≠ .read)) }
    if t.op = .part then
      let old := beatLanes b b.old
      { t with dOld := foldBytes g.linear rho (off + t.bytesOld) old t.dOld, bytesOld := t.bytesOld + old.length }
    else t

/-- A beat of an untagged write: its bytes are held against the frozen map (R140). Those of a WRITE_PARTIAL are counted from its
address plus its first byte offset: R140 states the span of a partial write and of an untagged one, not of both. DESIGN CHOICE
(log 110). -/
def State.untaggedBeat (s : State) (e id : Nat) (t : Stream) (b : TgBeat) : State :=
  let at_ := t.addr + (if t.op = .part then t.first else 0) + 256 * t.beats
  let t := { t with beats := t.beats + 1, closed := b.last }
  match (beatLanes b b.data).find? (fun (x : Nat × Nat) => s.frozen (at_ + x.1) (at_ + x.1 + 1)) with
  | some _ => s.refuseWrite e id t t.addr
  | none => if b.last then s.finalReply e id 0 0 else s.setStream e id (some t)

/-- A beat of a tagged stream. -/
def State.taggedBeat (s : State) (e id : Nat) (t : Stream) (b : TgBeat) : State :=
  let t := s.foldBeat t b
  if t.op = .read then
    let t := { t with closed := b.last }
    let s := s.setStream e id (some t)
    if !t.whole then s
    else if !t.requested then s.requestWord e id t
    else if b.last then
      match t.word with
      | none => s
      | some (w, bad) => s.judgeRead e id t w bad
    else s
  else if !b.last then s.setStream e id (some t)
  else if t.op = .part then s.closePart e id t
  else s.closeWrite e id t

/-- TG_DATA_BEAT: a data beat of a stream (R129). One that comes after `TG_D_LAST` on a stream that is still bound, a held read or a
partial write whose word is on its way, belongs to no open operation and counts as a stray one. DESIGN CHOICE (log 110). -/
def execTgDataBeat (engine : Nat) (beat : TgBeat) (s : State) : Host.Outcome State Fault Refusal :=
  live s fun s =>
    let id := beat.stream.toNat
    match (s.engine engine).stream id with
    | none => s.countTag engine 9
    | some t =>
      if t.untagged then s.untaggedBeat engine id t beat
      else if t.closed then s.countTag engine 9
      else s.taggedBeat engine id t beat

/-! ### The commit buffer (R33, R130) -/

/-- Change a commit entry. -/
def State.modCommit (s : State) (e key : Nat) (f : CommitEntry → CommitEntry) : State :=
  s.modEngine e (fun g => { g with commits := g.commits.map (fun c => if c.key = key then f c else c) })

/-- Rewrite a block's word with PENDING 0; a block that is not pending is a stray commit. Answers whether a write is on its
way. -/
def State.commitWord (s : State) (e : Nat) (c : CommitEntry) (block : Nat) (w : W32) (bad : Bool) : State × Bool :=
  if bad then (s.poisonBlock e block c.job true, false)
  else if isPending w then
    let w' := tagWord false (residueOf w)
    let r := s.writeTag e block w' c.job (.commitWrite c.key)
    if r.2 then (r.1.reportCommit block w', true) else (r.1, false)
  else ((s.countTag e 5).dropWaiting block, false)

/-- Go on with the rewrites of a commit entry, one block at a time. -/
def State.commitGo (e key : Nat) : Nat → State → State
  | 0, s => s
  | n + 1, s =>
    match (s.engine e).commits.find? (fun c => decide (c.key = key)) with
    | none => s
    | some c =>
      if c.count ≤ c.next then s
      else
        let past := s.modCommit e key (fun c => { c with next := c.next + 1 })
        match s.ownBlock e c.base c.next with
        | none => State.commitGo e key n past
        | some b =>
          if c.skip.contains c.next then State.commitGo e key n past
          else
            match (s.engine e).ownWord (s.sideOf b) with
            | some w =>
              let r := s.commitWord e c b w false
              if r.2 then r.1 else State.commitGo e key n (r.1.modCommit e key (fun c => { c with next := c.next + 1 }))
            | none =>
              let r := s.sideIssue e { addr := s.sideOf b, purpose := .commitRead key, block := b, job := c.job }
              if r.2 then r.1
              else State.commitGo e key n ((r.1.poisonBlock e b c.job true).modCommit e key (fun c => { c with next := c.next + 1 }))

/-- Go on with an entry. -/
def State.commitNext (s : State) (e key : Nat) : State :=
  match (s.engine e).commits.find? (fun c => decide (c.key = key)) with
  | none => s
  | some c => State.commitGo e key (c.count + 1) s

/-- The effect of a commit on one block: an open write stream takes it at its close, reads see the block committed. -/
def State.commitBlock (s : State) (e key block i : Nat) : State :=
  let ws := (s.engine e).bound.filter (fun x => x.2.writes block)
  if ws ≠ [] then
    (s.each ws (fun x s => s.setStream e x.1 (some { x.2 with commitAtClose := true }))).modCommit e key
      (fun c => { c with skip := setAdd i c.skip })
  else
    let s := s.releaseBlock e block
    s.modEngine e (fun g => { g with streams := g.streams.map none (fun x => x.map (fun r =>
      if r.op = .read ∧ r.addr = block then { r with committed := true } else r)) })

/-- A commit takes effect as an entry of the buffer. -/
def State.commitEffect (s : State) (e : Nat) (c : CommitEntry) : State :=
  let key := (s.engine e).nextKey
  let s := s.modEngine e (fun g => { g with commits := g.commits ++ [{ c with key := key }], nextKey := key + 1 })
  let s := s.each (List.range c.count) (fun i s => match s.ownBlock e c.base i with
    | none => s
    | some b => if c.skip.contains i then s else s.commitBlock e key b i)
  s.commitNext e key

/-- A commit arrives: it takes effect, or waits for a free entry (R130). -/
def State.takeCommit (s : State) (e : Nat) (c : CommitEntry) : State :=
  if (s.engine e).commits.length < 256 then s.commitEffect e c
  else (s.countTag e 6).modEngine e (fun g => { g with waitCommits := g.waitCommits ++ [c] })

/-- COMMIT: control operation 0x9 (R130). -/
def execCommit (engine : Nat) (addr : Addr) (count : BitVec 16) (job : Job) (s : State) : Host.Outcome State Fault Refusal :=
  live s fun s =>
    if s.engineRole engine ≠ 1 then s
    else (s.takeCommit engine { base := addr.toNat, count := count.toNat, job := job }).present (.tgcDone engine)

/-- A whole-block write that is open when its block is poisoned stores poison at its close: the write, then the poison
(R146; log 96). -/
def Stream.poisonOver (t : Stream) : Stream := if t.op ≠ .read ∧ t.op ≠ .part then { t with poison := true } else t

/-- Poison the blocks of a range that an engine owns. -/
def State.poisonRange (s : State) (e a count : Nat) (job : Job) : State :=
  s.each (List.range count) (fun i s => match s.ownBlock e a i with
    | none => s
    | some b => (s.poisonBlock e b job false).modOn e b (·.poisonOver))

/-- POISON: control operation 0xA (R129, R130). -/
def execPoison (engine : Nat) (addr : Addr) (count : BitVec 16) (job : Job) (s : State) : Host.Outcome State Fault Refusal :=
  live s fun s =>
    if s.engineRole engine ≠ 1 then s
    else (s.poisonRange engine addr.toNat count.toNat job).present (.tgcDone engine)

/-- COMMIT_BUFFER_FREE: entries whose last word is written free, and waiting commits take effect (R130). -/
def execCommitBufferFree (engine : Nat) (s : State) : Host.Outcome State Fault Refusal :=
  live s fun s =>
    let s := s.modEngine engine (fun g => { g with commits := g.commits.filter (fun c => decide (c.next < c.count)) })
    let room := 256 - (s.engine engine).commits.length
    let w := (s.engine engine).waitCommits
    (s.modEngine engine (fun g => { g with waitCommits := w.drop room })).each (w.take room) (fun c s => s.commitEffect engine c)

/-! ### Sidecar completions (R131, R292, R431) -/

/-- The entry of a commit's request goes on with its next block. -/
def State.commitPast (s : State) (e key : Nat) : State :=
  (s.modCommit e key (fun c => { c with next := c.next + 1 })).commitNext e key

/-- A read word of a commit entry has arrived. -/
def State.commitRead (s : State) (e key block : Nat) (w : W32) (bad : Bool) : State :=
  match (s.engine e).commits.find? (fun c => decide (c.key = key)) with
  | none => s
  | some c =>
    if c.skip.contains c.next then s.commitPast e key
    else
      let r := s.commitWord e c block w bad
      if r.2 then r.1 else r.1.commitPast e key

/-- Finish what a request was for; `bad` is a read error or a time-out. -/
def State.sideDone (s : State) (e : Nat) (r : SideReq) (w : W32) (bad late : Bool) : State :=
  match r.purpose with
  | .ended => s
  | .readWord id => s.readWord e id w bad
  | .partRead id => match (s.engine e).stream id with
    | none => s
    | some t => s.finishPart e id t w bad
  | .tagWrite => if late then s.poisonBlock e r.block r.job true else s
  | .poisonWrite => s
  | .commitRead key => s.commitRead e key r.block w bad
  | .commitWrite key => (if late then s.poisonBlock e r.block r.job true else s).commitPast e key

/-- A poison word that waits takes the id that is free. -/
def State.issueWaiting (s : State) (e : Nat) : State :=
  match (s.engine e).sideWait, (s.engine e).freeSideId with
  | r :: rest, some _ => ((s.modEngine e (fun g => { g with sideWait := rest })).sideIssue e r).1
  | _, _ => s

/-- SIDE_ACK: the host completes a sidecar request; a late completion only frees its id (R431). -/
def execSideAck (engine : Nat) (id : BitVec 4) (rdata : W32) (ue : Bool) (s : State) : Host.Outcome State Fault Refusal :=
  live s fun s =>
    match (s.engine engine).side.find? (fun r => decide (r.id = id.toNat)) with
    | none => s
    | some r =>
      let s := s.modEngine engine (fun g => { g with side := g.side.filter (fun x => decide (x.id ≠ id.toNat)) })
      let s := s.issueWaiting engine
      if r.late then s else s.sideDone engine r rdata (ue && !r.write) false

/-- SIDECAR_TIMEOUT: a request is not completed within 1 µs: handled as MISMATCH (R292, R431). -/
def execSidecarTimeout (engine : Nat) (id : BitVec 4) (s : State) : Host.Outcome State Fault Refusal :=
  live s fun s =>
    match (s.engine engine).side.find? (fun r => decide (r.id = id.toNat)) with
    | none => s
    | some r =>
      if r.late then s
      else
        let s := s.advanceTo (r.since + 1000)
        let s := s.modEngine engine (fun g => { g with side := g.side.map (fun x => if x.id = id.toNat then { x with late := true } else x) })
        s.sideDone engine r 0 true true

/-! ### DMA and LINK engines (R119 to R121, R132, R133, R141) -/

/-- A power of a region key. -/
def rhoPow (rho n : Nat) : Nat := powMod p31 rho n 40 1

/-- D over a span of bytes (R114, R115). -/
def spanD (linear : Bool) (rho : Nat) (l : List Byte) : Nat := foldBytes linear rho 0 (l.map (fun b => (0, b.toNat))) 0

/-- The digits in a span of bytes. -/
def spanDigits (linear : Bool) (l : List Byte) : Nat := l.length / (digitBits linear / 8)

/-- The residue of the part of a source block that a destination takes: the rest is computed from its bytes (R119, R120). -/
def partResidue (linear : Bool) (rho : Nat) (u : SrcUse) (d : Nat) : Nat :=
  let tail := (d + (p31 - spanD linear rho u.skip % p31)) * invMod p31 (rhoPow rho (spanDigits linear u.skip)) % p31
  (tail + (p31 - rhoPow rho (spanDigits linear u.part) * (spanD linear rho u.rest % p31) % p31)) % p31

/-- A residue with one more part, of residue `x`, after `before` digits, times a coefficient (R119, R141). -/
def addPart (d : Nat) (u : SrcUse) (rho x : Nat) : Nat :=
  (d + (u.coef % (p31 : Int)).toNat * (rhoPow rho u.before * x % p31)) % p31

/-- The form of a destination block with one more source part; without a common key, or without a residue of the source,
nothing links the two (R121). -/
def DestForm.add (f : DestForm) (u : SrcUse) (g : Option Region124) (rho : Nat) (src : Option Nat) (bad : Bool) : DestForm :=
  if bad then { f with poison := true }
  else
    match g, src with
    | some r, some d => { f with d := addPart f.d u rho (partResidue r.linear rho u d) }
    | _, _ => { f with crossKey := true }

/-- One use of a source block, in region `g`, in a destination block. -/
def State.destUse (s : State) (e : Nat) (g : Option Region124) (src : Option Nat) (bad : Bool) (u : SrcUse) : State :=
  let k := (s.regionAt u.dest.toNat).map (·.key)
  let cross := g.isSome && k.isSome && decide (k ≠ g.map (·.key))
  let old := (((s.engine e).forms.find? (fun f => decide (f.dest = u.dest))).getD { dest := u.dest })
  let f := old.add u (g.filter (fun r => decide (k = some r.key))) (s.rho (k.getD 0)) src bad
  let rest := (s.engine e).forms.filter (fun g => decide (g.dest ≠ u.dest))
  let s := if cross then s.countTag e 8 else s
  if u.final then
    let s := s.modEngine e (fun g => { g with forms := rest })
    if f.poison then s.present (.xd e u.dest 0 true)
    else if f.crossKey then s
    else s.present (.xd e u.dest (BitVec.ofNat 31 f.d) false)
  else s.modEngine e (fun g => { g with forms := rest ++ [f] })

/-- One use of a source block in the payload of the packet that a LINK engine forms, under key index 0: from the source's
residue where its region has that key and the payload's form, else from its bytes (R133; log 97). -/
def State.packetUse (s : State) (e : Nat) (g : Option Region124) (src : Option Nat) (bad : Bool) (u : SrcUse) : State :=
  let f := (s.engine e).payload
  let linear := if f.started then f.linear else (g.map (·.linear)).getD false
  let x := match g.filter (fun r => decide (r.key = 0 ∧ r.linear = linear)), src with
    | some _, some d => partResidue linear (s.rho 0) u d
    | _, _ => spanD linear (s.rho 0) u.part
  s.modEngine e (fun k => { k with payload :=
    { started := true, linear := linear, d := addPart f.d u (s.rho 0) x, poison := f.poison || bad } })

/-- TG_SOURCE_REPLY: a DMA or LINK engine receives a source engine's reply (R132). -/
def execTgSourceReply (engine : Nat) (code : BitVec 4) (d : BitVec 31) (addr : Addr) (uses : List SrcUse) (s : State) :
    Host.Outcome State Fault Refusal :=
  live s fun s =>
    if s.engineRole engine < 2 ∨ code = 2#4 then s
    else
      let bad := decide (code ∈ [4#4, 5#4, 6#4, 7#4])
      let src := if code = 1#4 ∨ code = 3#4 then some d.toNat else none
      let g := s.regionAt addr.toNat
      s.each uses (fun u s => if u.packet then s.packetUse engine g src bad u else s.destUse engine g src bad u)

/-! ### The ledger header (R143) -/

/-- The MAGIC and the reserved word of a dispatch packet's header. -/
def hdrOk (h : BitVec 128) : Bool := decide (h.extractLsb' 24 8 = 0xD1#8 ∧ h.extractLsb' 96 32 = 0#32)

/-- JOB, ROUND, SRC, SEQ, LAST, COUNT and ROW_DIGITS of a header. -/
def hdrJob (h : BitVec 128) : Job := h.extractLsb' 16 8
def hdrRound (h : BitVec 128) : BitVec 16 := h.extractLsb' 0 16
def hdrSrc (h : BitVec 128) : BitVec 16 := h.extractLsb' 48 16
def hdrSeq (h : BitVec 128) : BitVec 16 := h.extractLsb' 32 16
def hdrLast (h : BitVec 128) : Bool := h.getLsbD 95
def hdrCount (h : BitVec 128) : Nat := (h.extractLsb' 80 15).toNat
def hdrRowDigits (h : BitVec 128) : Nat := (h.extractLsb' 64 16).toNat

/-! ### Link packets (R133) -/

/-- The bytes of 16-bit digits, each little-endian. -/
def digitBytes (l : List (BitVec 16)) : List Byte := l.flatMap (fun d => [d.extractLsb' 0 8, d.extractLsb' 8 8])

/-- The digits of each destination block in turn. -/
def splitDigits : List (Addr × Nat) → List (BitVec 16) → List (Addr × List (BitVec 16))
  | [], _ => []
  | (a, n) :: r, l => (a, l.take n) :: splitDigits r (l.drop n)

/-- Rows sent in a round, added at the ledger home (R144). -/
def State.addRows (s : State) (e : Nat) (job : Job) (round : BitVec 16) (n : Nat) : State :=
  s.modConc (s.engineHome e) (fun c => { c with rounds := c.rounds.map (fun r =>
    if r.job = job ∧ r.round = round then { r with total := r.total + n } else r) })

/-- The residue of a packet's payload of 16-bit digits under key index 0 (R133). -/
def State.payloadResidue (s : State) (l : List (BitVec 16)) : Nat := contentOf (s.rho 0) (l.map (·.toNat))

/-- The residue of a payload under key index 0, in the form of the blocks it carries (R115, R133). -/
def State.payloadD (s : State) (linear : Bool) (l : List (BitVec 16)) : Nat :=
  if linear then spanD true (s.rho 0) (digitBytes l) else s.payloadResidue l

/-- The residue of a destination block over the digits received for it, under its region's key and form (R114, R115). -/
def State.destD (s : State) (a : Addr) (l : List (BitVec 16)) : Nat :=
  match s.regionAt a.toNat with
  | none => s.payloadResidue l
  | some g => if g.linear then spanD true (s.rho g.key) (digitBytes l) else contentOf (s.rho g.key) (l.map (·.toNat))

/-- The first destination block of a packet. -/
def LinkPacketFirst (p : LinkPacket) : Nat := (p.dests.head?.map (fun x => x.1.toNat)).getD 0

/-- LINK_PACKET_SEND: the rows of a dispatch packet are added at the ledger home, at a LINK or a DMA engine (R144); a LINK
engine places the tag field, which is poison where a source is or where the bytes sent differ (R133, R135). -/
def execLinkPacketSend (engine : Nat) (packet : LinkPacket) (ledger : Option (BitVec 128)) (s : State) :
    Host.Outcome State Fault Refusal :=
  live s fun s =>
    if s.engineRole engine < 2 then s
    else
      let s := match ledger.filter hdrOk with
        | none => s
        | some h => s.addRows engine (hdrJob h) (hdrRound h) (hdrCount h)
      let f := (s.engine engine).payload
      if s.engineRole engine ≠ 3 ∨ (!f.started ∧ ledger = none) then s
      else
        let s := s.modEngine engine (fun g => { g with payload := {} })
        if f.poison then s.present (.ptag engine poisonWord)
        else if s.payloadD f.linear packet.digits = f.d then s.present (.ptag engine (BitVec.ofNat 32 f.d))
        else (s.mismatch engine (LinkPacketFirst packet) 0).present (.ptag engine poisonWord)

/-- LINK_PACKET_RECEIVE: the receiving engine checks the payload against the tag field (R133); the form is that of the first
destination block's region (log 97). -/
def execLinkPacketReceive (engine : Nat) (packet : LinkPacket) (tag : W32) (s : State) : Host.Outcome State Fault Refusal :=
  live s fun s =>
    let linear := ((s.regionAt (LinkPacketFirst packet)).map (·.linear)).getD false
    if s.engineRole engine ≠ 3 then s
    else if tag ≠ poisonWord ∧ s.payloadD linear packet.digits = tag.toNat then
      s.each (splitDigits packet.dests packet.digits) (fun x s =>
        s.present (.xd engine x.1 (BitVec.ofNat 31 (s.destD x.1 x.2)) false))
    else
      let s := if tag = poisonWord then s else s.mismatch engine (LinkPacketFirst packet) 0
      s.each packet.dests (fun x s => s.present (.xd engine x.1 0 true))

/-! ### The dispatch ledger (R143 to R145) -/

/-- Poison blocks at the MEM engines that own them. -/
def State.poisonOwned (s : State) (l : List Addr) (job : Job) : State :=
  s.each l (fun a s => match s.ownerEngine a.toNat, s.blockAt a.toNat with
    | some e, some b => s.poisonBlock e b job false
    | _, _ => s)

/-- LEDGER_OPEN: control operation 0xE (R144, R145). -/
def execLedgerOpen (engine : Nat) (receiver : Bool) (addr : Addr) (count : BitVec 16) (job : Job) (round : BitVec 16) (value : W32)
    (s : State) : Host.Outcome State Fault Refusal :=
  live s fun s =>
    if s.engineRole engine = 0 then s
    else
      let s := if receiver then
          let r : RecvRound := { job := job, round := round, base := addr, count := count.toNat, flowsExpected := bits value 15 0 }
          s.modEngine engine (fun g => { g with rounds := g.rounds.filter (fun x => decide (x.job ≠ job ∨ x.round ≠ round)) ++ [r] })
        else
          let r : SendRound := { job := job, round := round, expected := value.toNat }
          s.modConc (s.engineHome engine) (fun c => { c with rounds := c.rounds.filter (fun x => decide (x.job ≠ job ∨ x.round ≠ round)) ++ [r] })
      s.present (.tgcDone engine)

/-- The sender's close: the home compares the total (R144). -/
def State.closeSender (s : State) (e : Nat) (job : Job) (round : BitVec 16) : State :=
  let h := s.engineHome e
  match (s.conc h).rounds.find? (fun r => decide (r.job = job ∧ r.round = round)) with
  | none => s
  | some r =>
    let s := s.modConc h (fun c => { c with rounds := c.rounds.filter (fun x => decide (x.job ≠ job ∨ x.round ≠ round)) })
    if r.total = r.expected then s
    else s.emit (.conc h) { source := srcId 1 h, kind := 0x09, sev := 2, job := job }

/-- The blocks of a round's destination range. -/
def State.roundBlocks (s : State) (r : RecvRound) : List Addr :=
  (List.range r.count).filterMap (fun i => (s.nthBlock r.base.toNat i).map (BitVec.ofNat 48))

/-- The indices of a range that a round has poisoned. -/
def State.poisonedIndices (s : State) (r : RecvRound) : List Nat :=
  (List.range r.count).filter (fun i => match s.nthBlock r.base.toNat i with
    | none => false
    | some b => r.poisoned.any (fun a => decide (s.blockAt a.toNat = some b)))

/-- A destination block of a dispatch round is written with WRITE_CHECKED at its owner, so that it is pending, unless the
frozen map refuses it (R140, R145). -/
def State.ledgerWrite (s : State) (block d : Nat) (job : Job) : State :=
  match s.ownerEngine block with
  | none => s
  | some o =>
    let t : Stream := { op := .checked, addr := block, job := job, d := d, step := s.stepOf job }
    if s.frozen block (block + s.streamBytes t) then (s.countTag o 7).tagReport o 0x07 block job else s.storeTag o t

/-- Bytes laid into destination blocks in turn: each block with the bytes that it holds then and their residue. The first
goes on with what the flow's packet before has left in it. -/
def State.layBlocks (s : State) : Option (Nat × Nat × Nat) → List Addr → List Byte → List (Nat × Nat × Nat)
  | _, [], _ => []
  | start, a :: r, l =>
    match s.regionAt a.toNat with
    | none => s.layBlocks none r l
    | some g =>
      let b := g.blockBase a.toNat
      let had := (start.filter (fun x => decide (x.1 = b))).getD (b, 0, 0)
      let new := l.take (g.blockBytes - had.2.1)
      (b, had.2.1 + new.length, foldBytes g.linear (s.rho g.key) had.2.1 (new.map (fun x => (0, x.toNat))) had.2.2)
        :: s.layBlocks none r (l.drop (g.blockBytes - had.2.1))

/-- A laid block is full. -/
def State.laidFull (s : State) (x : Nat × Nat × Nat) : Bool := decide (s.streamBytes { addr := x.1 } ≤ x.2.1)

/-- The MEM engines that own blocks of a range. -/
def State.rangeOwners (s : State) (l : List Addr) : List Nat :=
  l.foldl (fun o a => match s.ownerEngine a.toNat with
    | none => o
    | some e => setAdd e o) []

/-- The receiver's close (R145): the commit goes to every engine that owns a block, each taking the blocks it owns. -/
def State.closeReceiver (s : State) (e : Nat) (job : Job) (round : BitVec 16) : State :=
  match (s.engine e).rounds.find? (fun r => decide (r.job = job ∧ r.round = round)) with
  | none => s
  | some r =>
    let s := s.modEngine e (fun g => { g with rounds := g.rounds.filter (fun x => decide (x.job ≠ job ∨ x.round ≠ round)) })
    let blocks := s.roundBlocks r
    if r.flows.length ≠ r.flowsExpected ∨ r.flows.any (fun f => !f.last) then
      (s.tagReport e 0x09 r.base.toNat job).poisonOwned blocks job
    else
      let bad := s.poisonedIndices r
      s.each (s.rangeOwners blocks) (fun o s =>
        s.takeCommit o { base := r.base.toNat, count := r.count, job := job, skip := bad })

/-- LEDGER_CLOSE: control operation 0xF (R144, R145). -/
def execLedgerClose (engine : Nat) (receiver : Bool) (job : Job) (round : BitVec 16) (s : State) : Host.Outcome State Fault Refusal :=
  live s fun s =>
    if s.engineRole engine = 0 then s
    else (if receiver then s.closeReceiver engine job round else s.closeSender engine job round).present (.tgcDone engine)

/-- Change a receive round. -/
def State.modRound (s : State) (e : Nat) (job : Job) (round : BitVec 16) (f : RecvRound → RecvRound) : State :=
  s.modEngine e (fun g => { g with rounds := g.rounds.map (fun r => if r.job = job ∧ r.round = round then f r else r) })

/-- A failure of a packet: report and poison (R145). -/
def State.packetFails (s : State) (e : Nat) (p : DispatchPacket) (kind : Option Byte) (blocks : List Addr) : State :=
  let a := (blocks.head?.map (·.toNat)).getD 0
  let job := hdrJob p.header
  let s := match kind with
    | none => s
    | some k => if k = 0x03#8 then s.mismatch e a job else s.tagReport e k a job
  (s.modRound e job (hdrRound p.header) (fun r => { r with poisoned := blocks.foldl (fun l b => setAdd b l) r.poisoned })).poisonOwned
    blocks job

/-- A flow with one more packet; `left` is the block that the packet leaves partly filled. -/
def Flow.take (f : Flow) (p : DispatchPacket) (badSeq : Bool) (left : Option (Nat × Nat × Nat)) : Flow :=
  { f with next := (hdrSeq p.header).toNat + 1, last := f.last || hdrLast p.header, failed := f.failed || badSeq,
           blocks := f.blocks ++ p.blocks, part := left }

/-- The destination blocks of a packet are written: each once it is full, and the last one of the flow with its tail of zero
digits, which add nothing to its residue. One that the round has poisoned, for what an earlier packet has left in it, stays poisoned
(R138, R145). -/
def State.layPacket (s : State) (p : DispatchPacket) (poisoned : List Addr) (laid : List (Nat × Nat × Nat)) : State :=
  s.each (laid.filter (fun x => (hdrLast p.header || s.laidFull x) && !(poisoned.any (fun a => decide (s.blockAt a.toNat = some x.1))))) (fun x s => s.ledgerWrite x.1 x.2.2 (hdrJob p.header))

/-- LEDGER_PACKET: a receiving engine takes an expert-dispatch packet, writes its destination blocks and checks it (R143, R145).
A packet without the header of R143 is none, and counts for no flow (log 98). -/
def execLedgerPacket (engine : Nat) (packet : DispatchPacket) (s : State) : Host.Outcome State Fault Refusal :=
  live s fun s =>
    let h := packet.header
    match ((s.engine engine).rounds.find? (fun r => decide (r.job = hdrJob h ∧ r.round = hdrRound h))).filter (fun _ => hdrOk h) with
    | none => s
    | some r =>
      let f := (r.flows.find? (fun f => decide (f.src = hdrSrc h))).getD { src := hdrSrc h }
      let badSeq := f.last || decide ((hdrSeq h).toNat ≠ f.next)
      let laid := s.layBlocks f.part packet.blocks (digitBytes packet.digits)
      let f' := f.take packet badSeq (laid.getLast?.filter (fun x => !(s.laidFull x)))
      let s := (s.modRound engine (hdrJob h) (hdrRound h) (fun r =>
        { r with flows := r.flows.filter (fun g => decide (g.src ≠ hdrSrc h)) ++ [f'] })).layPacket packet r.poisoned laid
      let s := if badSeq then s.packetFails engine packet (some 0x09) f'.blocks
        else if f.failed then s.packetFails engine packet none packet.blocks else s
      if packet.digits.length ≠ hdrCount h * hdrRowDigits h then s.packetFails engine packet (some 0x09) packet.blocks
      else if packet.tag = poisonWord then s.packetFails engine packet none packet.blocks
      else if s.payloadResidue packet.digits ≠ packet.tag.toNat then s.packetFails engine packet (some 0x03) packet.blocks
      else s

/-! ### Host reports (R199, R204) -/

/-- SEV of a host report (R199). -/
def hostSev (kind : Byte) (idx recSev : Nat) : Nat :=
  match kind.toNat with
  | 0x50 => 1
  | 0x51 => 2
  | 0x52 => 1
  | 0x53 => 2
  | 0x54 => if 2112 ≤ idx then recSev else 0
  | _ => 0

/-- HOST_REPORT: a host controller's report on a line of an engine; of a host link uncorrectable at a LINK engine it names the
packet's destination blocks, which the engine has poisoned (R199, R204, R429). -/
def execHostReport (engine : Nat) (line : BitVec 4) (kind : Byte) (addr : Addr) (dests : List Addr) (s : State) : Host.Outcome State Fault Refusal :=
  live s fun s =>
    match s.hostChan? engine line.toNat with
    | none => s.eachHub (fun h s => s.modHub h (·.count 1))
    | some r =>
      let idx := r.fld 1 31 20
      let s := s.emit (.engine engine) { source := srcId 5 idx, kind := kind, addr := addr,
                                         sev := BitVec.ofNat 3 (hostSev kind idx (r.fld 1 9 7)) }
      if kind = 0x51#8 then s.poisonOwned [addr] 0
      else if kind = 0x53#8 ∧ s.engineRole engine = 3 then s.each dests (fun b s => s.present (.xd engine b 0 true))
      else s

/-! ### The input log (R366) -/

/-- INLOG_ENTRY_WRITE: the hub writes the next input-log entry, counting each overwrite (R366). -/
def execInlogEntryWrite (s : State) : Host.Outcome State Fault Refusal :=
  live s fun s =>
    match s.inlog.waiting with
    | [] => s
    | x :: r =>
      let n := 2 ^ s.inlogLog2
      let i := s.inlog.head.toNat
      { s with inlog := { s.inlog with head := s.inlog.head + 1, waiting := r,
                                       wraps := if n ≤ i then satInc s.inlog.wraps else s.inlog.wraps } }.present
        (.inlog (s.inlogBase + 16 * (i % n)) x)

end Sys2Proof.Machine
end

