-- ==== Sys2Proof/Machine/Test.lean ====
section
/-! DEFINITION. The paddock's trot-ups, the pattern cache, the wrap test and the stand-in control channel
(R235 to R265, R426, R440). -/

namespace Sys2Proof.Machine

open Sys2Proof

/-- A fault message or reel entry as 128 bits, its CRC-8 over bits [127:8] (R200). -/
def Msg.pack (m : Msg) : BitVec 128 :=
  let n := m.source.toNat * 2 ^ 104 + m.kind.toNat * 2 ^ 96 + m.sev.toNat * 2 ^ 93 + b2n m.dropped * 2 ^ 92
    + b2n m.injected * 2 ^ 91 + b2n m.twin * 2 ^ 90 + b2n m.again * 2 ^ 89 + b2n m.ovr * 2 ^ 88
    + m.addr.toNat * 2 ^ 40 + m.job.toNat * 2 ^ 32 + m.stamp.toNat * 2 ^ 8 + m.seq.toNat
  BitVec.ofNat 128 (n * 256 + (crc8 n).toNat)

/-- The leader records an event about a source and mirrors it to the follower (R279). -/
def State.noteLead (s : State) (src : BitVec 16) (kind : Byte) (sev : BitVec 3) (addr : Addr) (job : Job) : State :=
  let h := s.twin.leader
  let (m, s) := s.hubMsg h src kind sev addr job
  (s.hubEntry h m).mirrorOut h m

/-- TEST_READY (R257). -/
def State.testReady (s : State) : Bool := s.test.sets.contains .tile && s.test.sets.contains .agent

/-- Stand-ins of a die that are eligible. -/
def State.dieStandins (s : State) (d : Nat) : List Nat :=
  s.standins.filter (fun a => decide (s.build.dieOfAgent a = d) && s.eligible a)

/-- The stand-in lent to a trot-up (R245). -/
def State.lendable (s : State) (a : Nat) : Option Nat :=
  let d := s.build.dieOfAgent a
  let l := (s.dieStandins d).filter (fun b => decide (b ≠ a))
  if s.standinReserve d < l.length then
    bestBy (fun b => if s.build.clusterOf b = s.build.clusterOf a then 0 else 1) l
  else none

/-- Change the trot-up of an agent. -/
def State.modTrot (s : State) (a : Nat) (f : Trot → Trot) : State :=
  { s with test := { s.test with trots := s.test.trots.map (fun t => if t.agent = a then f t else t) } }

/-- The trot-up of an agent. -/
def State.trot? (s : State) (a : Nat) : Option Trot := s.test.trots.find? (fun t => decide (t.agent = a))

/-- Change the paddock entry of an agent at every acting hub. -/
def State.modPad (s : State) (a : Nat) (f : PadEntry → PadEntry) : State :=
  s.eachHub (fun h s => match (s.hub h).padSlot a with
    | none => s
    | some i => s.modHub h (fun k => { k with paddock := k.paddock.mod {} i f }))

/-- The secrets of a tile and its agent are to be cleared; the agent zeroises its keys (R248). -/
def State.clearSecrets (s : State) (a : Nat) : State :=
  let s := s.modAgent a (fun g => { g with secReq := true, secClr := false, tileClr := false, keys := [],
                                           announced := none, regionKeys := false, zeroised := true })
  (s.present (.secReq (.tile a))).present (.secReq (.agent a))

/-- Step 3 of a trot-up (R244, R248). -/
def State.askSecrets (s : State) (a : Nat) : State :=
  (s.modTrot a (fun t => { t with step := 3, since := s.now })).clearSecrets a

/-- Step 2: save, or straight to step 3 where there is nothing to save (R244, R251). -/
def State.askSave (s : State) (a slot : Nat) : State :=
  if s.saveBytes = 0 then s.askSecrets a
  else (s.modTrot a (fun t => { t with step := 2, since := s.now })).scPush a
    { op := 3, data := BitVec.ofNat 96 (s.saveSlot slot) }

/-- The lowest save slot that neither a trot-up in progress nor a kept save holds (R250, R251). -/
def State.freeSlot (s : State) : Option Nat :=
  (List.range s.trotMax).find? (fun i => !((s.test.trots ++ s.test.kept).any (fun t => decide (t.slot = i))))

/-- Start a trot-up, from step 1 with a stand-in or in idle mode, or from where a kept save lets it resume
(R241, R244, R246, R250). -/
def State.startTrot (s : State) (a : Nat) (standin : Option Nat) : State :=
  let s := s.modPad a (fun e => { e with state := .testing, dirty := false })
  let ds := s.test.deferredSince.filter (fun e => decide (e.1 ≠ a))
  match s.test.kept.find? (fun t => decide (t.agent = a)) with
  | some t =>
    let k := s.test.kept.filter (fun x => decide (x.agent ≠ a))
    let s := { s with test := { s.test with trots := s.test.trots ++ [{ t with since := s.now }], kept := k, deferredSince := ds } }
    if t.step = 2 then s.askSave a t.slot else s.askSecrets a
  | none =>
    let t : Trot := { agent := a, step := 1, standin := standin, slot := s.freeSlot.getD 0, since := s.now }
    let s := { s with test := { s.test with trots := s.test.trots ++ [t], deferredSince := ds } }
    s.scPush a { op := 2, data := match standin with | none => 0 | some b => BitVec.ofNat 96 (4096 + b) }

/-- The test engine runs: no channel of a test clock is in its fault state (R306). -/
def State.testClock (s : State) : Bool := !(s.clockBad 5)

/-- A trot-up of an agent may start: work goes on, no wrap, a place is free, and a save slot, unless the agent's save is kept.
One that finds every slot held by kept saves stays due. DESIGN CHOICE (log 90). -/
def State.trotsRun (s : State) (a : Nat) : Bool :=
  s.ld.st.working && !s.test.wrapping && !s.stopped && s.testClock && decide (s.test.trots.length < s.trotMax)
    && (s.freeSlot.isSome || s.test.kept.any (fun t => decide (t.agent = a)))

/-- A due trot-up becomes DEFERRED (R245, R257). -/
def State.deferTrot (s : State) (a : Nat) : State :=
  let s := s.modPad a (fun e => { e with state := .deferred })
  if s.test.deferredSince.any (fun e => decide (e.1 = a)) then s
  else { s with test := { s.test with deferredSince := s.test.deferredSince ++ [(a, s.now)],
                                      deferred := satInc s.test.deferred } }

/-- An entry's trot-up can start: it is due, and where it is deferred a stand-in can be lent (R242, R245). -/
def State.canStart (s : State) (e : PadEntry) : Bool :=
  e.valid && decide (e.state ≠ .testing ∧ e.due ≤ s.clk) &&
    (decide (e.state ≠ .deferred) || (s.testReady && (s.standins.isEmpty || (s.lendable e.agent).isSome)))

/-- No other entry that can start comes first, in order of DUE and agent index (R242). -/
def State.firstDue (s : State) (e : PadEntry) : Bool :=
  !(s.ld.paddock.entries.any (fun x => s.canStart x.2 && decide
    (x.2.due < e.due ∨ (x.2.due = e.due ∧ x.2.agent < e.agent))))

/-- TROT_DUE: the entry's DUE has passed; the trot-up starts or is deferred (R242, R245, R246, R257). -/
def execTrotDue (agent : Nat) (s : State) : Host.Outcome State Fault Refusal :=
  live s fun s =>
    match s.ld.pad? agent with
    | none => s
    | some e =>
      if e.state ≠ .testing ∧ s.trotsRun agent ∧ s.clkReaches e.due then
        let s := s.advanceClk e.due
        let s := if e.state = .watch then s.modPad agent (fun x => { x with state := .due }) else s
        if !(s.firstDue e) then s
        else if !s.testReady then s.deferTrot agent
        else if s.standins.isEmpty ∨ s.test.kept.any (fun t => decide (t.agent = agent)) then s.startTrot agent none
        else
          match s.lendable agent with
          | some b => s.startTrot agent (some b)
          | none => s.deferTrot agent
      else s

/-- TROT_IDLE_AFTER_EXPIRY: a deferred trot-up runs in idle mode (R245, R246). -/
def execTrotIdleAfterExpiry (agent : Nat) (s : State) : Host.Outcome State Fault Refusal :=
  live s fun s =>
    match s.ld.pad? agent, s.test.deferredSince.find? (fun e => decide (e.1 = agent)) with
    | some e, some d =>
      if e.state = .deferred ∧ s.trotsRun agent ∧ s.testReady then
        (s.advanceTo (d.2 + s.trotIdleAfter)).startTrot agent none
      else s
    | _, _ => s

/-- The scan of a region whose secrets are cleared: with the TAP granted it starts, otherwise it waits (R248, R440). -/
def State.tryScan (s : State) (a : Nat) : State :=
  match s.trot? a with
  | none => s
  | some t =>
    let g := s.agent a
    if t.step = 3 ∧ g.secClr ∧ g.tileClr ∧ !s.stopped ∧ s.testClock then
      if s.test.tapGrant then
        ((s.modTrot a (fun t => { t with step := 4, tapWait := false, since := s.now })).modAgent a
          (fun g => { g with scanEnable := true })).present (.scanEnable a true)
      else s.modTrot a (fun t => { t with tapWait := true, since := if t.tapWait then t.since else s.now })
    else s

/-- The key of an epoch (R55). -/
def State.keyOf (s : State) (e : Nat) : EpochKey := { epoch := e, key := epochKeyOf s.keys.checkRoot e }

/-- The previous and the current epoch key (R57). -/
def State.curKeys (s : State) : List EpochKey :=
  if !s.epoch.started then [] else if s.epoch.cur = 0 then [s.keyOf 0] else [s.keyOf (s.epoch.cur - 1), s.keyOf s.epoch.cur]

/-- The announced epoch key, if any (R56). -/
def State.annKey (s : State) : Option (EpochKey × W64) :=
  if s.epoch.announced then some (s.keyOf s.epoch.next, s.epoch.act) else none

/-- Step 9: the hub reloads the agent's epoch and region keys and presents SWAP_BACK, or SWAP_END for a unit in its
fault state or lame (R249). -/
def State.swapBack (s : State) (a : Nat) : State :=
  match s.trot? a with
  | none => s
  | some t =>
    let s := s.modAgent a (fun g => { g with keys := s.curKeys, announced := s.annKey, epoch := s.epoch.cur,
                                             regionKeys := true, zeroised := false })
    let bad := s.upHubs.any (fun h => (s.hub h).fences? a)
    let s := s.modTrot a (fun t => { t with step := if bad then 10 else 9, since := s.now })
    s.scPush a { op := if bad then 6 else 5, data := BitVec.ofNat 96 (t.standin.getD 0) }

/-- Step 8: the region leaves test mode and the state is restored (R244, R248). -/
def State.afterScan (s : State) (a : Nat) : State :=
  let s := (s.modAgent a (fun g => { g with scanEnable := false, secReq := false, secClr := false, tileClr := false })).present
    (.scanEnable a false)
  match s.trot? a with
  | none => s
  | some t =>
    let s := s.modTrot a (fun t => { t with step := 8, since := s.now })
    let s := if t.step = 4 then s.endGrant else s
    if s.saveBytes = 0 then s.swapBack a else s.scPush a { op := 4, data := BitVec.ofNat 96 (s.saveSlot t.slot) }

/-- on_trot_pass at one hub (R241), but for the removal: a clean trot-up counts, the gap ends, the next one is due. -/
def State.trotPass (s : State) (h : HubId) (a : Nat) : State :=
  match (s.hub h).padSlot a with
  | none => s
  | some i =>
    let e := (s.hub h).paddock.get {} i
    let e' : PadEntry := { e with clean := if e.gap || e.dirty then e.clean else e.clean + 1, gap := false, state := .watch }
    let due := s.clk + s.padInterval e'
    s.modHub h (fun k => { k with paddock := k.paddock.set {} i { e' with due := due } })

/-- A unit whose last trot-up has passed leaves the paddock at a hub: CLEAN has reached PADDOCK_CLEAN (R241). -/
def State.wouldLeave (s : State) (k : Hub) (a : Nat) : Bool :=
  match k.pad? a with
  | none => true
  | some e => decide (s.paddockClean ≤ e.clean)

/-- An agent's last passing test (R193, R250). -/
def State.passTest (s : State) (a : Nat) : State :=
  s.modAgent a (fun g => { g with lastPass := s.clock.count, lostAtPass := g.ringLost })

/-- A unit's next trot-up is due now (R267). -/
def State.dueNow (s : State) (h : HubId) (a : Nat) : State :=
  match (s.hub h).padSlot a with
  | none => s
  | some i => s.modHub h (fun k => { k with paddock := k.paddock.mod {} i (fun e => { e with due := s.clk }) })

/-- The unit leaves the paddock at every acting hub, if its clean trot-ups still suffice at the leader; a retake that waits for a
stand-in may take it (R180, R237, R241, R267). -/
def State.leavePad (s : State) (a : Nat) : State :=
  if (s.ld.pad? a).isSome && s.wouldLeave s.ld a then (s.eachHub (fun h s => s.exitPad h a)).startWaiting else s

/-- A trot-up that passed its scans ends: KIND 0x42, LAST_PASS, LOST_AT_PASS and on_trot_pass; the removal is relaxing
(R241, R250, R274). -/
def State.trotPassed (s : State) (a : Nat) (p : W64 × W32) : State :=
  let s := s.modAgent a (fun g => { g with lastPass := p.1, lostAtPass := p.2 })
  let s := { s with test := { s.test with passed := satInc s.test.passed } }
  let s := s.noteLead (srcId 0 a) 0x42 0 0 0
  let s := s.eachHub (fun h s => s.trotPass h a)
  if (s.ld.pad? a).isSome && s.wouldLeave s.ld a then s.relax (.removePaddock a) (fun s => s.leavePad a) else s

/-! ### The flash and the pattern image (R254 to R256) -/

/-- The flash answers and declares all that R254 asks for. -/
def Flash.answers (f : Flash) : Bool :=
  f.present && f.sfdp.fastRead144 && f.sfdp.erase4k && f.sfdp.program256 && f.sfdp.addressing
    && decide (16 * 2 ^ 20 ≤ f.sfdp.density)

/-- The SET code of a pattern set (R256). -/
def patCode : PatSet → Nat
  | .tile => 0x01
  | .agent => 0x02
  | .conc => 0x03
  | .hub => 0x04

/-- A directory entry of the image: checkpoints, offset, length, digest (R256). -/
structure DirEntry where
  checkpoints : Nat
  offset : Nat
  length : Nat
  digest : List Byte
deriving DecidableEq, Repr

/-- The MAGIC, VERSION and COUNT of the image header (R256). -/
def Flash.headerWf (f : Flash) : Bool :=
  let w := f.header.getD 0 0
  decide (f.header.length = 1024 ∧ bits w 31 16 = 0x5CA7 ∧ bits w 15 8 = 1 ∧ 1 ≤ bits w 7 0 ∧ bits w 7 0 ≤ 16)

/-- The directory entry of a set, the first that names it (R256). -/
def Flash.dir (f : Flash) (p : PatSet) : Option DirEntry :=
  let w (i : Nat) : W32 := f.header.getD i 0
  ((List.range (bits (w 0) 7 0)).find? (fun e => decide (bits (w (4 + 16 * e)) 31 24 = patCode p))).map (fun e =>
    { checkpoints := bits (w (4 + 16 * e)) 15 0, offset := (w (5 + 16 * e)).toNat, length := (w (6 + 16 * e)).toNat,
      digest := (List.range 12).flatMap (fun i => bytesBE 4 (w (8 + 16 * e + i)).toNat) })

/-- The image header is there, and its digest is the harness's (R256). -/
def State.imageOk (s : State) : Bool :=
  match s.rec? 0x53 (fun _ => true) with
  | none => false
  | some r => s.flash.answers && s.flash.headerWf
    && decide (sha384 (s.flash.header.flatMap (fun w => bytesBE 4 w.toNat)) = ((r.words.drop 1).take 12).flatMap (fun w => bytesBE 4 w.toNat))

/-! ### The scan (R249) -/

/-- The MISR of a region at a checkpoint: it has been cleared at the checkpoint before, and takes each response word under
its mask bits. -/
def checkpointMisr (c : Checkpoint) : W32 := c.response.foldl (fun m x => Config.misrNext m (x.1 &&& x.2)) 0

/-- The first of a set's checkpoints, from number `i` on, at which the MISR and the expected value differ. -/
def firstBad : Nat → Nat → List Checkpoint → Option Nat
  | 0, _, _ => none
  | _ + 1, i, [] => some i
  | n + 1, i, c :: r => if checkpointMisr c = c.expected then firstBad n (i + 1) r else some i

/-- The checkpoints that a set lists. -/
def State.checkpoints (s : State) (p : PatSet) : Nat := ((s.flash.dir p).map (·.checkpoints)).getD 0

/-- The first failing checkpoint of a tile and its agent: whether it is of the AGENT set, and its index. -/
def State.pairFail (s : State) (tileSet agentSet : List Checkpoint) : Option (Bool × Nat) :=
  match firstBad (s.checkpoints .tile) 0 tileSet with
  | some i => some (false, i)
  | none => (firstBad (s.checkpoints .agent) 0 agentSet).map (fun i => (true, i))

/-- The ADDRESS of a failing checkpoint (R250). -/
def checkpointAddr (x : Bool × Nat) : Addr := BitVec.ofNat 48 (b2n x.1 * 2 ^ 15 + x.2 % 2 ^ 15)

/-- SCAN_DONE: the checkpoints are compared. A failure is recorded at once; a pass once the trot-up has ended, as the worked
example of R243 places it (R249, R250). -/
def execScanDone (agent : Nat) (tileSet agentSet : List Checkpoint) (s : State) : Host.Outcome State Fault Refusal :=
  live s fun s =>
    match s.trot? agent with
    | none => s
    | some t =>
      if t.step = 4 ∧ (s.agent agent).scanEnable ∧ !s.stopped ∧ s.testClock then
        match s.pairFail tileSet agentSet with
        | none =>
          (s.modTrot agent (fun t => { t with passed := some (s.clock.count, (s.agent agent).ringLost) })).afterScan agent
        | some x =>
          let s := s.modTrot agent (fun t => { t with failed := some x })
          let s := { s with test := { s.test with failed := satInc s.test.failed } }
          let s := s.noteLead (srcId 0 agent) 0x43 3 (checkpointAddr x) 0
          s.afterScan agent
      else s

/-! ### The groups of the wrap test (R258 to R260) -/

/-- The number of groups of `g` that `n` units make. -/
def groupCount (n g : Nat) : Nat := if g = 0 then 0 else (n + g - 1) / g

/-- Tile groups, concentrator groups, and the follower hub where there is one; a kind whose pattern set is not available
has none. DEDUCED from R258 (log 91). -/
def State.wrapGroups (s : State) : Nat × Nat × Nat :=
  (groupCount s.enabledAgents.length s.wrapGroup,
    if s.test.sets.contains .conc then groupCount (recsOf 0x01 s.recs).length s.testGroup else 0,
    if s.test.sets.contains .hub then b2n s.pairUp else 0)

/-- Every group has been tested, or none is to be. -/
def State.wrapTested (s : State) : Bool :=
  s.test.imageAbsent || decide (s.wrapGroups.1 + s.wrapGroups.2.1 + s.wrapGroups.2.2 ≤ s.test.wrapNext)

/-- Numbers in ascending order. -/
def ascending (l : List Nat) : List Nat :=
  l.foldr (fun a l => l.takeWhile (fun b => decide (b < a)) ++ a :: l.dropWhile (fun b => decide (b < a))) []

/-- The units of the present group, by source position: agents ascending, then concentrators, then the follower hub. -/
def State.groupUnits (s : State) : List Nat :=
  let (nt, nc, _) := s.wrapGroups
  let i := s.test.wrapNext
  if s.wrapTested then []
  else if i < nt then ((ascending s.enabledAgents).drop (i * s.wrapGroup)).take s.wrapGroup
  else if i < nt + nc then ((((recsOf 0x01 s.recs).map (·.fld 1 7 0)).drop ((i - nt) * s.testGroup)).take s.testGroup).map (4096 + ·)
  else [4352 + hubIdx (twinHub s.twin.leader)]

/-- The units of the present group that are scanned: a unit whose secrets were not cleared in time is not. -/
def State.groupScanned (s : State) : List Nat := s.groupUnits.filter (fun p => !s.test.groupLeft.contains p)

/-- The hub at a position. -/
def hubAt (p : Nat) : HubId := if p = 4352 then .a else .b

/-- The secrets-cleared request to a unit of a group (R248): an agent zeroises its keys, a hub its own. -/
def State.askUnit (s : State) (p : Nat) : State :=
  if p < 4096 then s.clearSecrets p
  else if p < 4352 then
    (s.modConc (p - 4096) (fun c => { c with secReq := true, secClr := false })).present (.secReq (.conc (p - 4096)))
  else
    (s.modHub (hubAt p) (fun k => { k with zeroised := true, secReq := true, secClr := false })).present (.secReq (.hub (hubAt p)))

/-- The secrets-cleared indications of a unit are set. -/
def State.unitClear (s : State) (p : Nat) : Bool :=
  if p < 4096 then (s.agent p).secClr && (s.agent p).tileClr
  else if p < 4352 then (s.conc (p - 4096)).secClr
  else (s.hub (hubAt p)).secClr

/-- A unit leaves test mode: its request and indications fall, and an agent's scan enable (R248). -/
def State.endUnit (s : State) (p : Nat) : State :=
  if p < 4096 then
    let on := (s.agent p).scanEnable
    let s := s.modAgent p (fun g => { g with scanEnable := false, secReq := false, secClr := false, tileClr := false })
    if on then s.present (.scanEnable p false) else s
  else if p < 4352 then s.modConc (p - 4096) (fun c => { c with secReq := false, secClr := false })
  else s.modHub (hubAt p) (fun k => { k with secReq := false, secClr := false })

/-- The present group begins once no trot-up is in progress: its units' secrets are asked for (R248, R258, R267). -/
def State.askGroup (s : State) : State :=
  if s.test.wrapping && !s.test.wrapDone && !s.test.groupAsked && !s.wrapTested && s.test.trots.isEmpty && !s.stopped && s.testClock then
    s.each s.groupUnits (fun p s => s.askUnit p) |> fun t =>
      { t with test := { t.test with groupAsked := true, groupSince := t.now, groupScan := false, groupLeft := [], tapWait := false } }
  else s

/-- The present group is over, tested (`counts`) or skipped; the next one begins. -/
def State.endWrapGroup (s : State) (counts : Bool) : State :=
  let s := s.each s.groupUnits (fun p s => s.endUnit p)
  let n := if counts && decide (s.test.wrapNext < s.wrapGroups.1 + s.wrapGroups.2.1) then s.test.groupsDone + 1 else s.test.groupsDone
  let scanned := s.test.groupScan
  let s := { s with test := { s.test with wrapNext := s.test.wrapNext + 1, groupsDone := n, groupAsked := false,
                                          groupScan := false, groupLeft := [], rerun := false, tapWait := false } }
  (if scanned then s.endGrant else s).askGroup

/-- The scan of the present group starts once the secrets of every unit that is scanned are cleared and the TAP is granted;
a group of which no unit is left is over (R248, R259, R440). -/
def State.tryGroup (s : State) : State :=
  if s.test.groupAsked && !s.test.groupScan && !s.stopped && s.testClock && s.groupScanned.all s.unitClear then
    if s.groupScanned.isEmpty then s.endWrapGroup false
    else if s.test.tapGrant then
      let s := { s with test := { s.test with groupScan := true, tapWait := false } }
      s.each (s.groupScanned.filter (fun p => decide (p < 4096))) (fun a s =>
        (s.modAgent a (fun g => { g with scanEnable := true })).present (.scanEnable a true))
    else { s with test := { s.test with tapWait := true, groupSince := if s.test.tapWait then s.test.groupSince else s.now } }
  else s

/-- The source position of a region (R248): a tile's is its agent's. -/
def Region.pos : Region → Nat
  | .tile a => a
  | .agent a => a
  | .conc c => 4096 + c
  | .hub h => 4352 + hubIdx h

/-- SECRETS_CLEARED: the secrets-cleared indication of a region is set (R248). -/
def execSecretsCleared (region : Region) (s : State) : Host.Outcome State Fault Refusal :=
  live s fun s =>
    match region with
    | .tile a => if (s.agent a).secReq then ((s.modAgent a (fun g => { g with tileClr := true })).tryScan a).tryGroup else s
    | .agent a => if (s.agent a).secReq ∧ (s.agent a).zeroised then
        ((s.modAgent a (fun g => { g with secClr := true })).tryScan a).tryGroup else s
    | .conc c => if (s.conc c).secReq then (s.modConc c (fun x => { x with secClr := true })).tryGroup else s
    | .hub h => if (s.hub h).secReq ∧ (s.hub h).zeroised then (s.modHub h (fun k => { k with secClr := true })).tryGroup else s

/-- The trot-up of a region ends without a scan: restore and swap end follow (R248); after an S4 neither does (R267). -/
def State.secretsMissed (s : State) (a : Nat) : State :=
  match s.trot? a with
  | none => s
  | some t =>
    if t.step = 3 ∧ !t.tapWait ∧ !s.stopped then
      let s := s.advanceTo (t.since + s.secretsTimeout)
      (s.noteLead (srcId 0 a) 0x46 3 0 0).afterScan a
    else s

/-- A unit of the present wrap group whose secrets are not cleared in time: KIND 0x46, and it is not scanned (R248). -/
def State.unitMissed (s : State) (p : Nat) : State :=
  if s.test.groupAsked && !s.test.groupScan && !s.test.tapWait && !s.stopped && s.groupScanned.contains p then
    let s := s.advanceTo (s.test.groupSince + s.secretsTimeout)
    let s := s.noteLead (posSrc p) 0x46 3 0 0
    ({ s with test := { s.test with groupLeft := setAdd p s.test.groupLeft } }.endUnit p).tryGroup
  else s

/-- The secrets-cleared indication of a region. -/
def State.regionClear (s : State) : Region → Bool
  | .tile a => (s.agent a).tileClr
  | .agent a => (s.agent a).secClr
  | .conc c => (s.conc c).secClr
  | .hub h => (s.hub h).secClr

/-- SECRETS_TIMEOUT_EXPIRY: a secrets-cleared indication is not set in time: KIND 0x46, no scan (R248). A concentrator
raises its own on request and is never late. -/
def execSecretsTimeoutExpiry (region : Region) (s : State) : Host.Outcome State Fault Refusal :=
  live s fun s =>
    if s.regionClear region then s
    else
      match region with
      | .tile a => (s.secretsMissed a).unitMissed a
      | .agent a => (s.secretsMissed a).unitMissed a
      | .conc _ => s
      | .hub h => s.unitMissed (4352 + hubIdx h)

/-- TROT_HOST_BOUND_MISS: the host misses SWAP_ISSUE or SAVE_BOUND; the trot-up is abandoned (R250, R251). Once the
entry has left the paddock, the operation stays presented (log 12). -/
def execTrotHostBoundMiss (agent : Nat) (s : State) : Host.Outcome State Fault Refusal :=
  live s fun s =>
    match s.trot? agent with
    | none => s
    | some t =>
      if t.step ∈ [1, 2, 8, 9, 10] ∧ !t.missed ∧ !s.stopped then
        let s := s.advanceTo (t.since + if t.step = 2 ∨ t.step = 8 then s.saveBound else s.swapIssue)
        if (s.ld.pad? agent).isSome then
          ((s.scDrop agent (fun o => decide (2 ≤ o.op))).abandonTrot t).askGroup
        else
          let s := s.modTrot agent (fun t => { t with missed := true })
          { s with test := { s.test with abandoned := satInc s.test.abandoned } }
      else s

/-- TAP_GRANT_RISE: the host grants its internal TAP, for good or until the scans it serves have ended; what waited for it goes
on (R440). The table has no row for the grant's fall. DESIGN CHOICE (log 109). -/
def execTapGrantRise (once : Bool) (s : State) : Host.Outcome State Fault Refusal :=
  live s fun s =>
    let s := { s with test := { s.test with tapGrant := true, tapOnce := once } }
    (s.each s.test.trots (fun t s => if t.tapWait then s.tryScan t.agent else s)).tryGroup

/-- TAP_GRANT_WAIT_EXPIRY: after 10 ms a waiting trot-up is abandoned and a waiting wrap group skipped (R440). -/
def execTapGrantWaitExpiry (s : State) : Host.Outcome State Fault Refusal :=
  live s fun s =>
    if s.test.tapGrant then s
    else
      match s.test.trots.find? (·.tapWait) with
      | some t => ((s.advanceTo (t.since + 10000000)).abandonTrot t).askGroup
      | none =>
        if s.test.groupAsked ∧ s.test.tapWait ∧ !s.stopped then (s.advanceTo (s.test.groupSince + 10000000)).endWrapGroup false else s

/-! ### Stand-in control (R179, R244, R247, R426) -/

/-- A trot-up is over: the fence ends, the stand-in is free, a pass is recorded (R247, R249, R250). -/
def State.endTrot (s : State) (a : Nat) : State :=
  match s.trot? a with
  | none => s
  | some t =>
    let s := { s with test := { s.test with trots := s.test.trots.filter (fun t => decide (t.agent ≠ a)) } }
    let s := s.eachHub (fun h s => s.endFences h [a])
    let s := match t.passed with
      | none => s
      | some p => s.trotPassed a p
    let s := if t.oddMeanwhile then s.eachHub (fun h s => s.dueNow h a) else s
    s.startWaiting.endQuiesce.askGroup

/-- The effect of the acknowledgement of an operation. -/
def State.scAcked (s : State) (a : Nat) (o : ScOp) : State :=
  match o.op with
  | 1 =>
    let r := s.retake o.record
    let dead := if (s.agent a).fence then s else s.modAgent a (fun g => { g with retakeBind := some closedRecord })
    match r.runs.getLast? with
    | none => dead
    | some x =>
      if r.used ∧ r.phase = .requested ∧ x.agent = a ∧ !x.acked ∧ !o.stale then
        let l := r.runs.dropLast ++ [{ x with acked := true, ackAt := s.now }]
        (s.modRetake o.record (fun y => { y with runs := l })).modAgent a (fun g => { g with retakeBind := some o.record })
      else dead
  | 2 =>
    match s.trot? a with
    | none => s
    | some t => if t.step = 1 then (s.eachHub (fun h s => s.orderFences h [a])).askSave a t.slot else s
  | 3 => match s.trot? a with
    | none => s
    | some t => if t.step = 2 then s.askSecrets a else s
  | 4 => match s.trot? a with
    | none => s
    | some t => if t.step = 8 then s.swapBack a else s
  | 5 => s.endTrot a
  | 6 => s.endTrot a
  | _ => s

/-- SC_ACK: the host acknowledges the operation presented on an agent's stand-in control channel (R426); one that nothing
waits for has no effect, but a RETAKE_REQ still takes the next descriptor to a retake (R179). -/
def execScAck (agent : Nat) (s : State) : Host.Outcome State Fault Refusal :=
  live s fun s =>
    match (s.agent agent).sc with
    | [] => s
    | o :: r =>
      if (s.agent agent).scWaitFall then s
      else
        let s := s.modAgent agent (fun g => { g with sc := r, scWaitFall := true })
        let s := if s.withheld ∨ (o.stale ∧ o.op ≠ 1) then s else s.scAcked agent o
        s.endRetire

/-- SC_ACK_FALL: the agent presents the next operation (R426). -/
def execScAckFall (agent : Nat) (s : State) : Host.Outcome State Fault Refusal :=
  live s fun s =>
    let wait := (s.agent agent).scWaitFall
    let s := s.modAgent agent (fun g => { g with scWaitFall := false })
    match (s.agent agent).sc with
    | [] => s
    | o :: _ => if wait && !s.withheld then s.present (.sc agent o) else s

/-! ### The pattern cache (R257) -/

/-- Fetches of a set that failed. -/
def State.setFails (s : State) (p : PatSet) : Nat :=
  ((s.test.fetchFails.find? (fun e => decide (e.1 = p))).map (·.2)).getD 0

/-- A set as it was read from the flash has the length and the digest of its directory entry (R256, R257). -/
def State.setGood (s : State) (p : PatSet) (data : List Byte) : Bool :=
  match s.flash.dir p with
  | none => false
  | some e => decide (data.length = e.length ∧ sha384 data = e.digest)

/-- A set's digest differs: it is not available, the failure counts, and KIND 0x45 is recorded at the address of a block,
0 where the whole set was fetched (R257). -/
def State.setFailed (s : State) (p : PatSet) (block : Nat) : State :=
  let l := s.test.fetchFails.filter (fun e => decide (e.1 ≠ p)) ++ [(p, s.setFails p + 1)]
  let s := { s with test := { s.test with fetchFails := l, sets := s.test.sets.filter (fun x => decide (x ≠ p)) } }
  s.noteLead (srcId 2 (hubIdx s.twin.leader)) 0x45 1 (BitVec.ofNat 48 block) 0

/-- PATTERN_SET_FETCHED: a set, whose bytes these are, has been copied from the flash into the cache; it is available where its
digest fits (R257). -/
def execPatternSetFetched (set : PatSet) (data : List Byte) (s : State) : Host.Outcome State Fault Refusal :=
  live s fun s =>
    if s.ld.st.pastReady && s.imageOk && (s.flash.dir set).isSome && decide (s.setFails set < 3) then
      let s := s.present (.cacheFill set 0 data)
      if s.setGood set data then { s with test := { s.test with sets := setAdd set s.test.sets } } else s.setFailed set 0
    else s

/-- The pattern set of the present wrap group streams. -/
def State.groupStreams (s : State) (p : PatSet) : Bool :=
  let (nt, nc, _) := s.wrapGroups
  let i := s.test.wrapNext
  s.test.groupScan && (match p with
    | .tile => decide (i < nt)
    | .agent => decide (i < nt)
    | .conc => decide (nt ≤ i ∧ i < nt + nc)
    | .hub => decide (nt + nc ≤ i))

/-- CACHE_BLOCK_BAD: a block of the cache reads POISON or MISMATCH: KIND 0x45; its 4 KiB, at an offset of its set, is fetched
again and the set, as it is read again, checked against its digest; every trot-up that streams from the block is
abandoned, and a wrap group that does is rerun (R250, R257, R267). -/
def execCacheBlockBad (block : Nat) (set : PatSet) (at_ : Nat) (streaming : List Nat) (group : Bool) (reread : List Byte) (s : State) :
    Host.Outcome State Fault Refusal :=
  live s fun s =>
    if s.test.sets.contains set then
      let s := s.noteLead (srcId 2 (hubIdx s.twin.leader)) 0x45 1 (BitVec.ofNat 48 block) 0
      let s := s.present (.cacheFill set at_ ((reread.drop at_).take 4096))
      let s := if group && s.groupStreams set then { s with test := { s.test with rerun := true } } else s
      let s := if s.setGood set reread then s else s.setFailed set block
      (s.each streaming (fun a s => match s.trot? a with
        | none => s
        | some t => if t.step = 4 then s.abandonTrot t else s)).askGroup
    else s

/-! ### The wrap test and the persisted record (R258 to R263) -/

/-- A unit's first failing checkpoint: a pair's over both sets, a concentrator's or a hub's over its own. -/
def State.unitFail (s : State) (p : Nat) (l : List Checkpoint × List Checkpoint) : Option (Bool × Nat) :=
  if p < 4096 then s.pairFail l.1 l.2
  else (firstBad (s.checkpoints (if p < 4352 then .conc else .hub)) 0 l.1).map (fun i => (false, i))

/-- The result of a unit (R258): a failing one is counted and lame in the record, an agent or a concentrator also KIND 0x44;
a passing pair updates LAST_PASS. -/
def State.unitResult (s : State) (p : Nat) (l : List Checkpoint × List Checkpoint) : State :=
  match s.unitFail p l with
  | none => if p < 4096 then s.passTest p else s
  | some x =>
    let s := if p < 4352 then s.noteLead (posSrc p) 0x44 0 (checkpointAddr x) 0 else s
    { s with test := { s.test with wrapFails := satInc s.test.wrapFails, wrapLame := setAdd p s.test.wrapLame } }

/-- WRAP_GROUP_DONE: a group of tiles or concentrators, or the follower hub, has been scanned; the responses of each unit are
compared with the sets, checkpoint by checkpoint. The first result of a group that is to be rerun is discarded (R249, R258
to R260, R267). -/
def execWrapGroupDone (results : List (Nat × List Checkpoint × List Checkpoint)) (s : State) : Host.Outcome State Fault Refusal :=
  live s fun s =>
    if s.test.groupScan && !s.stopped && s.testClock then
      if s.test.rerun then { s with test := { s.test with rerun := false } }
      else
        let us := s.groupScanned
        let of_ (p : Nat) : List Checkpoint × List Checkpoint := ((results.find? (fun r => decide (r.1 = p))).map (·.2)).getD ([], [])
        let s := s.each us (fun p s => s.unitResult p (of_ p))
        let s := if us.any (fun p => decide (4352 ≤ p)) then
            { s with test := { s.test with hubTested := BitVec.ofNat 8 (hubIdx (twinHub s.twin.leader)) } } else s
        s.endWrapGroup true
    else s

/-- The tail of a reel: its last 4,096 entries, the oldest first (R223, R262). -/
def Hub.tail (h : Hub) : SMap Msg :=
  let n := h.reelHead.toNat
  let k := min n 4096
  (List.range k).foldl (fun m i => m.set {} i (h.reel.get {} ((n - k + i) % 65536))) ⟨[]⟩

/-- The most recent valid copy: its place, and it (R263). -/
def Flash.recent (f : Flash) : Option (Bool × Persist) :=
  match f.copyA, f.copyB with
  | none, none => none
  | some a, none => some (false, a)
  | none, some b => some (true, b)
  | some a, some b => if a.sequence.toNat < b.sequence.toNat then some (true, b) else some (false, a)

/-- The most recent valid copy whose header carries this ID_REV (R334). -/
def Flash.usable (f : Flash) : Option (Bool × Persist) :=
  { f with copyA := f.copyA.filter (fun p => decide (p.idRev = idRev)),
           copyB := f.copyB.filter (fun p => decide (p.idRev = idRev)) }.recent

/-- The record that wrap writes (R258, R262). -/
def State.persistNow (s : State) : Persist :=
  let l := s.ld
  { sequence := ((s.flash.recent).map (·.2.sequence + 1)).getD 1, idRev := idRev, hubTested := s.test.hubTested,
    lame := s.test.wrapLame.foldl (fun a x => setAdd x a) ((l.srcs.entries.filter (·.2.lame)).map (·.1)),
    recovery := (l.srcs.entries.filter (fun e => decide (e.2.recovery ≠ 0))).map (fun e => (e.1, e.2.recovery)),
    paddock := (l.paddock.entries.filter (·.2.valid)).map (fun e => (e.1, e.2.pack)),
    tailA := if s.hubUp .a then s.hubA.tail else ⟨[]⟩, tailB := if s.hubUp .b then s.hubB.tail else ⟨[]⟩ }

/-- The bytes of a persistence copy after its header: lame bitmap, recovery counters, paddock list, reel tails (R262); the words
of an entry follow one another from word 0 on, each little-endian (R10). The bit of a position in its byte is the low one first.
DESIGN CHOICE (log 92). -/
def Persist.body (p : Persist) : List Byte :=
  let rc (i : Nat) : Nat := ((p.recovery.find? (fun e => decide (e.1 = i))).map (·.2)).getD 0
  let tail (m : SMap Msg) : List Byte := (List.range 4096).flatMap (fun i => bytesLE 16 (if m.keys.contains i then (m.get {} i).pack.toNat else 0))
  (List.range 1024).map (fun i => (List.range 8).foldl (fun b j => if p.lame.contains (8 * i + j) then b ||| (1#8 <<< j) else b) 0)
    ++ (List.range 4096).map (fun i => BitVec.ofNat 8 (rc (2 * i) % 16 + 16 * (rc (2 * i + 1) % 16)))
    ++ (List.range 64).flatMap (fun i => bytesLE 8 (((p.paddock.find? (fun e => decide (e.1 = i))).map (·.2.toNat)).getD 0))
    ++ tail p.tailA ++ tail p.tailB

/-- The 136,960 bytes of a persistence copy: the header's fields follow one another in the order of R262, numbers
little-endian, and the rest of its 256 bytes is 0. DESIGN CHOICE (log 92). -/
def Persist.bytes (p : Persist) : List Byte :=
  let h := bytesLE 2 0x7E11 ++ bytesLE 4 p.sequence.toNat ++ bytesLE 4 p.idRev.toNat ++ [p.hubTested] ++ sha384 p.body
  h ++ List.replicate (256 - h.length) 0 ++ p.body

/-- WRAP_RECORD_WRITTEN: the record is written into the copy that is not the most recent valid one, and read back; it is valid
where what was read back is what was written (R255, R261 to R263). -/
def execWrapRecordWritten (readBack : List Byte) (s : State) : Host.Outcome State Fault Refusal :=
  live s fun s =>
    if s.test.wrapping && s.wrapTested && s.test.trots.isEmpty && s.test.eraseDone && !s.test.wrapDone && !s.stopped
        && s.flash.answers then
      let p := s.persistNow
      let verified := decide (readBack = p.bytes)
      let rec_ := if verified then some p else none
      let inB := match s.flash.recent with | none => false | some (b, _) => !b
      let s := s.present (.flash (s.flash.sfdp.density - if inB then 0x40000 else 0x80000) p.bytes)
      let s := { s with flash := if inB then { s.flash with copyB := rec_ } else { s.flash with copyA := rec_ },
                        test := { s.test with wrapDone := true, recordWritten := verified } }
      s.endWrap
    else s

/-- PERSIST_ERASE_DONE: after READY the leader has erased the copy that is not the most recent valid one (R263). -/
def execPersistEraseDone (s : State) : Host.Outcome State Fault Refusal :=
  live s fun s =>
    if s.ld.st.pastReady && !s.test.eraseDone && s.flash.answers then
      let inB := match s.flash.recent with | none => false | some (b, _) => !b
      { s with flash := if inB then { s.flash with copyB := none } else { s.flash with copyA := none },
               test := { s.test with eraseDone := true } }
    else s

end Sys2Proof.Machine
end

