-- ==== Sys2Proof/Machine/Tile.lean ====
section
/-! DEFINITION. The tile port's matrix side: descriptors, taps, the last C element, lane self-checks and SRAM errors
(R27 to R35, R45 to R82, R135, R136, R181, R419 to R422, R483). -/

namespace Sys2Proof.Machine

open Sys2Proof

/-! ### The commit channel and the gate list (R166, R173, R424) -/

/-- Bytes of the block at an address; 0 outside every tagged region. -/
def State.blockBytesAt (s : State) (a : Nat) : Nat := ((s.regionAt a).map (·.blockBytes)).getD 0

/-- Two ranges of one step that can be one: they adjoin and together have at most 65,535 blocks (R173). -/
def State.joinRange (s : State) (x y : GateRange) : Option GateRange :=
  let n := s.blockBytesAt x.base
  if x.job = y.job ∧ x.step = y.step ∧ x.opened = y.opened ∧ n ≠ 0 ∧ x.count + y.count ≤ 65535 then
    if x.base + x.count * n = y.base then some { x with count := x.count + y.count }
    else if y.base + y.count * n = x.base then some { x with base := y.base, count := x.count + y.count }
    else none
  else none

/-- Take the ranges that a range adjoins out of a list and into it. -/
def State.absorbRange (s : State) (y : GateRange) : List GateRange → GateRange × List GateRange
  | [] => (y, [])
  | x :: r => match s.joinRange x y with
    | some z => s.absorbRange z r
    | none => ((s.absorbRange y r).1, x :: (s.absorbRange y r).2)

/-- Merge a range into a gate list; none where it adjoins no range. -/
def State.mergeRange (s : State) (y : GateRange) : List GateRange → Option (List GateRange)
  | [] => none
  | x :: r => match s.joinRange x y with
    | some z => some ((s.absorbRange z r).1 :: (s.absorbRange z r).2)
    | none => (s.mergeRange y r).map (x :: ·)

/-- Defer a commit to the agent's gate list; false where the list is full (R173). -/
def State.deferCmt (s : State) (a : Nat) (y : GateRange) : State × Bool :=
  let l := (s.agent a).gates
  match s.mergeRange y l with
  | some l' => (s.modAgent a (fun g => { g with gates := l' }), true)
  | none =>
    if l.length < 64 then (s.modAgent a (fun g => { g with gates := l ++ [y] }), true) else (s, false)

/-- A commit action: presented, or deferred where the class is STEP_GATED, one of a task accepted before its job's first launch
too; a poison where the job is aborted (R173, R174). The flag says that a full gate list keeps the context. -/
def State.commitAction (s : State) (a : Nat) (gated : Bool) (step : Option W64) (job : Job) (base : Addr) (count : BitVec 16) :
    State × Bool :=
  if s.jobAborted job then (s.presentCmt a { poison := true, job := job, base := base, count := count }, false)
  else if s.noCommit then (s, false)
  else
    if gated then
      let (s, ok) := s.deferCmt a { job := job, step := step, base := base.toNat, count := count.toNat }
      (s, !ok)
    else (s.presentCmt a { job := job, base := base, count := count }, false)

/-- Present a poison over a task's range; a fill has no output blocks (R70). -/
def State.poisonTask (s : State) (a : Nat) (d : BitVec 256) : State :=
  if tdFill d then s else s.presentCmt a { poison := true, job := tdJob d, base := tdBase d, count := tdCount d }

/-! ### Contexts of an agent -/

/-- A context by number. -/
def Agent.ctx? (g : Agent) (id : Nat) : Option Ctx := g.ctxs.find? (fun x => decide (x.id = id))

/-- Change a context. -/
def Agent.setCtx (g : Agent) (x : Ctx) : Agent :=
  { g with ctxs := g.ctxs.map (fun y => if y.id = x.id then x else y) }

/-- A context becomes AWAITING, the newest (R83). -/
def Agent.putAwait (g : Agent) (x : Ctx) : Agent :=
  { g.setCtx { x with state := .awaiting, awaitNo := g.awaitCtr } with awaitCtr := g.awaitCtr + 1 }

/-- Free a context; the handle that is bound to it stays bound to the task `u`. -/
def Agent.freeCtx (g : Agent) (id : Nat) (u : Unchecked) : Agent :=
  { g with ctxs := g.ctxs.filter (fun y => decide (y.id ≠ id)),
           bound := g.bound.map [] (fun l => l.map (fun b => if b = .ctx id then .task u else b)) }

/-- The lowest free context number. -/
def Agent.freeId (g : Agent) : Nat :=
  ((List.range (g.ctxs.length + 1)).find? (fun i => (g.ctx? i).isNone)).getD 0

/-- A run whose result its record still awaits. -/
def State.runLive (s : State) (n a : Nat) : Bool :=
  let r := s.retake n
  r.used && (match r.runs.getLast? with
    | none => false
    | some x => decide (x.agent = a) && !x.lost)

/-- Effective LANES (R88). -/
def State.lanesOf (s : State) (a : Nat) : Nat := s.build.lanes - (s.agent a).retired.length

/-- Lanes that are withdrawn from admission at a tile cycle: those whose overdue known-answer vector takes up its 64 cycles
(R87). -/
def Agent.withdrawnAt (g : Agent) (cyc : Nat) : Nat :=
  (g.withdrawn.filter (fun w => decide (w.2 ≤ cyc ∧ cyc < w.2 + 64) && !(g.retired.contains w.1))).length

/-- The lanes that admission counts on at a tile cycle (R80, R87, R88). -/
def State.admitLanes (s : State) (a cyc : Nat) : Nat := s.lanesOf a - (s.agent a).withdrawnAt cyc

/-- The key of an epoch at an agent (R57). -/
def Agent.keyOf? (g : Agent) (e : Nat) : Option W64 := (g.keys.find? (fun k => decide (k.epoch = e))).map (·.key)

/-- The parameters of a context. -/
def State.paramsOf (s : State) (a : Nat) (x : Ctx) : Params :=
  let r := s.classAt x.epoch (tdClass x.desc)
  { key := ((s.agent a).keyOf? x.epoch).getD 0, expA := (r.map clsExpA).getD 0, expB := (r.map clsExpB).getD 0 }

/-! ### Outcomes without a verdict (R29, R81, R82, R239) -/

/-- Change the counters of a check class. -/
def Agent.modClass (g : Agent) (c : Nat) (f : ClassCtr → ClassCtr) : Agent := { g with classes := g.classes.mod {} c f }

/-- An entry of the ring of uncovered tasks (R81). -/
def ringEntry (d : BitVec 256) (o : Outcome) (reason clk : Nat) : W64 :=
  let code := match o with
    | .sampledOut => 1 | .uncheckedOrder => 2 | .uncheckedContext => 3 | .uncheckedOversize => 4 | _ => 0
  BitVec.ofNat 64 ((tdTask d).toNat * 2 ^ 32 + (tdJob d).toNat * 2 ^ 24 + code * 2 ^ 21 + reason * 2 ^ 19 + clk / 2 ^ 20 % 2 ^ 19)

/-- Put an entry into the ring (R81). -/
def Agent.ringPut (g : Agent) (w : W64) : Agent :=
  { g with ring := g.ring.set 0 (g.ringHead.toNat % 1024) w, ringHead := g.ringHead + 1,
           ringFull := g.ringFull || decide (g.ringHead.toNat = 1023),
           ringLost := if g.ringFull then satInc g.ringLost else g.ringLost }

/-- A task of a paddocked unit ends unchecked: PADDOCK_GAPS and the entry's GAP (R239). -/
def State.paddockGap (s : State) (a : Nat) : State :=
  if (s.agent a).paddock then
    let s := s.modAgent a (fun g => { g with paddockGaps := satInc g.paddockGaps })
    s.eachHub (fun h s => match (s.hub h).padSlot a with
      | none => s
      | some i => s.modHub h (fun k => { k with paddock := k.paddock.mod {} i (fun e => { e with gap := true }) }))
  else s

/-- Record an outcome of the ring of uncovered tasks. -/
def State.recordUncovered (s : State) (a : Nat) (d : BitVec 256) (o : Outcome) (reason : Nat) : State :=
  let s := s.modAgent a (fun g => (g.ringPut (ringEntry d o reason s.clk)).modClass (tdClass d) (fun c =>
    let c := { c with macsAll := c.macsAll + BitVec.ofNat 48 (tdMacs d) }
    if o = .sampledOut then { c with sampledOut := satInc c.sampledOut } else { c with unchecked := satInc c.unchecked }))
  s.paddockGap a

/-- A context ends with an outcome that leaves its task unchecked. A retake that ends so is a run without an account
(R182, R185), unless it has consumed poison: its poison ends the record (R136, R191). -/
def State.uncheckCtx (s : State) (a : Nat) (x : Ctx) (o : Outcome) (reason : Nat) : State :=
  let u : Unchecked := { desc := x.desc, outcome := o, reason := reason, step := x.step, retake := x.retake, poison := x.poison,
                          aborted := x.aborted, epoch := x.epoch, crcGood := x.crcGood }
  let s := (s.modAgent a (fun g =>
    let g' := g.freeCtx x.id u
    if x.fill then { g' with bound := g'.bound.set [] x.handle.toNat [] } else g')).recordUncovered a x.desc o reason
  match x.retake with
  | none => s
  | some n => if x.poison && x.crcGood then s else s.loseRun n a false

/-- The commit action of a task that no context checks, at its last C element (R28, R29, R136, R174). A retake has one only
where it has consumed poison (R182, R191). The POLICY is that of its epoch (R391). A STEP_GATED one that
finds the gate list full takes a context here, beyond CONTEXTS if need be, and no epoch is recorded with it: R173 speaks of
the context that such a task does not have. DESIGN CHOICE (log 80). -/
def State.finishTask (s : State) (a : Nat) (u : Unchecked) : State :=
  if u.outcome = .fail ∨ tdFill u.desc then s
  else
    let d := u.desc
    let r := s.classAt u.epoch (tdClass d)
    if u.poison && u.crcGood then (s.poisonTask a d).report a 0x04 2 (tdBase d) (tdJob d)
    else if u.retake.isSome then s
    else if u.outcome = .uncheckedOversize ∧ ((r.map clsStrict).getD false) then
      (s.poisonTask a d).report a 0x0C 2 (tdBase d) (tdJob d)
    else if u.aborted then s.poisonTask a d
    else
      let s := s.openDec a (tdJob d) u.step
      let (s, held) := s.commitAction a ((r.map clsGated).getD false) u.step (tdJob d) (tdBase d) (tdCount d)
      let keep (i : Nat) : Ctx := { id := i, desc := d, step := u.step, state := .awaiting, held := true }
      if held then s.modAgent a (fun g => { g with ctxs := g.ctxs ++ [keep g.freeId] })
      else s

/-- The residue engine drops a context. -/
def State.dropHanded (s : State) (a id : Nat) : State :=
  s.modConc (s.build.clusterOf a) (fun c => { c with engine := c.engine.filter (fun e => !(decide (e.agent = a ∧ e.ctx.id = id))) })

/-- The KIND of a mismatch in a context's personality. -/
def mismatchKind (bounded : Bool) : Byte := if bounded then 0x02 else 0x01

/-- Drop the account that a context's verdict left at the concentrator. -/
def State.dropAccount (s : State) (a : Nat) (x : Ctx) : State :=
  let mine (y : Account) : Bool := decide (y.agent = a ∧ y.task = tdTask x.desc ∧ y.job = tdJob x.desc ∧ y.retake = x.retake)
  s.modConc (s.build.clusterOf a) (fun c =>
    { c with accounts := c.accounts.filter (fun y => !(mine y)), refused := c.refused.filter (fun y => !(mine y)) })

/-- The handle, the verdict and the number of a context are free. A fill has no C element, so its handle is not kept. -/
def Agent.endCtx (g : Agent) (x : Ctx) : Agent :=
  let g := g.freeCtx x.id { desc := x.desc, outcome := .fail }
  { g with verdicts := g.verdicts.filter (fun v => decide (v.ctx ≠ x.id)),
           bound := if x.fill then g.bound.set [] x.handle.toNat [] else g.bound }

/-- An original task's context ends FAIL without a verdict: its identity stays until it is handed off in the next slice
(R177). -/
def Agent.failOwn (g : Agent) (x : Ctx) : Agent :=
  let g := (g.endCtx x).modClass (tdClass x.desc) (fun c => { c with macsAll := c.macsAll + BitVec.ofNat 48 (tdMacs x.desc) })
  { g with ctxs := g.ctxs ++ [x] }.putAwait { x with ended := true, handed := false }

/-- A context ends FAIL without a verdict (R32, R77, R88): the task's identity is handed off in the next slice, and the
message opens its retake record; nothing of a verdict on its way stays. A retake's run is lost. A task that has consumed
poison is poisoned and starts no retake (R136), and one of an aborted job is poisoned (R174). A fill is reported, handed off
and retaken as any task (R77, R88). -/
def State.failCtx (s : State) (a : Nat) (x : Ctx) (kind : Byte) (sev : BitVec 3) : State :=
  let s := (s.dropHanded a x.id).dropAccount a x
  let fenced := decide (kind = 0x12#8)
  if x.poison && x.crcGood then
    ((s.modAgent a (·.endCtx x)).poisonTask a x.desc).report a 0x04 2 (tdBase x.desc) (tdJob x.desc)
  else
    match x.retake with
    | some n => (s.modAgent a (·.endCtx x)).loseRun n a fenced
    | none =>
      let ended := x.aborted || s.jobAborted (tdJob x.desc)
      let s := s.modAgent a (·.failOwn { x with fenced := fenced, aborted := ended })
      let s := s.report a kind sev (tdBase x.desc) (tdJob x.desc)
      if s.standins.isEmpty || ended then s.poisonTask a x.desc else s

/-! ### TD_DESCRIPTOR (R61 to R65, R75, R78, R79, R419, R420) -/

/-- Bind a handle to one more task. -/
def Agent.bind (g : Agent) (h : BitVec 5) (b : Bound) : Agent :=
  { g with bound := g.bound.mod [] h.toNat (fun l => l ++ [b]) }

/-- Words of the weight store in use (R64, R98). -/
def Agent.wordsUsed (g : Agent) : Nat :=
  (g.ctxs.filter (fun x => decide (x.state ≠ .awaiting))).foldl (fun a x => a + footprint x.desc x.bounded) 0

/-- A descriptor's run, if it serves a record, is one without an account (R185). -/
def State.loseRunOf (s : State) (retake : Option Nat) (a : Nat) : State :=
  match retake with
  | none => s
  | some n => s.loseRun n a false

/-- The context that a handle is bound to ends UNCHECKED_ORDER (R420). -/
def State.uncheckBound (s : State) (a : Nat) (h : BitVec 5) : State :=
  match (s.agent a).bound.get [] h.toNat with
  | .ctx id :: _ =>
    match (s.agent a).ctx? id with
    | none => s
    | some x => s.uncheckCtx a x .uncheckedOrder 0
  | _ => s

/-- A descriptor on a bound handle: it and the task already bound end UNCHECKED_ORDER (R420). -/
def State.bindTwice (s : State) (a : Nat) (h : BitVec 5) (d : BitVec 256) (step : Option W64) (rt : Option (Nat × Bool)) : State :=
  let s := ((s.uncheckBound a h).recordUncovered a d .uncheckedOrder 0).loseRunOf (rt.map (·.1)) a
  let u : Unchecked := { desc := d, outcome := .uncheckedOrder, step := step, retake := rt.map (·.1),
                         epoch := (s.agent a).epoch, crcGood := (rt.map (·.2)).getD true }
  if 4 ≤ ((s.agent a).bound.get [] h.toNat).length then s.finishTask a u else s.modAgent a (·.bind h (.task u))

/-- A descriptor that ends unchecked at its acceptance; a fill has no C element, so its handle is not kept (log 21). -/
def State.uncheckNew (s : State) (a : Nat) (h : BitVec 5) (d : BitVec 256) (step : Option W64) (rt : Option (Nat × Bool))
    (o : Outcome) (reason : Nat) : State :=
  let u : Unchecked := { desc := d, outcome := o, reason := reason, step := step, retake := rt.map (·.1),
                         epoch := (s.agent a).epoch, crcGood := (rt.map (·.2)).getD true }
  let s := s.recordUncovered a d o reason
  (if tdFill d then s else s.modAgent a (·.bind h (.task u))).loseRunOf (rt.map (·.1)) a

/-- A descriptor accepted while FENCE_REQ is high: its task is handled as a context open at the fence (R32, R420). -/
def State.fencedTask (s : State) (a : Nat) (h : BitVec 5) (d : BitVec 256) (bounded : Bool) : State :=
  let x : Ctx := { id := (s.agent a).freeId, handle := h, desc := d, step := (s.agent a).steps.get none (tdJob d).toNat,
                   epoch := (s.agent a).epoch, bounded := bounded, fill := tdFill d }
  let s := s.modAgent a (fun g => { g with ctxs := g.ctxs ++ [x] }.bind h (.ctx x.id))
  let s := if x.fill then s else s.openInc a (tdJob d) x.step
  s.failCtx a x 0x12 0

/-- The retake that a descriptor serves: its record, step and epoch, and whether its CRC-32C fits (R58, R170, R179). -/
def State.bindRetake (s : State) (a : Nat) (d : BitVec 256) : State × Option (Nat × Bool) :=
  match (s.agent a).retakeBind with
  | none => (s, none)
  | some n =>
    let good := decide (descCrc d = (s.retake n).crc)
    let s := s.modAgent a (fun g => { g with retakeBind := none })
    let s := s.modRetake n (fun r => if r.phase = .requested then { r with phase := .running } else r)
    (if good then s else s.loseRun n a true, some (n, good))

/-- A descriptor on a free handle. -/
def State.takeDescriptor (s : State) (a : Nat) (h : BitVec 5) (d : BitVec 256) (cyc : Nat) (step : Option W64)
    (rt : Option (Nat × Bool)) : State :=
  let n := rt.map (·.1)
  match s.class? (tdClass d) with
  | none => s.uncheckNew a h d step rt .uncheckedOrder (if tdOrder d = 3 ∨ tdBatch d = 3 then 0 else 3)
  | some c =>
    let bounded := clsBounded c
    if tdOrder d = 3 ∨ tdBatch d = 3 then s.uncheckNew a h d step rt .uncheckedOrder 0
    else if !(formatsOk d c) then s.uncheckNew a h d step rt .uncheckedOrder 3
    else if oversize d bounded then s.uncheckNew a h d step rt .uncheckedOversize 0
    else
      let g := s.agent a
      let epoch := match n with | none => g.epoch | some r => if r = closedRecord then g.epoch else (s.retake r).epoch
      match g.keyOf? epoch with
      | none => s.uncheckNew a h d step rt .uncheckedContext 0
      | some key =>
        if s.build.contexts ≤ g.ctxs.length ∨ 4096 < g.wordsUsed + footprint d bounded then
          s.uncheckNew a h d step rt .uncheckedContext 0
        else
          let lanes := s.lanesOf a
          let sel := covered d (clsMacRate c) lanes (tdWpc d) bounded || n.isSome || g.paddock
            || decide (sampleZ key (tdTask d) < selLevel d (clsMacRate c) s.build.lanes (clsLoad ((s.classAt epoch (tdClass d)).getD c)) (tdWpc d))
          if !sel then s.uncheckNew a h d step rt .sampledOut 0
          else
            let x : Ctx := { id := g.freeId, handle := h, desc := d, step := step, epoch := epoch, bounded := bounded,
                             fill := tdFill d, cyc := cyc, retake := n, crcGood := (rt.map (·.2)).getD true,
                             cache := if tdWpc d && !tdFill d then .waiting else .none }
            let n := if epoch = g.epoch then g.allocated + 1 else g.allocated
            s.modAgent a (fun g => { g with ctxs := g.ctxs ++ [x], allocated := n }.bind h (.ctx x.id))

/-- A task without rows or columns (R75); a fill names no rows. -/
def emptyTask (d : BitVec 256) : Bool := decide (tdN d = 0 ∨ (tdM d = 0 ∧ tdOrder d ≠ 2))

/-- A task ends PASS_EMPTY: counted by class (R75, R82) and by job at the agent's concentrator (R29). -/
def State.passEmpty (s : State) (a : Nat) (d : BitVec 256) : State :=
  (s.modAgent a (·.modClass (tdClass d) (fun c => { c with passEmpty := satInc c.passEmpty }))).modConc (s.build.clusterOf a)
    (fun c => { c with jobs := c.jobs.mod {} (tdJob d).toNat (fun y => { y with passEmpty := satInc y.passEmpty }) })

/-- TD_DESCRIPTOR: a descriptor is accepted at an agent (R61). An empty task ends PASS_EMPTY whatever its handle (R29, R75);
on a bound handle it ends the task that is bound there all the same (R420). DEDUCED (log 45). -/
def execTdDescriptor (agent : Nat) (handle : BitVec 5) (data : BitVec 256) (cyc : Nat) (s : State) :
    Host.Outcome State Fault Refusal :=
  live s fun s =>
    if !(s.agentOn agent) || s.shut then s
    else
      let job := tdJob data
      if (s.agent agent).fenceReq || (s.agent agent).fence then
        if emptyTask data then s.passEmpty agent data
        else s.fencedTask agent handle data (((s.class? (tdClass data)).map clsBounded).getD false)
      else
        let (s, rt) := s.bindRetake agent data
        let step := match rt with
          | none => (s.agent agent).steps.get none job.toNat
          | some r => (s.retake r.1).step
        if emptyTask data then
          ((s.passEmpty agent data).uncheckBound agent handle).loseRunOf (rt.map (·.1)) agent
        else if (s.agent agent).bound.get [] handle.toNat ≠ [] then
          let s := if rt.isNone && !(tdFill data) then s.openInc agent job step else s
          s.bindTwice agent handle data step rt
        else
          let s := if rt.isNone && !(tdFill data) then s.openInc agent job step else s
          s.takeDescriptor agent handle data cyc step rt

/-! ### The audit unit (R181) -/

/-- Operand bytes of a beat reach the audit unit, at most 32 in a tile cycle. -/
def Ctx.auditBytes (x : Ctx) (tap : Tap) (len value cyc : Nat) : Ctx :=
  match x.retake with
  | none => x
  | some _ =>
    let a := x.audit
    let n := (if a.cycle = cyc then a.cycleBytes else 0) + (len + 7) / 8
    let push (t : AuditTap) : AuditTap := { value := t.value + value % 2 ^ len * 2 ^ t.len, len := t.len + len }
    let a := { a with cycle := cyc, cycleBytes := n, missing := a.missing || decide (32 < n) }
    { x with audit := match tap with
        | .a => { a with tapA := push a.tapA }
        | .b => { a with tapB := push a.tapB }
        | .c => a }

/-- An audit beat closes a block: its residue is compared with the one over the block's bytes, the last that were tapped. Bytes
before them have had no audit beat, and fewer bytes than the block has were not read whole: both give NONE (R181). -/
def State.auditBlock (s : State) (x : Ctx) (tap : Tap) (addr : Addr) (d : Nat) : Ctx :=
  let a := x.audit
  let t := match tap with | .a => a.tapA | _ => a.tapB
  let a := { a with blocks := a.blocks + 1 }
  let a := match tap with | .a => { a with tapA := {} } | _ => { a with tapB := {} }
  match s.regionAt addr.toNat with
  | none => { x with audit := { a with missing := true } }
  | some g =>
    let n := 8 * g.blockBytes
    if 256 < a.blocks ∨ t.len < n then { x with audit := { a with missing := true } }
    else { x with audit := { a with missing := a.missing || decide (n < t.len),
                                    bad := a.bad || decide (contentBits g.linear (s.rho g.key) n (t.value / 2 ^ (t.len - n)) ≠ d) } }

/-- The audit result of a run (R181). -/
def Ctx.auditResult (x : Ctx) : AuditResult :=
  if x.retake.isNone then .none
  else if x.audit.bad then .bad
  else if x.audit.missing ∨ x.audit.tapA.len ≠ 0 ∨ x.audit.tapB.len ≠ 0 then .none
  else .ok

/-! ### Taps (R60, R65 to R68, R80, R420, R421) -/

/-- Run an effect unless the beat breaks the bounds that a rule sets. -/
def liveIf (s : State) (bad : Bool) (rule : Nat) (f : State → State) : Host.Outcome State Fault Refusal :=
  if s.rstL then .next s else if bad then .fault (.hostContract rule) else live s f

/-- The format of a tap. -/
def tapFmt (d : BitVec 256) : Tap → Nat
  | .a => tdFmtA d
  | .b => tdFmtB d
  | .c => tdFmtC d

/-- The context that a handle is bound to, alone. -/
def Agent.boundCtx (g : Agent) (h : BitVec 5) : Option Ctx :=
  match g.bound.get [] h.toNat with
  | [.ctx id] => g.ctx? id
  | _ => none

/-- A beat of elements packs more than its bounds allow for the task it belongs to (R421). -/
def State.badBeat (s : State) (a : Nat) (b : TapBeat) : Bool :=
  match (s.agent a).boundCtx b.handle with
  | none => false
  | some x => decide (b.count = 0 ∨ 32 < b.count ∨ 256 < b.count * fmtWidth (tapFmt x.desc b.tap))

/-- Committed demand of a context: RATE/16 · D (R80). -/
def State.rateDemand (s : State) (x : Ctx) : Nat × Nat :=
  let d := demand x.desc (((s.class? (tdClass x.desc)).map clsMacRate).getD 0) x.cached
  (tdRate x.desc * d.1, 16 * d.2)

/-- The committed demand with a further context fits (R80). -/
def State.demandFits (s : State) (a : Nat) (x : Ctx) (cyc : Nat) : Bool :=
  let acc := (s.agent a).ctxs.filter (fun y => decide (y.state = .accumulating ∧ y.id ≠ x.id))
  let t := acc.foldl (fun t y => fracAdd t (s.rateDemand y)) (s.rateDemand x)
  decide (t.1 ≤ s.admitLanes a cyc * t.2)

/-- Within the coverage rule as its cache stands. -/
def State.coveredNow (s : State) (a : Nat) (x : Ctx) : Bool :=
  covered x.desc (((s.class? (tdClass x.desc)).map clsMacRate).getD 0) (s.lanesOf a) x.cached x.bounded

/-- The first tap element of a context: it takes its slots and lanes, or ends (R50, R65, R80). Of several grounds the want of
slots comes before the demand and the demand before the lead time. DESIGN CHOICE (log 107). -/
def State.takeSlots (s : State) (a : Nat) (x : Ctx) (cyc : Nat) : State :=
  let g := s.agent a
  let acc := g.ctxs.filter (fun y => decide (y.state = .accumulating))
  let used := acc.foldl (fun n y => n + slotsOf y.desc y.bounded) 0
  let sram := if used = 0 then x.bounded else g.boundedSram
  if sram ≠ x.bounded ∨ 4 < used + slotsOf x.desc x.bounded then s.uncheckCtx a x .uncheckedContext 0
  else if !(s.coveredNow a x) && !(s.demandFits a x cyc) then s.uncheckCtx a x .sampledOut 1
  else if cyc < x.cyc + (tdM x.desc + tdN x.desc + 1) / 2 + 16 then s.uncheckCtx a x .uncheckedOrder 1
  else s.modAgent a (fun g => { g with boundedSram := x.bounded }.setCtx { x with state := .accumulating })

/-- Admit a context at its first tap element, if it is not admitted yet. -/
def State.admitFirst (s : State) (a : Nat) (h : BitVec 5) (cyc : Nat) : State :=
  match (s.agent a).boundCtx h with
  | none => s
  | some x => if x.state = .armed then s.takeSlots a x cyc else s

/-- Take the elements of a beat, from element `e` on. -/
def takeElems (q : Params) (b : TapBeat) : Nat → Nat → Ctx → Taken
  | 0, _, x => (x, none)
  | n + 1, e, x =>
    let w := fmtWidth (tapFmt x.desc b.tap)
    let el := decodeElem (tapFmt x.desc b.tap) (bits b.data (w * e + w - 1) (w * e)) b.scale x.w
    let r := if b.dir then b.idx0 + e else b.idx0
    let c := if b.dir then b.idx1 else b.idx1 + e
    let m := if tdBatch x.desc = 2 then b.member else 0
    let t := match b.tap with
      | .a => x.takeA q m r c el b.cyc
      | .b => x.takeB q m r c el b.cyc
      | .c => (x.takeC q m r c el (b.sat.getLsbD e), none)
    match t with
    | (y, some reason) => (y, some reason)
    | (y, none) => takeElems q b n (e + 1) y

/-- The lanes that are not retired. -/
def State.liveLanes (s : State) (a : Nat) : List Nat :=
  (List.range s.build.lanes).filter (fun l => !((s.agent a).retired.contains l))

/-- The retake of a fill has presented its entry: equal halves stand for its verdict, and its context waits for the order as
any run's (R70, R182), unless the account store is full (R177). DESIGN CHOICE (log 85). -/
def State.fillRun (s : State) (a : Nat) (x : Ctx) (n : Nat) : State :=
  if x.crcGood && s.runLive n a then
    let k : Account := { x.account a s.now with verdict := .pass, scalars := true, audit := x.auditResult }
    if 32 ≤ (s.conc (s.build.clusterOf a)).accounts.length then s.loseRun n a false
    else
      (s.modAgent a (fun g => { g with ctxs := g.ctxs ++ [x] }.putAwait { x with waiting := true })).modConc (s.build.clusterOf a)
        (fun c => { c with accounts := c.accounts ++ [k] })
  else s

/-- A fill ends at its last B element: the entry is presented, or the fill is reported failed and the self-check of every lane
is due at once (R70, R427). A poisoned operand of a fill gives no entry. A non-finite element, or one outside its bound, adds
what R_l and H_l have room for, and the entry is presented all the same. A fill with k = 0 has no B element: it presents no
entry and its context stays ARMED. DESIGN CHOICE (log 80). -/
def State.endFill (s : State) (a : Nat) (x : Ctx) (differ : Bool) : State :=
  let s := s.modAgent a (fun g => let g' := g.freeCtx x.id {}
    { g' with bound := g'.bound.set [] x.handle.toNat [] })
  if x.poison then s.report a 0x04 2 (tdBase x.desc) (tdJob x.desc)
  else if differ then
    let s := (s.report a 0x0B 1 (BitVec.ofNat 48 (tdWtId x.desc)) (tdJob x.desc)).modAgent a (fun g =>
      { g with katDue := s.liveLanes a })
    s.loseRunOf x.retake a
  else
    let w := x.entryWords (s.paramsOf a x)
    let s := (s.modAgent a (fun g => { g with po := w })).present (.po a w)
    match x.retake with
    | none => s
    | some n => s.fillRun a x n

/-- What the lanes take for a context in a tile cycle: its committed demand, LANES/2 for a fill (R70, R80). -/
def State.laneRate (s : State) (a : Nat) (x : Ctx) : Nat × Nat := if x.fill then (s.lanesOf a, 2) else s.rateDemand x

/-- The lane operations of a beat: one for each element that the lanes must project. -/
def Ctx.beatOps (x : Ctx) (b : TapBeat) : Nat := if b.tap = .b ∧ x.cached then 0 else b.count

/-- The elements of a beat reach an ACCUMULATING context. -/
def State.tapCtx (s : State) (a : Nat) (x : Ctx) (b : TapBeat) : State :=
  let w := fmtWidth (tapFmt x.desc b.tap)
  let rate := s.laneRate a x
  let tooFast := x.overRate rate (x.beatOps b) b.cyc
  let x : Ctx := { x with backlog := x.queued rate (x.beatOps b) b.cyc, beatAt := b.cyc }
  let x := if b.tap = .c then x else x.auditBytes b.tap (b.count * w) b.data.toNat b.cyc
  if tooFast then s.uncheckCtx a x .uncheckedOrder 2
  else
  match takeElems (s.paramsOf a x) b b.count 0 x with
  | (y, some reason) => s.uncheckCtx a y .uncheckedOrder reason
  | (y, none) =>
    let s := s.modAgent a (·.setCtx y)
    if y.fill ∧ tdK y.desc * tdN y.desc ≤ y.nB then s.endFill a y b.halvesDiffer else s

/-- Set the poison mark of the task a handle is bound to (R135, R136). -/
def Agent.markPoison (g : Agent) (h : BitVec 5) : Agent :=
  match g.bound.get [] h.toNat with
  | .ctx id :: _ => { g with ctxs := g.ctxs.map (fun y => if y.id = id then { y with poison := true } else y) }
  | .task u :: r => { g with bound := g.bound.set [] h.toNat (.task { u with poison := true } :: r) }
  | [] => g

/-- A beat of elements at an agent. -/
def State.tapBeat (s : State) (a : Nat) (b : TapBeat) : State :=
  if !(s.agentOn a) then s
  else if (s.agent a).bound.get [] b.handle.toNat = [] then s.modAgent a (fun g => { g with tapStray := satInc g.tapStray })
  else
    let s := if b.poison ∧ b.tap ≠ .c then s.modAgent a (·.markPoison b.handle) else s
    if b.auditOnly ∧ b.tap ≠ .c then
      match (s.agent a).boundCtx b.handle with
      | none => s
      | some x => s.modAgent a (·.setCtx (x.auditBytes b.tap (b.count * fmtWidth (tapFmt x.desc b.tap)) b.data.toNat b.cyc))
    else
      let s := s.admitFirst a b.handle b.cyc
      match (s.agent a).boundCtx b.handle with
      | none => s
      | some x => s.tapCtx a x b

/-- TAP_ELEMENT_BEAT: an A, B or C beat of elements (R66, R421). -/
def execTapElementBeat (agent : Nat) (beat : TapBeat) (s : State) : Host.Outcome State Fault Refusal :=
  liveIf s (s.agentOn agent && s.badBeat agent beat) 421 fun s => s.tapBeat agent beat

/-- An entry is rejected: the task goes on without the cache, on what the lanes have formed from the B elements so far, where
its demand permits, and otherwise ends SAMPLED_OUT with reason STALE (R72). Whether B streams is known at the last C element,
where a task without a B element ends so too. -/
def State.rejectEntry (s : State) (a : Nat) (x : Ctx) (cyc : Nat) : State :=
  let y := x.rejected
  let key := ((s.agent a).keyOf? x.epoch).getD 0
  let rate := ((s.class? (tdClass x.desc)).map clsMacRate).getD 0
  let load := ((s.classAt x.epoch (tdClass x.desc)).map clsLoad).getD 12
  let sel := x.retake.isSome || (s.agent a).paddock
    || decide (sampleZ key (tdTask x.desc) < selLevel x.desc rate s.build.lanes load false)
  if s.coveredNow a y || (sel && s.demandFits a y cyc) then
    match x.bside.bad with
    | some reason => s.uncheckCtx a y .uncheckedOrder reason
    | none => s.modAgent a (·.setCtx y)
  else s.uncheckCtx a x .sampledOut 2

/-- Take the residues or records of a PRJ beat, from record `e` on. -/
def takePrjs (m : Nat) (b : PrjBeat) : Nat → Nat → Ctx → Taken
  | 0, _, x => (x, none)
  | n + 1, e, x =>
    match x.takePrj m (b.idx1 + e) b.data e b.cyc with
    | (y, some reason) => (y, some reason)
    | (y, none) => takePrjs m b n (e + 1) y

/-- A PRJ beat for an ACCUMULATING context whose cache is in use (R72). -/
def State.prjCtx (s : State) (a : Nat) (x : Ctx) (b : PrjBeat) : State :=
  let q := s.paramsOf a x
  let words := if b.header then (if x.bounded then 5 else 4) else (if x.bounded then 4 * b.count else b.count)
  let x := x.auditBytes .b (32 * words) b.data.toNat b.cyc
  if b.poison then s.rejectEntry a x b.cyc
  else if b.auditOnly then s.modAgent a (·.setCtx x)
  else if b.header then
    if x.headerOk q b.data then s.modAgent a (·.setCtx { x with cache := .accepted })
    else s.rejectEntry a x b.cyc
  else if x.cache = .waiting then s.rejectEntry a x b.cyc
  else
    match takePrjs (if tdBatch x.desc = 2 then b.member else 0) b b.count 0 x with
    | (y, some reason) => s.uncheckCtx a y .uncheckedOrder reason
    | (y, none) => s.modAgent a (·.setCtx y)

/-- A PRJ beat of records holds more than its form allows (R421). -/
def State.badPrj (s : State) (a : Nat) (b : PrjBeat) : Bool :=
  match (s.agent a).boundCtx b.handle with
  | none => false
  | some x => !b.header && decide (b.count = 0 ∨ (if x.bounded then 2 else 8) < b.count)

/-- PRJ_BEAT: a header or records of a weight-projection entry on the B tap (R72); what is presented for the audit alone delivers
nothing to the cache (R181, R418). -/
def execPrjBeat (agent : Nat) (beat : PrjBeat) (s : State) : Host.Outcome State Fault Refusal :=
  liveIf s (s.agentOn agent && s.badPrj agent beat) 421 fun s =>
    if !(s.agentOn agent) then s
    else if (s.agent agent).bound.get [] beat.handle.toNat = [] then
      s.modAgent agent (fun g => { g with tapStray := satInc g.tapStray })
    else
      match (s.agent agent).boundCtx beat.handle with
      | none => s
      | some x =>
        if !x.cached then s
        else
          let s := if beat.auditOnly && !beat.poison then s else s.admitFirst agent beat.handle beat.cyc
          match (s.agent agent).boundCtx beat.handle with
          | none => s
          | some x => s.prjCtx agent x beat

/-- AUDIT_BEAT: a block's residue on an operand tap; only a retake context takes it (R181, R421). Its poison mark is the task's, as
that of every operand beat (R135, R136). -/
def execAuditBeat (agent : Nat) (tap : Tap) (handle : BitVec 5) (addr : Addr) (d : BitVec 31) (poison : Bool) (cyc : Nat) (s : State) :
    Host.Outcome State Fault Refusal :=
  live s fun s =>
    if !(s.agentOn agent) then s
    else if (s.agent agent).bound.get [] handle.toNat = [] then
      s.modAgent agent (fun g => { g with tapStray := satInc g.tapStray })
    else
      let s := if poison ∧ tap ≠ .c then s.modAgent agent (·.markPoison handle) else s
      match (s.agent agent).boundCtx handle with
      | none => s
      | some x =>
        if x.retake.isNone ∨ tap = .c then s
        else
          let y := s.auditBlock (if x.audit.cycle = cyc then x else { x with audit := { x.audit with cycle := cyc, cycleBytes := 0 } })
            tap addr d.toNat
          s.modAgent agent (·.setCtx y)

/-! ### C_LAST (R76, R97, R420) -/

/-- The last C element comes too soon after the last operand element (R97). -/
def Ctx.lastTooSoon (x : Ctx) (cyc : Nat) : Bool :=
  let k := tdK x.desc
  let need := if tdOrder x.desc = 1 then k else tdPanelLen x.desc (tdPanels x.desc - 1)
  x.bounded && decide (0 < k) && decide (cyc < x.lastOp + need + 8)

/-- A context of an aborted job presents its poison; poison that it has consumed is still reported (R136, R137, R174). -/
def State.abortPoison (s : State) (a : Nat) (x : Ctx) : State :=
  let s := s.poisonTask a x.desc
  if x.poison then s.report a 0x04 2 (tdBase x.desc) (tdJob x.desc) else s

/-- A context of an aborted job presents a poison at its last C element (R174); its check ends there. -/
def State.abortLast (s : State) (a : Nat) (x : Ctx) : State :=
  let s := s.modAgent a (·.freeCtx x.id {})
  if x.crcGood then
    let s := s.abortPoison a x
    match x.retake with
    | none => s
    | some n => if s.runLive n a ∧ (s.retake n).phase = .poisoning ∧ (s.retake n).decision = 8 then
        (s.closeRetake n 8 (fun _ => 0)).startWaiting else s
  else s

/-- Take the handle's oldest binding off. -/
def Agent.unbindOne (g : Agent) (h : BitVec 5) : Agent := { g with bound := g.bound.mod [] h.toNat (·.drop 1) }

/-- The last C element of a handle. A task whose counts do not match ends FAIL whatever else holds (R103), so that the lead
time of R97 is judged only where they match. DEDUCED (log 80). -/
def State.lastC (s : State) (a : Nat) (h : BitVec 5) (cyc : Nat) : State :=
  let s := match (s.agent a).boundCtx h with
    | none => s
    | some x =>
      if x.fill then s
      else if x.cache = CacheState.rejected ∧ x.nB = 0 ∧ tdK x.desc * tdN x.desc ≠ 0 then s.uncheckCtx a x .sampledOut 2
      else if x.lastTooSoon cyc && !x.badCounts then s.uncheckCtx a x .uncheckedOrder 1
      else s
  match (s.agent a).bound.get [] h.toNat with
  | [] => s
  | .task u :: _ => (s.modAgent a (·.unbindOne h)).finishTask a u
  | .ctx id :: _ =>
    let s := s.modAgent a (·.unbindOne h)
    match (s.agent a).ctx? id with
    | none => s
    | some x =>
      if x.aborted || s.jobAborted (tdJob x.desc) then s.abortLast a x
      else s.modAgent a (·.putAwait { x.reduce (s.paramsOf a x) with countError := x.badCounts })

/-- C_LAST: the beat with a task's last C element (R76). -/
def execCLast (agent : Nat) (beat : TapBeat) (s : State) : Host.Outcome State Fault Refusal :=
  liveIf s (s.agentOn agent && s.badBeat agent { beat with tap := .c }) 421 fun s =>
    if !(s.agentOn agent) then s
    else if (s.agent agent).bound.get [] beat.handle.toNat = [] then
      s.modAgent agent (fun g => { g with tapStray := satInc g.tapStray })
    else ((s.tapBeat agent { beat with tap := .c }).lastC agent beat.handle beat.cyc).startWaiting

/-! ### Known-answer vectors and SRAM errors (R77, R87, R88, R224, R225) -/

/-- Contexts that have not had their verdict end FAIL and are retaken (R77, R88). One that has had it and stays, a retake that
waits for its order or a context that a full gate list holds, stays as it is, its data touched or not. DESIGN CHOICE (log
107). -/
def State.failContexts (s : State) (a : Nat) (f : Ctx → Bool) : State :=
  s.each ((s.agent a).ctxs.filter (fun x => !x.ended && !x.held && !x.waiting && f x)) (fun x s =>
    s.failCtx a x (mismatchKind x.bounded) 1)

/-- A lane runs its known-answer vector from a tile cycle on. One that has found no idle slot for 10 ms is withdrawn from
admission for the 64 cycles (R87). -/
def Agent.runVector (g : Agent) (l cyc now : Nat) : Agent :=
  let w := g.withdrawn.filter (fun x => decide (x.1 ≠ l))
  { g with katDue := g.katDue.filter (fun x => decide (x ≠ l)), katLast := g.katLast.set 0 l now,
           withdrawn := if g.katLast.get 0 l + 10000000 ≤ now then w ++ [(l, cyc)] else w }

/-- LANE_SELF_CHECK: a lane, the reducer or a generator pipeline runs its known-answer vector, from a tile cycle on (R87,
R88). -/
def execLaneSelfCheck (agent : Nat) (unit : KatUnit) (ok : Bool) (cyc : Nat) (s : State) : Host.Outcome State Fault Refusal :=
  live s fun s =>
    if !(s.agentOn agent) then s
    else
    let s := match unit with
      | .lane l => if s.build.lanes ≤ l then s else s.modAgent agent (·.runVector l cyc s.now)
      | _ => s
    if ok then s
    else
      match unit with
      | .lane l =>
        if s.build.lanes ≤ l ∨ l ∈ (s.agent agent).retired then s
        else
          let s := s.modAgent agent (fun g => { g with retired := g.retired ++ [l] })
          let sev : BitVec 3 := if s.lanesOf agent < s.laneMin then 3 else 1
          (s.report agent 0x40 sev (BitVec.ofNat 48 (l % 64)) 0).failContexts agent (fun _ => true)
      | .reducer =>
        let s := s.modAgent agent (fun g => { g with unitFailed := true })
        (s.report agent 0x41 3 0 0).failContexts agent (fun _ => true)
      | .generator g =>
        let s := s.modAgent agent (fun x => { x with unitFailed := true })
        (s.report agent 0x41 3 (BitVec.ofNat 48 (1 + g % 2)) 0).failContexts agent (fun _ => true)

end Sys2Proof.Machine
end

