-- ==== Sys2Proof/Machine/Vector.lean ====
section
/-! DEFINITION. Vector groups, their tests, summaries and running envelopes (R148 to R165, R423, R479, R481). -/

namespace Sys2Proof.Machine

open Sys2Proof

/-! ### Headers (R148, R423) -/

def vhJob (h : BitVec 110) : Job := BitVec.ofNat 8 (bits h 109 102)
def vhClass (h : BitVec 110) : Nat := bits h 101 96
def vhFmt (h : BitVec 110) : Nat := bits h 95 92
/-- Elements of a row: ROW_LEN + 1. -/
def vhRow (h : BitVec 110) : Nat := bits h 91 76 + 1
/-- Rows of the group: ROWS + 1. -/
def vhRows (h : BitVec 110) : Nat := bits h 75 64 + 1
def vhBase (h : BitVec 110) : Addr := BitVec.ofNat 48 (bits h 63 16)
def vhCount (h : BitVec 110) : BitVec 16 := BitVec.ofNat 16 (bits h 15 0)

/-! ### Classes and their tests (R150, R151, R387) -/

/-- A field of the group's class record, as bound at the header (R162). -/
def Group.fld (g : Group) (i hi lo : Nat) : Nat := bits (g.params.getD i 0) hi lo

/-- The formats of a test (R151). -/
def testFormats (t fmt : Nat) : Bool :=
  match t with
  | 0 | 6 => decide (2 ≤ fmt ∧ fmt ≤ 10)
  | 2 | 3 => decide (8 ≤ fmt ∧ fmt ≤ 10)
  | 5 => decide (fmt = 0 ∨ fmt = 11)
  | _ => true

/-- A test runs on the group: enabled, and not disabled by the format; STREAM always runs. -/
def Group.runs (g : Group) (t : Nat) : Bool :=
  decide (t = 7) || (bit (g.params.getD 1 0) (18 + t) && testFormats t (vhFmt g.head))

/-- A class is gated (R150). -/
def gatedWord (w : W32) : Bool := (List.range 6).any (fun t => bit w (18 + t) && bit w (12 + t))

/-- A test's failure calls for poison (R150, R151). -/
def Group.poisons (g : Group) (t : Nat) : Bool :=
  if t = 7 then g.gated else decide (t ≤ 5) && bit (g.params.getD 1 0) (12 + t)

/-- Some failed test calls for poison. -/
def Group.mustPoison (g : Group) : Bool := g.failed.any g.poisons

/-- Note a failed test. -/
def Group.failTest (g : Group) (t : Nat) : Group := { g with failed := setAdd t g.failed }

/-- Note a failed test where it runs and the condition holds. -/
def Group.failIf (g : Group) (t : Nat) (c : Bool) : Group := if g.runs t && c then g.failTest t else g

/-! ### Elements and rows (R151, R152, R154) -/

/-- The statistic of a nonzero magnitude: 65,536·E + 256·⌊256·f⌋ (R154). -/
def Elem.stat (x : Elem) : Int :=
  65536 * ((x.m.log2 : Int) + x.e) + 256 * (((x.m * 256 / 2 ^ x.m.log2 : Nat) : Int) - 256)

/-- The larger statistic. -/
def maxStat (a : Option Int) (b : Int) : Option Int :=
  match a with
  | none => some b
  | some c => some (max b c)

/-- An element of a judged group. -/
def Group.element (g : Group) (x : Elem) : Group :=
  if x.nonfinite then { g with nonfinite := g.nonfinite + 1, rowNonfinite := true }
  else
    let below := x.neg && decide (x.m ≠ 0)
    let g := g.failIf 1 (x.atLeast (signedNat 8 (g.fld 2 15 8)))
    let g := g.failIf 4 below
    let g := g.failIf 5 (below || decide (g.fld 3 16 0 ≤ x.m))
    let g := if g.runs 6 && decide (x.m ≠ 0) then { g with stat := maxStat g.stat x.stat } else g
    if x.atLeast 24 then { g with rowBig := true }
    else { g with sum := g.sum + signed x.neg (place x.m (x.e + 40)).1,
                  sumSq := g.sumSq + ((place (x.m * x.m) (2 * x.e + 40)).1 : Int) }

/-- SOFTMAX_SUM fails for a row: |Σx − 1| > 2^(−SUM_TOL) + n·2⁻⁴⁰ (R151). -/
def Group.badSum (g : Group) : Bool :=
  decide ((g.sum - 2 ^ 40).natAbs > 2 ^ (40 - orDef (g.fld 3 31 27) 6) + vhRow g.head)

/-- NORM fails for a row (R151, R152). -/
def Group.badNorm (g : Group) : Bool :=
  let n := vhRow g.head
  let vt := 2 ^ orDef (g.fld 3 21 17) 3
  if bit (g.params.getD 1 0) 10 then decide ((g.sumSq - n * 2 ^ 40).natAbs * vt > n * 2 ^ 40)
  else
    let mt := 2 ^ orDef (g.fld 3 26 22) 5
    decide (g.sum.natAbs * mt > n * 2 ^ 40)
      || decide ((g.sumSq * n * 2 ^ 40 - g.sum * g.sum - n * n * 2 ^ 80).natAbs * vt > n * n * 2 ^ 80)

/-- The end of a row. -/
def Group.endRow (g : Group) : Group :=
  let g := g.failIf 7 (decide (g.rowElems ≠ vhRow g.head))
  let g := if g.rowNonfinite then g
    else if g.rowBig then (g.failIf 2 true).failIf 3 true
    else (g.failIf 2 g.badSum).failIf 3 g.badNorm
  { g with rowsDone := g.rowsDone + 1, rowElems := 0, sum := 0, sumSq := 0, rowNonfinite := false, rowBig := false }

/-- Take the elements of a beat from element `e` on; answers how many were taken. -/
def Group.takeElems (b : VeBeat) : Nat → Nat → Group → Group × Nat
  | 0, e, g => (g, e)
  | n + 1, e, g =>
    if g.complete then (g, e)
    else
      let w := fmtWidth (vhFmt g.head)
      let g := if g.judged then g.element (decodeElem (vhFmt g.head) (bits b.data (w * e + w - 1) (w * e)) b.scale 0) else g
      let g := { g with rowElems := g.rowElems + 1 }
      let g := if b.rowEnd.getLsbD e then g.endRow else g
      Group.takeElems b n (e + 1) { g with complete := decide (g.rowsDone = vhRows g.head) }

/-! ### A group's outcome -/

/-- A commit action or poison over the group's range. -/
def State.groupRange (s : State) (a : Nat) (g : Group) (poison : Bool) : State :=
  let h := g.head
  if poison then s.presentCmt a { poison := true, job := vhJob h, base := vhBase h, count := vhCount h }
  else
    let (s, held) := s.commitAction a g.stepGated g.step (vhJob h) (vhBase h) (vhCount h)
    let desc : BitVec 256 := BitVec.ofNat 256 ((vhJob h).toNat * 2 ^ 216 + (vhBase h).toNat * 2 ^ 36 + (vhCount h).toNat * 2 ^ 20)
    let keep (i : Nat) : Ctx := { id := i, desc := desc, step := g.step, state := .awaiting, held := true }
    if held then s.modAgent a (fun x => { x with ctxs := x.ctxs ++ [keep x.freeId] }) else s

/-- The last element of a group that is not judged (R479, R481). Where the abort of its job has reached it, it presents a poison
in place of its commit (R174). -/
def State.endUnjudged (s : State) (a : Nat) (g : Group) : State :=
  let h := g.head
  let presents := (g.gated || !g.hasRecord) && !g.settled
  let s := if g.settled || g.poison || g.aborted then s else s.openDec a (vhJob h) g.step
  let s := if presents then s.groupRange a g (g.poison || g.aborted) else s
  if g.poison then s.report a 0x04 2 (vhBase h) (vhJob h) else s

/-- A failing group's ring entry (R153). -/
def Group.entry (g : Group) (clk : Nat) : BitVec 128 :=
  let f := g.failed.foldl (fun a t => a + 2 ^ t) 0
  BitVec.ofNat 128 ((vhBase g.head).toNat * 2 ^ 80 + (vhJob g.head).toNat * 2 ^ 72 + f * 2 ^ 64 + vhClass g.head * 2 ^ 58
    + clk / 2 ^ 20 % 2 ^ 19)

/-- The tests of a judged group are settled at its last element (R151, R153, R164). RUNNING is judged at the concentrator
afterwards, so that FAIL_BIT6 of the agent counts nothing. DESIGN CHOICE (log 108). -/
def State.settleTests (s : State) (a : Nat) (g : Group) : State × Group :=
  let g := g.failIf 0 (decide (g.fld 2 31 16 < g.nonfinite))
  let s := s.modAgent a (fun x => { x with groupsJudged := satInc x.groupsJudged,
                                           failBits := g.failed.foldl (fun m t => m.mod 0 t satInc) x.failBits })
  if g.failed = [] then (s, g)
  else (s.modAgent a (fun x => { x with groupRing := x.groupRing.set 0 (x.groupRingHead.toNat % 256) (g.entry s.clk),
                                        groupRingHead := x.groupRingHead + 1 }), g)

/-- The messages at the last element of a judged group: poison consumed, and failed tests (R153, R479). They wait for no
presentation. -/
def State.groupReports (s : State) (a : Nat) (g : Group) : State :=
  let h := g.head
  let s := if g.poison then s.report a 0x04 2 (vhBase h) (vhJob h) else s
  if g.failed = [] then s
  else s.report a (if 0 ∈ g.failed then 0x06 else 0x05) (if g.mustPoison then 2 else 0) (vhBase h) (vhJob h)

/-- A group that ends with a poison, or has consumed one: the abort of its job follows, and it stays in the count of R172. -/
def Group.poisoned (g : Group) : Bool := g.poison || (g.gated && (g.settled || g.mustPoison))

/-- The verdict of a judged group, 8 tile cycles after its last element: the commit or the poison, and its summary (R150,
R158). -/
def State.groupVerdict (s : State) (a : Nat) (g : Group) : State :=
  let h := g.head
  let s := if g.gated ∧ !g.settled then s.groupRange a g (g.poison || g.mustPoison) else s
  if (s.agent a).summaries.length < 8 then
    let m : Summary := { job := vhJob h, step := g.step, vclass := vhClass h, stat := g.stat, failed := g.failed, running := g.runs 6,
                         poisoned := g.poisoned }
    s.modAgent a (fun x => { x with summaries := x.summaries ++ [m] })
  else
    let s := s.modAgent a (fun x => { x with runSkipped := satInc x.runSkipped })
    if g.poisoned then s else s.openDec a (vhJob h) g.step

/-- The key at which a judged group of an id waits for its verdict: behind those of the id that wait already. -/
def Agent.waitKey (x : Agent) (gid : Nat) : Nat :=
  x.groups.keys.foldl (fun m k => if k % 8 = gid % 8 then max m k else m) gid + 8

/-- The last element of a bound group: a judged one waits 8 tile cycles for its verdict, beside the group ids (keys 8
and up, in step with the id, the oldest lowest). One that has consumed poison presents it at once (R479). -/
def State.endGroup (s : State) (a gid : Nat) (g : Group) : State :=
  let s := s.modAgent a (fun x => { x with groups := x.groups.set none gid none })
  if g.judged then
    let (s, g) := s.settleTests a g
    let s := s.groupReports a g
    let now := g.gated && g.poison && !g.settled
    let s := if now then s.groupRange a g true else s
    s.modAgent a (fun x => { x with groups := x.groups.set none (x.waitKey gid) (some { g with settled := g.settled || now }) })
  else s.endUnjudged a g

/-- The groups that count among the 4 open ones of R149: the judged ones. A group that is not judged holds its id and counts
for nothing here. DESIGN CHOICE (log 108). -/
def Agent.openJudged (x : Agent) : Nat :=
  (x.groups.entries.filter (fun e => decide (e.1 < 8) && (e.2.map (·.judged)).getD false)).length

/-- A fence or a header under a fence: a gated group presents poison at once, KIND 0x12 at S2 (R162, R481). -/
def State.fenceGroup (s : State) (a : Nat) (g : Group) : State :=
  let h := g.head
  if g.gated then
    (s.presentCmt a { poison := true, job := vhJob h, base := vhBase h, count := vhCount h }).report a 0x12 2 (vhBase h) (vhJob h)
  else s

/-- VH_HEADER: a group header binds its group id (R148, R149, R423, R481). -/
def execVhHeader (agent : Nat) (gid : BitVec 3) (data : BitVec 110) (s : State) : Host.Outcome State Fault Refusal :=
  live s fun s =>
    if !(s.agentOn agent) || s.shut then s
    else
      let old := (s.agent agent).groups.get none gid.toNat
      let s := match old with
        | none => s
        | some g =>
          let s := s.endGroup agent gid.toNat (if g.judged then g.failTest 7 else g)
          s
      let r := s.vclass? (vhClass data)
      let fenced := (s.agent agent).fenceReq || (s.agent agent).fence
      let w1 := (r.map (·.word 1)).getD 0
      let judged := r.isSome && decide ((s.agent agent).openJudged < 4) && decide (vhFmt data ≤ 11) && !fenced
      let g : Group :=
        { head := data, judged := judged, gated := gatedWord w1, hasRecord := r.isSome, stepGated := bit w1 11,
          settled := fenced, step := (s.agent agent).steps.get none (vhJob data).toNat,
          failed := if old.isSome && judged then [7] else [], params := (r.map (·.words)).getD [] }
      let s := s.modAgent agent (fun x => { x with groups := x.groups.set none gid.toNat (some g),
                                                   groupsUnchecked := if judged then x.groupsUnchecked else satInc x.groupsUnchecked })
      if fenced then s.fenceGroup agent g else s.openInc agent (vhJob data) g.step

/-- VE_BEAT: an element beat of a vector group (R149, R151, R423, R479). -/
def execVeBeat (agent : Nat) (beat : VeBeat) (s : State) : Host.Outcome State Fault Refusal :=
  liveIf s (s.agentOn agent && ((s.agent agent).groups.get none beat.gid.toNat).isSome && decide (beat.count = 0 ∨ 32 < beat.count)) 423
    fun s =>
      if !(s.agentOn agent) then s
      else
        match (s.agent agent).groups.get none beat.gid.toNat with
        | none => s.modAgent agent (fun x => { x with tapStray := satInc x.tapStray })
        | some g =>
          let (g, n) := Group.takeElems beat beat.count 0 { g with poison := g.poison || beat.poison }
          if g.complete then
            if n < beat.count then
              (s.modAgent agent (fun x => { x with tapStray := satInc x.tapStray })).endGroup agent beat.gid.toNat
                (if g.judged then g.failTest 7 else g)
            else s.endGroup agent beat.gid.toNat g
          else s.modAgent agent (fun x => { x with groups := x.groups.set none beat.gid.toNat (some g) })

/-- VECTOR_GROUP_VERDICT: 8 tile cycles after a judged group's last element (R150). -/
def execVectorGroupVerdict (agent : Nat) (gid : BitVec 3) (s : State) : Host.Outcome State Fault Refusal :=
  live s fun s =>
    match (s.agent agent).groups.keys.find? (fun k => decide (8 ≤ k ∧ k % 8 = gid.toNat)) with
    | none => s
    | some k =>
      match (s.agent agent).groups.get none k with
      | none => s
      | some g => (s.modAgent agent (fun x => { x with groups := x.groups.set none k none })).groupVerdict agent g

/-! ### Running envelopes (R155 to R157) -/

/-- The integer square root rounded down, by bisection. -/
def isqrtGo (n : Nat) : Nat → Nat → Nat
  | 0, r => r
  | b + 1, r =>
    let c := r + 2 ^ b
    isqrtGo n b (if c * c ≤ n then c else r)

/-- isqrt of R155. -/
def isqrt (n : Nat) : Nat := isqrtGo n 64 0

/-- The half-width of the band. -/
def Envelope.half (c : Envelope) : Int := 16 * (c.k16 : Int) * (max (isqrt c.var.toNat) c.sigmaMin : Nat)

/-- judge of R155: the envelope with the summary in its sums, and whether it is an excursion. -/
def Envelope.judge (c : Envelope) (y : Int) : Envelope × Bool :=
  let h := c.half
  let x := decide (c.warm ≤ c.steps) && decide (h < ((y - c.mu).natAbs : Int))
  let yc := min (max y (c.mu - h)) (c.mu + h)
  ({ c with n := c.n + 1, sy := c.sy + yc, syy := c.syy + yc * yc, excursion := c.excursion || x }, x)

/-- step_update of R156, with the adaptation of K16_EFF (R157) inside its band; the sums are cleared. A band that SET_BAND has
moved takes effect at the next committed step, one without a summary too (R313). -/
def Envelope.update (c : Envelope) (band : Nat × Nat) : Envelope :=
  if c.n = 0 then { c with k16 := min (max c.k16 band.1) band.2 }
  else
    let n : Int := c.n
    let m := c.sy / n
    let s2 := (c.syy - 2 * c.mu * c.sy + n * c.mu * c.mu) / (n * 65536)
    let clean := if c.excursion then 0 else c.clean + 1
    let k := if c.excursion then c.k16 + 4 else if clean = 256 then max (c.k16 - 4) (min c.k16 c.k16Base) else c.k16
    { c with mu := c.mu + (m - c.mu) / 2 ^ c.alpha, var := c.var + (s2 - c.var) / 2 ^ c.alpha, steps := min (c.steps + 1) 255,
             k16 := min (max k band.1) band.2, clean := if clean = 256 then 0 else clean, n := 0, sy := 0, syy := 0, excursion := false }

/-- Clear the sums of the present step (R156). -/
def Envelope.clear (c : Envelope) : Envelope := { c with n := 0, sy := 0, syy := 0, excursion := false }

/-- The owner of a vector class, where RUNNING is enabled. -/
def State.ownerOf (s : State) (v : Nat) : Option Nat :=
  match s.vclass? v with
  | none => none
  | some r => if bit (r.word 1) 24 then some (r.fld 1 7 0) else none

/-- Numbers odd (R160). -/
def State.numbersOdd (s : State) (c : Nat) (job : Job) : State :=
  let j := (s.conc c).jobs.get {} job.toNat
  if (j.oddM.getD (s.conc c).oddFirst) ≤ j.excStep ∧ !j.oddSent then
    let s := s.modConc c (fun x => { x with jobs := x.jobs.mod {} job.toNat (fun y => { y with oddSent := true, oddEvents := satInc y.oddEvents }) })
    s.emit (.conc c) { source := srcId 1 c, kind := 0x05, sev := 2, addr := BitVec.ofNat 48 j.agentMask.toNat, job := job }
  else s

/-- SUMMARY_JUDGE: a concentrator judges the oldest summary of an agent (R155, R158 to R160). A class has one set of sums: with two
launched steps open the summaries of both enter it, and the opening of the earlier one's gate takes what is there. DESIGN
CHOICE (log 108). -/
def execSummaryJudge (cluster agent : Nat) (s : State) : Host.Outcome State Fault Refusal :=
  live s fun s =>
    if s.build.clusterOf agent ≠ cluster then s
    else
      match (s.agent agent).summaries with
      | [] => s
      | m :: r =>
        let s := s.modAgent agent (fun x => { x with summaries := r })
        let judged := match m.stat with
          | none => none
          | some y => if m.running ∧ s.ownerOf m.vclass = some m.job.toNat then
              some (Envelope.judge ((s.conc cluster).env.get {} m.vclass) y) else none
        let s := match judged with
          | none => s
          | some (c, _) => s.modConc cluster (fun x => { x with env := x.env.set {} m.vclass c })
        let exc := (judged.map (·.2)).getD false || decide (m.failed ≠ [])
        let s := if exc then
            let now := decide (m.step = (s.agent agent).steps.get none m.job.toNat)
            let b : BitVec 16 := 1#16 <<< (agent % s.build.clusterSize)
            let s := s.modConc cluster (fun x => { x with jobs := x.jobs.mod {} m.job.toNat (fun y =>
              { y with excTotal := satInc y.excTotal, excStep := if now then y.excStep + 1 else y.excStep,
                       agentMask := if now then y.agentMask ||| b else y.agentMask }) })
            s.numbersOdd cluster m.job
          else s
        if m.poisoned then s else s.openDec agent m.job m.step

end Sys2Proof.Machine
end

