-- ==== Sys2Proof/Machine/Verdict.lean ====
section
/-! DEFINITION. Hand-off, verdicts, the commit channel, fences, orders, gate openings, job aborts, epochs and SRAM scrubs at
the agents (R29 to R36, R55 to R58, R83 to R89, R101 to R105, R166 to R182, R224, R225, R424, R425). -/

namespace Sys2Proof.Machine

open Sys2Proof

/-! ### Hand-off and the residue engine (R83, R84, R89, R101, R177) -/

/-- A task that ended FAIL without a verdict gives its identity only (R177). With the store full and no record open for it,
its agent poisons its range, and the hub is to end it DENIED. -/
def State.handOffEnded (s : State) (a : Nat) (x : Ctx) : State :=
  let c := s.build.clusterOf a
  let k := x.account a s.now
  let s := s.modAgent a (fun g => { g with ctxs := g.ctxs.filter (fun y => decide (y.id ≠ x.id)) })
  if (s.conc c).accounts.length < 32 then s.modConc c (fun q => { q with accounts := q.accounts ++ [k] })
  else if s.taken k then s
  else
    let s := s.modConc c (fun q => { q with refused := q.refused ++ [k] })
    if x.aborted then s else s.poisonTask a x.desc

/-- An agent hands a context off. -/
def State.handOff (s : State) (a : Nat) (x : Ctx) : State :=
  if x.ended then s.handOffEnded a x
  else
    (s.modAgent a (·.setCtx { x with handed := true })).modConc (s.build.clusterOf a) (fun k =>
      { k with engine := k.engine ++ [{ agent := a, ctx := x }] })

/-- The contexts that an agent has to hand off, in the order in which they became AWAITING (R83). -/
def Agent.toHandOff (g : Agent) : List Ctx :=
  let put (x : Ctx) (l : List Ctx) : List Ctx :=
    l.takeWhile (fun y => decide (y.awaitNo ≤ x.awaitNo)) ++ x :: l.dropWhile (fun y => decide (y.awaitNo ≤ x.awaitNo))
  (g.ctxs.filter (fun x => decide (x.state = .awaiting) && !x.handed && !x.held && !x.waiting)).foldl (fun l x => put x l) []

/-- The agent to which the next slice of a cluster falls: round robin from the pointer on, past the agents that have nothing
to hand off (R83). -/
def State.sliceOf (s : State) (cluster : Nat) : Option Nat :=
  let p := (s.conc cluster).pointer
  bestBy (fun a => if p ≤ a then a else a + 4096)
    ((((s.clusterRec cluster).map (clusterAgents · 0)).getD []).filter (fun a => decide ((s.agent a).toHandOff ≠ [])))

/-- HANDOFF_SLICE: in its slice an agent hands off every AWAITING context that it has not handed off yet (R83). A slice that
the round robin gives to another agent does not come. -/
def execHandoffSlice (cluster agent : Nat) (s : State) : Host.Outcome State Fault Refusal :=
  live s fun s =>
    if s.sliceOf cluster = some agent then
      (s.each (s.agent agent).toHandOff (fun x s => s.handOff agent x)).modConc cluster (fun c => { c with pointer := agent + 1 })
    else s

/-- The residue of a scalar of the exact personality; the bounded one keeps it (R84, R102). -/
def Ctx.scalar (x : Ctx) (v : Int) : Int := if x.bounded then v else v % (p31 : Int)

/-- The account that the concentrator keeps of a verdict (R177). -/
def Ctx.verdictAccount (x : Ctx) (agent now : Nat) (r : Option Rec) (v : Verdict) : Account :=
  { x.account agent now with verdict := v, reason := if v = .inconclusive then x.lowest else 0, scalars := true,
                             s := x.scalar x.s, t := x.scalar x.t,
                             tau := if x.bounded then (r.map (fun c => x.tau c)).getD 0 else 0, audit := x.auditResult }

/-- The store is full at a verdict: a retake's run has no account, and another FAIL is to end DENIED (R177). -/
def State.storeFull (s : State) (c a : Nat) (k : Account) : State :=
  match k.retake with
  | some n => s.loseRun n a false
  | none => if k.verdict = .pass then s else s.modConc c (fun q => { q with refused := q.refused ++ [k] })

/-- The residue engine judges a context that was handed off, and keeps its account at every verdict, until the hub closes the
record; a run whose record has closed already leaves none (R177). The account of a task that commits goes with its verdict at the agent, since no
record is opened for it. -/
def State.engineVerdict (s : State) (c : Nat) (h : Handed) : State :=
  let x := h.ctx
  let r := s.classAt x.epoch (tdClass x.desc)
  let v := x.judge r
  let k := x.verdictAccount h.agent s.now r v
  let keep := match x.retake with
    | none => true
    | some n => decide (n ≠ closedRecord) && (s.retake n).used
  let full := keep && decide (32 ≤ (s.conc c).accounts.length)
  let s := if full then s.storeFull c h.agent k
    else if keep then s.modConc c (fun q => { q with accounts := q.accounts ++ [k] })
    else s
  s.modAgent h.agent (fun g => { g with verdicts := g.verdicts ++
    [{ ctx := x.id, verdict := v, reason := if v = .inconclusive then x.lowest else 0, storeFull := full && decide (v ≠ .pass) }] })

/-- VERDICT: the residue engine returns the verdict of the oldest context it holds, except in a fenced cluster (R83, R84,
R89, R102, R229); it waits while its agent's queue of verdicts is full (R445). -/
def execVerdict (cluster : Nat) (s : State) : Host.Outcome State Fault Refusal :=
  live s fun s =>
    match (s.conc cluster).engine with
    | [] => s
    | h :: r =>
      if s.concFenced cluster ∨ 8 ≤ (s.agent h.agent).verdicts.length then s
      else (s.modConc cluster (fun c => { c with engine := r })).engineVerdict cluster h

/-! ### The verdict at the agent (R29, R31, R82, R84, R103, R104, R136, R177, R182, R190, R238) -/

/-- An INCONCLUSIVE outcome is counted by reason and job (R103), and an exact fallback recorded (R60). -/
def State.countInconclusive (s : State) (a : Nat) (x : Ctx) (reason : Nat) : State :=
  let j := (tdJob x.desc).toNat
  let s := s.modAgent a (fun g => { g with incl := g.incl.mod 0 reason satInc })
  let s := s.modConc (s.build.clusterOf a) (fun c => { c with jobs := c.jobs.mod {} j (fun y =>
    { y with inconclusive := satInc y.inconclusive }) })
  let s := if x.bounded then s else s.report a 0x0A 0 (tdBase x.desc) (tdJob x.desc)
  if reason = 1 ∧ !x.operandNonfinite then s.report a 0x06 1 (tdBase x.desc) (tdJob x.desc) else s

/-- The counters of the class at a verdict (R82): a task that commits without a result counts INCONCLUSIVE. The 48-bit MAC
counts wrap, for R82 lets the 32-bit ones alone saturate. DESIGN CHOICE (log 107). -/
def State.countVerdict (s : State) (a : Nat) (x : Ctx) (lenient : Bool) : State :=
  let m := BitVec.ofNat 48 (tdMacs x.desc)
  s.modAgent a (·.modClass (tdClass x.desc) (fun c =>
    if lenient then { c with inconclusive := satInc c.inconclusive, macsAll := c.macsAll + m }
    else { c with checked := satInc c.checked, macsAll := c.macsAll + m, macsChecked := c.macsChecked + m }))

/-- The context commits; a full gate list keeps it (R173). The retake of a fill has nothing to commit (R70). -/
def State.commitCtx (s : State) (a : Nat) (x : Ctx) : State :=
  let gated := ((s.class? (tdClass x.desc)).map clsGated).getD false
  if x.fill then s.modAgent a (·.freeCtx x.id {})
  else
    let (s, held) := s.commitAction a gated x.step (tdJob x.desc) (tdBase x.desc) (tdCount x.desc)
    if held then s.modAgent a (·.setCtx { x with held := true, waiting := false, retake := none }) else s.modAgent a (·.freeCtx x.id {})

/-- A task that has consumed poison is poisoned at its verdict, and starts no retake (R136, R191). -/
def State.poisonedVerdict (s : State) (a : Nat) (x : Ctx) : State :=
  (((s.dropAccount a x).modAgent a (·.freeCtx x.id {})).poisonTask a x.desc).report a 0x04 2 (tdBase x.desc) (tdJob x.desc)

/-- A verdict on an original task. One that fails stays in the count of its step (R172). -/
def State.originalVerdict (s : State) (a : Nat) (x : Ctx) (v : VerdictMsg) : State :=
  let c := s.classAt x.epoch (tdClass x.desc)
  let inc := decide (v.verdict = .inconclusive)
  let strict := (c.map clsStrict).getD false || (s.agent a).paddock
  let lenient := inc && !strict
  let s := if inc then s.countInconclusive a x v.reason else s
  let s := s.countVerdict a x lenient
  if x.poison then s.poisonedVerdict a x
  else if decide (v.verdict = .pass) || lenient then
    ((s.dropAccount a x).openDec a (tdJob x.desc) x.step).commitCtx a x
  else
    let s := (s.modAgent a (·.freeCtx x.id {})).report a (mismatchKind x.bounded) 1 (tdBase x.desc) (tdJob x.desc)
    if v.storeFull || s.standins.isEmpty then s.poisonTask a x.desc else s

/-- A verdict on a retake enters only its account, and the context waits for the hub's order (R84, R182); a poisoned one
presents its poison (R191). -/
def State.retakeVerdict (s : State) (a n : Nat) (x : Ctx) : State :=
  if x.poison && x.crcGood then s.poisonedVerdict a x
  else if x.crcGood && s.runLive n a then s.modAgent a (·.setCtx { x with waiting := true })
  else s.modAgent a (·.freeCtx x.id {})

/-- VERDICT_AT_AGENT: the oldest verdict on its way reaches its agent (R84, R104). -/
def execVerdictAtAgent (agent : Nat) (s : State) : Host.Outcome State Fault Refusal :=
  live s fun s =>
    match (s.agent agent).verdicts with
    | [] => s
    | v :: r =>
      let s := s.modAgent agent (fun g => { g with verdicts := r })
      match (s.agent agent).ctx? v.ctx with
      | none => s
      | some x => match x.retake with
        | none => s.originalVerdict agent x v
        | some n => (s.retakeVerdict agent n x).startWaiting

/-! ### The commit channel (R424, R452) -/

/-- CMT_ACCEPT: the host accepts the presentation in the given cycle of CMT_VALID; the fifth and later ones are late. Of those
that wait behind it no commit is presented after an S4 or without a hub (R209, R292). -/
def execCmtAccept (agent cycles : Nat) (s : State) : Host.Outcome State Fault Refusal :=
  live s fun s =>
    match (s.agent agent).cmt with
    | [] => s
    | _ :: q =>
      let r := if s.withheld then q.filter (·.poison) else q
      let s := s.modAgent agent (fun g => { g with cmt := r, commitLate := if 4 < cycles then satInc g.commitLate else g.commitLate })
      match r with
      | [] => s
      | c :: _ => s.present (.cmt agent c)

/-! ### Fences at the agent (R31, R32, R162, R191, R228, R420, R425) -/

/-- A task without a context that waits for its last C element ends FAIL at a fence (R420, log 14). -/
def State.fenceTask (s : State) (a : Nat) (h : Nat) (u : Unchecked) : State :=
  if u.outcome = .fail ∨ tdFill u.desc then s
  else
    match u.retake with
    | some _ => s
    | none =>
      let x : Ctx := { id := (s.agent a).freeId, handle := BitVec.ofNat 5 h, desc := u.desc, step := u.step, epoch := u.epoch,
                       poison := u.poison, aborted := u.aborted, crcGood := u.crcGood, bounded := ((s.class? (tdClass u.desc)).map clsBounded).getD false }
      (s.modAgent a (fun g => { g with ctxs := g.ctxs ++ [x] })).failCtx a x 0x12 0

/-- Every task bound to a handle without a context. -/
def Agent.boundTasks (g : Agent) : List (Nat × Unchecked) :=
  g.bound.entries.flatMap (fun e => e.2.filterMap (fun b => match b with
    | .task u => some (e.1, u)
    | .ctx _ => none))

/-- Handles that stay bound until the fence ends stand for tasks that are over. -/
def Agent.endTasks (g : Agent) : Agent :=
  { g with bound := g.bound.map [] (fun l => l.map (fun b => match b with
      | .task u => .task { u with outcome := .fail }
      | .ctx id => .ctx id)) }

/-- A vector group at a fence (R162): an open one ends, one that has ended keeps its summary. A gated one is poisoned at once,
and no other presentation follows. -/
def State.fenceOpenGroup (s : State) (a key : Nat) (g : Group) : State :=
  if g.settled then s
  else
    let s := s.fenceGroup a g
    let s := if key < 8 ∧ !g.gated then s.openDec a (vhJob g.head) g.step else s
    let g' : Group := if key < 8 then { g with judged := false, settled := true } else { g with settled := true }
    s.modAgent a (fun x => { x with groups := x.groups.set none key (some g') })

/-- The open vector groups of an agent, with their keys. -/
def Agent.openGroups (g : Agent) : List (Nat × Group) :=
  g.groups.entries.filterMap (fun e => e.2.map (fun x => (e.1, x)))

/-- The run of a fenced agent counts and has no account; a record that was to settle on it is to be decided again (R191). -/
def Retake.loseAccount (r : Retake) (a : Nat) : Retake :=
  if r.phase = .poisoning then r
  else match r.runs with
    | [] => r
    | o :: l => { r with runs := o :: l.map (fun x => if x.agent = a then { x with lost := true, excused := true } else x),
                         phase := if r.phase = .settling then .decide else r.phase }

/-- A retake context at a fence ends without commit, and its run without an account (R31, R32, R191, R196). -/
def State.fenceRetake (s : State) (a n : Nat) (x : Ctx) : State :=
  (s.failCtx a x 0x12 0).modRetake n (fun r => r.loseAccount a)

/-- Every context open at a fence ends (R32). -/
def State.fenceContexts (s : State) (a : Nat) : State :=
  s.each ((s.agent a).ctxs.filter (fun x => !x.ended && !x.held)) (fun x s => match x.retake with
    | none => s.failCtx a x 0x12 0
    | some n => s.fenceRetake a n x)

/-- A RETAKE_REQ that is not acknowledged at the fence goes to another stand-in, and the run does not count (R191). -/
def State.fenceRequests (s : State) (a : Nat) : State :=
  let s := match (s.agent a).retakeBind with
    | none => s
    | some n => (s.modAgent a (fun g => { g with retakeBind := none })).loseRun n a true
  let mine := s.openRetakes (fun r => decide (r.phase = .requested) && (match r.runs.getLast? with
    | none => false
    | some x => decide (x.agent = a) && !x.acked))
  let s := s.scDrop a (fun o => decide (o.op = 1))
  s.each mine (fun n s => (s.modRetake n (fun r => { r with runs := r.runs.dropLast })).requestRun n)

/-- FENCE_ORDER: the fence of an agent takes effect (R31, R32, R425). -/
def execFenceOrder (agent : Nat) (s : State) : Host.Outcome State Fault Refusal :=
  live s fun s =>
    if s.agentOn agent && s.fenceOrdered agent && !(s.agent agent).fence then
      let rise := !(s.agent agent).fenceAck
      let s := s.modAgent agent (fun g => { g with fence := true, fenceReq := rise, fenceSince := if rise then s.now else g.fenceSince,
                                                   fenceLate := g.fenceLate && !rise })
      let s := if rise then s.present (.fenceReq agent true) else s
      let tasks := (s.agent agent).boundTasks
      let s := s.fenceContexts agent
      let s := s.each tasks (fun e s => s.fenceTask agent e.1 e.2)
      let s := s.modAgent agent (·.endTasks)
      let s := s.each (s.agent agent).openGroups (fun e s => s.fenceOpenGroup agent e.1 e.2)
      s.fenceRequests agent
    else s

/-- FENCE_ACK_RISE: the host has stopped presenting work (R425). -/
def execFenceAckRise (agent : Nat) (s : State) : Host.Outcome State Fault Refusal :=
  live s fun s =>
    if (s.agent agent).fenceReq then s.modAgent agent (fun g => { g with fenceAck := true, fenceLate := false }) else s

/-- The commits whose gate opened while the agent was fenced are presented at the end of its fence (R174, R196). DESIGN CHOICE
(log 86). -/
def State.lateGates (s : State) (a : Nat) : State :=
  let g := s.agent a
  let s := s.modAgent a (fun g => { g with gates := g.gates.filter (!·.opened), ctxs := g.ctxs.filter (fun x => !(x.held && x.opened)) })
  let s := s.each (g.gates.filter (·.opened)) (fun r s =>
    s.presentCmt a { job := r.job, base := BitVec.ofNat 48 r.base, count := BitVec.ofNat 16 r.count })
  s.each (g.ctxs.filter (fun x => x.held && x.opened)) (fun x s =>
    s.presentCmt a { job := tdJob x.desc, base := tdBase x.desc, count := tdCount x.desc })

/-- FENCE_END: no hub orders the fence any more; FENCE_REQ falls, and every handle and group id is unbound (R425). A
retake that waits for a stand-in may take the agent (R180). -/
def execFenceEnd (agent : Nat) (s : State) : Host.Outcome State Fault Refusal :=
  live s fun s =>
    if (s.agent agent).fence && !(s.fenceOrdered agent) then
      let req := (s.agent agent).fenceReq
      let s := s.modAgent agent (fun g => { g with fence := false, fenceReq := false, fenceSince := if req then s.now else g.fenceSince,
                                                   fenceLate := g.fenceLate && !req, bound := ⟨[]⟩,
                                                   groups := ⟨g.groups.entries.filter (fun e => decide (8 ≤ e.1))⟩ })
      let s := (s.lateGates agent).startWaiting
      if req then s.present (.fenceReq agent false) else s
    else s

/-- FENCE_ACK_FALL: the host may present work again; a fence ordered meanwhile raises FENCE_REQ now (R425). -/
def execFenceAckFall (agent : Nat) (s : State) : Host.Outcome State Fault Refusal :=
  live s fun s =>
    let g := s.agent agent
    if g.fenceAck && !g.fenceReq then
      let s := s.modAgent agent (fun x => { x with fenceAck := false, fenceReq := g.fence, fenceLate := false,
                                                   fenceSince := if g.fence then s.now else x.fenceSince })
      if g.fence then s.present (.fenceReq agent true) else s
    else s

/-- FENCE_TIMEOUT: a bound of the handshake is missed, once for each edge of FENCE_REQ: KIND 0x12 at S4 (R292, R425,
R452). -/
def execFenceTimeout (agent : Nat) (s : State) : Host.Outcome State Fault Refusal :=
  live s fun s =>
    let g := s.agent agent
    if g.fenceReq ≠ g.fenceAck ∧ !g.fenceLate then
      ((s.advanceTo (g.fenceSince + 2000)).modAgent agent (fun x => { x with fenceLate := true })).noteAll (srcId 0 agent) 0x12 4 0 0
    else s

/-! ### Orders from the hub (R166, R173, R182, R188) -/

/-- The context that waits for a record's order. -/
def Agent.waitingCtx (g : Agent) (n : Nat) : Option Ctx := g.ctxs.find? (fun x => decide (x.retake = some n) && x.waiting)

/-- The record's most recent run is the agent's. -/
def Retake.lastIs (r : Retake) (a : Nat) : Bool :=
  match r.runs.getLast? with
  | none => false
  | some x => decide (x.agent = a)

/-- SETTLE_ORDER: the agent that holds the record's waiting context commits; otherwise it ignores the order (R166). -/
def execSettleOrder (agent record : Nat) (s : State) : Host.Outcome State Fault Refusal :=
  live s fun s =>
    let r := s.retake record
    if r.used && decide (r.phase = .settling) && r.lastIs agent then
      let s := match (s.agent agent).waitingCtx record with
        | none => s
        | some x => s.commitCtx agent x
      (s.closeRetake record r.decision (r.blame r.decision)).startWaiting.endRetire
    else s

/-- The poison order of a record takes its effect at the agent of its most recent run: a poison over the range that the
order carries, whether or not the agent still holds a context of the task (R166). A context that still accumulates after the
abort of its job presents its own poison at its last C element as well (R174). A task denied for want of a record is logged
already (R176). -/
def State.poisonOrdered (s : State) (agent record : Nat) : State :=
  let r := s.retake record
  if r.used && decide (r.phase = .poisoning) && r.lastIs agent then
    let s := s.presentCmt agent { poison := true, job := r.job, base := r.base, count := r.count }
    let s := match (s.agent agent).waitingCtx record with
      | none => s
      | some x => s.modAgent agent (·.freeCtx x.id {})
    if 64 ≤ record then { s with retakes := s.retakes.set {} record {} }
    else (s.closeRetake record r.decision (r.blame r.decision)).startWaiting
  else s

/-- POISON_ORDER: the hub's poison order reaches the agent (R166, R188). -/
def execPoisonOrder (agent record : Nat) (s : State) : Host.Outcome State Fault Refusal :=
  live s fun s => (s.poisonOrdered agent record).endRetire

/-! ### GATE_OPEN (R156, R157, R174) -/

/-- Every agent built. -/
def State.allAgents (s : State) : List Nat := (List.range s.build.agents).filter s.agentOn

/-- A held context of a step. -/
def Ctx.heldFor (x : Ctx) (job : Job) (step : W64) : Bool := x.held && decide (tdJob x.desc = job ∧ x.step = some step)

/-- The commits of one agent at a gate opening. A fenced agent presents none (R196): it keeps them for the end of its fence. -/
def State.openGates (s : State) (a : Nat) (job : Job) (step : W64) : State :=
  let g := s.agent a
  let mine : GateRange → Bool := fun r => decide (r.job = job ∧ r.step = some step)
  if g.fence then
    s.modAgent a (fun g => { g with gates := g.gates.map (fun r => if mine r then { r with opened := true } else r),
                                    ctxs := g.ctxs.map (fun x => if x.heldFor job step then { x with opened := true } else x) })
  else
    let s := s.modAgent a (fun g => { g with gates := g.gates.filter (fun r => !(mine r)),
                                             ctxs := g.ctxs.filter (fun x => !(x.heldFor job step)) })
    let s := s.each (g.gates.filter mine) (fun r s =>
      s.presentCmt a { job := job, base := BitVec.ofNat 48 r.base, count := BitVec.ofNat 16 r.count })
    s.each (g.ctxs.filter (·.heldFor job step)) (fun x s =>
      s.presentCmt a { job := job, base := tdBase x.desc, count := tdCount x.desc })

/-- The vector classes that a job owns. -/
def State.ownedClasses (s : State) (job : Job) : List Nat :=
  ((recsOf 0x30 s.recs).map (·.fld 1 31 26)).filter (fun v => decide (s.ownerOf v = some job.toNat))

/-- The clusters of the accepted harness. -/
def State.clusters (s : State) : List Nat := (recsOf 0x01 s.recs).map (·.fld 1 7 0)

/-- The band of K16_EFF (R157, R310). -/
def State.k16Band (s : State) (v : Nat) (c : Envelope) : Nat × Nat := (s.bands.k16.get none v).getD (c.k16Base, 255)

/-- Change the envelopes of a job's classes at every concentrator. -/
def State.modEnvelopes (s : State) (job : Job) (f : Nat → Envelope → Envelope) : State :=
  s.each s.clusters (fun c s => s.each (s.ownedClasses job) (fun v s =>
    s.modConc c (fun k => { k with env := k.env.mod {} v (f v) })))

/-- GATE_OPEN: the agents commit the step's ranges, the concentrators update the envelopes (R156, R174). -/
def execGateOpen (job : Job) (step : W64) (s : State) : Host.Outcome State Fault Refusal :=
  live s fun s =>
    if step ∈ (s.job job.toNat).opened ∧ !(s.jobAborted job) ∧ !s.withheld then
      let s := s.modJob job.toNat (fun j => { j with opened := j.opened.filter (fun x => decide (x ≠ step)) })
      let s := s.each s.allAgents (fun a s => s.openGates a job step)
      (s.modEnvelopes job (fun v c => c.update (s.k16Band v c))).endRetire
    else s

/-! ### JOB_ABORT_ACTIONS (R156, R174) -/

/-- An AWAITING context of an aborted job presents a poison and is freed; one that waits on its record closes it
ABORTED (R174, R191). A task that has failed keeps its identity until its hand-off. -/
def State.abortAwaiting (s : State) (a : Nat) (x : Ctx) : State :=
  if x.ended then
    if x.aborted then s else (s.modAgent a (·.setCtx { x with aborted := true })).poisonTask a x.desc
  else
    let s := (s.dropHanded a x.id).dropAccount a x
    let s := s.modAgent a (·.endCtx x)
    if !x.crcGood then s
    else
      let s := s.abortPoison a x
      match x.retake with
      | none => s
      | some n => if s.runLive n a ∧ (s.retake n).phase = .poisoning ∧ (s.retake n).decision = 8 then
          (s.closeRetake n 8 (fun _ => 0)).startWaiting else s

/-- An open gated group of an aborted job presents a poison at once. -/
def State.abortGroup (s : State) (a key : Nat) (g : Group) : State :=
  if g.gated && !g.settled then
    let s := s.groupRange a g true
    s.modAgent a (fun x => { x with groups := x.groups.set none key (some { g with settled := true }) })
  else s

/-- What the abort of a job leaves at an agent: open work that is poisoned at its last element and belongs to no step of a
later launch of the job, and poisons in place of the commits that wait behind the one presented, which R424 holds unchanged
(R174). -/
def Agent.markAborted (g : Agent) (job : Job) : Agent :=
  { g with
    ctxs := g.ctxs.map (fun x => if tdJob x.desc = job then { x with aborted := true, step := none } else x),
    bound := g.bound.map [] (fun l => l.map (fun b => match b with
      | .ctx id => .ctx id
      | .task u => if tdJob u.desc = job then .task { u with aborted := true, step := none } else .task u)),
    groups := g.groups.map none (fun o => o.map (fun x => if vhJob x.head = job then { x with step := none, aborted := true } else x)),
    cmt := match g.cmt with
      | [] => []
      | c :: r => c :: r.map (fun x => if x.job = job then { x with poison := true } else x),
    summaries := g.summaries.map (fun m => if m.job = job then { m with step := none, poisoned := true } else m) }

/-- The abort actions of one agent. -/
def State.abortAgent (s : State) (a : Nat) (job : Job) : State :=
  let g := s.agent a
  let ranges := g.gates.filter (fun r => decide (r.job = job))
  let s := s.modAgent a (fun g => { g with gates := g.gates.filter (fun r => decide (r.job ≠ job)) })
  let s := s.each ranges (fun r s => s.presentCmt a { poison := true, job := job, base := BitVec.ofNat 48 r.base, count := BitVec.ofNat 16 r.count })
  let s := s.each (g.ctxs.filter (fun x => decide (x.state = .awaiting ∧ tdJob x.desc = job))) (fun x s => s.abortAwaiting a x)
  let s := s.each (g.openGroups.filter (fun e => decide (vhJob e.2.head = job))) (fun e s => s.abortGroup a e.1 e.2)
  s.modAgent a (·.markAborted job)

/-- The abort of a job at a concentrator: the ranges of its failed tasks that no record has taken are poisoned by their agents,
and nothing is left in its counts of outcomes (R172, R174). -/
def State.abortConc (s : State) (c : Nat) (job : Job) : State :=
  let mine (x : Account) : Bool := decide (x.job = job ∧ x.retake = none) && !x.aborted
  let l := (s.conc c).accounts.filter (fun x => mine x && !(s.taken x))
  let s := s.each l (fun x s => s.presentCmt x.agent { poison := true, job := job, base := x.base, count := x.count })
  s.modConc c (fun k => { k with accounts := k.accounts.map (fun x => if mine x then { x with aborted := true } else x),
                                 opens := k.opens.filter (fun o => decide (o.job ≠ job)) })

/-- A job's excursion counts are cleared at every concentrator (R159, R195); its numbers-odd message is sent once for a job
and step all the same (R160). -/
def State.clearExcursions (s : State) (job : Job) : State :=
  s.each s.clusters (fun c s => s.modConc c (fun x =>
    { x with jobs := x.jobs.mod {} job.toNat (fun y => { y with excStep := 0, agentMask := 0 }) }))

/-- JOB_ABORT_ACTIONS: the abort of a job reaches the agents and concentrators (R156, R174). -/
def execJobAbortActions (job : Job) (s : State) : Host.Outcome State Fault Refusal :=
  live s fun s =>
    if s.jobAborted job then
      let s := s.each s.allAgents (fun a s => s.abortAgent a job)
      let s := s.each s.clusters (fun c s => s.abortConc c job)
      ((s.modEnvelopes job (fun _ c => c.clear)).clearExcursions job).endRetire
    else s

/-! ### Epochs (R55 to R58, R105) -/

/-- Nothing of an epoch is open: no context, and no retake of a task (R57). -/
def State.epochClosed (s : State) (e : Nat) : Bool :=
  s.allAgents.all (fun a => (s.agent a).ctxs.all (fun x => decide (x.epoch ≠ e)))
    && (s.openRetakes (fun r => decide (r.epoch = e))).isEmpty

/-- EPOCH_ANNOUNCE: the hub announces the next epoch, at EPOCH_TASKS contexts of an agent or EPOCH_TIME (R56, R57). -/
def execEpochAnnounce (s : State) : Host.Outcome State Fault Refusal :=
  live s fun s =>
    if s.epoch.started ∧ !s.epoch.announced ∧ s.ld.st.working ∧ !s.shut ∧ (s.epoch.cur = 0 ∨ s.epochClosed (s.epoch.cur - 1)) then
      let busy := s.allAgents.any (fun a => decide (2 ^ s.epochTasksLog2 ≤ (s.agent a).allocated))
      let s := if busy then s else s.advanceTo (s.epoch.since + s.epochTime * 1000000000)
      let n := s.epoch.cur + 1
      let act := BitVec.ofNat 64 (s.clk + s.epochLead)
      let s := { s.modHubs (fun h => { h with irq := h.irq ||| 4#32 }) with
                 epoch := { s.epoch with announced := true, next := n, act := act } }
      s.each s.allAgents (fun a s => s.modAgent a (fun g => if g.zeroised then g else { g with announced := s.annKey }))
    else s

/-- EPOCH_ACTIVATION: every agent switches at the activation count; the hot check-class parameters bind (R56, R57,
R105). -/
def execEpochActivation (s : State) : Host.Outcome State Fault Refusal :=
  live s fun s =>
    if s.epoch.announced ∧ s.clkReaches s.epoch.act.toNat then
      let s := s.advanceClk s.epoch.act.toNat
      let e := s.epoch.next
      let s := { s with epoch := { s.epoch with cur := e, announced := false, since := s.now },
                        harness := { s.harness with epochClasses :=
                          s.harness.epochClasses.filter (fun (x : Nat × List Rec) => decide (e ≤ x.1 + 1 ∧ x.1 ≠ e)) ++ [(e, recsOf 0x22 s.recs)] } }
      s.each s.allAgents (fun a s => s.modAgent a (fun g =>
        if g.zeroised then { g with epoch := e, allocated := 0 }
        else { g with keys := s.curKeys, announced := none, epoch := e, allocated := 0 }))
    else s

/-! ### SCRUB_ACCESS (R77, R224, R225) -/

/-- Bits set in the low `n` bits of a number. -/
def ones : Nat → Nat → Nat
  | 0, _ => 0
  | n + 1, v => v % 2 + ones n (v / 2)

/-- The check columns of the data bits: 32 of the 35 columns of weight 3, so chosen that the rows are balanced (R224; log 99). -/
def dataColumns : List Nat := (List.range 128).filter (fun v => decide (ones 7 v = 3 ∧ v ∉ [0x07, 0x38, 0x49]))

/-- The check columns of the address fold bits: distinct, of even weight (R224; log 99). -/
def foldColumns : List Nat := ((List.range 128).filter (fun v => decide (ones 7 v = 2))).take 16

/-- The columns of the bits of a value that are set, added up. -/
def columnSum : List Nat → Nat → BitVec 7
  | [], _ => 0
  | c :: r, v => (if v % 2 = 1 then BitVec.ofNat 7 c else 0) ^^^ columnSum r (v / 2)

/-- The 16-bit fold of a word address: its 16-bit chunks added up (R224). -/
def addrFold (word : W32) : BitVec 16 := word.extractLsb' 0 16 ^^^ word.extractLsb' 16 16

/-- The check bits of a word of an SRAM at its word address (R224). -/
def checkBits (word data : W32) : BitVec 7 := columnSum dataColumns data.toNat ^^^ columnSum foldColumns (addrFold word).toNat

/-- The syndrome of a word as it is read: its check bits against those of its data and address. -/
def syndrome (word data : W32) (check : BitVec 7) : BitVec 7 := check ^^^ checkBits word data

/-- What a syndrome says: no error, one wrong data or check bit, or an error that cannot be corrected (R224). -/
def scrubResult (syn : BitVec 7) : ScrubResult :=
  if syn = 0 then .clean
  else if syn.toNat ∈ dataColumns ∨ ones 7 syn.toNat = 1 then .corrected
  else .uncorrectable

/-- The word as the code corrects it: the data bit turned whose column the syndrome is (R224). -/
def correctWord (data : W32) (syn : BitVec 7) : W32 :=
  match dataColumns.findIdx? (fun c => decide (c = syn.toNat)) with
  | none => data
  | some i => data ^^^ (1#32 <<< i)

/-- ADDRESS of KIND 0x10 and 0x11: macro in [47:40], word in [39:8], syndrome in [6:0] (R204). -/
def scrubAddr (m : Byte) (word : W32) (syn : BitVec 7) : Addr :=
  BitVec.ofNat 48 (m.toNat * 2 ^ 40 + word.toNat * 2 ^ 8 + syn.toNat)

/-- SCRUB_ACCESS: a word of an SRAM is read with its check bits; a single-bit error is corrected, and an uncorrectable word in
an agent's task data ends the contexts it touched (R77, R224, R225). -/
def execScrubAccess (unit : NetUnit) (macroNo : Byte) (word data : W32) (check : BitVec 7) (taskData : Bool)
    (contexts : List Nat) (s : State) : Host.Outcome State Fault Refusal :=
  live s fun s =>
    let src := unitSrc unit
    if !(s.sourceOn src) then s
    else
      let syn := syndrome word data check
      let m : Msg := { source := src, addr := scrubAddr macroNo word syn }
      match scrubResult syn with
      | .clean => s
      | .corrected => s.emit unit { m with kind := 0x10, sev := 1 }
      | .uncorrectable =>
        match unit, taskData with
        | .agent a, true => (s.emit unit { m with kind := 0x11, sev := 1 }).failContexts a (fun x => contexts.contains x.id)
        | _, _ => s.emit unit { m with kind := 0x11, sev := 3 }

end Sys2Proof.Machine
end

