-- ==== Sys2Proof/Machine/Steps.lean ====
section
/-! DEFINITION. Step clock, slates, launches, timing choices and the step gate (R36 to R38, R170 to R172, R354 to R368,
R436, R469 to R471). -/

namespace Sys2Proof.Machine

open Sys2Proof

/-! ### The step clock (R362) -/

/-- STEP_SYNC: the count, 0 before the first sync, is compared with the delivered time; it steps forward, or holds (R362). -/
def execStepSync (time : W64) (s : State) : Host.Outcome State Fault Refusal :=
  live s fun s =>
    if s.pastStage0 then
      let k := s.clock
      let c := k.count.toNat
      let t := time.toNat
      let diff := if c < t then t - c else c - t
      let k' : StepClock := { k with synced := true, lost := false, running := true, lastSync := s.now }
      let s := { s with clock :=
        if k.running then
          if c < t then { k' with count := time, frac := 0, hold := none }
          else if t < c then { k' with hold := some time, frac := 0 }
          else { k' with hold := none }
        else { k' with count := time, frac := 0 } }
      if decide (100 < diff) then
        s.eachHub (fun h s => s.note h (srcId 2 (hubIdx h)) 0x3C 1 (BitVec.ofNat 48 diff) 0)
      else s
    else s

/-- SYNC_LOST reads 1 until the next sync (R471). -/
def State.loseSync (s : State) : State := { s with clock := { s.clock with lost := true } }

/-- SYNC_MISSING: no sync for 10 ms; recorded once until the next sync (R362). -/
def execSyncMissing (s : State) : Host.Outcome State Fault Refusal :=
  live s fun s =>
    if s.pastStage0 && !s.clock.lost then
      let s := (s.advanceTo (s.clock.lastSync + 10000000)).loseSync
      s.eachHub (fun h s => s.note h (srcId 2 (hubIdx h)) 0x3C 1 0xFFFFFFFFFFFF#48 0)
    else s

/-! ### Refused writes (R171, R357, R465) -/

/-- A write that has no effect is counted in CMD_REFUSED_CNT. -/
def State.refuseWord (s : State) : State := { s with cmd := { s.cmd with refusedCnt := satInc s.cmd.refusedCnt } }

/-! ### Slates (R356, R357, R465) -/

/-- Words of a slate that the driver stages (R356). -/
def driverWord (i : Nat) : Bool := decide (i ∈ [0, 2, 3, 40] ∨ (4 ≤ i ∧ i ≤ 23))

/-- The slate that a BEGIN makes of the staged words (R356, R357). -/
def State.newSlate (s : State) (job : Nat) : SMap W32 :=
  (List.range 42).foldl (fun m i =>
    let w : W32 :=
      if driverWord i then s.sv.regs.slate.get 0 i
      else if i = 1 then BitVec.ofNat 32 job
      else if 24 ≤ i ∧ i ≤ 35 then s.harness.digest.getD (i - 24) 0
      else if i = 36 then s.keys.grade
      else if i = 37 then idRev
      else if i = 41 then at32 s.epochTasksLog2 27 ||| at32 s.epochTime 15
      else 0
    m.set 0 i w) ⟨[]⟩

/-- Forget the choice counts of a job that no gate has taken. -/
def State.clearChoices (s : State) (job : Job) : State :=
  s.each s.allAgents (fun a s => s.modAgent a (fun g => { g with choices := g.choices.filter (fun c => decide (c.job ≠ job)) }))

/-- SLATE_BEGIN: BEGIN for a job. From its abort at any hub, the follower's that the leader has not heard of among them, until
its FIFO entry has been read it has no effect (R195, R357, R465). -/
def execSlateBegin (data : W32) (s : State) : Host.Outcome State Fault Refusal :=
  live s fun s => s.portDo fun s =>
    let n := bits data 7 0
    let j := s.job n
    if s.ld.st.running ∧ j.pending = none ∧ j.opens = [] ∧ !j.abortHeld ∧ !(s.jobAborted (BitVec.ofNat 8 n)) then
      let s := s.mirrorWrite 0x30C0 data
      let m := s.newSlate n
      let s := (s.clearChoices (BitVec.ofNat 8 n)).dropHeld n
      s.modJob n (fun j => { j with active := true, slate := m, tcc := 0, tccLive := 0, launchedOnce := false,
                                    judgedPorts := [], digest := 0 })
    else s.refuseWord

/-! ### Slate mismatches (R360, R361) -/

/-- mismatch(j, p, reason) of R361, at every hub. -/
def State.slateMismatch (s : State) (n p reason : Nat) (step peerStep : W64) : State :=
  let s := s.modJob n (fun j => { j with mismatch := some { reason := reason, port := p, peerStep := peerStep } })
  s.eachHub (fun h s => s.note h (srcId 2 (hubIdx h)) 0x08 2 (BitVec.ofNat 48 step.toNat) (BitVec.ofNat 8 n))

/-- Verdict agree at a port for the open steps up to one. -/
def agreeUpTo (p : Nat) (step : W64) : List OpenStep → List OpenStep
  | [] => []
  | o :: r => { o with judged := o.judged.map (fun x => if x.1 = p then (p, true) else x) } ::
      (if o.step = step then r else agreeUpTo p step r)

/-- on_beacon of R360 for one job, on a port judged for it. -/
def State.onBeacon (s : State) (n p : Nat) (slate step : W64) : State :=
  let j := s.job n
  if slate = BitVec.allOnes 64 then s.slateMismatch n p 4 j.stepNo step
  else if slate = 0 then s
  else
    let o := j.opens.filter (fun x => x.judged.contains (p, false))
    match o with
    | [] => s
    | first :: _ =>
      match o.find? (fun x => decide (x.step = step)) with
      | some x =>
        if slate = x.digest then s.modJob n (fun j => { j with opens := agreeUpTo p step j.opens })
        else s.slateMismatch n p 1 x.step step
      | none =>
        if step.toNat < first.step.toNat then s
        else if decide (step = j.stepNo + 1) && (match j.pending with | none => false | some x => decide (x.1.toNat ≤ s.clk + 1000)) then
          s.modPort p (fun x => { x with held := x.held.filter (fun y => decide (y.1 ≠ n)) ++ [(n, step, slate)] })
        else s.slateMismatch n p 2 j.stepNo step

/-- A good v2 beacon's slate is judged for every job that judges the port (R360). -/
def State.judgeSlate (s : State) (p : Nat) (slate step : W64) : State :=
  let js := (s.jobs.entries.filter (fun e => e.2.active && e.2.launchedOnce &&
    (e.2.judgedPorts.contains p || e.2.opens.any (fun o => o.judged.any (fun x => decide (x.1 = p)))))).map (·.1)
  s.each js (fun n s => if (s.job n).active then s.onBeacon n p slate step else s)

/-- SLATE_WAIT_EXPIRY: a judged port holds no verdict for a step at SLATE_WAIT after its launch (R360). -/
def execSlateWaitExpiry (job : Job) (step : W64) (port : Nat) (s : State) : Host.Outcome State Fault Refusal :=
  live s fun s =>
    let n := job.toNat
    match (s.job n).opens.find? (fun o => decide (o.step = step) && o.judged.contains (port, false)) with
    | none => s
    | some o =>
      let c := o.launchedAt.toNat + s.slateWait
      if s.clkReaches c then (s.advanceClk c).slateMismatch n port 3 step 0 else s

/-! ### Launches (R159, R357 to R360, R364, R391, R436) -/

/-- The parameters of an envelope that a launch pulse of its owner binds (R157, R391). K16_EFF moves with the next committed
step (R313). -/
def State.bindEnvelope (s : State) (v : Nat) (c : Envelope) : Envelope :=
  match s.vclass? v with
  | none => c
  | some r => { c with k16Base := orDef (r.fld 4 31 24) 128, alpha := orDef (r.fld 4 23 20) 4, warm := orDef (r.fld 4 19 12) 4,
                       sigmaMin := orDef (r.fld 4 11 4) 16 }

/-- The concentrators and agents at a job's launch pulse: a new step, cleared counts, ODD_M in force (R159, R170, R391). -/
def State.pulseUnits (s : State) (job : Job) (step : W64) : State :=
  let n := job.toNat
  let s := s.each s.allAgents (fun a s => s.modAgent a (fun g => { g with steps := g.steps.set none n (some step) }))
  let s := s.each s.clusters (fun c s => s.modConc c (fun k => { k with jobs := k.jobs.mod {} n (fun y =>
    { y with excStep := 0, agentMask := 0, oddSent := false, oddM := some s.oddM }) }))
  s.modEnvelopes job (fun v c => s.bindEnvelope v c)

/-- Ports judged at a launch: admitted, in a named slice, with a v2 peer (R360). -/
def State.portsJudged (s : State) (mask : BitVec 16) : List Nat :=
  (s.ports.entries.filter (fun e => e.2.admitted && !e.2.v1 && mask.getLsbD e.2.slice)).map (·.1)

/-- A held beacon is judged at the launch it waited for (R360). -/
def State.judgeHeld (s : State) (n p : Nat) : State :=
  match (s.port p).held.find? (fun y => decide (y.1 = n)) with
  | none => s
  | some (_, step, slate) => if (s.job n).active then s.onBeacon n p slate step else s

/-- The launch pulse of a job. -/
def State.launchPulse (s : State) (n : Nat) (count : W64) (mask : BitVec 16) : State :=
  let j := s.job n
  let step := if j.launchedOnce then j.stepNo + 1 else j.stepNo
  let slate := (j.slate.set 0 2 (step.truncate 32)).set 0 3 ((step >>> 32).truncate 32)
  let d := slateDigest { j with slate := slate }.shared
  let ps := s.portsJudged mask
  let o : OpenStep := { step := step, launchedAt := count, digest := d, judged := ps.map (fun p => (p, false)) }
  let job : Job := BitVec.ofNat 8 n
  let s := s.modJob n (fun j => { j with slate := slate, pending := none, launchedOnce := true, launched := !j.thawed, abortRaised := false,
                                         opens := j.opens ++ [o], digest := d, mask := mask, judgedPorts := ps })
  let s := { s with slices := (List.range 16).foldl (fun m i => if mask.getLsbD i then m.set SliceHold.free i (.job n)
      else if m.get SliceHold.free i = SliceHold.job n then m.set SliceHold.free i .free else m) s.slices }
  let s := (s.pulseUnits job step).present (.launch job)
  let s := s.each (s.slicePorts mask) (fun p s => s.sendBeacon p)
  (s.each ps (fun p s => s.judgeHeld n p)).dropHeld n

/-- LAUNCH_COUNT_REACHED: the step clock reaches a job's launch count; jobs that share a count are pulsed in ascending job
id (R364, R436). -/
def execLaunchCountReached (job : Job) (s : State) : Host.Outcome State Fault Refusal :=
  live s fun s =>
    match (s.job job.toNat).pending with
    | none => s
    | some (c, m) =>
      let first := !(s.jobs.entries.any (fun e => decide (e.1 < job.toNat) && (match e.2.pending with
        | none => false
        | some x => decide (x.1 = c))))
      if first ∧ (s.job job.toNat).active ∧ s.clkReaches c.toNat ∧ !s.withheld then (s.advanceClk c.toNat).launchPulse job.toNat c m else s

/-! ### Timing choices (R354) -/

/-- Add choices to a count of an agent. -/
def addChoice (job : Job) (step : Option W64) : List ChoiceCount → List ChoiceCount
  | [] => [{ job := job, step := step, n := 1 }]
  | c :: r => if c.job = job ∧ c.step = step then { c with n := c.n + 1 } :: r else c :: addChoice job step r

/-- CHOICE_STROBE: one timing-dependent choice of a job at an agent (R354, R422). -/
def execChoiceStrobe (agent : Nat) (job : Job) (s : State) : Host.Outcome State Fault Refusal :=
  live s fun s =>
    if !(s.agentOn agent) then s
    else if (s.job job.toNat).active then
      let st := (s.agent agent).steps.get none job.toNat
      let s := s.modAgent agent (fun g => { g with choices := addChoice job (if (s.job job.toNat).launchedOnce then st else none) g.choices })
      s.modJob job.toNat (fun j => { j with tccLive := j.tccLive + 1 })
    else { s with tccOrphan := satInc s.tccOrphan }

/-! ### The step gate (R36 to R38, R171, R172, R469) -/

/-- The oldest open step that satisfies a test is changed. -/
def modFirst {α : Type} (f : α → Bool) (g : α → α) : List α → List α
  | [] => []
  | x :: r => if f x then g x :: r else x :: modFirst f g r

/-- STEP_END: the oldest matching launched step of the job is ended (R171, R465, R469). -/
def execStepEnd (data : W32) (s : State) : Host.Outcome State Fault Refusal :=
  live s fun s => s.portDo fun s =>
    let n := bits data 7 0
    let want : OpenStep → Bool := fun o => !o.ended && decide (bits o.step 15 0 = bits data 31 16)
    if s.ld.st.running && (s.job n).opens.any want then
      (s.mirrorWrite 0x400 data).modJob n (fun j => { j with opens := modFirst want (fun o => { o with ended := true }) j.opens })
    else s.refuseWord

/-- A concentrator's count of tasks and groups of a step without an outcome (R172). -/
def Conc.openCount (c : Conc) (job : Job) (step : W64) : Nat :=
  ((c.opens.find? (fun x => decide (x.job = job ∧ x.step = step))).map (·.n)).getD 0

/-- The choices of a step at the agents of a cluster. -/
def State.clusterChoices (s : State) (c : Nat) (job : Job) (step : W64) : Nat :=
  ((((s.clusterRec c).map (clusterAgents · 0)).getD []).map (fun a =>
    (((s.agent a).choices.find? (fun x => decide (x.job = job ∧ x.step = some step))).map (·.n)).getD 0)).foldl (· + ·) 0

/-- CONC_STEP_ANSWER: a concentrator whose count for an ended step is 0 answers, once, with its choices (R172, R354). -/
def execConcStepAnswer (cluster : Nat) (job : Job) (step : W64) (s : State) : Host.Outcome State Fault Refusal :=
  live s fun s =>
    let n := job.toNat
    let due : OpenStep → Bool := fun o => decide (o.step = step) && o.ended && !(o.answered.contains cluster)
    if (s.clusterRec cluster).isSome ∧ (s.job n).opens.any due ∧ (s.conc cluster).openCount job step = 0 then
      let k := s.clusterChoices cluster job step
      let s := s.each (((s.clusterRec cluster).map (clusterAgents · 0)).getD []) (fun a s => s.modAgent a (fun g =>
        { g with choices := g.choices.filter (fun x => !(decide (x.job = job ∧ x.step = some step))) }))
      s.modJob n (fun j => { j with opens := modFirst due (fun o =>
        { o with answered := o.answered ++ [cluster], choices := o.choices + k }) j.opens })
    else s

/-- The concentrators whose answers a gate needs: those of the harness that are not lame. -/
def State.answering (s : State) : List Nat := s.clusters.filter (fun c => !(s.ld.src (4096 + c)).lame)

/-- The two conditions of R36 for an open step: every task and group has its outcome, as the concentrators answer, and those of
a concentrator that is lame and answers nothing likewise. -/
def State.gateReady (s : State) (n : Nat) (o : OpenStep) : Bool :=
  o.ended && s.clusters.all (fun c => o.answered.contains c
      || (!(s.answering.contains c) && decide ((s.conc c).openCount (BitVec.ofNat 8 n) o.step = 0)))
    && (s.openRetakes (fun r => decide (r.job.toNat = n ∧ r.step = some o.step))).isEmpty
    && o.judged.all (·.2) && (s.job n).active && !(s.jobAborted (BitVec.ofNat 8 n)) && !s.withheld

/-! ### What a gate opening does (R174, R354, R355, R368, R375, R376) -/

/-- The blocks that a gate opening will commit in a stream's output ranges. -/
def State.gateBlocks (s : State) (stream n : Nat) (step : W64) : List Nat :=
  let rs : List (Nat × Nat) := s.allAgents.flatMap (fun a =>
    ((s.agent a).gates.filter (fun r => decide (r.job.toNat = n ∧ r.step = some step))).map (fun r => (r.base, r.count))
      ++ ((s.agent a).ctxs.filter (fun x => x.held && decide ((tdJob x.desc).toNat = n ∧ x.step = some step))).map (fun x =>
        ((tdBase x.desc).toNat, (tdCount x.desc).toNat)))
  (rs.flatMap (fun r => (List.range r.2).filterMap (fun i => s.nthBlock r.1 i))).filter (fun b => s.inOutputs stream b)

/-- The step element of a gate opening, for every stream bound to the job (R375, R376). -/
def State.stepElements (s : State) (n : Nat) (o : OpenStep) : State :=
  s.each s.streams.keys (fun k s =>
    let t := s.streams.get {} k
    if t.bound && decide (t.job.toNat = n) then
      let inp := ((s.stream? k).map (fun r => bit (r.word 1) 8)).getD false
      let e : SignElem := { step := o.step, nIn := if inp then o.logEntries.length else 0,
                            aIn := if inp then entrySum o.logEntries else 0, nOut := t.nOut, aOut := t.aOut, late := t.late,
                            waiting := s.gateBlocks k n o.step }
      (s.modStream k (fun t => { t with nOut := 0, aOut := 0, late := false }.settle (t.elems ++ [e]))).finishSign k
    else s)

/-- An entry in its JOB-free form (R368). -/
def jobFree (x : InlogEntry) : InlogEntry := { x with job := 0 }

/-- The words of an entry (R366). -/
def entryWords (x : InlogEntry) : List W32 :=
  [x.tag, x.step.truncate 32, at32 (x.step.toNat / 2 ^ 32) 16 ||| at32 x.job.toNat 8 ||| at32 (x.addr.toNat / 2 ^ 42) 0,
   BitVec.ofNat 32 (x.addr.toNat / 2 ^ 10)]

/-- The entry of a list with the lowest address. -/
def lowestEntry : List InlogEntry → Option InlogEntry
  | [] => none
  | x :: r => match lowestEntry r with
    | none => some x
    | some y => if y.addr.toNat < x.addr.toNat then some y else some x

/-- The first entry of one list whose address and tag the other lacks. -/
def lacking (l m : List InlogEntry) : List InlogEntry :=
  l.filter (fun x => !(m.any (fun y => decide (y.addr = x.addr ∧ y.tag = x.tag))))

/-- A replay ends with its divergence report (R368). -/
def State.diverge (s : State) (step : W64) (live rec_ : List InlogEntry) (byTcc : Bool) : State :=
  let small := decide (live.length ≤ 4096 ∧ rec_.length ≤ 4096)
  let a := if small then (lacking live rec_).head? else none
  let b := if small then lowestEntry (lacking rec_ live) else none
  { s.modHubs (fun h => { h with irq := h.irq ||| 0x80#32 }) with
    replay := { s.replay with active := false, diverged := true, liveAbsent := a.isNone, recAbsent := b.isNone, byTcc := byTcc,
                              step := step, liveCnt := BitVec.ofNat 32 live.length, recCnt := BitVec.ofNat 32 rec_.length,
                              liveEntry := (a.map entryWords).getD [], recEntry := (b.map entryWords).getD [] } }

/-- The replay of a job compares a step whose gate opens (R368). -/
def State.replayStep (s : State) (n : Nat) (o : OpenStep) (before after : W64) : State :=
  if s.replay.active && decide (s.replay.liveJob.toNat = n) then
    let r := s.replay.recorded.filter (fun x => decide (x.job = s.replay.recJob ∧ x.step = BitVec.ofNat 48 o.step.toNat))
    if o.logEntries.length ≠ r.length ∨ entrySum (o.logEntries.map jobFree) ≠ entrySum (r.map jobFree) then
      s.diverge o.step o.logEntries r false
    else if before = 0 ∧ after ≠ 0 then s.diverge o.step o.logEntries r true
    else s
  else s

/-- A step gate opens: TCC, slate, history, step elements, replay; GATE_OPEN goes to the concentrators (R174, R355). -/
def State.openGateAct (s : State) (n : Nat) (o : OpenStep) : State :=
  let j := s.job n
  let t := j.tcc + BitVec.ofNat 64 o.choices
  let s := s.modJob n (fun j => { j with opens := j.opens.filter (fun x => decide (x.step ≠ o.step)), opened := j.opened ++ [o.step],
                                         tcc := t, slate := (j.slate.set 0 38 (t.truncate 32)).set 0 39 ((t >>> 32).truncate 32),
                                         history := ((o.step, s.clock.count) :: j.history).take 4 })
  let s := { s with twin := { s.twin with refused := s.twin.refused.filter (fun x => decide (x.1 ≠ RelaxAction.openGate (BitVec.ofNat 8 n) o.step)) } }
  ((s.stepElements n o).replayStep n o j.tcc t).endQuiesce

/-- The follower's own state permits a gate opening (R277). -/
def permitsGate (job : Job) (f : Hub) : Bool := !f.s4 && !(f.aborted.contains job.toNat)

/-- GATE_DECISION: both conditions hold for the job's oldest open step. A lone hub opens the gate; a leader proposes it
(R36, R274, R277). -/
def execGateDecision (job : Job) (s : State) : Host.Outcome State Fault Refusal :=
  live s fun s =>
    match (s.job job.toNat).opens with
    | [] => s
    | o :: _ =>
      if s.gateReady job.toNat o then
        s.relax (.openGate job o.step) (fun s => s.openGateAct job.toNat o)
      else s

end Sys2Proof.Machine
end

