-- ==== Sys2Proof/Machine/Beacons.lean ====
section
/-! DEFINITION. The beacon ports: sending, receiving and judging beacons, admission and withdrawal (R337, R339 to R347,
R359, R437). -/

namespace Sys2Proof.Machine

open Sys2Proof

/-- A beacon's fields as they are judged (R339, R340). -/
structure Beacon where
  v1 : Bool
  chip : W64
  port : Nat
  width : Nat
  rev : W32
  harness : List Byte
  slate : W64
  step : W64
deriving DecidableEq, Repr

/-- `n` bytes of a frame from byte `i` on. -/
def frameBytes (f : List Byte) (i n : Nat) : List Byte := (f.drop i).take n

/-- The number in `n` bytes of a frame, big-endian. -/
def frameNat (f : List Byte) (i n : Nat) : Nat := natBE (frameBytes f i n)

/-- The beacon that a frame carries; none for a bad length, MAGIC, FORMAT or CRC (R342, R437). -/
def parseBeacon (f : List Byte) : Option Beacon :=
  let n := f.length
  let crcOk := decide ((crc32c (f.take (n - 4))).toNat = frameNat f (n - 4) 4)
  if frameNat f 0 2 ≠ 0x6C5A ∨ !crcOk then none
  else if n = 64 ∧ frameNat f 2 1 = 2 then
    some { v1 := false, chip := BitVec.ofNat 64 (frameNat f 4 8), port := frameNat f 12 2, width := frameNat f 37 1,
           rev := BitVec.ofNat 32 (frameNat f 16 4), harness := frameBytes f 20 16,
           slate := BitVec.ofNat 64 (frameNat f 40 8), step := BitVec.ofNat 64 (frameNat f 48 8) }
  else if n = 32 ∧ frameNat f 2 1 = 1 then
    some { v1 := true, chip := BitVec.ofNat 64 (frameNat f 4 8), port := frameNat f 12 2, width := frameNat f 14 1,
           rev := BitVec.ofNat 32 (frameNat f 16 4), harness := [], slate := 0, step := 0 }
  else none

/-- A frame without SLATE and STEP, and without the CRC over them (R337). -/
def steadyBytes (f : List Byte) : List Byte :=
  if f.length = 64 then f.take 40 ++ frameBytes f 56 4 else f.take (f.length - 4)

/-- The plan entry in which a beacon's sender is expected; the port's own entry comes first (R344). -/
def State.expectedEntry (s : State) (p : Nat) (b : Beacon) : Option Rec :=
  let hit : Rec → Bool := fun r => decide (r.hiLo 2 = b.chip.toNat ∧ r.fld 4 7 0 = b.port)
  match (s.port? p).filter hit with
  | some r => some r
  | none => s.rec? 0x71 hit

/-- The peer revision is acceptable (R344). -/
def State.revOk (s : State) (b : Beacon) : Bool :=
  decide (b.rev = idRev) || (recsOf 0x72 s.recs).any (fun r => decide (b.rev &&& r.word 2 = r.word 1 &&& r.word 2))

/-- The result of R344 for a beacon on a port whose link has `own` lanes, and the entry that applies. -/
def State.judgePort (s : State) (p own : Nat) (b : Beacon) : Nat × Option Rec :=
  match s.port? p with
  | none => (4, none)
  | some e =>
    match s.expectedEntry p b with
    | none => (5, some e)
    | some x =>
      let compat := bit (e.word 1) 20
      let sameHarness := b.v1 || decide (b.harness = s.harnessBytes 16)
      if !(s.revOk b) || (b.v1 && !compat) || (!sameHarness && !bit (x.word 1) 19) then (7, some e)
      else if min own b.width < orDef (x.fld 1 7 0) 1 then (6, some e)
      else if x.fld 1 31 24 = p then (1, some x)
      else if x.fld 1 23 21 = e.fld 1 23 21 then (2, some x)
      else (5, some e)

/-- The KIND of a result (R204, R344). -/
def resultKind : Nat → Byte
  | 2 => 0x35
  | 3 => 0x36
  | 4 => 0x37
  | 5 => 0x38
  | 6 => 0x39
  | _ => 0x3A

/-- Every hub records a result other than MATCH, with the port in ADDRESS (R344). -/
def State.recordPort (s : State) (p result entry : Nat) : State :=
  if result = 1 then s
  else
    let addr := p + (if result = 2 then entry * 2 ^ 16 else 0)
    s.eachHub (fun h s => s.note h (srcId 2 (hubIdx h)) (resultKind result) 1 (BitVec.ofNat 48 addr) 0)

/-- Admitting results: MATCH and SWAPPED. -/
def admits (result : Nat) : Bool := decide (result = 1 ∨ result = 2)

/-- A port takes a result: recorded when it is new, admitted or withdrawn (R344, R346). -/
def State.setResult (s : State) (p result : Nat) (e : Option Rec) (admitted : Bool) : State :=
  let old := (s.port p).result
  let ep := (e.map (·.fld 1 31 24)).getD p
  let s := s.modPort p (fun x => { x with result := result, admitted := admitted, entryPort := ep, offer := none,
                                          slice := (e.map (·.fld 1 18 15)).getD 0 })
  if result = old then s else s.recordPort p result ep

/-- A port is judged (R344); after READY an admission is the leader's, with the follower's consent (R346). -/
def State.resolvePort (s : State) (p : Nat) (b : Beacon) : State :=
  let own := (s.port p).bcWidth.toNat
  let (r, e) := s.judgePort p own b
  let s := s.modPort p (fun x => { x with v1 := b.v1, width := min own b.width })
  if s.ld.st.pastReady && admits r && !(s.port p).admitted then
    (s.modPort p (fun x => { x with offer := some (r, (e.map (·.fld 1 31 24)).getD p) })).relax (.admitPort p)
      (fun s => s.setResult p r e true)
  else s.setResult p r e (admits r)

/-- The leader admits a port by the result that it offered (R346). -/
def State.admitPort (s : State) (p : Nat) : State :=
  match (s.port p).offer with
  | none => s
  | some (r, ep) => s.setResult p r ((recsOf 0x71 s.recs).find? (fun x => decide (x.fld 1 31 24 = ep))) true

/-- The beacon ports are at work: stage 9, or READY and after. -/
def State.portsOn (s : State) : Bool :=
  decide (s.stage = some 9 ∧ s.ld.st = .bringup) || (s.ld.st.pastReady && !s.ld.s4)

/-- A good beacon arrives on a port (R337, R346, R360). -/
def State.goodBeacon (s : State) (p : Nat) (frame : List Byte) (b : Beacon) : State :=
  let x := s.port p
  let n := if x.lastBytes = steadyBytes frame ∧ x.seen ≠ 0 then x.seen + 1 else 1
  let s := s.modPort p (fun x => { x with seen := n, lastBytes := steadyBytes frame, peerChip := b.chip, peerPort := b.port,
                                          lastGood := s.now })
  let s := if s.ld.st.pastReady then
      (if 2 ≤ n ∨ x.admitted then s.resolvePort p b else s)
    else if 2 ≤ n ∧ x.result = 0 then s.resolvePort p b else s
  if s.ld.st.pastReady && !b.v1 then s.judgeSlate p b.slate b.step else s

/-- Every planned port has resolved (R337). -/
def State.portsResolved (s : State) : Bool := s.plannedPorts.all (fun p => decide ((s.port p).result ≠ 0))

/-- How stage 9 ends: ports admitted and not admitted; PORTS where some result is not MATCH (R322, R323). -/
def State.discoveryEnd (s : State) : StageEnd :=
  let judged := s.ports.entries.filter (fun e => decide (e.2.result ≠ 0))
  let good := (judged.filter (·.2.admitted)).length
  .pass (if judged.any (fun e => decide (e.2.result ≠ 1)) then 12 else 0) good (judged.length - good)

/-- Stage 9 ends when every planned port has resolved (R337). -/
def State.endDiscovery (s : State) : State :=
  if s.stage = some 9 ∧ s.portsResolved then s.endStage s.discoveryEnd else s

/-- At the end of DISC_WINDOW a planned port that has not resolved is MISSING (R337, R344). -/
def State.windowEnd (s : State) : State :=
  if s.stage = some 9 then
    let s := s.advanceTo (s.stageFrom + s.discWindow 2000)
    let s := s.each s.plannedPorts (fun p s => if (s.port p).result = 0 then s.setResult p 3 (s.port? p) false else s)
    s.endStage s.discoveryEnd
  else s

/-- DISC_WINDOW_END: the discovery window ends (R337). -/
def execDiscWindowEnd (s : State) : Host.Outcome State Fault Refusal := live s fun s => s.windowEnd

/-- STAGE_9_DISCOVERY: `us` after its start the stage ends if every planned port has resolved, or at its window (R337). -/
def execStage9Discovery (us : Nat) (s : State) : Host.Outcome State Fault Refusal :=
  live s fun s =>
    if s.stage ≠ some 9 then s
    else if s.discWindow 2000 ≤ us * 1000 ∧ !s.portsResolved then s.windowEnd
    else (s.advanceTo (s.stageFrom + min (us * 1000) (s.discWindow 2000))).endDiscovery

/-- BEACON_SEND: on its period a port presents a beacon: every 100 µs in stage 9, every 1 ms from READY on (R337, R342,
R359). `width` is BC_WIDTH. -/
def execBeaconSend (port : Nat) (width : Byte) (s : State) : Host.Outcome State Fault Refusal :=
  live s fun s =>
    if s.portsOn && decide (port < 256) then
      let s := s.modPort port (fun x => { x with bcWidth := width })
      (s.advanceTo ((s.port port).lastSent + if s.ld.st.pastReady then 1000000 else 100000)).sendBeacon port
    else s

/-- BEACON_TX_READY: the host accepts the beacon that a port presents (R437). -/
def execBeaconTxReady (port : Nat) (s : State) : Host.Outcome State Fault Refusal :=
  live s fun s =>
    match (s.port port).tx with
    | [] => s
    | _ :: r =>
      let s := s.modPort port (fun x => { x with tx := r })
      match r with
      | [] => s
      | b :: _ => s.present (.beacon port b)

/-- BEACON_RECEIVE: a beacon frame arrives on a port; one that is not good ends a run of consecutive good beacons (R337, R342,
R344, R346, R360). -/
def execBeaconReceive (port : Nat) (frame : List Byte) (width : Byte) (s : State) : Host.Outcome State Fault Refusal :=
  live s fun s =>
    if s.portsOn && decide (port < 256) then
      let s := s.modPort port (fun x => { x with bcWidth := width })
      match parseBeacon frame with
      | none => (s.modPort port (fun x => { x with seen := 0 })).eachHub (fun h s =>
          s.note h (srcId 2 (hubIdx h)) 0x3B 0 (BitVec.ofNat 48 port) 0)
      | some b => (s.goodBeacon port frame b).endDiscovery
    else s

/-- PORT_SILENCE: an admitted port receives no good beacon for 10 ms: it is withdrawn as MISSING (R346). -/
def execPortSilence (port : Nat) (s : State) : Host.Outcome State Fault Refusal :=
  live s fun s =>
    if s.ld.st.pastReady ∧ (s.port port).admitted ∧ !s.ld.s4 then
      let s := s.advanceTo ((s.port port).lastGood + 10000000)
      (s.modPort port (fun x => { x with seen := 0 })).setResult port 3 (s.port? port) false
    else s

end Sys2Proof.Machine
end

