-- ==== Sys2Proof/Machine/HarnessCheck.lean ====
section
/-! DEFINITION. The hubs' check of a harness and of a hot update: layout, ranges, topology, shapes and the whole-harness
checks (R379 to R396, R480). -/

namespace Sys2Proof.Machine

open Sys2Proof

/-- A refusal: its code, where it stands, and by how much a limit is exceeded (R394 to R396). -/
structure Refused where
  code : Nat
  sec : Nat := 0
  idx : Nat := 0
  ovr : Nat := 0
deriving DecidableEq, Repr

/-- What one hub's check of a buffer yields (R394). -/
structure HarnessResult where
  first : Option Refused := none
  good : Nat := 0
  bad : Nat := 0
  recs : List Rec := []
  digest : List W32 := []
  seq : W32 := 0
deriving DecidableEq, Repr

/-- What a check depends on besides the buffer. -/
structure HarnessEnv where
  build : Build
  grade : W32
  auth : List Byte
  len : Nat
  /-- records in force, their digest and HOT_SEQ, for a hot update -/
  hot : Option (List Rec × List W32 × Nat)

/-! ### Phase 1: the stream (R379 to R383) -/

/-- A section table entry (R381). -/
structure SecEntry where
  type : Nat
  records : Nat
  offset : Nat
  bytes : Nat
  rsvd : Bool
deriving DecidableEq, Repr

/-- The section table. -/
def secTable (ws : List W32) (n : Nat) : List SecEntry :=
  (List.range n).map (fun i =>
    let w (j : Nat) : W32 := ws.getD (32 + 4 * i + j) 0
    { type := bits (w 0) 31 24, records := bits (w 0) 15 0, offset := (w 1).toNat, bytes := (w 2).toNat,
      rsvd := decide (bits (w 0) 23 16 = 0 ∧ w 3 = 0) })

/-- Sections follow one another without a gap, in whole words; the end of the last (R381). -/
def secEnd : Nat → List SecEntry → Option Nat
  | o, [] => some o
  | o, e :: r => if e.offset = o ∧ e.bytes % 4 = 0 then secEnd (o + e.bytes) r else none

/-- A section type of R384. -/
def secKnown (t : Nat) : Bool := decide ((1 ≤ t ∧ t ≤ 0x0B) ∨ t = 0x0F)

/-- The record types of a section (R384). -/
def secTypes : Nat → List Nat
  | 0x01 => [0x01, 0x02, 0x03, 0x04]
  | 0x02 => [0x10, 0x11, 0x12]
  | 0x03 => [0x20, 0x21, 0x22]
  | 0x04 => [0x30, 0x31]
  | 0x05 => [0x40, 0x41, 0x42]
  | 0x06 => [0x50, 0x51, 0x52, 0x53, 0x54]
  | 0x07 => [0x60, 0x61, 0x62, 0x63, 0x64, 0x65, 0x66]
  | 0x08 => [0x70, 0x71, 0x72, 0x73]
  | 0x09 => [0x80, 0x81]
  | 0x0A => [0x90]
  | 0x0B => [0xA0]
  | _ => []

/-- Code 1 (R380, R381). -/
def formatOk (kind len : Nat) (ws : List W32) : Bool :=
  let w (i : Nat) : W32 := ws.getD i 0
  let n := bits (w 4) 5 0
  let total := (w 1).toNat
  let t := secTable ws n
  decide (bits (w 0) 31 16 = 0xA4E5 ∧ bits (w 0) 15 8 = 1 ∧ bits (w 0) 7 0 = kind)
    && decide (total % 4 = 0 ∧ 464 ≤ total ∧ total ≤ 12582912 ∧ total ≤ len)
    && decide (bits (w 3) 31 8 = 2 ^ 24 - 1 ∧ bits (w 4) 31 6 = 0 ∧ 1 ≤ n ∧ n ≤ 32)
    && (List.range 10).all (fun i => decide (w (22 + i) = 0))
    && (decide (kind = 1) || (List.range 4).all (fun i => decide (w (6 + i) = 0)))
    && t.all (fun e => e.rsvd && secKnown e.type && (decide (e.type ≠ 0x0F) || decide (e.records = 0)))
    && decide ((t.map (·.type)).Nodup)
    && decide (secEnd (128 + 16 * n) t = some (total - 192))

/-- The bytes of a word in memory order. -/
def bytesLE32 (w : W32) : List Byte := (bytesBE 4 w.toNat).reverse

/-- The bytes of digest or key words, byte 0 in bits [31:24] (R379). -/
def keyBytes (l : List W32) : List Byte := l.flatMap (fun w => bytesBE 4 w.toNat)

/-- The computed DIGEST (R383). -/
def harnessDigest (ws : List W32) : List Byte :=
  let body := ws.take (ws.length - 48)
  sha384 ((body.take 10 ++ List.replicate 12 0 ++ body.drop 22).flatMap bytesLE32)

/-- Phase 1 (R394): the first failing code of 1 to 5. -/
def streamCode (kind : Nat) (e : HarnessEnv) (ws : List W32) : Option Nat :=
  let w (i : Nat) : W32 := ws.getD i 0
  if formatOk kind e.len ws then
    let ws := ws.take ((w 1).toNat / 4) ++ List.replicate ((w 1).toNat / 4 - ws.length) 0
    let dig := (ws.drop 10).take 12
    let tr := ws.drop (ws.length - 48)
    let qx := tr.take 12
    let qy := (tr.drop 12).take 12
    if idRev &&& w 3 ≠ w 2 &&& w 3 then some 2
    else if harnessDigest ws ≠ keyBytes dig then some 3
    else if sha384 (0x04#8 :: keyBytes (qx ++ qy)) ≠ e.auth then some 4
    else if ecdsaVerify (natBE (keyBytes qx), natBE (keyBytes qy)) (natBE (keyBytes dig))
        (natBE (keyBytes ((tr.drop 24).take 12))) (natBE (keyBytes (tr.drop 36))) then none
    else some 5
  else some 1

/-! ### Records -/

/-- Cut a section into records; a record of no words, or one that overruns, ends it (R382). -/
def cutRecs (sec : Nat) : Nat → Nat → List W32 → List Rec
  | 0, _, _ => []
  | _ + 1, _, [] => []
  | n + 1, i, h :: t =>
    let len := bits h 15 0
    let r : Rec := { type := bits h 31 24, words := (h :: t).take (max 1 len), sec := sec, idx := i }
    if len = 0 ∨ t.length + 1 < len then [{ r with words := h :: t }]
    else r :: cutRecs sec n (i + 1) ((h :: t).drop len)

/-- The records of a section; a count that RECORDS does not state shows as a record too many or too few (log 20). -/
def secRecs (ws : List W32) (i : Nat) (e : SecEntry) : List Rec :=
  if e.type = 0x0F then []
  else
    let l := cutRecs i (e.bytes / 4) 0 ((ws.drop (e.offset / 4)).take (e.bytes / 4))
    l ++ (List.range (e.records - l.length)).map (fun j => { type := 0, words := [], sec := i, idx := l.length + j })

/-- The words a record of a type has, besides its header word; the bits that its layout names (R385 to R389). -/
def recMasks (r : Rec) : Option (List Nat) :=
  let f := 0xFFFFFFFF
  let h := 0xFFFF
  match r.type with
  | 0x01 => some [0xFFFFF0FF, f]
  | 0x02 => some [0x1F07]
  | 0x03 => some [0x1FFF]
  | 0x04 => some [0x1FFF]
  | 0x10 => some [0xFFFF0007, f, h, f, h]
  | 0x11 => some [0xFFFF8000, f, h, f, f, h]
  | 0x12 => some [0xFF, f, h, f, h]
  | 0x20 => some [f, h]
  | 0x21 => some [0xFFFF83FF]
  | 0x22 =>
    let c := [0xFF8FFFFF, 0xFFFF1FFF, 0x1FFF07FF, 0xFFFFFF, 0xFFFE01FF]
    some (if bit (r.word 1) 25 then c ++ [0xFFFFFF00, 0xFFFFFF00, 0x1FF] else c)
  | 0x30 => some [0xFFFFFCFF, 0xFFFFFF00, f, 0xFFFFFFF0, f, f]
  | 0x31 => some [0x1FF]
  | 0x40 => some [0xFFFE0FFF, 0x3FFFFF]
  | 0x41 => some [0xFFFFFF80]
  | 0x42 => some [0x03FF000F, f, f]
  | 0x50 => some [0xF001FFFF]
  | 0x51 => some [0xFF000FFF, f, f, f, f, f, h]
  | 0x52 => some [0x3FF, f, f]
  | 0x53 => some (List.replicate 13 f ++ [h, f])
  | 0x54 => some [0x03FF007F, f, f]
  | 0x60 => some [0xFFFFF000, f]
  | 0x61 => some [f, 0xFF0001FF]
  | 0x62 => some [f, f]
  | 0x63 => some [h]
  | 0x64 => some [0xFF, f, f, f, f, f, f, f]
  | 0x65 => some [0xFFFFFF, 0xFFFFFF, 0xFFFFFF, 0xFFFFFF]
  | 0x66 => some [f]
  | 0x70 => some (List.replicate (max 1 (r.words.length - 1)) f)
  | 0x71 => some [0xFFFF80FF, f, f, 0xFF]
  | 0x72 => some [f, f]
  | 0x73 => some [0x00FF0FFF, f]
  | 0x80 => some [0x1F, f, h]
  | 0x81 => some (0x7F3F :: (List.replicate (r.fld 1 11 9 + r.fld 1 14 12) [f, h, f, h]).flatten)
  | 0x90 => some [0x00FFFF7F, f, h]
  | 0xA0 => some [f, f, f]
  | _ => none

/-- The type of a section by its table index. -/
def secType (t : List SecEntry) (i : Nat) : Nat := ((t.drop i).head?.map (·.type)).getD 0

/-- Code 6 does not hold (R395). -/
def recordOk (t : List SecEntry) (r : Rec) : Bool :=
  match recMasks r with
  | none => false
  | some m => decide (r.type ∈ secTypes (secType t r.sec)) && decide (r.fld 0 23 16 = 1 ∧ r.fld 0 15 0 = m.length + 1
      ∧ r.words.length = m.length + 1)
      && (match (t.drop r.sec).head? with
        | none => false
        | some e => decide (r.idx < e.records))

/-- Every bit that the layout leaves unnamed is 0 (R382). -/
def rsvdOk (r : Rec) : Bool :=
  match recMasks r with
  | none => false
  | some m => (m.zip (r.words.drop 1)).all (fun x => decide (x.2.toNat &&& x.1 = x.2.toNat))

/-- A field whose range excludes 0: 0 selects the default, which lies in the range. -/
def inR (x lo hi : Nat) : Bool := decide (x = 0 ∨ (lo ≤ x ∧ x ≤ hi))

/-- I3C reserves these addresses for broadcasts and its neighbours at one bit (PRESUMED, MIPI I3C; log 22). -/
def i3cReserved : List Nat := [1, 2, 3, 4, 5, 6, 7, 0x3E, 0x5E, 0x6E, 0x76, 0x7A, 0x7C, 0x7E, 0x7F]

/-- Fields within their rules' ranges (R385 to R389 and the rules that they name). -/
def fieldsOk (b : Build) (r : Rec) : Bool :=
  let g := r.fld
  let w (i : Nat) : Nat := (r.word i).toNat
  match r.type with
  | 0x01 => decide (1 ≤ g 1 19 15 ∧ g 1 19 15 ≤ 16)
  | 0x02 => inR (g 1 12 8) 1 16
  | 0x03 => inR (g 1 12 0) 1 b.agents
  | 0x10 => decide (g 1 25 24 ≠ 0 ∧ (g 1 25 24 ≠ 1 → r.addr 2 = 0 ∧ r.addr 4 = 0))
  | 0x11 => inR (g 1 23 19) 10 16 && decide (1 ≤ w 4 ∧ r.addr 2 % 2 ^ orDef (g 1 23 19) 12 = 0 ∧ r.addr 5 % 64 = 0)
  | 0x12 => decide (r.addr 2 % 1024 = 0 ∧ r.addr 4 % 1024 = 0 ∧ r.addr 2 < r.addr 4)
  | 0x21 => inR (g 1 31 27) 10 30 && inR (g 1 26 15) 1 3600 && inR (g 1 9 0) 1 1000
  | 0x22 => inR (g 1 19 16) 3 15 && decide (g 1 2 1 ≤ 2)
      && (!(bit (r.word 1) 25) || decide ((signedNat 9 (g 5 8 0)).natAbs ≤ 200 ∧ (signedNat 9 (g 8 8 0)).natAbs ≤ 200
        ∧ g 6 15 8 ≤ 80 ∧ g 7 15 8 ≤ 80))
  | 0x30 => bit (r.word 1) 25 && decide (-126 ≤ signedNat 8 (g 2 15 8)) && inR (g 3 31 27) 1 30 && inR (g 3 26 22) 1 30
      && inR (g 3 21 17) 1 30 && decide (g 3 16 0 ≤ 65536) && (!(bit (r.word 1) 23) || decide (1 ≤ g 3 16 0))
      && inR (g 4 31 24) 16 255 && inR (g 4 23 20) 1 8
  | 0x40 => decide (g 1 31 29 ≤ 6) && inR (g 1 11 0) 1 3600 && inR (g 2 21 0) 1 3600000
  | 0x41 => decide (64 ≤ g 1 31 20 ∧ g 1 31 20 ≤ 3263 ∧ g 1 9 7 ≤ 3)
  | 0x42 => inR (g 1 25 16) 1 1000 && inR (g 1 3 0) 1 10 && inR (w 2) 10 100000 && inR (w 3) 1 10000
  | 0x50 => inR (g 1 16 0) 10 86400
  | 0x51 => inR (g 1 31 24) 1 64 && inR (g 1 11 0) 1 3600 && inR (w 2) 10 100000 && inR (w 3) 10 100000
      && inR (w 4) 10 10000 && decide (w 5 ≤ 65536)
  | 0x52 => inR (g 1 9 0) 1 512
  | 0x54 => inR (g 1 25 16) 1 512 && inR (g 1 6 0) 1 100
  | 0x60 => decide (1 ≤ g 1 22 19 ∧ g 1 22 19 ≤ 5 ∧ g 1 14 12 ≠ 7 ∧ (g 1 22 19 ≠ 4 → g 1 14 12 = 0)
      ∧ (g 1 22 19 ∉ [2, 4] → w 2 = 0))
  | 0x61 =>
    let warn := orDef (g 1 31 24) 95
    let crit := orDef (g 1 23 16) 105
    decide (40 ≤ warn ∧ warn ≤ 125 ∧ warn + 1 ≤ crit ∧ crit ≤ 135) && inR (g 1 15 11) 1 20 && decide (g 1 10 6 ≤ 20)
      && inR (g 2 31 24) 4 80 && inR (g 2 8 0) 1 500
  | 0x62 =>
    let hi := orDef (g 1 31 16) 63000
    let lo := orDef (g 1 15 0) 42000
    let col := orDef (g 2 15 0) 38000
    decide (40000 ≤ lo ∧ lo ≤ hi ∧ hi ≤ 64000 ∧ 30000 ≤ col ∧ col ≤ lo) && inR (g 2 31 16) 1 200
  | 0x63 => inR (g 1 15 0) 32768 65535
  | 0x65 =>
    let c (i : Nat) : Nat := if i % 2 = 0 then g (1 + i / 2) 23 12 else g (1 + i / 2) 11 0
    (List.range 8).all (fun i => decide (800 ≤ c i)) && (List.range 7).all (fun i => decide (c (i + 1) ≤ c i))
  | 0x71 => decide (1 ≤ g 1 23 21 ∧ g 1 23 21 ≤ 4 ∧ 1 ≤ g 1 7 0)
      && (!(bit (r.word 1) 20) || decide (g 1 23 21 ∈ [2, 3]))
  | 0x73 => inR (g 1 11 0) 100 2400 && inR (w 2) 100 100000
  | 0x80 => inR (g 1 4 0) 10 20 && decide (r.addr 2 % 64 = 0)
  | 0x90 => decide (r.addr 2 ≠ 0 ∧ g 1 6 0 ∉ i3cReserved ∧ ¬(1 ≤ g 1 15 8 ∧ g 1 15 8 ≤ 7) ∧ g 1 15 8 ≠ 0xFF
      ∧ g 1 23 16 ≠ 0xFF)
  | _ => true

/-- The key of a record (R480); none for the types of which several equal records are allowed. -/
def recKey (r : Rec) : Option (Nat × Nat) :=
  let g := r.fld
  match r.type with
  | 0x01 => some (0x01, g 1 7 0)
  | 0x02 => some (0x02, g 1 2 0)
  | 0x04 => some (0x04, g 1 12 0)
  | 0x10 => some (0x10, g 1 31 26)
  | 0x11 => some (0x11, g 1 31 24)
  | 0x12 => none
  | 0x22 => some (0x22, g 1 31 26)
  | 0x30 => some (0x30, g 1 31 26)
  | 0x40 => some (0x40, g 1 31 29)
  | 0x41 => some (0x41, g 1 19 10)
  | 0x60 => some (0x60, g 1 31 23)
  | 0x61 => some (0x61, g 1 2 0)
  | 0x64 => some (0x64, g 1 7 0)
  | 0x71 => some (0x71, g 1 31 24)
  | 0x72 => none
  | 0x81 => some (0x81, g 1 5 0)
  | 0xA0 => some (0xA0, g 1 31 8)
  | t => some (t, 0)

/-- Agents wired to a cluster (R21). -/
def Build.wired (b : Build) (c : Nat) : Nat := min b.clusterSize (b.agents - c * b.clusterSize)

/-- Code 8 does not hold (R395); `before` are the records that stand before this one, `all` the whole harness. -/
def topologyOk (b : Build) (all before : List Rec) (r : Rec) : Bool :=
  let g := r.fld
  let own := match r.type with
    | 0x01 =>
      let c := g 1 7 0
      decide (c < b.clusters ∧ g 1 14 12 < b.dies ∧ g 1 19 15 ≤ b.clusterSize ∧ g 1 19 15 ≤ Build.wired b c
          ∧ g 1 31 20 + g 1 19 15 ≤ b.agents ∧ g 1 31 20 = c * b.clusterSize ∧ g 1 14 12 = b.dieOfCluster c
          ∧ g 2 31 16 &&& g 2 15 0 = g 2 31 16)
    | 0x02 => decide (g 1 2 0 < b.dies)
    | 0x10 => decide (g 1 31 26 < b.tagEngines ∧ g 1 2 0 < b.dies ∧ g 1 23 16 < b.clusters
        ∧ b.dieOfCluster (g 1 23 16) = g 1 2 0)
    | 0x41 =>
      match findRec 0x10 (fun x => decide (x.fld 1 31 26 = g 1 19 14)) all with
      | none => false
      | some x => decide (x.fld 1 25 24 ≠ 2)
    | 0x60 => decide (g 1 31 23 < b.hkChannels ∧ g 1 18 16 < b.dies)
    | 0x61 => decide (g 1 2 0 < b.dies)
    | _ => true
  own && (match recKey r with
    | none => true
    | some k => before.all (fun x => decide (recKey x ≠ some k)))

/-- Code 9: the amount by which a CHECK_CLASS breaks a limit; none where it breaks none (R395). -/
def shapeOver (r : Rec) : Option Nat :=
  if r.type ≠ 0x22 then none
  else
    let g := r.fld
    let bounded := bit (r.word 1) 25
    let order := g 1 2 1
    let wpc := bit (r.word 1) 0
    let fill := decide (order = 2)
    let m := g 2 12 0
    let n := g 3 28 16
    let q := g 3 10 0
    let k := g 4 23 0
    let bc := max 1 (g 5 31 20)
    let strided := decide (1 < g 5 31 20)
    let accum := g 5 19 17
    let fmts := decide (g 1 11 8 ≤ 10 ∨ (g 1 11 8 = 13 ∧ wpc)) && (fill || (decide (g 1 15 12 ≤ 10)
      && (if bounded then decide (g 1 7 4 ∈ [8, 9, 10]) else decide (g 1 7 4 ∈ [11, 12]) && bit (r.word 1) 3)))
    let m' := if fill then 0 else m
    let foot := if bounded then (m' + 1) / 2 + (n + 1) / 2 + 2 * min m' n + (if strided then (m' + 1) / 2 else 0)
      else (if strided then n + 2 * m' else m' + n) + min m' n + (if order = 1 ∨ (order = 0 ∧ wpc) then m' else 0)
    let qmax := if bounded ∧ q < k then 512 else 1024
    let slots := if fill ∨ order = 1 ∨ wpc ∨ k ≤ q then 1 else (16 * q + 8191) / 8192
    if !fmts then some 0
    else if 4096 < foot then some (foot - 4096)
    else if order = 0 ∧ q = 0 then some 0
    else if order = 0 ∧ qmax < q then some (q - qmax)
    else if order = 1 ∧ 1024 < k then some (k - 1024)
    else if order = 1 ∧ q ≠ k then some (q - k)
    else if strided ∧ 4095 * 4096 < bc * m then some (bc * m - 4095 * 4096)
    else if bounded ∧ strided ∧ 2 ^ 31 < bc * m * n then some (bc * m * n - 2 ^ 31)
    else if bounded ∧ 1 < accum then some (accum - 1)
    else if !bounded ∧ 4 < accum * slots then some (accum * slots - 4)
    else none

/-! ### Hot fields (R391, R392) -/

/-- The hot bits of a record's words, from word 1 on. -/
def hotMasks (t : Nat) : Option (List Nat) :=
  match t with
  | 0x22 => some [0x010F0000, 0, 0, 0, 0x1FF, 0xFFFFFF00, 0xFFFFFF00, 0x1FF]
  | 0x30 => some [0, 0xFFFFFF00, 0xFFFFFFFF, 0xFFFFFFF0, 0, 0]
  | 0x31 => some [0xFF]
  | 0x40 => some [0x1FFE0FFF, 0x3FFFFF]
  | 0x50 => some [0xF001FFFF]
  | 0x60 => some [0, 0xFFFFFFFF]
  | 0x61 => some [0xFFFFFFF8, 0xFF0001FF]
  | 0x62 => some [0xFFFFFFFF, 0xFFFFFFFF]
  | 0x63 => some [0xFFFF]
  | _ => none

/-- The record in force with a record's key; one that is omitted and takes its defaults counts as present (R390). -/
def currentRec (cur : List Rec) (r : Rec) : Option Rec :=
  match cur.find? (fun x => decide (recKey x = recKey r)) with
  | some x => some x
  | none =>
    let w1 : Option Nat := match r.type with
      | 0x31 => some 0x100
      | 0x40 => some (r.fld 1 31 29 * 2 ^ 29)
      | 0x50 => some 0
      | 0x61 => some (r.fld 1 2 0)
      | 0x62 => some 0
      | 0x63 => some 0
      | _ => none
    w1.map (fun v => { r with words := r.word 0 :: BitVec.ofNat 32 v :: List.replicate (r.words.length - 2) 0 })

/-- A signed field (R386, R387). -/
def signedField (t w lsb width : Nat) : Bool :=
  decide ((t, w, lsb, width) ∈ [(0x22, 5, 0, 9), (0x22, 8, 0, 9), (0x30, 2, 8, 8)])

/-- By how much a replacement leaves the bands of the HOT_LIMIT records on it; none where it leaves none. A record without the word has
no such field. -/
def bandOver (cur : List Rec) (r : Rec) : Option Nat :=
  (recsOf 0xA0 cur).findSome? (fun l =>
    if l.fld 1 31 24 = r.type ∧ l.fld 1 23 16 < r.words.length then
      let wd := l.fld 1 23 16
      let lsb := l.fld 1 15 8
      let width := l.fld 1 7 0
      let v := (r.word wd).toNat / 2 ^ lsb % 2 ^ width
      let sg := signedField r.type wd lsb width
      let x : Int := if sg then signedNat width v else v
      let lo : Int := if sg then (l.word 2).toInt else (l.word 2).toNat
      let hi : Int := if sg then (l.word 3).toInt else (l.word 3).toNat
      if x < lo then some (lo - x).toNat else if hi < x then some (x - hi).toNat else none
    else none)

/-- Code 15 for one record: by how much (R392); none where it does not hold. -/
def hotOver (cur : List Rec) (r : Rec) : Option Nat :=
  match hotMasks r.type, currentRec cur r with
  | some m, some c =>
    let same := decide (c.words.length = r.words.length) && (m.zip ((c.words.drop 1).zip (r.words.drop 1))).all
      (fun x => decide ((x.2.1 &&& ~~~ BitVec.ofNat 32 x.1) = (x.2.2 &&& ~~~ BitVec.ofNat 32 x.1)))
    if same then bandOver cur r else some 0
  | _, _ => some 0

/-- The records in force after an update: each record replaces the one with its key. -/
def applyHot (cur upd : List Rec) : List Rec :=
  upd.foldl (fun l r =>
    if l.any (fun x => decide (recKey x = recKey r)) then
      l.map (fun x => if recKey x = recKey r then { r with sec := x.sec, idx := x.idx } else x)
    else l ++ [r]) cur

/-! ### Phase 2 (R394) -/

/-- The first code that one record fails, with its OVER. -/
def recordCode (e : HarnessEnv) (t : List SecEntry) (all before : List Rec) (r : Rec) : Option (Nat × Nat) :=
  if !recordOk t r then some (6, 0)
  else if !(rsvdOk r && fieldsOk e.build r) then some (7, 0)
  else if !topologyOk e.build all before r then some (8, 0)
  else match shapeOver r with
    | some o => some (9, o)
    | none =>
      match e.hot with
      | none => none
      | some h => (hotOver h.1 r).map (fun o => (15, o))

/-- The refusals of every record, in order. -/
def recordsCheck (e : HarnessEnv) (t : List SecEntry) (all : List Rec) : List Rec → List Rec → List Refused
  | _, [] => []
  | before, r :: rest =>
    let tail := recordsCheck e t all (before ++ [r]) rest
    match recordCode e t all before r with
    | none => tail
    | some c => { code := c.1, sec := r.sec, idx := r.idx, ovr := c.2 } :: tail

/-! ### Phase 3 (R394) -/

/-- Count addresses below `x` whose masked bits match, over `n` bits. -/
def countMatch (mask mat : Nat) : Nat → Nat → Nat
  | 0, x => if x = 0 then 0 else 1
  | n + 1, x =>
    if x = 0 then 0
    else if mask.testBit n then
      (if mat.testBit n then countMatch mask mat n (x - 2 ^ n) else countMatch mask mat n (min x (2 ^ n)))
    else if 2 ^ (n + 1) ≤ x then 2 * countMatch mask mat n (2 ^ n)
    else if x ≤ 2 ^ n then countMatch mask mat n x
    else countMatch mask mat n (2 ^ n) + countMatch mask mat n (x - 2 ^ n)

/-- Blocks of a region whose address satisfies (a and mask) = mat; mask bits lie at BLOCK_LOG2 or above. -/
def ownedBlocks (g : Region124) (mask mat : Nat) : Nat :=
  if mat &&& mask ≠ mat then 0
  else
    let f (x : Nat) : Nat := countMatch (mask / 2 ^ g.log2) (mat / 2 ^ g.log2) 49 x
    f (g.base / 2 ^ g.log2 + g.blocks) - f (g.base / 2 ^ g.log2)

/-- Pairs of a list, each once. -/
def pairsOf {α : Type} : List α → List (α × α)
  | [] => []
  | x :: r => r.map (fun y => (x, y)) ++ pairsOf r

/-- Two ranges of bytes [lo, hi) meet. -/
def meet (a b : Nat × Nat) : Bool := decide (a.1 < b.2 ∧ b.1 < a.2)

/-- The bytes of a region and of its sidecar. -/
def Region124.span (g : Region124) : Nat × Nat := (g.base, g.base + g.blocks * 2 ^ g.log2)
def Region124.sideSpan (g : Region124) : Nat × Nat := (g.side, g.side + 4 * g.blocks)

/-- A range lies within one region that satisfies a test. -/
def within (gs : List Region124) (f : Region124 → Bool) (x : Nat × Nat) : Bool :=
  gs.any (fun g => f g && decide (g.span.1 ≤ x.1 ∧ x.2 ≤ g.span.2))

/-- Code 10 does not hold: the required records are there (R390). -/
def requiredOk (b : Build) (rs : List Rec) : Bool :=
  let n (t : Nat) : Nat := (recsOf t rs).length
  let grades := ((recsOf 0x70 rs).flatMap (fun r => keyBytes (r.words.drop 1))).filter (fun x => decide (x ≠ 0))
  let dies := ((List.range b.clusters).map (b.dieOfCluster ·)).eraseDups
  let chans (k d : Nat) : Nat := ((recsOf 0x60 rs).filter (fun r => decide (r.fld 1 22 19 = k ∧ r.fld 1 18 16 = d))).length
  decide (1 ≤ n 0x01 ∧ n 0x20 = 1 ∧ n 0x70 = 1 ∧ n 0x65 = 1 ∧ n 0x66 = 1 ∧ n 0x54 = 1)
    && grades.all (fun c => (findRec 0x64 (fun r => decide (r.fld 1 7 0 = c.toNat)) rs).isSome)
    && dies.all (fun d => decide (2 ≤ chans 1 d))
    && (recsOf 0x60 rs).any (fun r => decide (r.fld 1 22 19 = 3))
    && (decide (n 0x53 = 0) || decide (n 0x51 = 1 ∧ n 0x52 = 1))

/-- Stand-ins that the records name on a die. -/
def recStandins (b : Build) (rs : List Rec) (d : Nat) : Nat :=
  (((recsOf 0x01 rs).filter (fun r => decide (b.dieOfCluster (r.fld 1 7 0) = d))).flatMap (fun r => clusterAgents r 16)).length

/-- Code 11: by how much a count exceeds its limit (R395). -/
def capacityOver (b : Build) (rs : List Rec) : Option Nat :=
  let n (t : Nat) : Nat := (recsOf t rs).length
  let plan (i hi lo : Nat) : Nat := ((recsOf 0x20 rs).head?.map (·.fld i hi lo)).getD 0
  let dies := ((List.range b.clusters).map (b.dieOfCluster ·)).eraseDups
  let short := (dies.map (fun d => plan 1 23 16 - recStandins b rs d)).foldl max 0
  let ranges := ((recsOf 0x81 rs).map (fun r => max (r.fld 1 11 9) (r.fld 1 14 12))).foldl max 0
  ([plan 1 31 24 - b.contexts, plan 2 15 0 - 4096, short, plan 1 15 8 - n 0x10, plan 1 7 0 - b.lanes, n 0x11 - 256,
    n 0x12 - 1024, n 0x71 - 256, n 0x72 - 16, n 0x81 - 64, ranges - 4] : List Nat).find? (fun x => decide (0 < x))

/-- Code 12 does not hold (R125, R127, R366, R374, R395). -/
def overlapOk (rs : List Rec) : Bool :=
  let gs := (recsOf 0x11 rs).map regionOf
  let mem := (recsOf 0x10 rs).filter (fun r => decide (r.fld 1 25 24 = 1))
  let raw (g : Region124) : Bool := !g.linear
  let disjoint := (pairsOf gs).all (fun p => !meet p.1.span p.2.span && !meet p.1.sideSpan p.2.sideSpan)
    && gs.all (fun g => gs.all (fun h => !meet g.span h.sideSpan))
  let masks := gs.all (fun g => mem.all (fun r => decide (r.addr 4 % 2 ^ g.log2 = 0)))
  let owned := gs.all (fun g =>
    decide ((mem.map (fun r => ownedBlocks g (r.addr 4) (r.addr 2))).sum = g.blocks)
      && (pairsOf (mem.filter (fun r => decide (r.addr 2 &&& r.addr 4 = r.addr 2)))).all (fun p =>
        decide ((p.1.addr 4 &&& p.2.addr 4) &&& (p.1.addr 2 ^^^ p.2.addr 2) ≠ 0)
          || decide (ownedBlocks g (p.1.addr 4 ||| p.2.addr 4) (p.1.addr 2 ||| p.2.addr 2) = 0)))
  let log := (recsOf 0x80 rs).all (fun r => decide (r.fld 1 4 0 = 0)
    || gs.all (fun g => !meet g.span (r.addr 2, r.addr 2 + 16 * 2 ^ r.fld 1 4 0)))
  let save := (recsOf 0x51 rs).all (fun r => decide ((r.word 5).toNat = 0)
    || within gs raw (r.addr 6, r.addr 6 + orDef (r.fld 1 31 24) 8 * ((r.word 5).toNat * 1024)))
  let cache := (recsOf 0x53 rs).all (fun r => within gs raw (r.addr 13, r.addr 13 + (r.word 15).toNat))
  let streams := (recsOf 0x81 rs).all (fun r => (List.range (r.fld 1 11 9 + r.fld 1 14 12)).all (fun i =>
    within gs (fun _ => true) (r.addr (2 + 4 * i), r.addr (4 + 4 * i))))
  disjoint && masks && owned && log && save && cache && streams

/-- Code 13: by how much the grade word is exceeded (R327). -/
def gradeOver (grade : W32) (rs : List Rec) : Option Nat :=
  let tclk := bits grade 23 12
  let pcap := bits grade 11 0
  let listed := (recsOf 0x70 rs).any (fun r => (keyBytes (r.words.drop 1)).any (fun c => decide (c.toNat = bits grade 31 24)))
  let ceil := ((recsOf 0x65 rs).flatMap (fun r => [1, 2, 3, 4].flatMap (fun i => [r.fld i 23 12, r.fld i 11 0]))).foldl max 0
  let clk := ((recsOf 0x60 rs).filter (fun r => decide (r.fld 1 22 19 = 4 ∧ r.fld 1 14 12 = 0))).map (fun r => r.fld 2 15 0)
  let power := ((recsOf 0x52 rs).map (fun r => (r.word 2).toNat)).foldl max 0
  if !listed then some 0
  else ([ceil - tclk, clk.foldl max 0 - tclk * 40, power - pcap * 1000] : List Nat).find? (fun x => decide (0 < x))

/-- The steps I_u of R266 as fractions in mA. -/
def currentSteps (b : Build) (grade : W32) (rs : List Rec) : List (Nat × Nat) :=
  let v := ((recsOf 0x54 rs).head?.map (fun r => (r.word 3).toNat)).getD 0
  let scan := ((recsOf 0x52 rs).head?.map (fun r => (r.word 3).toNat)).getD 0
  [(15 * b.lanes * bits grade 23 12, 100 * v)] ++ (if 1 < b.dies then [(110000, v)] else [])
    ++ [(scan * 1000, v), (4, 1)]

/-- Code 14: by how much an I_u exceeds DI_MAX (R265, R266). -/
def electricalOver (b : Build) (grade : W32) (rs : List Rec) : Option Nat :=
  let di := ((recsOf 0x54 rs).head?.map (fun r => (r.word 2).toNat)).getD 0
  if (recsOf 0x54 rs).isEmpty then none
  else ((currentSteps b grade rs).find? (fun x => decide (di * x.2 < x.1))).map
    (fun x => (x.1 - di * x.2 + x.2 - 1) / x.2)

/-- The refusals of phase 3. -/
def wholeCheck (b : Build) (grade : W32) (rs : List Rec) : List Refused :=
  (if requiredOk b rs then [] else [{ code := 10 }])
    ++ (match capacityOver b rs with | none => [] | some o => [{ code := 11, ovr := o }])
    ++ (if overlapOk rs then [] else [{ code := 12 }])
    ++ (match gradeOver grade rs with | none => [] | some o => [{ code := 13, ovr := o }])
    ++ (match electricalOver b grade rs with | none => [] | some o => [{ code := 14, ovr := o }])

/-! ### The whole check -/

/-- Check a list of records against a section table: phases 2 and 3 (R394). -/
def checkRecords (e : HarnessEnv) (t : List SecEntry) (rs : List Rec) (pre : List Refused) : HarnessResult :=
  let p2 := recordsCheck e t rs [] rs
  let known := rs.filter (recordOk t)
  let p3 := wholeCheck e.build e.grade (match e.hot with | none => known | some h => applyHot h.1 known)
  let bad := pre ++ p2 ++ p3
  { first := bad.head?, good := rs.length - p2.length, bad := bad.length, recs := rs }

/-- Check a buffer (R394). -/
def checkHarness (kind : Nat) (e : HarnessEnv) (ws : List W32) : HarnessResult :=
  match streamCode kind e ws with
  | some c => { first := some { code := c } }
  | none =>
    let t := secTable ws (bits (ws.getD 4 0) 5 0)
    let rs := (t.zipIdx.map (fun x => secRecs ws x.2 x.1)).flatten
    let pre : List Refused := match e.hot with
      | none => []
      | some h => if (ws.drop 6).take 4 = h.2.1.take 4 ∧ h.2.2 < (ws.getD 5 0).toNat then [] else [{ code := 15 }]
    { checkRecords e t rs pre with digest := (ws.drop 10).take 12, seq := ws.getD 5 0 }

/-- HARNESS_STS of a check (R396). -/
def harnessStsOf (accepted hot : Bool) (r : HarnessResult) : W32 :=
  match r.first with
  | none => at32 (b2n accepted) 31 ||| at32 (b2n hot) 30
  | some x => at32 (b2n accepted) 31 ||| at32 (b2n hot) 30 ||| at32 x.code 24 ||| at32 x.sec 19 ||| at32 x.idx 0

/-- What the hubs check against. -/
def State.harnessEnv (s : State) (hot : Bool) : HarnessEnv :=
  { build := s.build, grade := s.keys.grade, auth := s.keys.harnessAuth, len := s.harness.len,
    hot := if hot then some (s.harness.recs, s.harness.digest, s.harness.hotSeq.toNat) else none }

end Sys2Proof.Machine
end

