-- ==== Sys2Proof/Machine/Housekeeping.lean ====
section
/-! DEFINITION. The housekeeping sampler: rounds, the thermal ask and curb, bus watch, clock monitors, margins and the
fall-back oscillator (R294 to R315, R435, R441). -/

namespace Sys2Proof.Machine

open Sys2Proof

/-- Change a channel at a hub. -/
def State.modChan (s : State) (h : HubId) (c : Nat) (f : Channel → Channel) : State :=
  s.modHub h (fun k => { k with chans := k.chans.mod {} c f })

/-- A channel at a hub. -/
def State.chan (s : State) (h : HubId) (c : Nat) : Channel := (s.hub h).chans.get {} c

/-- SENSOR_SAMPLE: a sample on the sensor bus; without a CHANNEL record it is ignored (R441). -/
def execSensorSample (chan : BitVec 9) (data : BitVec 16) (s : State) : Host.Outcome State Fault Refusal :=
  live s fun s =>
    if (s.chan? chan.toNat).isSome then
      s.eachHub (fun h s => s.modChan h chan.toNat (fun x => { x with value := data, arrived := true }))
    else s

/-- The threshold state of a numeric sensor; a crossing is an event of the serving hub (R403, R404). -/
def State.sensorState (s : State) (id : Nat) (st : Nat) (value : Int) : State :=
  if s.mgmt.thr.get 0 id = st then s
  else ({ s with mgmt := { s.mgmt with thr := s.mgmt.thr.set 0 id st } }).mgmtPush (.sensor (BitVec.ofNat 16 id) value)

/-! ### The round (R295) -/

/-- A sample lies outside its kind's physical range: −64 °C to 200 °C, 0 V to 65 V (R295). -/
def outOfRange (kind : Nat) (v : BitVec 16) : Bool :=
  if kind = 1 then decide (v.toInt < -1024 ∨ 3200 < v.toInt)
  else if kind = 2 ∨ kind = 3 then decide (65000 < v.toNat)
  else false

/-- A round takes a channel's most recent sample; a channel that becomes stale is reported once (R295). -/
def State.takeSample (s : State) (h : HubId) (r : Rec) : State :=
  let c := r.fld 1 31 23
  let x := s.chan h c
  let missed := if x.arrived then 0 else x.missed + 1
  let stale := outOfRange (r.fld 1 22 19) x.value && (x.arrived || x.stale) || decide (2 ≤ missed) || (x.stale && !x.arrived)
  let s := s.modChan h c (fun x => { x with fresh := x.arrived, arrived := false, missed := min missed 2, stale := stale })
  if stale && !x.stale then s.note h (srcId 4 c) 0x29 1 (BitVec.ofNat 48 x.value.toNat) 0 else s

/-- Limits of RAIL and CLOCK channels (R294, R306). -/
def State.judgeLimits (s : State) (h : HubId) (r : Rec) : State :=
  let c := r.fld 1 31 23
  let v := (s.chan h c).value.toNat
  let bad := decide (v < r.fld 2 31 16 ∨ r.fld 2 15 0 < v)
  if s.chanUsable h c && bad then
    if r.fld 1 22 19 = 2 then s.note h (srcId 4 c) 0x23 1 (BitVec.ofNat 48 v) 0
    else if r.fld 1 22 19 = 4 then s.note h (srcId 4 c) 0x27 3 (BitVec.ofNat 48 v) 0
    else s
  else s

/-! ### The thermal steps (R298 to R302, R311) -/

/-- Change the thermal state of a die at a hub. -/
def State.modThermal (s : State) (h : HubId) (d : Nat) (f : DieThermal → DieThermal) : State :=
  s.modHub h (fun k => { k with thermal := k.thermal.mod {} d f })

/-- The request level of a die changes; THR_EVT.REQ_CHG is set (R299). -/
def State.setReq (s : State) (h : HubId) (d r : Nat) : State :=
  if ((s.hub h).thermal.get {} d).req = r then s
  else (s.modThermal h d (fun t => { t with req := r })).modHub h (fun k => { k with thrEvt := k.thrEvt ||| at32 1 (16 + d) })

/-- Write a curb level of R298; OVERRIDE where it lies above CURB_HI (R299). -/
def State.curbTo (s : State) (h : HubId) (d level : Nat) : State := s.setCurb h d level (decide (s.bands.curbHi < level))

/-- req(x) of R298. -/
def State.reqLevel (s : State) (d : Nat) (x : Int) : Nat := min 7 (1 + (x - s.tWarn d) / s.tStep d).toNat

/-- The TEMP channel that reads the die temperature. -/
def State.hotChan (s : State) (h : HubId) (d : Nat) (x : Int) : Nat :=
  ((s.dieChans 1 d).find? (fun c => s.chanUsable h c && decide ((s.chan h c).value.toInt = x))).getD 0

/-- The leader proposes the release of a die's curb; a lone hub releases it (R298, R300). -/
def State.proposeRelease (s : State) (h : HubId) (d : Nat) : State :=
  if h ≠ s.twin.leader then s else s.relax (.lowerCurb d) (fun s => s.curbTo h d 0)

/-- The leader takes the release: at every hub, if its own samples still read below T_WARN − T_HYST, as its last round had it, and
no S4 has decided (R297, R298, R300, R315). -/
def State.takeRelease (s : State) (d : Nat) : State :=
  match s.dieTemp s.twin.leader d, (s.ld.thermal.get {} d).release with
  | some x, some r => if s.stopped || decide (r ≤ x) then s else s.eachHub (fun h s => s.curbTo h d 0)
  | _, _ => s

/-- A release that the follower has refused is proposed again once the follower's state has changed (R277). -/
def State.releaseAgain (s : State) (h : HubId) (d : Nat) : State :=
  if s.twin.refused.any (fun e => decide (e.1 = RelaxAction.lowerCurb d)) then s.proposeRelease h d else s

/-- A die enters the ask: KIND 0x20 (R298). The release that ends it is a new one, whatever was refused before. -/
def State.enterAsk (s : State) (h : HubId) (d : Nat) (x : Int) : State :=
  let s := { s with twin := { s.twin with refused := s.twin.refused.filter (fun e => decide (e.1 ≠ RelaxAction.lowerCurb d)) } }
  (s.modThermal h d (fun t => { t with ask := true })).note h (srcId 4 (s.hotChan h d x)) 0x20 0
    (BitVec.ofNat 48 (BitVec.ofInt 16 x).toNat) 0

/-- round_step of R298 for a die at temperature `x`. -/
def State.roundStep (s : State) (h : HubId) (d : Nat) (x : Int) : State :=
  let t := (s.hub h).thermal.get {} d
  if s.tCrit d ≤ x then
    let s := if t.ask then s else s.enterAsk h d x
    let (m, s) := s.hubMsg h (srcId 4 (s.hotChan h d x)) 0x21 1 (BitVec.ofNat 48 (BitVec.ofInt 16 x).toNat) 0
    let s := s.hubEntry h { m with ovr := decide (s.bands.curbHi < 7) }
    (s.setReq h d 7).curbTo h d 7
  else if !t.ask then
    if s.tWarn d ≤ x then
      ((s.enterAsk h d x).setReq h d (s.reqLevel d x)).modThermal h d (fun t => { t with graceEnd := s.now + s.tGrace d })
    else if 0 < t.curb ∧ x < s.tWarn d - s.tHyst d then s.releaseAgain h d
    else s
  else if x < s.tWarn d - s.tHyst d then
    let s := (s.modThermal h d (fun t => { t with ask := false })).setReq h d 0
    if 0 < t.curb then s.proposeRelease h d else s
  else
    let s := if s.tWarn d ≤ x then s.setReq h d (s.reqLevel d x) else s
    let r := ((s.hub h).thermal.get {} d).req
    if t.curb = 0 then
      if t.graceEnd ≤ s.now ∧ s.tWarn d ≤ x then s.curbTo h d (min s.bands.curbHi (max s.bands.curbLo r)) else s
    else s.curbTo h d (min (max s.bands.curbHi t.curb) (max t.curb r))

/-- A die without a usable TEMP channel is curbed at CURB_FAILSAFE, with its ask open (R302). -/
def State.failsafe (s : State) (h : HubId) (d : Nat) : State :=
  let c := ((s.hub h).thermal.get {} d).curb
  (s.setCurb h d (max c (s.curbFailsafe d)) true).modThermal h d (fun t => { t with ask := true })

/-- Every TEMP channel of a die is stale, in its fault state or lame (R213, R302). -/
def State.noTemp (s : State) (h : HubId) (d : Nat) : Bool :=
  (s.dieChans 1 d).all (fun c => (s.chan h c).stale || (s.hub h).fences? (4384 + c))

/-- A curb that a new band leaves outside is moved to the nearer bound (R313). -/
def State.moveCurb (s : State) (h : HubId) (d : Nat) : State :=
  let c := s.curbAt h d
  if s.bands.curbMoved && decide (0 < c) then s.curbTo h d (min (max c s.bands.curbLo) s.bands.curbHi) else s

/-- A die's temperature crosses a threshold: an event of the serving hub (R403). -/
def State.thermalEvent (s : State) (h : HubId) (d : Nat) : State :=
  match s.dieTemp h d with
  | none => s
  | some x =>
    if h = s.twin.serving then s.sensorState (d + 1) (if s.tCrit d ≤ x then 2 else if s.tWarn d ≤ x then 1 else 0) x else s

/-- The thermal step of one die. -/
def State.thermalStep (s : State) (h : HubId) (d : Nat) : State :=
  let s := s.moveCurb h d
  if s.noTemp h d then s.failsafe h d
  else
    match s.dieTemp h d with
    | none => s
    | some x => (s.roundStep h d x).thermalEvent h d

/-- ROUND_MS at the end of a round (R311, R312). -/
def State.nextRoundMs (s : State) (h : HubId) : Nat :=
  let ds := List.range s.build.dies
  let hot (lim : Nat → Int) : Bool := ds.any (fun d => match s.dieTemp h d with
    | none => false
    | some x => decide (lim d ≤ x))
  if (s.hub h).s4 || hot s.tCrit then 1
  else if hot (fun d => s.tWarn d - s.tNear d) || ds.any (fun d => decide (0 < s.curbAt h d)) then s.bands.roundLo
  else s.bands.roundHi

/-- The first die that reads T_CRIT or more. -/
def State.criticalDie (s : State) (h : HubId) : Nat :=
  ((List.range s.build.dies).find? (fun d => match s.dieTemp h d with
    | none => false
    | some x => decide (s.tCrit d ≤ x))).getD 0

/-- V_CORE in mV (R266, R388). -/
def State.vCore (s : State) : Nat := ((s.rec? 0x54 (fun _ => true)).map (fun r => (r.word 3).toNat)).getD 0

/-- The fresh CORE rails of a die, in mV. -/
def State.coreRails (s : State) (h : HubId) (d : Nat) : List Nat :=
  ((recsOf 0x60 s.recs).filter (fun r => decide (r.fld 1 22 19 = 2 ∧ r.fld 1 18 16 = d) && bit (r.word 1) 15
    && s.chanUsable h (r.fld 1 31 23))).map (fun r => (s.chan h (r.fld 1 31 23)).value.toNat)

/-- The hub broadcasts a die's temperature and core voltage at the start of the round, and takes the thermal parameters that are in
force from it on (R296, R297). -/
def State.broadcast (s : State) (h : HubId) (d : Nat) : State :=
  let x := s.dieTemp h d
  let l := s.coreRails h d
  let r := s.tWarn d - s.tHyst d
  s.modThermal h d (fun t => { t with temp := x, rails := (l.foldl (· + ·) 0, l.length), release := some r })

/-- The trim code at a temperature in units of 0.0625 °C, by linear interpolation between the entries of the table, 11 °C
apart from −40 °C on (R309). The code is rounded down. DESIGN CHOICE (log 94). -/
def trimAt (x : Int) : Int :=
  let y := (min (max x (-640)) 2000 + 640).toNat
  let i := y / 176
  Config.trimTable i + (Config.trimTable (min (i + 1) 15) - Config.trimTable i) * (y % 176 : Nat) / 176

/-- The oscillator's trim code follows the temperature of the hub's die, with the offset of stage 7 (R309). -/
def State.setTrim (s : State) (h : HubId) : State :=
  match s.dieTemp h (match h with | .a => 0 | .b => s.build.hubBDie) with
  | none => s
  | some x => s.modHub h (fun k => { k with trim := trimAt x + k.oscOffset })

/-- A round at one hub; after an S4 the curbs and the period stay (R312), and the crossings of thresholds are still events (R403). -/
def State.hkRound (s : State) (h : HubId) : State :=
  let chans := recsOf 0x60 s.recs
  let s := s.each chans (fun r s => s.takeSample h r)
  let s := (s.each (List.range s.build.dies) (fun d s => s.broadcast h d)).setTrim h
  let s := s.each chans (fun r s => s.judgeLimits h r)
  let s := s.each (List.range s.build.dies) (fun d s => if (s.hub h).s4 then s.thermalEvent h d else s.thermalStep h d)
  let ms := s.nextRoundMs h
  let s := if ms = 1 ∧ (s.hub h).roundMs ≠ 1 then s.periodEntry h (s.criticalDie h) else s
  s.modHub h (fun k => { k with roundMs := ms, roundAt := s.now })

/-- A moved curb band has been taken into account by a round (R313). -/
def State.settleBand (s : State) : State := { s with bands := { s.bands with curbMoved := false } }

/-- HK_ROUND: a housekeeping round at every hub (R295, R298, R311). -/
def execHkRound (s : State) : Host.Outcome State Fault Refusal :=
  live s fun s =>
    if s.ld.busWatch then
      let s := s.advanceTo (s.ld.roundAt + s.ld.roundMs * 1000000)
      let s := s.eachHub (fun h s => if s.hubUp h then s.hkRound h else s)
      s.settleBand.takeUpLead
    else s

/-- CURB_COMBINE: the curb port presents the higher of the attached hubs' levels, and CURB_TOGGLE inverts after a change
(R300, R435); each die's change is a sensor event (R403). -/
def execCurbCombine (s : State) : Host.Outcome State Fault Refusal :=
  live s fun s =>
    let l : BitVec 24 := BitVec.ofNat 24 ((List.range s.build.dies).foldl (fun n d => n + s.curbLevel d * 2 ^ (3 * d)) 0)
    if l = s.curbPort.level then s
    else
      let t := !s.curbPort.toggle
      let s' := { s with curbPort := { level := l, toggle := t } }.present (.curb l t)
      s'.each (List.range s.build.dies) (fun d s' =>
        if s'.curbShown d = s.curbShown d then s' else s'.mgmtPush (.sensor (BitVec.ofNat 16 (0x21 + d)) (s'.curbShown d)))

/-! ### The module bus watch (R303 to R305) -/

/-- BUS_LO, BUS_HI, BUS_COLLAPSE in mV and DROOP_MAX in mV per ms (R304, R388). -/
def State.busLo (s : State) : Nat := s.single 0x62 1 15 0 42000
/-- BUS_HI. -/
def State.busHi (s : State) : Nat := s.single 0x62 1 31 16 63000
/-- BUS_COLLAPSE. -/
def State.busCollapse (s : State) : Nat := s.single 0x62 2 15 0 38000
/-- DROOP_MAX. -/
def State.droopMax (s : State) : Nat := s.single 0x62 2 31 16 20 * 100

/-- The fall over the last 10 samples, in mV: the droop rate per ms. -/
def fallOf (ring : List (BitVec 16)) : Nat :=
  let l := ring.drop (ring.length - 11)
  if l.length < 11 then 0 else (l.headD 0).toNat - (l.getLastD 0).toNat

/-- A bus condition: reported on entering it, again once it has been absent for 10 ms. -/
def reportNow (inForce : Bool) (at_ now : Nat) : Bool := !inForce || decide (at_ + 10000000 ≤ now)

/-- One sample of the bus watch at a hub (R303). -/
def State.busStep (s : State) (h : HubId) (c : Nat) : State :=
  let v := (s.chan h c).value
  let s := s.modChan h c (fun x => { x with ring := (x.ring ++ [v]).drop (x.ring.length + 1 - 64), ringStamp := s.clock.count,
                                            busAt := s.now, collapse := if v.toNat < s.busCollapse then x.collapse + 1 else 0 })
  let x := s.chan h c
  let fall := fallOf x.ring
  let droop := decide (s.droopMax < fall)
  let level := decide (v.toNat < s.busLo ∨ s.busHi < v.toNat)
  let newDroop := droop && reportNow x.droop x.droopAt s.now
  let newLevel := level && reportNow x.lowHigh x.lowHighAt s.now
  let s := s.modChan h c (fun x => { x with
    droop := droop || (x.droop && decide (s.now < x.droopAt + 10000000)), droopAt := if droop then s.now else x.droopAt,
    lowHigh := (level && !droop) || (x.lowHigh && decide (s.now < x.lowHighAt + 10000000)), lowHighAt := if level then s.now else x.lowHighAt })
  let src := srcId 4 c
  if 3 ≤ x.collapse then
    if x.collapse = 3 then s.note h src 0x26 4 (BitVec.ofNat 48 v.toNat) 0 else s
  else if droop then
    if newDroop then (s.snapshot h c).note h src 0x25 1 (BitVec.ofNat 48 fall) 0 else s
  else if level then
    if newLevel then (s.snapshot h c).note h src 0x24 1 (BitVec.ofNat 48 v.toNat) 0 else s
  else s

/-- The bus sensor of R403: normal, warning, fatal. -/
def State.busSensor (s : State) (c : Nat) : State :=
  match (s.chansOf 3).findIdx? (fun x => decide (x = c)) with
  | none => s
  | some i =>
    let v := (s.chan s.twin.serving c).value.toNat
    if i < 2 then
      s.sensorState (0x11 + i) (if v < s.busCollapse then 2 else if v < s.busLo then 1 else if s.busHi < v then 3 else 0) v
    else s

/-- BUS_SAMPLE: the bus watch judges a BUS channel's sample; a stale channel or one in its fault state is not judged (R303,
R305). -/
def execBusSample (chan : BitVec 9) (s : State) : Host.Outcome State Fault Refusal :=
  live s fun s =>
    let c := chan.toNat
    if s.ld.busWatch && (s.chansOf 3).contains c then
      let at_ := (s.chan s.twin.leader c).busAt
      let s := if at_ = 0 then s else s.advanceTo (at_ + 100000)
      let s := s.eachHub (fun h s => if (s.chan h c).stale || (s.hub h).fences? (4384 + c) then s else s.busStep h c)
      if (s.chan s.twin.serving c).stale || s.sv.fences? (4384 + c) then s else s.busSensor c
    else s

/-! ### Margins (R296, R307, R308) -/

/-- A coefficient with 24 fraction bits. -/
def coef (r : Rec) (i : Nat) : Int := (r.word i).toInt

/-- The normalised margin of R307, exactly: `x` is ΔT in 1/16 °C, `y` / `n` is ΔV in mV. -/
def normMargin (r : Rec) (x y n : Int) (count : Nat) : Option Nat :=
  let t := 2 ^ 36 + coef r 3 * x * 256 + coef r 4 * x * x * 16 + coef r 5 * x * x * x
  let v := 2 ^ 24 * 10 ^ 9 * n ^ 3 + coef r 6 * y * 10 ^ 6 * n ^ 2 + coef r 7 * y * y * 10 ^ 3 * n + coef r 8 * y * y * y
  let e := ((r.word 2).toNat : Int) * t * v
  if 0 < e then some ((65536 * (count : Int) * (2 ^ 68 * 10 ^ 9 * n ^ 3)) / e).toNat else none

/-- The margin of a count on a die, by what the leader broadcast at the start of the round (R296, R307). -/
def State.marginOf (s : State) (d count : Nat) : Nat :=
  let t := s.ld.thermal.get {} d
  let n : Int := if t.rails.2 = 0 then 1 else t.rails.2
  let y : Int := if t.rails.2 = 0 then 0 else t.rails.1 - n * (s.vCore : Int)
  match s.rec? 0x64 (fun r => decide (r.fld 1 7 0 = bits s.keys.grade 31 24)), t.temp with
  | some r, some x => (normMargin r (x - 400) y n count).getD (Config.freeMargin count)
  | _, _ => Config.freeMargin count

/-- An agent's margin is taken: reported at the second low round in a row, and every 100 rounds after that (R308). -/
def State.takeMargin (s : State) (c a count : Nat) : State :=
  let m := s.marginOf (s.build.dieOfAgent a) count
  let low := decide (m < s.marginLow 61604)
  let n := if low then (s.agent a).lowRounds + 1 else 0
  let s := s.modAgent a (fun g => { g with margin := m, lowRounds := n, measured := true })
  if 2 ≤ n ∧ (n - 2) % 100 = 0 then
    s.emit (.conc c) { source := srcId 0 a, kind := 0x28, sev := 1, addr := BitVec.ofNat 48 (m % 2 ^ 16) }
  else s

/-- The lowest margin of a die's enabled agents that have been read. -/
def State.lowestMargin (s : State) (d : Nat) : Option Nat :=
  ((s.enabledAgents.filter (fun a => decide (s.build.dieOfAgent a = d) && (s.agent a).measured)).map (fun a => (s.agent a).margin)).foldl
    (fun b m => match b with | none => some m | some n => some (min n m)) none

/-- A concentrator takes a reading of its agents' monitors; the lowest margin of the die is a sensor (R307, R308, R403). -/
def State.takeMargins (s : State) (cluster : Nat) (counts : List (Nat × Nat)) : State :=
  let mine : List (Nat × Nat) := counts.filter (fun (x : Nat × Nat) => s.agentOn x.1 && decide (s.build.clusterOf x.1 = cluster))
  let s := s.each mine (fun x s => s.takeMargin cluster x.1 x.2)
  let d := s.build.dieOfCluster cluster
  match mine, s.lowestMargin d with
  | _ :: _, some m => s.sensorState (0x31 + d) (if m < s.marginLow 61604 then 1 else 0) m
  | _, _ => s

/-- MARGIN_WINDOW_DONE: a concentrator normalises its agents' counts (R296, R307, R308). -/
def execMarginWindowDone (cluster : Nat) (counts : List (Nat × Nat)) (s : State) : Host.Outcome State Fault Refusal :=
  live s fun s => s.takeMargins cluster counts

/-! ### The housekeeping clock (R309) -/

/-- KCLK_CHECK_WINDOW: a hub counts KCLK over 40 µs; after two bad windows in a row KCLK comes from the fall-back
oscillator, until the next whole reset (R309). -/
def execKclkCheckWindow (hub : HubId) (count : Nat) (s : State) : Host.Outcome State Fault Refusal :=
  live s fun s =>
    let k := s.hub hub
    if s.hubUp hub && s.pastStage0 && !k.fallback then
      if 980 ≤ count ∧ count ≤ 1020 then s.modHub hub (fun k => { k with badKclk := 0 })
      else if k.badKclk = 0 then s.modHub hub (fun k => { k with badKclk := 1 })
      else
        (s.modHub hub (fun k => { k with badKclk := 0, fallback := true })).note hub
          (srcId 4 Config.kclkChannel.toNat) 0x2A 1 0 0
    else s

end Sys2Proof.Machine
end

