-- ==== Sys2Proof/Machine/BringUp.lean ====
section
/-! DEFINITION. The work of the call sheet's stages: identity, keys, pairing, link training, harness, agent image, persisted
record, housekeeping, known-answer tests, READY (R268, R272, R273, R316 to R338, R373, R399, R438, R448). -/

namespace Sys2Proof.Machine

open Sys2Proof

/-- Make positions lame at every acting hub, with everything that depends on them (R320). -/
def State.lameEach (s : State) (l : List Nat) : State := s.each l (fun p s => s.eachHub (fun h s => s.lameAll h p))

/-- Lame units at the leader. -/
def State.lameCount (s : State) : Nat := (s.ld.srcs.entries.filter (·.2.lame)).length

/-- UNITS where some unit is bad (R322). -/
def unitsCause (bad : Nat) : Nat := if bad = 0 then 0 else 3

/-! ### Stage 0 (R324, R448) -/

/-- An agent reports other LANES and CONTEXTS than the generation parameters: its AG_BUILD holds what it reports (R324, R473). -/
def State.oddReport (s : State) (x : Nat × Nat × Nat) : State :=
  s.modAgent x.1 (fun g => { g with oddBuild := some (buildWord x.2.1 x.2.2) })

/-- STAGE_0_IDENTITY: units whose SRAM test fails or whose report differs are made lame; the alive cell begins. `reports` are the
LANES and CONTEXTS of agents that report others than the generation parameters. -/
def execStage0Identity (us : Nat) (badAgents badConcs : List Nat) (reports : List (Nat × Nat × Nat)) (hubAOk hubBOk : Bool) (s : State) :
    Host.Outcome State Fault Refusal :=
  live s fun s => s.runStage 0 us fun s =>
    let odd := reports.filter (fun x => decide (x.1 < s.build.agents ∧ (x.2.1 ≠ s.build.lanes ∨ x.2.2 ≠ s.build.contexts)))
    let ag := badAgents.filter (fun a => decide (a < s.build.agents)) ++ odd.map (·.1)
    let co := (badConcs.filter (fun c => decide (c < s.build.clusters))).map (4096 + ·)
    let s := (s.each odd (fun x s => s.oddReport x)).lameEach (ag ++ co)
    let s := { s.selfTests hubAOk hubBOk with
                      alive := { s.alive with started := true, lastEdge := s.now },
                      clock := { s.clock with lastSync := s.now } }
    let bad := s.lameCount
    let hubs := b2n hubAOk + (if s.build.hubs = 2 then b2n hubBOk else 0)
    (s, .pass (unitsCause bad) (s.build.agents + s.build.clusters + hubs - bad) bad)

/-! ### Stage 1 (R116, R325, R326, R373, R438) -/

/-- A grade word is valid (R326). -/
def gradeOk (w : W32) : Bool :=
  decide (bits w 31 24 ≠ 0 ∧ bits w 31 24 ≠ 0xFF ∧ 800 ≤ bits w 23 12 ∧ bits w 23 12 ≤ 2000 ∧ 1 ≤ bits w 11 0)

/-- The beats of an item (R438). -/
def keyBeats (item : Nat) : Nat := [1, 1, 4, 4, 6, 6].getD item 1

/-- An item that is complete is checked and taken (R325). -/
def Keys.take (k : Keys) (item : Nat) (b : List Byte) : Option Keys :=
  match item with
  | 0 =>
    let w := BitVec.ofNat 32 (natBE (b.drop 4))
    if gradeOk w then some { k with grade := w } else none
  | 1 =>
    let c := BitVec.ofNat 64 (natBE b)
    if c = 0 ∨ c = BitVec.allOnes 64 then none else some { k with chipId := c }
  | 2 => some { k with checkRoot := b }
  | 3 => if b = k.checkRoot then none else some { k with tagRoot := b }
  | 4 => some { k with signSeed := b }
  | _ => some { k with harnessAuth := b }

/-- An item is late or fails its check: the stage fails with KEY_PORT, or GRADE for the grade word. -/
def State.refuseItem (s : State) : State :=
  s.failStage (if s.keyPort.item = 0 then 5 else 4) 0 s.keyPort.done 1

/-- KEY_PORT_BEAT: a beat of the requested item, most significant bytes first (R438). -/
def execKeyPortBeat (data : W64) (last : Bool) (s : State) : Host.Outcome State Fault Refusal :=
  live s fun s =>
    if s.stage = some 1 ∧ s.keyPort.req then
      let b := s.keyPort.beats ++ bytesBE 8 data.toNat
      let n := s.keyPort.item
      if !last ∧ b.length < 8 * keyBeats n then { s with keyPort := { s.keyPort with beats := b } }
      else if !last ∨ b.length ≠ 8 * keyBeats n then s.refuseItem
      else
        match s.keys.take n b with
        | none => s.refuseItem
        | some k =>
          let s := { s with keys := k }
          if n < 5 then
            { s with keyPort := { req := true, item := n + 1, done := n + 1, since := s.now } }.present (.keyReq (n + 1))
          else { s with keyPort := { s.keyPort with req := false, beats := [], done := 6 } }
    else s

/-- KEY_PORT_BAD: the host refuses the item (R438). -/
def execKeyPortBad (s : State) : Host.Outcome State Fault Refusal :=
  live s fun s => if s.stage = some 1 ∧ s.keyPort.req then s.refuseItem else s

/-- KEY_ITEM_TIMEOUT: the item has not arrived within 1 ms of its request (R325, R452). -/
def execKeyItemTimeout (s : State) : Host.Outcome State Fault Refusal :=
  live s fun s =>
    if s.stage = some 1 ∧ s.keyPort.req then (s.advanceTo (s.keyPort.since + 1000000)).refuseItem else s

/-- The keys that the hub derives: region keys, address key, key check value (R116), signing key and public key (R373). -/
def Keys.derive (k : Keys) : Keys :=
  let h (t : List Byte) : List Byte := sha384 (k.tagRoot ++ t)
  let d := 1 + natBE (sha384 (k.signSeed ++ [0x53#8, 0x49#8, 0x47#8, 0x4E#8])) % (ecN - 1)
  let q := (ecMul d (some ecG)).getD (0, 0)
  { k with regions := (List.range 8).map (fun i => 2 + natBE ((h [0x01#8, BitVec.ofNat 8 i]).take 8) % (p31 - 2)),
           addrKey := BitVec.ofNat 64 (natBE ((h [0x02#8]).take 8)),
           kcv := BitVec.ofNat 32 (natBE ((h [0x03#8]).take 4)), signKey := d, pubX := q.1, pubY := q.2 }

/-- STAGE_1_KEYS: with the six items taken, the keys are derived (R325). -/
def execStage1Keys (us : Nat) (s : State) : Host.Outcome State Fault Refusal :=
  live s fun s => s.runStage 1 us fun s =>
    if s.keyPort.done = 6 then ({ s with keys := s.keys.derive }, .pass 0 6 0) else (s, .open_)

/-! ### Stage 2 (R268, R272, R273) -/

/-- The hubs take their places: who leads and serves, who is attached, and why a hub is alone. -/
def State.place2 (s : State) (leader : HubId) (both : Bool) (mode : Nat) : State :=
  let s := { s with
    twin := { s.twin with leader := leader, serving := leader, paired := decide (s.build.hubs = 2),
                          aAttached := both || decide (leader = HubId.a), bAttached := both || decide (leader = HubId.b) },
    xlink := { s.xlink with a := { s.xlink.a with lastGood := s.now }, b := { s.xlink.b with lastGood := s.now } },
    alive := { s.alive with granted := if both ∨ s.build.hubs = 1 then none else some leader } }
  s.setMode mode

/-- A hub fails its self-test: its source enters its fault state (R272). -/
def State.selfTestFault (s : State) (h other : HubId) : State :=
  s.modHub h (fun k => k.modSrc (4352 + hubIdx other) (fun x => { x with fault := true, quietSince := s.now }))

/-- STAGE_2_PAIRING: `passA` and `passB` are the hubs' self-tests; the outcome follows the table of R272. -/
def execStage2Pairing (us : Nat) (passA passB : Bool) (s : State) : Host.Outcome State Fault Refusal :=
  live s fun s => s.runStage 2 us fun s =>
    let a := passA && s.hubA.selfTest
    let b := passB && s.hubB.selfTest
    let trained := decide (0 < s.twin.lanes) && !s.xlink.down
    let sentA := s.twin.helloB.isSome
    let sentB := s.twin.helloA.isSome
    if s.build.hubs = 1 then (if a then (s.place2 .a false 1, .pass 0 1 0) else (s, .fail 6 0 0 1))
    else if !a && !b then (s, .fail 6 0 0 2)
    else if a && b && trained && sentA && sentB then
      let tested := (s.twin.helloB.map (·.2)).getD 0xFF#8
      (s.place2 (if tested = 1#8 then .b else .a) true 0, .pass 0 2 0)
    else
      let alone : HubId := if !b then .a else if !a then .b else if trained && sentB && !sentA then .b else .a
      let s := s.place2 alone false 5
      let heard := trained && (match alone with | .a => sentB && !b | .b => sentA && !a)
      (if heard then s.selfTestFault alone (twinHub alone) else s, .pass 0 1 1)

/-- The lanes that an attempt uses, by the attempts made before it (R329). -/
def attemptLanes (tries : Nat) : Nat := if tries = 0 then 4 else if tries ≤ 2 then 2 else 1

/-- A die link trains at stage 3: 4 lanes record nothing, fewer record KIND 0x31 at each end, none records KIND 0x32 and
makes both ends lame (R329). -/
def State.trainDie (s : State) (i : Nat) (ok : Bool) : State :=
  let f := s.farEnd i
  let l := s.linkEnd i
  let both (g : LinkEnd → LinkEnd) (s : State) : State := (s.modLink i g).modLink f g
  if l.down ∨ 0 < l.lanes then s
  else if ok then
    let w := attemptLanes l.tries
    let s := both (fun x => { x with lanes := w, tries := l.tries + 1 }) s
    if w = 4 then s
    else s.each [i, f] (fun e s => s.eachHub (fun h s => s.note h (srcId 3 e) 0x31 1 (BitVec.ofNat 48 w) 0))
  else if l.tries < 6 then both (fun x => { x with tries := l.tries + 1 }) s
  else
    let s := both (fun x => { x with tries := 7, down := true }) s
    s.each [i, f] (fun e s => s.eachHub (fun h s => (s.finding h (srcId 3 e) 0x32 3 0).lameAll h (4368 + e)))

/-- LINK_TRAIN_ATTEMPT_END: an attempt succeeds, or reaches its limit of 1 ms (R268, R329). -/
def execLinkTrainAttemptEnd (l : TrainLink) (ok : Bool) (s : State) : Host.Outcome State Fault Refusal :=
  live s fun s =>
    match l with
    | .die d => if s.stage = some 3 ∧ 1 < s.build.dies ∧ d < s.build.dies then s.trainDie (2 * d + 1) ok else s
    | .cross =>
      if s.build.hubs = 2 ∧ ((s.stage = some 2 ∧ s.twin.lanes = 0 ∧ !s.xlink.down) ∨ s.xlink.retraining) then
        let t := s.xlink.tries
        if ok then
          { s with twin := { s.twin with lanes := attemptLanes t },
                   xlink := { s.xlink with tries := 0, retraining := false, down := false } }
        else if t < 6 then { s with xlink := { s.xlink with tries := t + 1 } }
        else { s with twin := { s.twin with lanes := 0 }, xlink := { s.xlink with tries := 0, retraining := false, down := true } }
      else s

/-! ### Stage 3 (R328 to R330) -/

/-- STAGE_3_DIE_LINKS: the stage ends once every link has trained or is down; the dies without a path are made lame. -/
def execStage3DieLinks (us : Nat) (s : State) : Host.Outcome State Fault Refusal :=
  live s fun s => s.runStage 3 (if s.build.dies = 1 then 0 else us) fun s =>
    if s.build.dies = 1 then (s, .pass 0 0 0)
    else if (List.range (2 * s.build.dies)).any (fun i => decide ((s.linkEnd i).lanes = 0) && !(s.linkEnd i).down) then (s, .open_)
    else
      let s := s.judgeDies
      let ends := (List.range (2 * s.build.dies)).map s.linkEnd
      let good := (ends.filter (fun e => decide (0 < e.lanes))).length
      (s, .pass (if ends.all (fun e => decide (e.lanes = 4)) then 0 else 3) good (ends.filter (·.down)).length)

/-! ### Stage 4 (R331, R394, R396, R399) -/

/-- Record a hub's check (R396). -/
def State.recordCheck (s : State) (h : HubId) (accepted hot : Bool) (r : HarnessResult) : State :=
  s.modHub h (fun k => { k with harnessSts := harnessStsOf accepted hot r,
                                harnessOver := BitVec.ofNat 32 ((r.first.map (·.ovr)).getD 0) })

/-- A class's envelope before its first committed step (R154, R156, R157). -/
def State.firstEnvelope (s : State) (r : Rec) : Envelope :=
  let c : Envelope := { mu := (r.word 5).toInt, var := orDef (r.word 6).toNat 65536, k16 := orDef (r.fld 4 31 24) 128 }
  s.bindEnvelope (r.fld 1 31 26) c

/-- The management endpoint becomes active (R399), with an event for each daily that its hub holds already (R404); it requests
Hot-Join once where the controller allows it (R398). -/
def State.wakeMgmt (s : State) : State :=
  match s.rec? 0x90 (fun _ => true) with
  | none => s
  | some r =>
    let s := { s with mgmt := { s.mgmt with active := true, eid := BitVec.ofNat 8 (r.fld 1 15 8),
                                            tid := BitVec.ofNat 8 (r.fld 1 23 16), hotJoined := s.mgmt.hotJoinOn,
                                            events := s.mgmt.events ++ s.sv.dailies.map (fun d => MgmtEvent.daily d.seq) } }
    if s.mgmt.hotJoined ∧ s.mgmt.dynAddr = 0 then s.present .hotJoin else s

/-- The harness is accepted: every LCK field is locked, the units take their parts of it (R331). -/
def State.acceptHarness (s : State) (r : HarnessResult) : State :=
  let s := { s with harness := { s.harness with accepted := true, recs := r.recs, digest := r.digest, hotSeq := r.seq } }
  let s := s.modHubs (fun k => { k with regs := { k.regs with bootLocked := true } })
  let s := s.each (recsOf 0x01 s.recs) (fun c s => s.modConc (c.fld 1 7 0) (fun k => { k with enabledMask := BitVec.ofNat 16 (c.fld 2 15 0) }))
  let s := s.each s.clusters (fun c s => s.modConc c (fun k => { k with oddFirst := s.oddM }))
  let s := s.each s.clusters (fun c s => s.each (recsOf 0x30 s.recs) (fun v s =>
    s.modConc c (fun k => { k with env := k.env.set {} (v.fld 1 31 26) (s.firstEnvelope v) })))
  let s := s.eachHub (fun h s => s.orderFences h (s.allAgents.filter (s.fencedAt h)))
  s.wakeMgmt

/-- STAGE_4_HARNESS: each hub checks the words it reads; the harness is accepted when no hub rejects it (R276, R331). -/
def execStage4Harness (us : Nat) (wordsA wordsB : List W32) (s : State) : Host.Outcome State Fault Refusal :=
  live s fun s => s.runStage 4 us fun s =>
    let e := s.harnessEnv false
    let r (h : HubId) : HarnessResult := checkHarness 0 e (match h with | .a => wordsA | .b => wordsB)
    let bad := s.upHubs.filter (fun h => (r h).first.isSome)
    let s := s.eachHub (fun h s => s.recordCheck h bad.isEmpty false (r h))
    let own := r s.twin.serving
    if bad = [] then (s.acceptHarness (r s.twin.leader), .pass 0 own.good own.bad)
    else if bad.length = s.upHubs.length then (s, .fail 7 4 own.good own.bad)
    else (s, .fail 8 6 own.good own.bad)

/-! ### Stage 5 (R332, R333) -/

/-- The header of an image packet (R332): the CRC covers its upper four bytes, the most significant first, and the payload.
DEDUCED (log 103). -/
def imageHeader (count idx : Nat) (payload : List Byte) : W64 :=
  let top := 0x1A6E * 2 ^ 16 + idx % 256 * 2 ^ 8 + count % 256
  BitVec.ofNat 64 (top * 2 ^ 32 + (crc32c (bytesBE 4 top ++ payload)).toNat)

/-- A received packet is one of an image of `count` packets, with a good CRC (R332, R333). -/
def imageGood (count : Nat) (header : W64) (payload : List Byte) : Bool :=
  decide (bits header 47 40 < count ∧ header = imageHeader count (bits header 47 40) payload)

/-- The packets of an image of so many bytes (R332). -/
def imagePackets (len : Nat) : Nat := (len + 255) / 256

/-- The payload of a packet of this device's image; the last one is padded with zero bytes (R332). -/
def State.imagePayload (s : State) (len i : Nat) : List Byte :=
  (List.range 256).map (fun k => if 256 * i + k < len then Config.imageByte s.harness.digest i k else 0)

/-- The leader sends a packet, to every concentrator or to one agent (R333). -/
def State.sendPacket (s : State) (len i : Nat) (dest : Option Nat) : State :=
  s.present (.image (imageHeader (imagePackets len) i (s.imagePayload len i)) (s.imagePayload len i) dest)

/-- STAGE_5_AGENT_IMAGE: the leader sends every packet of an image of `len` bytes once, in index order. -/
def execStage5AgentImage (len : Nat) (s : State) : Host.Outcome State Fault Refusal :=
  live s fun s =>
    if s.stage = some 5 ∧ s.image = none ∧ 1 ≤ len ∧ imagePackets len ≤ 64 then
      let s := { s with image := some (len, 0) }
      let s := s.each s.allAgents (fun a s => s.modAgent a (fun g => { g with image := 0 }))
      s.each (List.range (imagePackets len)) (fun i s => s.sendPacket len i none)
    else s

/-- IMAGE_PACKET: an agent receives a packet with a good CRC; duplicates change nothing. -/
def execImagePacket (agent : Nat) (header : W64) (payload : List Byte) (s : State) : Host.Outcome State Fault Refusal :=
  live s fun s =>
    match s.image with
    | none => s
    | some (len, _) =>
      if s.stage = some 5 ∧ s.agentOn agent ∧ imageGood (imagePackets len) header payload then
        s.modAgent agent (fun g => { g with image := g.image ||| BitVec.ofNat 64 (2 ^ bits header 47 40) })
      else s

/-- An agent lacks a packet of `c`, or its concentrator has not answered and counts it so (R333). -/
def State.incomplete (s : State) (c : Nat) (silent : List Nat) (a : Nat) : Bool :=
  silent.contains (s.build.clusterOf a) || (List.range c).any (fun i => !((s.agent a).image.getLsbD i))

/-- The packets that the leader resends to an incomplete agent: those that its concentrator has returned, which some agent of the
cluster lacks; all of them where it has not answered (R333). -/
def State.lackingPackets (s : State) (c : Nat) (silent ags : List Nat) (a : Nat) : List Nat :=
  (List.range c).filter (fun i => silent.contains (s.build.clusterOf a)
    || ags.any (fun b => decide (s.build.clusterOf b = s.build.clusterOf a) && !((s.agent b).image.getLsbD i)))

/-- IMAGE_COLLECT: the bitmaps are collected; missing packets are resent for up to three rounds, then an incomplete agent is
made lame. `silent` are the concentrators that do not answer within 100 µs. -/
def execImageCollect (silent : List Nat) (s : State) : Host.Outcome State Fault Refusal :=
  live s fun s =>
    match s.image with
    | none => s
    | some (len, round) =>
      if s.stage ≠ some 5 then s
      else
        let c := imagePackets len
        let s := s.advanceTo (s.now + if silent = [] then 20000 else 100000)
        let ags := s.allAgents.filter (fun a => !s.agentLame a)
        let inc := ags.filter (s.incomplete c silent)
        if s.stageFrom + s.stageBudget 5 < s.now then s.breakStage 1
        else if inc = [] ∨ round = 3 then
          ((s.lameEach inc).endStage (.pass (unitsCause inc.length) (ags.length - inc.length) inc.length))
        else
          let s := { s with image := some (len, round + 1) }
          s.each inc (fun a s => s.each (s.lackingPackets c silent ags a) (fun i s => s.sendPacket len i (some a)))

/-! ### Stage 6 (R254, R263, R264, R334) -/

/-- A restored paddock entry (R264, R371): CLEAN 0, EVENTS as recorded, DUE at READY. -/
def padUnpack (w : W64) (cause due : Nat) : PadEntry :=
  { valid := bit w 51, agent := bits w 63 52, tile := bit w 50, agentSus := bit w 49, state := .due, events := bits w 42 39,
    cause := cause, due := due }

/-- A hub takes the recovery levels of the persisted record, but those of released positions (R334). -/
def Hub.takeRecovery (k : Hub) (rel : List Nat) (l : List (Nat × Nat)) : Hub :=
  l.foldl (fun (k : Hub) x => if rel.contains x.1 then k else k.modSrc x.1 (fun y => { y with recovery := x.2 })) k

/-- A copy is applied (R264): lame bitmap less the released units, recovery counters, paddock entries and reel
tails; the units made lame and the entries restored. -/
def State.applyPersist (s : State) (p : Persist) : State × Nat × Nat :=
  let rel := (recsOf 0x04 s.recs).map (·.fld 1 12 0)
  let fresh := p.lame.filter (fun x => !(rel.contains x) && !(s.ld.src x).lame)
  let s := s.eachHub (fun h s => s.modHub h (fun k =>
    { k.takeRecovery rel p.recovery with tailA := p.tailA, tailB := p.tailB }))
  let s := s.lameEach fresh
  let pads := p.paddock.filter (fun x => bit x.2 51 && s.agentOn (bits x.2 63 52) && !(s.agentLame (bits x.2 63 52)))
  let s := s.each pads (fun x s => (s.eachHub (fun h s => s.modHub h (fun k =>
    { k with paddock := k.paddock.set {} x.1 (padUnpack x.2 5 0) }))).syncPaddock (bits x.2 63 52))
  (s, fresh.length, pads.length)

/-- STAGE_6_LAME_LIST: the persisted record is read and applied (R334). -/
def execStage6LameList (us : Nat) (s : State) : Host.Outcome State Fault Refusal :=
  live s fun s => s.runStage 6 us fun s =>
    if !s.flash.answers then (s, .pass 10 0 0)
    else
      match s.flash.usable with
      | none => (s, .pass 9 0 0)
      | some (_, p) =>
        let (s, bad, good) := s.applyPersist p
        (s, .pass (unitsCause bad) good bad)

/-! ### Stage 7 (R335) -/

/-- The two rounds of stage 7 at a hub: the samples delivered since the stage began serve both (log 23). -/
def State.twoRounds (s : State) (h : HubId) : State :=
  let had := (s.hub h).chans.entries.filter (·.2.arrived) |>.map (·.1)
  let s := s.hkRound h
  let s := s.each had (fun c s => s.modChan h c (fun x => { x with arrived := true }))
  s.hkRound h

/-- STAGE_7_HOUSEKEEPING: the bus watch starts, two rounds run, every concentrator reads its agents' margin monitors once, of which
`counts` are the counts, and the oscillator's offset is stored. -/
def execStage7Housekeeping (us : Nat) (crystalOk : Bool) (offset : Int) (counts : List (Nat × Nat)) (s : State) : Host.Outcome State Fault Refusal :=
  live s fun s => s.runStage 7 us fun s =>
    let s := s.eachHub (fun h s => (s.modHub h (fun k =>
      { k with busWatch := true, roundMs := s.bands.roundLo, oscOffset := if crystalOk then offset else 0 })).twoRounds h)
    let s := s.each s.clusters (fun c s => s.takeMargins c counts)
    let cs := (recsOf 0x60 s.recs).map (fun r => s.chan s.twin.serving (r.fld 1 31 23))
    (s, .pass 0 (cs.filter (fun x => x.fresh && !x.stale)).length (cs.filter (·.stale)).length)

/-! ### Stage 8 (R336) -/

/-- A lane fails: retired, reported; below LANE_MIN the agent is made lame (R88, R320). -/
def State.laneFails (s : State) (a l : Nat) : State :=
  if s.build.lanes ≤ l ∨ l ∈ (s.agent a).retired ∨ s.agentLame a then s
  else
    let s := s.modAgent a (fun g => { g with retired := g.retired ++ [l] })
    if s.lanesOf a < s.laneMin then
      (s.eachHub (fun h s => s.finding h (srcId 0 a) 0x40 3 (BitVec.ofNat 48 (l % 64)))).lameEach [a]
    else s.report a 0x40 1 (BitVec.ofNat 48 (l % 64)) 0

/-- The reducer (0) or a generator pipeline (1, 2) fails: the agent is made lame. -/
def State.unitFails (s : State) (a u : Nat) : State :=
  if s.agentLame a then s
  else (s.eachHub (fun h s => s.finding h (srcId 0 a) 0x41 3 (BitVec.ofNat 48 (u % 4)))).lameEach [a]

/-- STAGE_8_KNOWN_ANSWER: failing lanes (agent, lane), failing units (agent, unit) and failing residue engines. -/
def execStage8KnownAnswer (us : Nat) (lanes units : List (Nat × Nat)) (concs : List Nat) (s : State) :
    Host.Outcome State Fault Refusal :=
  live s fun s => s.runStage 8 us fun s =>
    let ags := s.allAgents.filter (fun a => !s.agentLame a)
    let s := s.each (lanes.filter (fun x => s.agentOn x.1)) (fun x s => s.laneFails x.1 x.2)
    let s := s.each (units.filter (fun x => s.agentOn x.1)) (fun x s => s.unitFails x.1 x.2)
    let s := s.lameEach ((concs.filter (fun c => (s.clusterRec c).isSome)).map (4096 + ·))
    let good := ags.filter (fun a => !s.agentLame a)
    (s.each good (fun a s => s.passTest a), .pass (unitsCause (ags.length - good.length)) good.length (ags.length - good.length))

/-! ### Stage 10 (R338) -/

/-- READY: epoch 0, the first reel mark, paddock entries due (R55, R222, R264, R338). -/
def State.enterReady (s : State) : State :=
  let s := s.eachHub (fun h s => (s.modHub h (fun k => { k with
    reelBase := k.reelHead,
    dailyBase := k.dailiesBuilt,
    paddock := k.paddock.map {} (fun e => if e.valid then { e with due := s.clk } else e) })).setSt h .ready)
  let s := { s with readyAt := s.now, epoch := { cur := 0, started := true, since := s.now },
                    harness := { s.harness with epochClasses := [(0, recsOf 0x22 s.recs)] } }
  let s := s.each s.allAgents (fun a s => s.modAgent a (fun g => { g with keys := s.curKeys, epoch := 0, regionKeys := true }))
  s.eachHub (fun h s => s.reelMark h)

/-- STAGE_10_READY: usable agents are counted; below AGENTS_MIN the stage fails, otherwise START ends at READY. -/
def execStage10Ready (us : Nat) (s : State) : Host.Outcome State Fault Refusal :=
  live s fun s =>
    let t := s.runStage 10 us fun s =>
      let good := (s.allAgents.filter (fun a => !s.agentLame a)).length
      let bad := (s.allAgents.filter s.agentLame).length
      if good < s.agentsMin then (s, .fail 11 0 good bad) else (s.enterReady, .pass 0 good bad)
    if s.stage = some 10 ∧ t.ld.st = .ready ∧ t.busyWith 1 then t.endCmd 0 else t

end Sys2Proof.Machine
end

