-- ==== Sys2Proof/Machine/RegMap.lean ====
section
/-! DEFINITION. The hub window as it is read (R455 to R477, R243, R288, R314, R321, R347, R396, R413). -/

namespace Sys2Proof.Machine

open Sys2Proof

/-! ### Packed words -/

/-- A retake log entry as 128 bits (R189). -/
def RetakeLog.pack (r : RetakeLog) : BitVec 128 :=
  BitVec.ofNat 128 (r.task.toNat * 2 ^ 96 + r.job.toNat * 2 ^ 88 + r.decision * 2 ^ 84 + r.runs * 2 ^ 82
    + r.blame3 * 2 ^ 80 + r.blame2 * 2 ^ 78 + r.blame1 * 2 ^ 76 + r.agent1 * 2 ^ 64 + r.agent2 * 2 ^ 52
    + r.agent3 * 2 ^ 40 + r.audit2 * 2 ^ 38 + r.audit3 * 2 ^ 36 + b2n r.bounded * 2 ^ 35 + r.stamp.toNat)

/-- The entry of the port result table (R347); a port that nothing has reached and no plan names reads all zero. -/
def State.portEntry (s : State) (p : Nat) : BitVec 128 :=
  let x := s.port p
  if x = {} ∧ s.port? p = none then 0
  else
    let fresh := decide (x.result = 0)
    let ep := if fresh then p else x.entryPort
    let slice := if fresh then ((s.port? p).map (·.fld 1 18 15)).getD 0 else x.slice
    BitVec.ofNat 128 (x.peerChip.toNat * 2 ^ 64 + p * 2 ^ 48 + ep * 2 ^ 32 + x.result * 2 ^ 28 + b2n x.admitted * 2 ^ 27
      + b2n x.v1 * 2 ^ 26 + x.width * 2 ^ 16 + x.peerPort % 2 ^ 8 * 2 ^ 8 + slice)

/-- Word `i` of a quantity, the lowest first. -/
def wordLE {w : Nat} (x : BitVec w) (i : Nat) : W32 := BitVec.ofNat 32 (x.toNat / 2 ^ (32 * i))

/-- Word `i` of twelve, byte 0 of a 384-bit value in bits [31:24] of the first word (R471). -/
def word384 (n i : Nat) : W32 := BitVec.ofNat 32 (n / 2 ^ (32 * (11 - i)))

/-! ### Identity, state and command (R457 to R460, R288) -/

/-- TWIN_STS (R288). -/
def State.twinSts (s : State) : W32 :=
  at32 s.twin.lanes 16 ||| at32 (min s.sv.digestMiss 255) 8 ||| at32 (hubIdx s.twin.serving) 6
    ||| at32 (b2n s.twin.bAttached) 5 ||| at32 (b2n s.twin.aAttached) 4 ||| at32 (hubIdx s.twin.leader) 3 ||| at32 s.twin.mode 0

/-- HUB_CMD_STS (R460). -/
def State.cmdSts (s : State) : W32 :=
  at32 s.cmd.tag.toNat 24 ||| at32 s.cmd.op 16 ||| at32 (b2n s.cmd.overrun) 8 ||| at32 s.cmd.code 0

/-- The words at 0x0000 to 0x00FF. -/
def State.readIdent (s : State) (a : Nat) : W32 :=
  let k := s.sv
  match a with
  | 0x00 => idRev
  | 0x04 => at32 (b2n k.faulted) 8 ||| at32 k.st.code 0
  | 0x08 => s.keys.grade
  | 0x10 => s.twinSts
  | 0x14 => k.actionDisagree
  | 0x18 => k.digestMismatches
  | 0x1C => k.xlinkBadFrames
  | 0x20 => s.cmdSts
  | 0x24 => k.regs.arg0
  | 0x28 => k.regs.arg1
  | 0x2C => k.regs.arg2
  | 0x30 => k.regs.arg3
  | 0x34 => s.cmd.refusedCnt
  | 0x38 => (k.irq &&& 0xCF#32) ||| at32 (b2n !s.abortFifo.isEmpty) 8
  | 0x40 => wordLE s.keys.chipId 0
  | 0x44 => wordLE s.keys.chipId 1
  | 0x48 => s.keys.kcv
  | 0x4C => at32 s.epoch.cur 0
  | 0x50 => at32 (b2n s.epoch.announced) 31
  | 0x54 => at32 s.epoch.next 0
  | 0x58 => wordLE s.epoch.act 0
  | 0x5C => wordLE s.epoch.act 1
  | 0x60 => k.regs.bootCtl
  | _ => 0

/-- The harness block at 0x0100 to 0x01FF (R396). -/
def State.readHarness (s : State) (a : Nat) : W32 :=
  let k := s.sv
  match a with
  | 0x100 => k.regs.harnessAddrLo
  | 0x104 => k.regs.harnessAddrHi
  | 0x108 => k.regs.harnessLen
  | 0x10C => k.harnessSts
  | 0x110 => k.harnessOver
  | 0x114 => s.harness.hotSeq
  | 0x118 => s.harness.hotCount
  | _ => if 0x120 ≤ a ∧ a < 0x150 then s.harness.digest.getD ((a - 0x120) / 4) 0 else 0

/-- The call-sheet records at 0x0200 to 0x02FF (R321). -/
def State.readStage (s : State) (a : Nat) : W32 :=
  let n := (a - 0x200) / 16
  let r := s.stages.get {} n
  if n ≤ 10 then
    match a % 16 with
    | 0 => at32 r.stage 0
    | 4 => at32 r.cause 8 ||| at32 r.status 0
    | 8 => at32 (min r.good 65535) 16 ||| at32 (min r.bad 65535) 0
    | _ => BitVec.ofNat 32 (min (if r.status = 1 then (s.now - r.started) / 1000 else r.duration) (2 ^ 32 - 1))
  else 0

/-! ### Faults (R467, R468) -/

/-- SRC_STATE of the selected source. -/
def State.srcState (s : State) : W32 :=
  let x := s.sv.src (bits s.sv.regs.srcSel 12 0)
  at32 (b2n x.fault) 31 ||| at32 (b2n x.lame) 30 ||| at32 (b2n x.injection.isSome) 29 ||| at32 x.recovery 16 ||| at32 x.bucket 0

/-- The fault block at 0x1000 to 0x18FF; the force bitmap is WO. -/
def State.readFault (s : State) (a : Nat) : W32 :=
  let k := s.sv
  if a < 0x1400 then k.sticky.get 0 ((a - 0x1000) / 4)
  else if a < 0x1800 then 0
  else if a < 0x1838 then
    let g := (a - 0x1800) / 8
    if a % 8 = 0 then at32 (s.grpQ g) 20 ||| at32 (s.grpL g) 16 ||| at32 (s.grpN g) 0 else at32 (s.grpW g) 0
  else if a = 0x1840 then k.regs.forceCtrl
  else if a = 0x1844 then k.regs.forceAddrLo
  else if a = 0x1848 then k.regs.forceAddrHi
  else if a = 0x1850 then k.regs.srcSel
  else if a = 0x1854 then s.srcState
  else if 0x1880 ≤ a ∧ a < 0x18A8 then
    (if a = 0x1890 then k.reelWraps else if a = 0x1894 then k.reelStopped else k.ctr.get 0 ((a - 0x1880) / 4))
  else if a = 0x18A8 then k.intake.droppedS0
  else if a = 0x18AC then k.intake.droppedS1
  else if a = 0x18B0 then k.intake.mergedS2
  else 0

/-- LAMEw: the lame agents of a word. -/
def Hub.lameWord (k : Hub) (w : Nat) : W32 :=
  (List.range 32).foldl (fun x b => if (k.src (32 * w + b)).lame then x ||| at32 1 b else x) 0

/-- The lame map, the paddock list, the retake statistics and log at 0x2000 to 0x2BFF. -/
def State.readRetake (s : State) (a : Nat) : W32 :=
  if a < 0x2200 then s.sv.lameWord ((a - 0x2000) / 4)
  else if a < 0x2400 then wordLE (s.sv.paddock.get {} ((a - 0x2200) / 8)).pack (a / 4 % 2)
  else if a = 0x2400 then s.retakesOrdered
  else if a = 0x2404 then s.retakeTimeouts
  else if a = 0x2408 then s.staleReleases
  else if a = 0x240C then at32 (s.openRetakes (fun _ => true)).length 0
  else if 0x2410 ≤ a ∧ a < 0x2434 then s.decCnt.get 0 ((a - 0x2410) / 4 + 1)
  else if a = 0x2440 then s.logHead
  else if 0x2800 ≤ a then
    match s.retakeLog.get none ((a - 0x2800) / 16) with
    | none => 0
    | some r => wordLE r.pack (a / 4 % 4)
  else 0

/-! ### Step gate and job aborts (R469) -/

/-- GATE_STS of the selected job. -/
def State.gateSts (s : State) : W32 :=
  let j := s.job (bits s.sv.regs.gateSel 7 0)
  at32 (b2n j.active) 31 ||| at32 (b2n j.pending.isSome) 30 ||| at32 (min j.opens.length 3) 28
    ||| at32 (min (j.opens.filter (·.ended)).length 3) 26 ||| at32 (b2n j.abortHeld) 25

/-- The step-gate block at 0x0400 to 0x04FF. -/
def State.readGate (s : State) (a : Nat) : W32 :=
  if a = 0x404 then s.sv.regs.gateSel
  else if a = 0x408 then s.gateSts
  else if 0x410 ≤ a ∧ a < 0x450 then
    match ((s.job (bits s.sv.regs.gateSel 7 0)).history.drop ((a - 0x410) / 16)).head? with
    | none => 0
    | some (step, clk) => wordLE (if a % 16 < 8 then step else clk) (a / 4 % 2)
  else if a = 0x490 then at32 s.sv.odd.toNat 0
  else
    match s.abortFifo.head? with
    | none => 0
    | some e =>
      if a = 0x480 then at32 1 31 ||| at32 e.kind.toNat 16 ||| at32 e.job.toNat 0
      else if a = 0x488 then wordLE e.stamp 0
      else if a = 0x48C then wordLE e.stamp 1
      else 0

/-! ### Slate, step clock, TCC, input log, signing (R471) -/

/-- The slate block at 0x3000 to 0x30FF. -/
def State.readSlate (s : State) (a : Nat) : W32 :=
  let j := s.job (bits s.sv.regs.slateSel 7 0)
  let m := j.mismatch.getD {}
  if a < 0x30A8 then s.sv.regs.slate.get 0 ((a - 0x3000) / 4)
  else match a with
    | 0x30C4 => s.sv.regs.slateSel
    | 0x30C8 => at32 (b2n j.mismatch.isSome) 31 ||| at32 m.reason 16 ||| at32 m.port 0
    | 0x30CC => wordLE m.peerStep 0
    | 0x30D0 => wordLE m.peerStep 1
    | 0x30D4 => wordLE j.digest 0
    | 0x30D8 => wordLE j.digest 1
    | 0x30DC => s.restoreSkipped
    | _ => 0

/-- The step-clock block at 0x3100 to 0x31FF and the TCC block at 0x3200 to 0x32FF. -/
def State.readClock (s : State) (a : Nat) : W32 :=
  let j := s.job (bits s.sv.regs.tccSel 7 0)
  match a with
  | 0x3100 => wordLE s.clock.count 0
  | 0x3104 => wordLE s.clock.count 1
  | 0x3108 => at32 (b2n s.clock.lost) 1 ||| at32 (b2n s.clock.synced) 0
  | 0x3200 => s.sv.regs.tccSel
  | 0x3204 => wordLE j.tcc 0
  | 0x3208 => wordLE j.tcc 1
  | 0x320C => wordLE j.tccLive 0
  | 0x3210 => wordLE j.tccLive 1
  | 0x3214 => s.tccOrphan
  | _ => 0

/-- The input-log and replay block at 0x3300 to 0x33FF. -/
def State.readReplay (s : State) (a : Nat) : W32 :=
  let r := s.replay
  match a with
  | 0x3300 => wordLE s.inlog.head 0
  | 0x3304 => wordLE s.inlog.head 1
  | 0x3308 => s.inlog.wraps
  | 0x330C => at32 (b2n r.active) 31 ||| at32 (b2n r.diverged) 30 ||| at32 (b2n r.liveAbsent) 29 ||| at32 (b2n r.recAbsent) 28
      ||| at32 (b2n r.byTcc) 27 ||| at32 r.recJob.toNat 8 ||| at32 r.liveJob.toNat 0
  | 0x3310 => wordLE r.step 0
  | 0x3314 => wordLE r.step 1
  | 0x3318 => r.liveCnt
  | 0x331C => r.recCnt
  | _ =>
    if 0x3320 ≤ a ∧ a < 0x3330 then r.liveEntry.getD ((a - 0x3320) / 4) 0
    else if 0x3330 ≤ a ∧ a < 0x3340 then r.recEntry.getD ((a - 0x3330) / 4) 0
    else 0

/-- The signing block and the public key at 0x3400 to 0x35FF. -/
def State.readSign (s : State) (a : Nat) : W32 :=
  let r := s.sign
  match a with
  | 0x3400 => at32 (b2n r.valid) 31 ||| at32 (b2n r.closed) 30 ||| at32 r.stream 8 ||| at32 r.job.toNat 0
  | 0x3404 => wordLE r.first 0
  | 0x3408 => wordLE r.first 1
  | 0x340C => wordLE r.last 0
  | 0x3410 => wordLE r.last 1
  | 0x3520 => r.ungated
  | _ =>
    if 0x3420 ≤ a ∧ a < 0x3450 then word384 (natBE r.head) ((a - 0x3420) / 4)
    else if 0x3450 ≤ a ∧ a < 0x3480 then word384 r.r ((a - 0x3450) / 4)
    else if 0x3480 ≤ a ∧ a < 0x34B0 then word384 r.s ((a - 0x3480) / 4)
    else if 0x34C0 ≤ a ∧ a < 0x34F0 then word384 s.keys.pubX ((a - 0x34C0) / 4)
    else if 0x34F0 ≤ a ∧ a < 0x3520 then word384 s.keys.pubY ((a - 0x34F0) / 4)
    else 0

/-- SLATE_READw: the selected job's slate while it is active. -/
def State.readSlateWord (s : State) (a : Nat) : W32 :=
  let j := s.job (bits s.sv.regs.slateSel 7 0)
  if j.active ∧ a < 0x36A8 then j.slate.get 0 ((a - 0x3600) / 4) else 0

/-! ### Housekeeping, management (R314, R413) -/

/-- THR_REQ. -/
def State.thrReq (s : State) : W32 :=
  (List.range s.build.dies).foldl (fun w d =>
    let t := s.sv.thermal.get {} d
    w ||| at32 t.req (3 * d) ||| at32 (b2n t.ask) (24 + d)) 0

/-- The housekeeping block at 0x4000 to 0x4FFF. -/
def State.readHk (s : State) (a : Nat) : W32 :=
  let k := s.sv
  match a with
  | 0x4000 => at32 (b2n k.fallback) 15 ||| at32 (b2n k.busWatch) 14 ||| at32 k.roundMs 0
  | 0x4004 => s.curbSts
  | 0x4008 => s.thrReq
  | 0x400C => k.thrEvt
  | 0x4010 => k.regs.bandSel
  | 0x4014 => k.regs.bandLo
  | 0x4018 => k.regs.bandHi
  | _ =>
    if 0x4100 ≤ a ∧ a < 0x4900 then
      let c := (a - 0x4100) / 4
      let x := k.chans.get {} c
      at32 (b2n (k.src (4384 + c)).fault) 17 ||| at32 (b2n x.stale) 16 ||| at32 x.value.toNat 0
    else 0

/-- The code of an event receiver mode (R413). -/
def modeCode : EventMode → Nat
  | .disabled => 0
  | .polling => 1
  | .async => 2
  | .keepAlive => 3

/-- Events held for polling or acknowledgement (R413). -/
def Mgmt.held (m : Mgmt) : Nat := m.events.length + m.polled.length + b2n m.inFlight.isSome

/-- The management block at 0x5000 to 0x5FFF. -/
def State.readMgmt (s : State) (a : Nat) : W32 :=
  let m := s.mgmt
  match a with
  | 0x5000 => at32 (b2n m.active) 31 ||| at32 (b2n m.receiver) 30 ||| at32 (modeCode m.mode) 28 ||| at32 (min m.held 15) 24
      ||| at32 m.tid.toNat 16 ||| at32 m.eid.toNat 8 ||| at32 m.dynAddr.toNat 0
  | 0x5004 => s.sv.dailiesBuilt
  | 0x5008 => s.sv.dailiesSent
  | 0x500C => s.sv.dailiesDropped
  | 0x5010 => s.sv.mctpDiscarded
  | _ => 0

/-! ### Windows, test engine (R472, R476, R477) -/

/-- The reel or tail entry that REEL_SEL selects, as 128 bits; a slot that holds no entry reads 0. -/
def State.reelEntry (s : State) : BitVec 128 :=
  let k := s.sv
  let sel := k.regs.reelSel
  let i := bits sel 15 0
  if bit sel 31 then
    let m := (if bit sel 30 then k.tailB else k.tailA).get {} (i % 4096)
    if m = {} then 0 else m.pack
  else
    let p := (i + k.reelBase.toNat) % 65536
    if p < k.reelHead.toNat ∨ k.reelWraps ≠ 0 then (k.reel.get {} p).pack else 0

/-- The indirect and reel windows at 0x6000 to 0x701F. -/
def State.readWindow (s : State) (a : Nat) : W32 :=
  let k := s.sv
  match a with
  | 0x6000 => k.regs.indSel
  | 0x6004 => k.regs.indAddr
  | 0x6008 => s.ind.data
  | 0x600C => at32 (b2n s.ind.noUnit) 2 ||| at32 (b2n s.ind.err) 1 ||| at32 (b2n s.ind.pending) 0
  | 0x7000 => k.regs.reelSel
  | 0x7004 => k.reelHead - k.reelBase
  | _ => if 0x7010 ≤ a ∧ a < 0x7020 then wordLE s.reelEntry ((a - 0x7010) / 4) else 0

/-- The test-engine block at 0x8000 to 0x80FF. -/
def State.readTest (s : State) (a : Nat) : W32 :=
  let t := s.test
  let has (p : PatSet) (n : Nat) : W32 := at32 (b2n (t.sets.contains p)) n
  match a with
  | 0x8000 => has .tile 16 ||| has .agent 17 ||| has .conc 18 ||| has .hub 19
      ||| at32 (t.trots.filter (fun x => decide (1 ≤ x.step ∧ x.step ≤ 9))).length 8 ||| at32 (b2n s.testReady) 0
  | 0x8004 => t.deferred
  | 0x8008 => t.abandoned
  | 0x800C => t.exits
  | 0x8010 => t.passed
  | 0x8014 => t.failed
  | 0x8020 => at32 (b2n t.wrapDone) 31 ||| at32 (b2n t.imageAbsent) 30 ||| at32 (b2n t.recordWritten) 29
      ||| at32 t.hubTested.toNat 16 ||| at32 t.groupsDone.toNat 0
  | 0x8024 => t.wrapFails
  | 0x8028 => at32 s.wrapGroup 0
  | _ => 0

/-- The present value of a word of the hub window (R456); a word that no table names reads 0 (R455). -/
def State.regLive (s : State) (a : Nat) : W32 :=
  if a < 0x100 then s.readIdent a
  else if a < 0x200 then s.readHarness a
  else if a < 0x300 then s.readStage a
  else if 0x400 ≤ a ∧ a < 0x500 then s.readGate a
  else if 0x1000 ≤ a ∧ a < 0x1900 then s.readFault a
  else if 0x2000 ≤ a ∧ a < 0x2C00 then s.readRetake a
  else if 0x3000 ≤ a ∧ a < 0x3100 then s.readSlate a
  else if 0x3100 ≤ a ∧ a < 0x3300 then s.readClock a
  else if 0x3300 ≤ a ∧ a < 0x3400 then s.readReplay a
  else if 0x3400 ≤ a ∧ a < 0x3600 then s.readSign a
  else if 0x3600 ≤ a ∧ a < 0x3700 then s.readSlateWord a
  else if 0x4000 ≤ a ∧ a < 0x5000 then s.readHk a
  else if 0x5000 ≤ a ∧ a < 0x6000 then s.readMgmt a
  else if 0x6000 ≤ a ∧ a < 0x7020 then s.readWindow a
  else if 0x8000 ≤ a ∧ a < 0x8100 then s.readTest a
  else if 0x9000 ≤ a ∧ a < 0xA000 then wordLE (s.portEntry ((a - 0x9000) / 16)) (a / 4 % 4)
  else 0

/-! ### Latches of multi-word quantities (R455) -/

/-- 64-bit quantities and multi-word records: first word, words, how many, distance. A 64-bit quantity inside a record is latched
with the record. -/
def latchTable : List (Nat × Nat × Nat × Nat) :=
  [(0x40, 2, 1, 0), (0x58, 2, 1, 0), (0x120, 12, 1, 0), (0x200, 4, 11, 16), (0x410, 4, 4, 16), (0x480, 4, 1, 0),
   (0x2200, 2, 64, 8), (0x2800, 4, 64, 16), (0x30C8, 3, 1, 0), (0x30D4, 2, 1, 0), (0x3100, 2, 1, 0), (0x3204, 2, 1, 0),
   (0x320C, 2, 1, 0), (0x3300, 2, 1, 0), (0x3310, 2, 1, 0), (0x3320, 4, 2, 16), (0x3400, 44, 1, 0),
   (0x34C0, 12, 2, 48), (0x3608, 2, 5, 8), (0x3630, 12, 2, 48), (0x3698, 2, 1, 0), (0x7010, 4, 1, 0), (0x9000, 4, 256, 16)]

/-- The quantity that a word belongs to: its first word and its words. -/
def latchGroup (a : Nat) : Option (Nat × Nat) :=
  latchTable.findSome? (fun e =>
    let f := e.1
    let n := e.2.1
    let d := if e.2.2.2 = 0 then 4 * n else e.2.2.2
    let k := (a - f) / d
    if f ≤ a ∧ k < e.2.2.1 ∧ a < f + k * d + 4 * n then some (f + k * d, n) else none)

/-- The word a read returns: the latched one of a multi-word quantity that has been latched, or the present one. -/
def State.regRead (s : State) (a : Nat) : W32 :=
  match latchGroup a with
  | none => s.regLive a
  | some (f, _) => if a = f then s.regLive a else (s.latch.get none a).getD (s.regLive a)

/-- A read of the lowest word latches the whole quantity. -/
def State.latchWord (s : State) (a : Nat) : State :=
  match latchGroup a with
  | none => s
  | some (f, n) =>
    if a = f then
      { s with latch := (List.range n).foldl (fun m i => m.set none (f + 4 * i) (some (s.regLive (f + 4 * i)))) s.latch }
    else s

end Sys2Proof.Machine
end

