-- ==== Sys2Proof/Machine/Management.lean ====
section
/-! DEFINITION. The management port: I3C target, MCTP and PLDM answers, sensors, events and dailies (R398 to R414). -/

namespace Sys2Proof.Machine

open Sys2Proof

/-! ### The target (R398 to R400) -/

/-- The endpoint drives the bus: active, and a hub is left that serves (R399, R400). Hubs that ought to strobe the alive cell and do not
have both failed (R292); a chip stop or a failed call sheet, which ends the strobes, leaves the endpoint. -/
def State.mgmtOn (s : State) : Bool :=
  s.mgmt.active && s.hubUp s.twin.serving && !(s.alive.forWant && s.sv.st.pastReady) && !(s.clockBad 4)

/-- The target is addressed: it has a dynamic address. -/
def State.addressed (s : State) : Bool := s.mgmtOn && decide (s.mgmt.dynAddr ≠ 0)

/-- Change the endpoint. -/
def State.modMgmt (s : State) (f : Mgmt → Mgmt) : State := { s with mgmt := f s.mgmt }

/-- An MCTP message of `n` bytes in packets of at most 64 payload bytes, the transmission unit (R401). -/
def packetSizes (n : Nat) : List Nat := (List.range ((n + 63) / 64)).map (fun i => min 64 (n - 64 * i))

/-- The bytes of an answer's MCTP message; those of DMTF's headers and forms are not Lenvi's (log 114). An answer of the I3C target is
no MCTP message. -/
def MgmtReply.size : MgmtReply → Nat
  | .i3cAck | .i3cByte _ | .i3cWord _ | .i3cPid _ => 0
  | .event _ _ part _ => part.length + Config.messageBytes 0x100
  | .mctpEid _ _ _ => Config.messageBytes 0x101
  | .mctpUuid _ _ => Config.messageBytes 0x102
  | .mctpVersion _ _ _ => Config.messageBytes 0x103
  | .mctpTypes _ => Config.messageBytes 0x104
  | .pldmTid _ => Config.messageBytes 0x105
  | .pldmVersion _ _ _ => Config.messageBytes 0x106
  | .pldmTypes _ => Config.messageBytes 0x107
  | .pldmCommands _ => Config.messageBytes 0x108
  | .receiver _ _ _ => Config.messageBytes 0x109
  | .eventClasses _ => Config.messageBytes 0x10A
  | .bufferSize _ => Config.messageBytes 0x10B
  | .sensor _ => Config.messageBytes 0x10C
  | .stateSensor _ => Config.messageBytes 0x10D
  | .pdrInfo _ => Config.messageBytes 0x10E
  | .pdrLocator _ _ => Config.messageBytes 0x10F
  | .pdrNumeric _ _ _ _ => Config.messageBytes 0x110
  | .pdrState _ => Config.messageBytes 0x111
  | .completion _ => Config.messageBytes 0x112

/-- An answer of the I3C target itself. -/
def MgmtReply.isI3c : MgmtReply → Bool
  | .i3cAck | .i3cByte _ | .i3cWord _ | .i3cPid _ => true
  | _ => false

/-- An answer leaves, an MCTP message in its packets. -/
def State.mgmtReply (s : State) (r : MgmtReply) : State :=
  if r.isI3c then s.present (.mgmt r) else (s.present (.mgmt r)).present (.mctp (packetSizes r.size))

/-- An answer of the endpoint, where it is addressed, with an effect. -/
def State.answer (s : State) (r : State → MgmtReply) (f : Mgmt → Mgmt) : State :=
  if s.addressed then (s.modMgmt f).mgmtReply (r s) else s

/-- The MGMT record. -/
def State.mgmtRec (s : State) : Rec := (s.rec? 0x90 (fun _ => true)).getD { type := 0x90, words := [], sec := 0, idx := 0 }

/-- PID of the MGMT record. -/
def State.pid (s : State) : Addr := BitVec.ofNat 48 (s.mgmtRec.addr 2)

/-- STATIC_ADDR of the MGMT record; 0 for none. -/
def State.staticAddr (s : State) : Nat := s.mgmtRec.fld 1 6 0

/-- ENTDAA: the target without an address takes one through its PID, where it has no static address (R398). -/
def execEntdaa (addr : BitVec 7) (s : State) : Host.Outcome State Fault Refusal :=
  live s fun s =>
    if s.mgmtOn ∧ s.staticAddr = 0 ∧ s.mgmt.dynAddr = 0 then
      (s.modMgmt (fun m => { m with dynAddr := addr })).present (.mgmt (.i3cPid s.pid))
    else s

/-- SETDASA: the address is set from the static address (R398). -/
def execSetdasa (addr : BitVec 7) (s : State) : Host.Outcome State Fault Refusal :=
  live s fun s =>
    if s.mgmtOn ∧ s.staticAddr ≠ 0 ∧ s.mgmt.dynAddr = 0 then
      (s.modMgmt (fun m => { m with dynAddr := addr })).present (.mgmt .i3cAck)
    else s

/-- RSTDAA: the dynamic address is cleared; held events stay held (R398, R414). -/
def execRstdaa (s : State) : Host.Outcome State Fault Refusal :=
  live s fun s => if s.mgmtOn then (s.modMgmt (fun m => { m with dynAddr := 0 })).present (.mgmt .i3cAck) else s

/-- Target events by bit of ENEC and DISEC: 0 in-band interrupts, 3 Hot-Join (PRESUMED, I3C; log 24). -/
def Mgmt.events? (m : Mgmt) (b : Byte) (v : Bool) : Mgmt :=
  { m with eventsOn := if b.getLsbD 0 then v else m.eventsOn, hotJoinOn := if b.getLsbD 3 then v else m.hotJoinOn }

/-- ENEC: target events are enabled (R398). The target listens before it is active. -/
def execEnec (events : Byte) (s : State) : Host.Outcome State Fault Refusal :=
  live s fun s => s.modMgmt (fun m => m.events? events true)

/-- DISEC: target events are disabled (R398). -/
def execDisec (events : Byte) (s : State) : Host.Outcome State Fault Refusal :=
  live s fun s => s.modMgmt (fun m => m.events? events false)

/-- GETPID: the provisioned ID (R398, R399). -/
def execGetpid (s : State) : Host.Outcome State Fault Refusal :=
  live s fun s => s.answer (fun s => .i3cPid s.pid) id

/-- GETBCR: 0x06 (R398). -/
def execGetbcr (s : State) : Host.Outcome State Fault Refusal :=
  live s fun s => s.answer (fun _ => .i3cByte 0x06) id

/-- GETDCR: 0x00 (R398). -/
def execGetdcr (s : State) : Host.Outcome State Fault Refusal :=
  live s fun s => s.answer (fun _ => .i3cByte 0x00) id

/-- GETSTATUS: R398 answers it and gives no value (log 9). -/
def execGetstatus (s : State) : Host.Outcome State Fault Refusal :=
  live s fun s =>
    if s.addressed then { s with freeCtr := s.freeCtr + 1 }.present (.mgmt (.i3cWord (Config.freeStatus s.freeCtr))) else s

/-- GETMRL: the maximum read length (R398). -/
def execGetmrl (s : State) : Host.Outcome State Fault Refusal :=
  live s fun s => s.answer (fun s => .i3cWord s.mgmt.mrl) id

/-- GETMWL: the maximum write length (R398). -/
def execGetmwl (s : State) : Host.Outcome State Fault Refusal :=
  live s fun s => s.answer (fun s => .i3cWord s.mgmt.mwl) id

/-- A length that SETMRL and SETMWL accept (R398). -/
def lengthOk (n : BitVec 16) : Bool := decide (69 ≤ n.toNat ∧ n.toNat ≤ 256)

/-- SETMRL: 69 to 256 (R398); another length is not accepted. -/
def execSetmrl (n : BitVec 16) (s : State) : Host.Outcome State Fault Refusal :=
  live s fun s => s.answer (fun _ => .i3cAck) (fun m => if lengthOk n then { m with mrl := n } else m)

/-- SETMWL: 69 to 256 (R398); another length is not accepted. -/
def execSetmwl (n : BitVec 16) (s : State) : Host.Outcome State Fault Refusal :=
  live s fun s => s.answer (fun _ => .i3cAck) (fun m => if lengthOk n then { m with mwl := n } else m)

/-! ### MCTP (R401) -/

/-- MCTP_DISCARD: a message of another type, or a packet with a bad PEC (R401, R413). -/
def execMctpDiscard (s : State) : Host.Outcome State Fault Refusal :=
  live s fun s =>
    if s.addressed then s.modHub s.twin.serving (fun k => { k with mctpDiscarded := satInc k.mctpDiscarded }) else s

/-- Static EID: the MGMT EID is nonzero and unchanged (R401). -/
def State.staticEid (s : State) : Bool :=
  let e := s.mgmtRec.fld 1 15 8
  decide (e ≠ 0 ∧ s.mgmt.eid.toNat = e)

/-- SET_ENDPOINT_ID: accepted in every case (R401). -/
def execSetEndpointId (eid : Byte) (s : State) : Host.Outcome State Fault Refusal :=
  live s fun s => s.answer (fun _ => .completion 0) (fun m => { m with eid := eid })

/-- GET_ENDPOINT_ID (R401). -/
def execGetEndpointId (s : State) : Host.Outcome State Fault Refusal :=
  live s fun s => s.answer (fun s => .mctpEid s.mgmt.eid 0 s.staticEid) id

/-- GET_ENDPOINT_UUID: 0x7A34 and CHIP_ID (R401). -/
def execGetEndpointUuid (s : State) : Host.Outcome State Fault Refusal :=
  live s fun s => s.answer (fun s => .mctpUuid 0x7A34 s.keys.chipId) id

/-- GET_MCTP_VERSION_SUPPORT: 1.3.1 for the base (0xFF), control (0x00) and PLDM (0x01) (R401). -/
def execGetMctpVersionSupport (type : Byte) (s : State) : Host.Outcome State Fault Refusal :=
  live s fun s => s.answer (fun _ =>
    if type = 0xFF#8 ∨ type = 0#8 ∨ type = 1#8 then .mctpVersion 1 3 1 else .completion (Config.freeCompletion type.toNat)) id

/-- GET_MESSAGE_TYPE_SUPPORT: 0x00 and 0x01 (R401). -/
def execGetMessageTypeSupport (s : State) : Host.Outcome State Fault Refusal :=
  live s fun s => s.answer (fun _ => .mctpTypes [0x00, 0x01]) id

/-- ERROR_UNSUPPORTED_CMD: a control command outside the table of R401. -/
def execErrorUnsupportedCmd (code : Byte) (s : State) : Host.Outcome State Fault Refusal :=
  live s fun s => if 1 ≤ code.toNat ∧ code.toNat ≤ 5 then s else s.answer (fun _ => .completion 0x05) id

/-! ### PLDM control and discovery (R402) -/

/-- SET_TID: any TID but 0x00 and 0xFF (R402). -/
def execSetTid (tid : Byte) (s : State) : Host.Outcome State Fault Refusal :=
  live s fun s =>
    if tid = 0#8 ∨ tid = 0xFF#8 then s.answer (fun _ => .completion (Config.freeCompletion tid.toNat)) id
    else s.answer (fun _ => .completion 0) (fun m => { m with tid := tid })

/-- GET_TID (R402). -/
def execGetTid (s : State) : Host.Outcome State Fault Refusal :=
  live s fun s => s.answer (fun s => .pldmTid s.mgmt.tid) id

/-- GET_PLDM_VERSION: type 0 at 1.0.0, type 2 at 1.3.0 (R402). -/
def execGetPldmVersion (type : Byte) (s : State) : Host.Outcome State Fault Refusal :=
  live s fun s => s.answer (fun _ =>
    if type = 0#8 then .pldmVersion 1 0 0 else if type = 2#8 then .pldmVersion 1 3 0
    else .completion (Config.freeCompletion type.toNat)) id

/-- GET_PLDM_TYPES: 0 and 2 (R402). -/
def execGetPldmTypes (s : State) : Host.Outcome State Fault Refusal :=
  live s fun s => s.answer (fun _ => .pldmTypes [0, 2]) id

/-- The commands of R402 by type. -/
def pldmCommands (type : Byte) : List Byte :=
  if type = 0#8 then [0x01, 0x02, 0x03, 0x04, 0x05]
  else if type = 2#8 then [0x04, 0x05, 0x0B, 0x0C, 0x0D, 0x11, 0x21, 0x50, 0x51]
  else []

/-- GET_PLDM_COMMANDS (R402). -/
def execGetPldmCommands (type : Byte) (s : State) : Host.Outcome State Fault Refusal :=
  live s fun s => s.answer (fun _ =>
    if pldmCommands type = [] then .completion (Config.freeCompletion type.toNat) else .pldmCommands (pldmCommands type)) id

/-- ERROR_UNSUPPORTED_PLDM_CMD: 0x05 for another command of type 0 or 2, 0x20 for another type (R402). -/
def execErrorUnsupportedPldmCmd (type code : Byte) (s : State) : Host.Outcome State Fault Refusal :=
  live s fun s =>
    if (pldmCommands type).contains code then s
    else s.answer (fun _ => .completion (if type = 0#8 ∨ type = 2#8 then 0x05 else 0x20)) id

/-! ### Event settings (R402) -/

/-- SET_EVENT_RECEIVER: mode, receiver and, for keep-alive, a heartbeat of 10 s to 3,600 s (R402). -/
def execSetEventReceiver (mode : EventMode) (eid : Byte) (heartbeat : Nat) (s : State) : Host.Outcome State Fault Refusal :=
  live s fun s =>
    if mode = .keepAlive ∧ (heartbeat < 10 ∨ 3600 < heartbeat) then
      s.answer (fun _ => .completion (Config.freeCompletion heartbeat)) id
    else
      let t := s.now
      s.answer (fun _ => .completion 0) (fun m =>
        { m with receiver := true, mode := mode, receiverEid := eid, heartbeat := heartbeat, heartbeatAt := t })

/-- GET_EVENT_RECEIVER (R402). -/
def execGetEventReceiver (s : State) : Host.Outcome State Fault Refusal :=
  live s fun s => s.answer (fun s => .receiver s.mgmt.mode s.mgmt.receiverEid s.mgmt.heartbeat) id

/-- EVENT_MESSAGE_SUPPORTED: the classes of R404 (R402). -/
def execEventMessageSupported (s : State) : Host.Outcome State Fault Refusal :=
  live s fun s => s.answer (fun _ => .eventClasses [0x00, 0x04, 0x05, 0x06, 0x07]) id

/-- EVENT_MESSAGE_BUFFER_SIZE: the receiver's size is recorded, 256 bytes stated (R402). -/
def execEventMessageBufferSize (n : Nat) (s : State) : Host.Outcome State Fault Refusal :=
  live s fun s => s.answer (fun _ => .bufferSize 256) (fun m => { m with bufferSize := n })

/-! ### Sensors and PDRs (R403) -/

/-- A die holds agents. -/
def Build.dieUsed (b : Build) (d : Nat) : Bool := (List.range b.clusters).any (fun c => decide (b.dieOfCluster c = d))

/-- Sensors of the dies that hold agents. -/
def State.dieSensors (s : State) (base : Nat) : List Nat :=
  ((List.range 8).filter (Build.dieUsed s.build)).map (base + ·)

/-- The sensors that exist (R403). -/
def State.sensors (s : State) : List Nat :=
  s.dieSensors 0x01 ++ (List.range (min 2 (s.chansOf 3).length)).map (0x11 + ·) ++ s.dieSensors 0x21 ++ s.dieSensors 0x31
    ++ [0x100, 0x101, 0x102, 0x103, 0x104]

/-- A state sensor. -/
def stateSensor (id : Nat) : Bool := decide (id = 0x100 ∨ id = 0x101)

/-- The reading of a numeric sensor; none where its operational state is unavailable (R403). -/
def State.reading (s : State) (id : Nat) : Option Int :=
  let h := s.twin.serving
  if id < 0x10 then s.dieTemp h (id - 1)
  else if id < 0x20 then
    match (s.chansOf 3).drop (id - 0x11) with
    | [] => none
    | c :: _ => if (s.chan h c).stale || (s.hub h).fences? (4384 + c) then none else some (s.chan h c).value.toNat
  else if id < 0x30 then some (s.curbShown (id - 0x21))
  else if id < 0x40 then (s.lowestMargin (id - 0x31)).map (·)
  else if id = 0x102 then some (s.enabledAgents.filter (fun a => !((s.hub h).src a).lame)).length
  else if id = 0x103 then some ((s.hub h).srcs.entries.filter (fun e => e.2.lame)).length
  else some ((s.hub h).paddock.entries.filter (fun e => e.2.valid)).length

/-- The thresholds that a sensor's PDR holds (R403). -/
def State.thresholds (s : State) (id : Nat) : List Int :=
  if id < 0x10 then [s.tWarn (id - 1), s.tCrit (id - 1)]
  else if id < 0x20 then [(s.busLo : Int), (s.busHi : Int), (s.busCollapse : Int)]
  else if 0x31 ≤ id ∧ id < 0x40 then [(s.marginLow 61604 : Int)]
  else []

/-- GET_SENSOR_READING (R402, R403). -/
def execGetSensorReading (id : BitVec 16) (s : State) : Host.Outcome State Fault Refusal :=
  live s fun s => s.answer (fun s =>
    if s.sensors.contains id.toNat && !(stateSensor id.toNat) then .sensor (s.reading id.toNat)
    else .completion (Config.freeCompletion id.toNat)) (fun m => m)

/-- GET_STATE_SENSOR_READINGS: hub state and twin mode (R402, R403). -/
def execGetStateSensorReadings (id : BitVec 16) (s : State) : Host.Outcome State Fault Refusal :=
  live s fun s => s.answer (fun s =>
    if id = 0x100#16 then .stateSensor (some (s.sv.st.code + 1))
    else if id = 0x101#16 then .stateSensor (some (s.twin.mode + 1))
    else .completion (Config.freeCompletion id.toNat)) (fun m => m)

/-- GET_PDR_REPOSITORY_INFO: one terminus locator PDR, and one PDR for each sensor (R402). -/
def execGetPdrRepositoryInfo (s : State) : Host.Outcome State Fault Refusal :=
  live s fun s => s.answer (fun s => .pdrInfo (s.sensors.length + 1)) id

/-- The unit of a numeric sensor and its resolution, a numerator and a denominator (R403). -/
def sensorUnit (id : Nat) : SensorUnit × Nat × Nat :=
  if id < 0x10 then (.celsius, 1, 16)
  else if id < 0x20 then (.volt, 1, 1000)
  else if 0x31 ≤ id ∧ id < 0x40 then (.ratio, 1, 65536)
  else (.count, 1, 1)

/-- The PDR of a sensor (R402, R403). -/
def State.pdrOf (s : State) (id : Nat) : MgmtReply :=
  if stateSensor id then .pdrState (BitVec.ofNat 16 id)
  else .pdrNumeric (BitVec.ofNat 16 id) (sensorUnit id).1 (sensorUnit id).2 (s.thresholds id)

/-- GET_PDR: record 0 is the terminus locator, with which the model publishes the device's public key, for R373 names the management
port and no message of it (DESIGN CHOICE, log 114); the others are the sensors' in order (R402). -/
def execGetPdr (index : Nat) (s : State) : Host.Outcome State Fault Refusal :=
  live s fun s => s.answer (fun s =>
    if index = 0 then .pdrLocator s.keys.pubX s.keys.pubY
    else match s.sensors.drop (index - 1) with
      | [] => .completion (Config.freeCompletion index)
      | x :: _ => s.pdrOf x) id

/-- The sensors whose thresholds differ after a hot update; their PDRs have changed (R403). -/
def State.changedPdrs (s t : State) : List (BitVec 16) :=
  (s.sensors.filter (fun x => decide (s.thresholds x ≠ t.thresholds x))).map (BitVec.ofNat 16)

/-- The endpoint tells of changed PDRs. -/
def State.pdrEvent (s : State) (l : List (BitVec 16)) : State := if l = [] then s else s.mgmtPush (.pdrChange l)

/-! ### The CPER record of a daily (R408 to R411) -/

/-- A GUID of R408 and R409 in UEFI byte order; they differ in their last digit of the first field. -/
def lenviGuid (n : Nat) : List Byte :=
  [BitVec.ofNat 8 (0x10 + n), 0x9C#8, 0x3E#8, 0x6B#8, 0x34#8, 0x7A#8, 0x21#8, 0x4C#8, 0x8D#8, 0x52#8, 0x0E#8, 0x4F#8, 0x1A#8,
   0x7B#8, 0x6C#8, 0x93#8]

/-- The CPER severity of an entry (R408). -/
def cperSeverity (m : Msg) : Nat := match m.sev.toNat with | 0 => 3 | 1 => 2 | 4 => 1 | _ => 0

/-- The ASCII bytes of a string. -/
def ascii (t : String) : List Byte := t.toList.map (fun c => BitVec.ofNat 8 c.toNat)

/-- A number in `n` decimal digits. -/
def digits : Nat → Nat → List Byte
  | 0, _ => []
  | n + 1, x => BitVec.ofNat 8 (48 + x / 10 ^ n % 10) :: digits n x

/-- The unit name of a source (R411). -/
def unitName (src : BitVec 16) : List Byte :=
  let i := srcIndex src
  match srcGroup src with
  | 0 => ascii "AGENT " ++ digits 4 i
  | 1 => ascii "CONC " ++ digits 3 i
  | 2 => if i = 0 then ascii "HUB A" else if i = 1 then ascii "HUB B" else ascii "DIE " ++ digits 1 (i - 8)
  | 3 => ascii "LINK " ++ digits 2 i
  | 4 => ascii "HK " ++ digits 3 i
  | 5 => ascii "HOST " ++ digits 4 i
  | _ => ascii "TWIN " ++ digits 2 i

/-- Bytes filled with zeros to a length. -/
def padTo (n : Nat) (l : List Byte) : List Byte := (l ++ List.replicate n 0#8).take n

/-- FRU Text (R411). -/
def fruText (src : BitVec 16) : List Byte := padTo 20 (ascii "LENVI " ++ unitName src)

/-- The Record ID (R411). -/
def recordId (m : Msg) : Nat :=
  m.source.toNat * 2 ^ 48 + m.kind.toNat * 2 ^ 40 + m.seq.toNat * 2 ^ 32 + m.sev.toNat * 2 ^ 29 + m.stamp.toNat

/-- The record header (R408). -/
def Daily.header (d : Daily) : List Byte :=
  ascii "CPER" ++ bytesLE 2 0x0100 ++ bytesLE 4 0xFFFFFFFF ++ bytesLE 2 1 ++ bytesLE 4 (cperSeverity d.trigger) ++ bytesLE 4 0
    ++ bytesLE 4 784 ++ List.replicate 40 0#8 ++ lenviGuid 0 ++ lenviGuid 1 ++ bytesLE 8 (recordId d.trigger)
    ++ List.replicate 24 0#8

/-- The section descriptor (R409). -/
def Daily.descriptor (d : Daily) : List Byte :=
  bytesLE 4 200 ++ bytesLE 4 584 ++ bytesLE 2 0x0100 ++ [0x02#8, 0#8] ++ bytesLE 4 1 ++ lenviGuid 2 ++ List.replicate 16 0#8
    ++ bytesLE 4 (cperSeverity d.trigger) ++ fruText d.trigger.source

/-- A test failure: its touched set is in the daily (R410). -/
def Daily.isTest (d : Daily) : Bool := decide (d.trigger.kind = 0x43#8 ∨ d.trigger.kind = 0x44#8)

/-- FLAGS (R410). -/
def Daily.flags (d : Daily) : Nat :=
  b2n d.duplicate + 2 * b2n d.snapshot.isSome + 4 * b2n d.isTest + 8 * b2n d.touchedComplete + 16 * b2n d.droppedBefore

/-- The Lenvi section (R410). -/
def State.dailySection (s : State) (d : Daily) : List Byte :=
  let jobs := d.jobs.flatMap (fun j => [j.job] ++ List.replicate 7 0#8 ++ bytesLE 8 j.earliest.toNat ++ bytesLE 8 j.latest.toNat)
  let snap := match d.snapshot with
    | none => (0xFFFF, 0, [])
    | some x => (x.chan, x.stamp.toNat, x.samples)
  bytesLE 2 1 ++ bytesLE 2 584 ++ bytesLE 4 d.number.toNat ++ bytesLE 16 d.trigger.pack.toNat ++ bytesLE 8 s.keys.chipId.toNat
    ++ bytesLE 4 idRev.toNat ++ bytesLE 4 s.keys.grade.toNat ++ padTo 16 (s.harnessBytes 16) ++ bytesLE 8 d.stepClock.toNat
    ++ [BitVec.ofNat 8 d.state, BitVec.ofNat 8 d.twin, BitVec.ofNat 8 d.flags, BitVec.ofNat 8 d.jobs.length]
    ++ bytesLE 2 ((srcPos d.trigger.source).getD 0) ++ [BitVec.ofNat 8 d.recovery, BitVec.ofNat 8 d.bucket]
    ++ bytesLE 8 d.paddock.toNat ++ bytesLE 8 d.lastPass.toNat ++ bytesLE 4 d.lostAtPass.toNat ++ bytesLE 4 d.ringLost.toNat
    ++ bytesLE 8 d.failClock.toNat ++ padTo 192 jobs ++ padTo 16 (d.temps.flatMap (fun x => bytesLE 2 x.toNat))
    ++ bytesLE 4 d.curb.toNat ++ bytesLE 2 snap.1 ++ bytesLE 2 d.margin ++ bytesLE 8 snap.2.1
    ++ padTo 128 (snap.2.2.flatMap (fun x => bytesLE 2 x.toNat)) ++ padTo 128 (d.context.flatMap (fun m => bytesLE 16 m.pack.toNat))

/-- The 784 bytes of a daily. -/
def State.dailyBytes (s : State) (d : Daily) : List Byte := d.header ++ d.descriptor ++ s.dailySection d

/-! ### Events (R404, R407) -/

/-- The daily of the serving hub that an event names. -/
def State.dailyOf (s : State) : MgmtEvent → Option Daily
  | .daily n => s.sv.dailies.find? (fun d => decide (d.seq = n))
  | _ => none

/-- The class code of an event (R404). -/
def MgmtEvent.code : MgmtEvent → Nat
  | .sensor _ _ => 0x00
  | .pdrChange _ => 0x04
  | .pollNotice => 0x05
  | .heartbeat => 0x06
  | .daily _ => 0x07

/-- The bytes of an event's PlatformEventMessage: 795 for a daily (R412, its example). -/
def MgmtEvent.size : MgmtEvent → Nat
  | .daily _ => 795
  | e => Config.messageBytes e.code

/-- Two records of the same trigger (R411). -/
def sameDaily (d e : Daily) : Bool := decide (d.trigger.source = e.trigger.source ∧ recordId d.trigger = recordId e.trigger)

/-- A daily is acknowledged or fully polled: both stores lose it, the serving hub counts it (R407, R413). -/
def State.releaseDaily (s : State) (e : MgmtEvent) : State :=
  match s.dailyOf e with
  | none => s
  | some d =>
    (s.modHubs (fun k => { k with dailies := k.dailies.filter (fun x => !(sameDaily d x)) })).modHub s.twin.serving
      (fun k => { k with dailiesSent := satInc k.dailiesSent })

/-- A daily is being sent (R412). -/
def State.markSending (s : State) (e : MgmtEvent) : State :=
  match e with
  | .daily n => s.modHub s.twin.serving (fun k => { k with dailies := k.dailies.map (fun d => if d.seq = n then { d with sending := true } else d) })
  | _ => s

/-- An event is held for polling; an S4's daily comes before the others (R404, R405). -/
def State.holdPolled (s : State) (e : MgmtEvent) : State :=
  let first := match s.dailyOf e with
    | none => false
    | some d => decide (d.trigger.sev = 4#3)
  s.modMgmt (fun m => { m with polled := if e = .pollNotice then m.polled else if first then e :: m.polled else m.polled ++ [e] })

/-- The in-band interrupt of a pending read (R398). -/
def State.interrupt (s : State) : State := if s.mgmt.eventsOn then s.present (.ibi Config.mctpMdb) else s

/-- A PlatformEventMessage leaves in its packets: an event, or the announcement of one that is held (R401, R404). -/
def State.sendEvent (s : State) (announced : Bool) (e : MgmtEvent) : State :=
  if announced then (s.present (.pollEvent e)).present (.mctp (packetSizes MgmtEvent.pollNotice.size))
  else (s.present (.event e)).present (.mctp (packetSizes e.size))

/-- EVENT_SEND: the next event goes to the receiver, or is announced where it is too large (R404). -/
def execEventSend (s : State) : Host.Outcome State Fault Refusal :=
  live s fun s =>
    if s.addressed && s.mgmt.sends && s.mgmt.inFlight.isNone then
      match s.mgmt.events with
      | [] => s
      | e :: r =>
        let big := decide (s.mgmt.bufferSize < e.size)
        let t := s.now
        let s := s.modMgmt (fun m => { m with events := r, inFlight := some (if big then .pollNotice else e), resends := 0, sentAt := t })
        let s := if big then s.holdPolled e else s.markSending e
        s.interrupt.sendEvent big e
    else s

/-- EVENT_ACKNOWLEDGED: the receiver's response releases the event; the follower removes the daily it observed (R404,
R407). -/
def execEventAcknowledged (s : State) : Host.Outcome State Fault Refusal :=
  live s fun s =>
    match s.mgmt.inFlight with
    | none => s
    | some e => if s.addressed then (s.modMgmt (fun m => { m with inFlight := none, resends := 0 })).releaseDaily e else s

/-- EVENT_RESEND_TIMEOUT: after 250 ms without a response the message is sent again, up to 3 times, then held for polling
(R404). -/
def execEventResendTimeout (s : State) : Host.Outcome State Fault Refusal :=
  live s fun s =>
    match s.mgmt.inFlight with
    | none => s
    | some e =>
      if s.addressed then
        let s := s.advanceTo (s.mgmt.sentAt + 250000000)
        let t := s.now
        if s.mgmt.resends < 3 then
          (s.modMgmt (fun m => { m with resends := m.resends + 1, sentAt := t })).interrupt.sendEvent false e
        else (s.modMgmt (fun m => { m with inFlight := none, resends := 0 })).holdPolled e
      else s

/-- HEARTBEAT_TIMER: each heartbeat period in asynchronous keep-alive mode (R404). -/
def execHeartbeatTimer (s : State) : Host.Outcome State Fault Refusal :=
  live s fun s =>
    if s.mgmtOn ∧ s.mgmt.receiver ∧ s.mgmt.mode = .keepAlive then
      let s := s.advanceTo (s.mgmt.heartbeatAt + s.mgmt.heartbeat * 1000000000)
      let t := s.now
      (s.modMgmt (fun m => { m with heartbeatAt := t })).mgmtPush .heartbeat
    else s

/-- The events that a poll may return, the oldest first (R404). -/
def Mgmt.pollable (m : Mgmt) : List MgmtEvent := if m.sends then m.polled else m.polled ++ m.events

/-- An event's bytes as polled: a header and the record for a daily; the other classes' bytes are DMTF's. -/
def State.eventBytes (s : State) (e : MgmtEvent) : List Byte :=
  match s.dailyOf e with
  | none => []
  | some d => (List.range 4).map Config.cperHeader ++ s.dailyBytes d

/-- An event has been polled: it is released (R407). -/
def State.releasePolled (s : State) (e : MgmtEvent) : State :=
  (s.modMgmt (fun m => { m with polled := m.polled.erase e, events := if m.polled.contains e then m.events else m.events.erase e,
                                polling := none })).releaseDaily e

/-- POLL_FOR_PLATFORM_EVENT_MESSAGE: the oldest held event from its first byte, or the next part of the event that is being
polled, up to 240 bytes (R402, R407, R414). -/
def execPollForPlatformEventMessage (offset : Nat) (s : State) : Host.Outcome State Fault Refusal :=
  live s fun s =>
    if s.addressed then
      match if offset = 0 then s.mgmt.pollable.head? else s.mgmt.polling with
      | none => s.mgmtReply (.event none 0 [] true)
      | some e =>
        let b := s.eventBytes e
        let final := decide (b.length ≤ offset + 240)
        let s := s.mgmtReply (.event (some e) offset ((b.drop offset).take 240) final)
        if final then s.releasePolled e else (s.modMgmt (fun m => { m with polling := some e })).markSending e
    else s

end Sys2Proof.Machine
end

