-- ==== Sys2Proof/Machine/Registers.lean ====
section
/-! DEFINITION. Reset and the register port: plain writes, latched reads, the clear registers, fault injection, the
indirect window and the reel window (R230 to R232, R316, R447, R454 to R477). -/

namespace Sys2Proof.Machine

open Sys2Proof

/-! ### Reset (R14, R316, R447) -/

/-- RST_L_ASSERT: every output takes its reset value and every unit is held in reset; all state but the flash is
lost (R316, R447). -/
def execRstLAssert (s : State) : Host.Outcome State Fault Refusal :=
  .next { State.reset with pending := s.pending, now := s.now, freeCtr := s.freeCtr, build := s.build, flash := s.flash,
                           rstL := true }

/-- RST_L_DEASSERT: the domains leave reset and every hub enters OFF (R316). -/
def execRstLDeassert (s : State) : Host.Outcome State Fault Refusal :=
  .next (if s.rstL then { s with rstL := false, out := [] } else { s with out := [] })

/-! ### Plain register writes (R15, R16, R454, R455) -/

/-- Words of a plain RW register: address, and its fields that a write sets. -/
def plainMask (a : Nat) : W32 :=
  match a with
  | 0x24 | 0x28 | 0x2C | 0x30 | 0x100 | 0x108 | 0x1844 | 0x4014 | 0x4018 => BitVec.allOnes 32
  | 0x104 | 0x1848 => 0xFFFF#32
  | 0x404 | 0x30C4 | 0x3200 => 0xFF#32
  | 0x1840 => 0xFFF000FF#32
  | 0x1850 => 0x1FFF#32
  | 0x4010 => 0xFF07#32
  | 0x7000 => 0xE000FFFF#32
  | _ => 0

/-- A write to a plain RW or LCK register of a hub; RSVD fields stay 0, any other word is left alone (R13, R15, R16). -/
def Regs.write (r : Regs) (a : Nat) (data : W32) : Regs :=
  let d := data &&& plainMask a
  match a with
  | 0x24 => { r with arg0 := d }
  | 0x28 => { r with arg1 := d }
  | 0x2C => { r with arg2 := d }
  | 0x30 => { r with arg3 := d }
  | 0x60 => if r.bootLocked then r else { r with bootCtl := data &&& 1#32 }
  | 0x100 => { r with harnessAddrLo := d }
  | 0x104 => { r with harnessAddrHi := d }
  | 0x108 => { r with harnessLen := d }
  | 0x404 => { r with gateSel := d }
  | 0x1840 => { r with forceCtrl := d }
  | 0x1844 => { r with forceAddrLo := d }
  | 0x1848 => { r with forceAddrHi := d }
  | 0x1850 => { r with srcSel := d }
  | 0x30C4 => { r with slateSel := d }
  | 0x3200 => { r with tccSel := d }
  | 0x4010 => { r with bandSel := d }
  | 0x4014 => { r with bandLo := d }
  | 0x4018 => { r with bandHi := d }
  | 0x7000 => { r with reelSel := d }
  | _ =>
    if 0x3000 ≤ a ∧ a < 0x30A8 ∧ driverWord ((a - 0x3000) / 4) then { r with slate := r.slate.set 0 ((a - 0x3000) / 4) data }
    else r

/-- The word that byte-address bits [15:2] select (R455). -/
def wordAddr (a : BitVec 16) : Nat := a.toNat / 4 * 4

/-- A write at the serving hub, and until the pair has formed at both hubs at once. DEDUCED (log 113). -/
def State.atServing (s : State) (f : HubId → State → State) : State := if s.twin.paired then f s.twin.serving s else s.eachHub f

/-- A write at the serving hub: its own effect there, and the frame for the other hub. -/
def State.regWriteServing (s : State) (a : Nat) (data : W32) (f : Hub → Hub) : State :=
  (s.atServing (fun h s => s.modHub h f)).mirrorWrite a data

/-- REG_ACCESS_LATCH: a read; the read of a lowest word latches its quantity (R455). -/
def execRegAccessLatch (addr : BitVec 16) (s : State) : Host.Outcome State Fault Refusal :=
  live s fun s =>
    if s.answers then (s.latchWord (wordAddr addr)).present (.rpAck (s.regRead (wordAddr addr))) else s

/-! ### Clear registers (R15, R18, R211, R314, R460, R466) -/

/-- Clear the bits of a sticky word. -/
def Hub.clearSticky (k : Hub) (w : Nat) (data : W32) : Hub := { k with sticky := k.sticky.mod 0 w (fun x => x &&& ~~~data) }

/-- STICKY_CLEAR: W1C of a word of the sticky bitmap (R211). -/
def execStickyClear (w : Byte) (data : W32) (s : State) : Host.Outcome State Fault Refusal :=
  live s fun s => s.portDo fun s => s.regWriteServing (0x1000 + 4 * w.toNat) data (·.clearSticky w.toNat data)

/-- IRQ_STS_CLEAR: W1C of the cause bits (R466); ABORT_PENDING is RO. -/
def execIrqStsClear (data : W32) (s : State) : Host.Outcome State Fault Refusal :=
  live s fun s => s.portDo fun s => s.regWriteServing 0x38 data (fun k => { k with irq := k.irq &&& ~~~data })

/-- THR_EVT_CLEAR: W1C of the per-die change bits (R299, R314). -/
def execThrEvtClear (data : W32) (s : State) : Host.Outcome State Fault Refusal :=
  live s fun s => s.portDo fun s => s.regWriteServing 0x400C data (fun k => { k with thrEvt := k.thrEvt &&& ~~~data })

/-- OVERRUN_CLEAR: W1C of HUB_CMD_STS.OVERRUN (R460). -/
def execOverrunClear (data : W32) (s : State) : Host.Outcome State Fault Refusal :=
  live s fun s => s.portDo fun s =>
    ({ s with cmd := { s.cmd with overrun := s.cmd.overrun && !(bit data 8) } }).mirrorWrite 0x20 data

/-! ### The job abort FIFO (R195, R470) -/

/-- What has been done for an aborted job by the time its entry is read (R174, R195): its records are closed, its
gate lists and frozen ranges are gone, its envelope sums and excursion counts are cleared. -/
def State.releaseJob (s : State) (job : Job) : State :=
  let n := job.toNat
  let s := s.each s.allAgents (fun a s => s.abortAgent a job)
  let s := s.each s.clusters (fun c s => s.abortConc c job)
  let s := s.each ((s.retakes.entries.filter (fun e => e.2.used && decide (e.2.job = job))).map (·.1)) (fun i s =>
    match (s.retake i).runs.getLast? with
    | none => s
    | some r => s.poisonOrdered r.agent i)
  let s := s.modEnvelopes job (fun _ c => c.clear)
  let s := s.clearExcursions job
  (s.modHubs (fun k => { k with aborted := k.aborted.erase n })).modJob n (fun j => { j with abortHeld := false })

/-- ABORT_FIFO_POP: POP removes the head entry, if there is one (R470). -/
def execAbortFifoPop (data : W32) (s : State) : Host.Outcome State Fault Refusal :=
  live s fun s => s.portDo fun s =>
    if bit data 0 then
      match s.abortFifo with
      | [] => s
      | e :: r => (({ s with abortFifo := r }).releaseJob e.job).mirrorWrite 0x484 data
    else s

/-! ### Fault injection (R230 to R232) -/

/-- The message that the force control fields of a hub describe, for a source; SEV 5 to 7 act as 4 (R231). -/
def Regs.forced (r : Regs) (p : Nat) : Msg :=
  { source := posSrc p, kind := BitVec.ofNat 8 (bits r.forceCtrl 31 24), sev := BitVec.ofNat 3 (min (bits r.forceCtrl 23 21) 4),
    injected := true, addr := BitVec.ofNat 48 (r.forceAddrLo.toNat + 2 ^ 32 * bits r.forceAddrHi 15 0),
    job := BitVec.ofNat 8 (bits r.forceCtrl 7 0) }

/-- The unit that emits the message of a source; none where the hub emits it into its own intake (R230). -/
def State.forceUnit (s : State) (p : Nat) : Option NetUnit :=
  let i := p - (groupBase (posGroup p)).1
  match posGroup p with
  | 0 => some (.agent i)
  | 1 => some (.conc i)
  | 3 => some (.linkEnd i)
  | 5 => if i < 64 then some (.engine i)
         else (s.rec? 0x41 (fun r => decide (r.fld 1 31 20 = i))).map (fun r => .engine (r.fld 1 19 14))
  | _ => none

/-- A force bit written 1 at a hub: the injection is outstanding there. The serving hub's write makes the unit emit; a
hub emits for the groups without a network end itself. -/
def State.forceAt (s : State) (h : HubId) (emitUnit : Bool) (p : Nat) : State :=
  let k := s.hub h
  if !(s.sourceOn (posSrc p)) ∨ (k.src p).injection.isSome then s.modHub h (·.count 6)
  else
    let s := s.modHub h (fun k => k.modSrc p (fun x => { x with injection := some (bit k.regs.forceCtrl 20), injAt := s.now }))
    match s.forceUnit p with
    | none => s.emit (.hub h) (k.regs.forced p)
    | some u => if emitUnit then s.emit u (k.regs.forced p) else s

/-- A write of a force word at a hub, lowest position first; with FORCE_EN 0 the write is ignored and counted. -/
def State.forceWord (s : State) (h : HubId) (emitUnit : Bool) (w : Nat) (data : W32) : State :=
  if bit (s.hub h).regs.bootCtl 0 then
    s.each ((List.range 32).filter (fun b => bit data b)) (fun b s => s.forceAt h emitUnit (32 * w + b))
  else s.modHub h (·.count 6)

/-- FORCE_WRITE: a write to a word of the force bitmap (R230). -/
def execForceWrite (w : Byte) (data : W32) (s : State) : Host.Outcome State Fault Refusal :=
  live s fun s => s.portDo fun s =>
    (s.atServing (fun h s => s.forceWord h (decide (h = s.twin.serving)) w.toNat data)).mirrorWrite (0x1400 + 4 * w.toNat) data

/-- INJECTION_TIMEOUT: 10 ms after the force write an injection that no hub has accepted ends (R232). -/
def execInjectionTimeout (pos : Nat) (s : State) : Host.Outcome State Fault Refusal :=
  live s fun s =>
    s.eachHub (fun h s =>
      let x := (s.hub h).src pos
      if x.injection.isSome then
        (s.advanceTo (x.injAt + 10000000)).modHub h (fun k => (k.modSrc pos (fun y => { y with injection := none })).count 6)
      else s)

/-! ### What REG_WRITE applies at the other hub (R275, R454) -/

/-- A word whose write is a row of its own and acts at each hub: the sticky and force words, IRQ_STS, THR_EVT, IND_SEL and
IND_ADDR (log 28). -/
def ownRow (a : Nat) : Bool := decide ((0x1000 ≤ a ∧ a < 0x1800) ∨ a = 0x38 ∨ a = 0x400C ∨ a = 0x6000 ∨ a = 0x6004)

/-- A mirrored write takes its effect in the other hub's own registers. The command, the FIFO, the slate and the
windows are serialised state that both hubs share, so the frame has nothing left to do there. -/
def State.applyWrite (s : State) (h : HubId) (a : Nat) (data : W32) : State :=
  if 0x1000 ≤ a ∧ a < 0x1400 then s.modHub h (·.clearSticky ((a - 0x1000) / 4) data)
  else if 0x1400 ≤ a ∧ a < 0x1800 then s.forceWord h false ((a - 0x1400) / 4) data
  else if a = 0x38 then s.modHub h (fun k => { k with irq := k.irq &&& ~~~data })
  else if a = 0x400C then s.modHub h (fun k => { k with thrEvt := k.thrEvt &&& ~~~data })
  else if a = 0x6000 then s.modHub h (fun k => { k with regs := { k.regs with indSel := data &&& 0xE0001FFF#32 } })
  else if a = 0x6004 then s.modHub h (fun k => { k with regs := { k.regs with indAddr := data &&& 0x8000FFFC#32 } })
  else s.modHub h (fun k => { k with regs := k.regs.write a data })

/-! ### The reel window (R476) -/

/-- REEL_DATA_READ: REEL_DATA0 latches the entry; with AUTOINC a read of REEL_DATA3 advances INDEX (R476). -/
def execReelDataRead (i : BitVec 2) (s : State) : Host.Outcome State Fault Refusal :=
  live s fun s =>
    if s.answers then
      let a := 0x7010 + 4 * i.toNat
      let s := (s.latchWord a).present (.rpAck (s.regRead a))
      if i = 3#2 then
        s.modHubs (fun k =>
          if bit k.regs.reelSel 29 then
            { k with regs := { k.regs with reelSel := (k.regs.reelSel &&& 0xFFFF0000#32) ||| ((k.regs.reelSel + 1) &&& 0xFFFF#32) } }
          else k)
      else s
    else s

end Sys2Proof.Machine
end

