-- ==== Sys2Proof/Machine/Indirect.lean ====
section
/-! DEFINITION. The indirect window into agents, concentrators, tag engines and die-link ends (R472 to R475). -/

namespace Sys2Proof.Machine

open Sys2Proof

/-- A unit of the indirect window. -/
inductive IndUnit where
  | agent (i : Nat)
  | conc (i : Nat)
  | engine (i : Nat)
  | link (i : Nat)
deriving DecidableEq, Repr

/-- No working path joins a die to the leader's die. -/
def State.dieLost (s : State) (d : Nat) : Bool := decide (1 < s.build.dies) && s.unreachable.contains d

/-- The unit that IND_SEL selects, if it is enabled and reachable; a reserved TYPE selects none (R472). -/
def State.indUnit (s : State) : Option IndUnit :=
  let sel := s.sv.regs.indSel
  let i := bits sel 12 0
  match bits sel 31 29 with
  | 0 => if s.agentOn i && !s.dieLost (s.build.dieOfAgent i) then some (.agent i) else none
  | 1 => if (s.clusterRec i).isSome && !s.dieLost (s.build.dieOfCluster i) then some (.conc i) else none
  | 2 => if (s.engineRec i).isSome && !s.dieLost (s.build.dieOfCluster (s.engineHome i)) then some (.engine i) else none
  | 3 => if s.sourceOn (srcId 3 i) && !s.dieLost (i / 2) then some (.link i) else none
  | _ => none

/-- Counters of a fault queue by index: DROPPED_S0, DROPPED_S1, MERGED_S2, HOP_RESENDS (R233). -/
def Queue.ctr (q : Queue) : Nat → W32
  | 0 => q.droppedS0
  | 1 => q.droppedS1
  | 2 => q.mergedS2
  | _ => q.hopResends

/-- The counters of a fault queue cleared. -/
def Queue.clearCtr (q : Queue) : Queue := { q with droppedS0 := 0, droppedS1 := 0, mergedS2 := 0, hopResends := 0 }

/-! ### The maps as they are read; none for an unmapped word -/

/-- A word of the class counters of a class (R473). -/
def ClassCtr.word (c : ClassCtr) : Nat → W32
  | 0 => c.checked
  | 1 => c.inconclusive
  | 2 => c.passEmpty
  | 3 => c.sampledOut
  | 4 => c.unchecked
  | 5 => wordLE c.macsChecked 0
  | 6 => wordLE c.macsAll 0
  | _ => at32 (c.macsAll.toNat / 2 ^ 32) 16 ||| at32 (c.macsChecked.toNat / 2 ^ 32) 0

/-- An agent's map (R473). -/
def State.agentWord (s : State) (i a : Nat) : Option W32 :=
  let g := s.agent i
  match a with
  | 0x00 => some (at32 (b2n g.fence) 31 ||| at32 (b2n (s.sv.src i).lame) 30 ||| at32 (b2n g.paddock) 29
      ||| at32 (b2n g.boundedSram) 28 ||| at32 (s.lanesOf i) 16 ||| at32 (s.build.contexts - g.ctxs.length) 8)
  | 0x04 => some (g.oddBuild.getD (buildWord s.build.lanes s.build.contexts))
  | 0x08 => some (g.retired.foldl (fun w l => if l < 32 then w ||| at32 1 l else w) 0)
  | 0x0C => some (g.retired.foldl (fun w l => if 32 ≤ l then w ||| at32 1 (l - 32) else w) 0)
  | 0x10 => some (wordLE g.lastPass 0)
  | 0x14 => some (wordLE g.lastPass 1)
  | 0x18 => some g.lostAtPass
  | 0x1C => some g.ringLost
  | 0x20 => some g.ringHead
  | 0x24 => some g.groupRingHead
  | 0x60 => some g.groupsJudged
  | 0x64 => some g.groupsUnchecked
  | 0x68 => some g.runSkipped
  | 0x90 => some g.tapStray
  | 0x94 => some g.commitLate
  | 0x98 => some g.paddockGaps
  | 0xF8 => some 0
  | _ =>
    if 0x40 ≤ a ∧ a < 0x5C then some (g.incl.get 0 ((a - 0x40) / 4 + 1))
    else if 0x70 ≤ a ∧ a < 0x90 then some (g.failBits.get 0 ((a - 0x70) / 4))
    else if 0x800 ≤ a ∧ a < 0x1000 then some ((g.classes.get {} ((a - 0x800) / 32)).word (a / 4 % 8))
    else if 0x2000 ≤ a ∧ a < 0x4000 then some (wordLE (g.ring.get 0 ((a - 0x2000) / 8)) (a / 4 % 2))
    else if 0x4000 ≤ a ∧ a < 0x5000 then some (wordLE (g.groupRing.get 0 ((a - 0x4000) / 16)) (a / 4 % 4))
    else none

/-- The first agent of a cluster. -/
def State.firstAgent (s : State) (c : Nat) : Nat := ((s.clusterRec c).map (·.fld 1 31 20)).getD (c * s.build.clusterSize)

/-- Two class counters added up (R82). -/
def ClassCtr.add (x y : ClassCtr) : ClassCtr :=
  { checked := satAdd x.checked y.checked.toNat, inconclusive := satAdd x.inconclusive y.inconclusive.toNat,
    passEmpty := satAdd x.passEmpty y.passEmpty.toNat, sampledOut := satAdd x.sampledOut y.sampledOut.toNat,
    unchecked := satAdd x.unchecked y.unchecked.toNat, macsChecked := x.macsChecked + y.macsChecked,
    macsAll := x.macsAll + y.macsAll }

/-- The sum that a concentrator forms over its agents for a check class (R82). No command asks for it and no word of R474
shows it (log 100). -/
def State.classSum (s : State) (c cls : Nat) : ClassCtr :=
  ((s.allAgents.filter (fun a => decide (s.build.clusterOf a = c))).map (fun a => (s.agent a).classes.get {} cls)).foldl
    ClassCtr.add {}

/-- A word of the job counters (R474). -/
def ConcJob.word (j : ConcJob) : Nat → W32
  | 0 => j.excTotal
  | 1 => j.oddEvents
  | 2 => j.inconclusive
  | _ => BitVec.ofNat 32 j.excStep

/-- A word of an envelope's state (R474). -/
def Envelope.word (e : Envelope) : Nat → W32
  | 0 => BitVec.ofInt 32 e.mu
  | 1 => BitVec.ofInt 32 e.var
  | 2 => BitVec.ofNat 32 e.steps
  | _ => BitVec.ofNat 32 e.k16

/-- A concentrator's map (R474). -/
def State.concWord (s : State) (i a : Nat) : Option W32 :=
  let c := s.conc i
  if a = 0 then some (at32 (b2n (s.concFenced i)) 31 ||| at32 (b2n (s.sv.src (4096 + i)).lame) 30 ||| at32 c.maskSent.toNat 0)
  else if a = 4 then some (at32 c.enabledMask.toNat 0)
  else if 0x10 ≤ a ∧ a < 0x20 then some (c.queue.ctr (a / 4 % 4))
  else if a = 0x20 then some (at32 c.accounts.length 0)
  else if a = 0xF8 then some 0
  else if 0x100 ≤ a ∧ a < 0x100 + 16 * min s.build.clusterSize 16 then some ((s.agent (s.firstAgent i + (a - 0x100) / 16)).queue.ctr (a / 4 % 4))
  else if 0x800 ≤ a ∧ a < 0x1800 then some ((c.jobs.get {} ((a - 0x800) / 16)).word (a / 4 % 4))
  else if 0x1800 ≤ a ∧ a < 0x1C00 then some ((c.env.get {} ((a - 0x1800) / 16)).word (a / 4 % 4))
  else none

/-- A tag engine's map (R475). -/
def State.engineWord (s : State) (i a : Nat) : Option W32 :=
  let g := s.engine i
  if a = 0 then some (at32 (s.engineRole i) 30 ||| at32 (s.build.dieOfCluster (s.engineHome i)) 27 ||| at32 g.openWrites 16
    ||| at32 g.commits.length 0)
  else if 0x10 ≤ a ∧ a < 0x38 then some (g.ctr.get 0 ((a - 0x10) / 4))
  else if 0x40 ≤ a ∧ a < 0x4C then some (g.queue.ctr (a / 4 % 4))
  else if a = 0xF8 then some 0
  else none

/-- A die-link end's map (R475). -/
def State.linkWord (s : State) (i a : Nat) : Option W32 :=
  let l := s.linkEnd i
  if a = 0 then some (at32 (b2n l.retraining) 3 ||| at32 l.lanes 0)
  else if 0x10 ≤ a ∧ a < 0x20 then some (l.queue.ctr (a / 4 % 4))
  else if a = 0x20 then some l.retrains
  else if a = 0xF8 then some 0
  else none

/-- A word of a unit's map. -/
def State.indWord (s : State) (u : IndUnit) (a : Nat) : Option W32 :=
  match u with
  | .agent i => s.agentWord i a
  | .conc i => s.concWord i a
  | .engine i => s.engineWord i a
  | .link i => s.linkWord i a

/-! ### CTR_CLEAR (R473 to R475) -/

/-- The counters of an agent cleared; what locates ring entries and tests stays. -/
def Agent.clearCtrs (g : Agent) : Agent :=
  { g with incl := ⟨[]⟩, groupsJudged := 0, groupsUnchecked := 0, runSkipped := 0, failBits := ⟨[]⟩, tapStray := 0,
           commitLate := 0, paddockGaps := 0, classes := ⟨[]⟩ }

/-- The job counters of a concentrator cleared (R474). -/
def ConcJob.clearCtrs (j : ConcJob) : ConcJob := { j with excTotal := 0, oddEvents := 0, inconclusive := 0, excStep := 0 }

/-- A unit's counters cleared. -/
def State.clearUnit (s : State) (u : IndUnit) : State :=
  match u with
  | .agent i => s.modAgent i Agent.clearCtrs
  | .conc i =>
    let s := s.modConc i (fun c => { c with queue := c.queue.clearCtr, jobs := c.jobs.map {} ConcJob.clearCtrs })
    s.each (List.range s.build.clusterSize) (fun n s => s.modAgent (s.firstAgent i + n) (fun g => { g with queue := g.queue.clearCtr }))
  | .engine i => s.modEngine i (fun g => { g with ctr := ⟨[]⟩, queue := g.queue.clearCtr })
  | .link i => s.modLink i (fun l => { l with queue := l.queue.clearCtr, retrains := 0 })

/-! ### Accesses (R472, R478) -/

/-- The word address that IND_ADDR selects. -/
def State.indAddr (s : State) : Nat := bits s.sv.regs.indAddr 15 2 * 4

/-- WORD advances where AUTOINC is set. -/
def State.indAdvance (s : State) : State :=
  s.modHubs (fun k =>
    let r := k.regs
    if bit r.indAddr 31 then
      { k with regs := { r with indAddr := (r.indAddr &&& 0x80000000#32) ||| ((r.indAddr + 4) &&& 0xFFFC#32) } }
    else k)

/-- A posted word takes its effect at the unit: CTR_CLEAR is the one word that can be written. -/
def State.indPost (s : State) (w : W32) : State :=
  match s.indUnit with
  | none => { s with ind := { s.ind with noUnit := true, err := false } }
  | some u =>
    let s := { s with ind := { s.ind with noUnit := false, err := decide (s.indAddr ≠ 0xF8) } }
    if s.indAddr = 0xF8 ∧ bit w 0 then s.clearUnit u else s

/-- A posted write in flight completes, and WORD advances where AUTOINC is set; a fetch in flight is abandoned (R472, R478). -/
def State.indSettle (s : State) : State :=
  match s.ind.posted with
  | none => s
  | some w => let s := (s.indPost w).indAdvance; { s with ind := { s.ind with posted := none } }

/-- The fetch in flight ends with a word; of an unmapped word or an absent unit with 0 and ERR or NO_UNIT (R472). -/
def State.indFetched (s : State) : State :=
  match s.indUnit with
  | none => { s with ind := { s.ind with data := 0, noUnit := true, err := false } }
  | some u =>
    match s.indWord u s.indAddr with
    | none => { s with ind := { s.ind with data := 0, noUnit := false, err := true } }
    | some w => { s with ind := { s.ind with data := w, noUnit := false, err := false } }

/-- The access in flight, a posted word or a fetch, completes and PENDING falls (R472). -/
def State.indComplete (s : State) : State :=
  let s := if s.ind.posted.isSome then s.indSettle else if s.ind.pending then s.indFetched else s
  { s with ind := { s.ind with pending := false } }

/-- A fetch of the selected word starts. -/
def State.indFetch (s : State) : State := { s with ind := { s.ind with pending := true, posted := none } }

/-- IND_SELECT: a write to IND_SEL or IND_ADDR starts a fetch (R472). -/
def execIndSelect (isAddr : Bool) (data : W32) (s : State) : Host.Outcome State Fault Refusal :=
  live s fun s => s.portDo fun s =>
    let s := s.indSettle
    let s := if isAddr then
        s.regWriteServing 0x6004 data (fun k => { k with regs := { k.regs with indAddr := data &&& 0x8000FFFC#32 } })
      else s.regWriteServing 0x6000 data (fun k => { k with regs := { k.regs with indSel := data &&& 0xE0001FFF#32 } })
    s.indFetch

/-- IND_FETCH_DONE: the access in flight completes; a posted word is acknowledged (R472). -/
def execIndFetchDone (s : State) : Host.Outcome State Fault Refusal :=
  live s fun s => if s.ind.pending then s.indComplete else s

/-- IND_DATA_READ: the last completed fetch; with AUTOINC, and no access in flight, WORD advances and the next fetch
starts (R472). -/
def execIndDataRead (s : State) : Host.Outcome State Fault Refusal :=
  live s fun s =>
    if s.answers then
      let s := s.present (.rpAck s.ind.data)
      if bit s.sv.regs.indAddr 31 && !s.ind.pending then s.indAdvance.indFetch else s
    else s

/-- IND_DATA_WRITE: the word is posted to the unit, and the field is set; PENDING stays until the word is acknowledged (R15, R472). An
access already in flight completes first. DESIGN CHOICE (log 30). The write is mirrored (R454). -/
def execIndDataWrite (data : W32) (s : State) : Host.Outcome State Fault Refusal :=
  live s fun s => s.portDo fun s =>
    let s := s.indComplete
    { s with ind := { s.ind with pending := true, posted := some data, data := data } }.mirrorWrite 0x6008 data

end Sys2Proof.Machine
end

