-- ==== Sys2Proof/Machine/Twin.lean ====
section
/-! DEFINITION. The twin hubs: cross-link, state digest, consent, mirror frames, silence, arbitration, and the alive
cell (R226, R268 to R293). -/

namespace Sys2Proof.Machine

open Sys2Proof

/-! ### The cross-link (R268 to R271) -/

/-- The trained cross-link carries frames. -/
def State.xlinkOn (s : State) : Bool := decide (0 < s.twin.lanes) && !s.xlink.down && !s.xlink.retraining

/-- The pair talks over the cross-link. -/
def State.pairTalks (s : State) : Bool := s.pairUp && s.xlinkOn

/-- Frames that their sender holds until they are acknowledged (R270). -/
def heldFrame : FrameType → Bool
  | .heart => false
  | .digest => false
  | .reserved => false
  | _ => true

/-- The TYPE of a frame type (R269). -/
def typeCode : FrameType → Byte
  | .hello => 0x01
  | .heart => 0x02
  | .digest => 0x03
  | .mirror => 0x04
  | .propose => 0x05
  | .consent => 0x06
  | .refuse => 0x07
  | .regWrite => 0x08
  | .sections => 0x09
  | .items => 0x0A
  | .reserved => 0x00

/-- The frame type of a TYPE (R269). -/
def typeOfCode (c : Byte) : FrameType :=
  match c.toNat with
  | 0x01 => .hello
  | 0x02 => .heart
  | 0x03 => .digest
  | 0x04 => .mirror
  | 0x05 => .propose
  | 0x06 => .consent
  | 0x07 => .refuse
  | 0x08 => .regWrite
  | 0x09 => .sections
  | 0x0A => .items
  | _ => .reserved

/-- The CRC of a frame: CRC-32C over bits [255:32], taken as bytes from bit 255 downwards (R269; log 4). -/
def frameCrc (top : BitVec 224) : W32 := crc32c (bytesBE 28 top.toNat)

/-- A frame: TYPE, SEQ, ACK, PAYLOAD, CRC (R269). -/
def frameOf (t : FrameType) (seq ack : Byte) (payload : BitVec 200) : BitVec 256 :=
  let top : BitVec 224 := typeCode t ++ seq ++ ack ++ payload
  top ++ frameCrc top

/-- TYPE, SEQ and ACK of a frame, and whether its CRC is good (R269). -/
def frameType (f : BitVec 256) : FrameType := typeOfCode (f.extractLsb' 248 8)
def frameSeq (f : BitVec 256) : Byte := f.extractLsb' 240 8
def frameAck (f : BitVec 256) : Byte := f.extractLsb' 232 8
def frameGood (f : BitVec 256) : Bool := decide (f.extractLsb' 0 32 = frameCrc (f.extractLsb' 32 224))

/-- A sender has room in its window of 16 held frames (R270). -/
def State.canSend (s : State) (w : HubId) : Bool := decide ((s.xsend w).unacked.length < 16)

/-- The next frame of a sender: a held one takes the next SEQ (R269, R270). -/
def XSend.next (x : XSend) (t : FrameType) (content : List Nat) : BitVec 256 :=
  frameOf t (if heldFrame t then x.seq + 1 else x.seq) x.got (Config.framePayload (typeCode t) content)

/-- A hub sends a frame; a held one takes a place in the window (R269, R270). -/
def State.sendFrame (s : State) (w : HubId) (t : FrameType) (content : List Nat) : State :=
  let f := (s.xsend w).next t content
  (s.modX w (fun x =>
    if heldFrame t then
      { x with seq := x.seq + 1, unacked := x.unacked ++ [{ seq := x.seq + 1, bits := f, at_ := s.now }], lastSent := s.now }
    else { x with lastSent := s.now })).present (.frame w f)

/-- A proposal that may go: one about a command only while it is in progress. -/
def State.stands (s : State) (x : RelaxAction) : Bool :=
  match x with
  | .command op => s.busyWith op
  | _ => true

/-- What the leader may propose now: nothing while an answer is outstanding (R277) or its MIRROR queue is full (R271). -/
def State.proposable (s : State) : List RelaxAction :=
  if s.twin.answer.isSome || s.mirrorFull s.twin.leader then [] else s.twin.proposals.filter s.stands

/-- The class of the frames that a sender serves first (R271): 0 for PROPOSE, 1 for MIRROR, ITEMS and SECTIONS, 2 for
REG_WRITE, 3 for HEART. CONSENT and REFUSE answer at once. -/
def State.firstClass (s : State) (w : HubId) : Nat :=
  let x := s.xsend w
  if w = s.twin.leader ∧ s.proposable ≠ [] then 0
  else if x.mirrors ≠ [] ∨ x.aborts ≠ [] ∨ x.wait ≠ [] then 1
  else if x.writes ≠ [] then 2
  else 3

/-- The frames of a sender that wait go, as far as a PROPOSE that can go leaves them the turn and the window has room: a DIGEST first,
then the others in the order in which they came (R270, R271). -/
def State.pump (s : State) (w : HubId) : State :=
  if !s.pairTalks || (decide (s.firstClass w = 0) && s.canSend w) then s
  else
    let s := match (s.xsend w).cut with
      | none => s
      | some l => (s.modX w (fun x => { x with cut := none })).sendFrame w .digest l
    let room := 16 - (s.xsend w).unacked.length
    let l := (s.xsend w).wait
    (s.modX w (fun x => { x with wait := l.drop room })).each (l.take room) (fun f s => s.sendFrame w f.1 f.2)

/-- A frame takes its turn (R271). -/
def State.queueFrame (s : State) (w : HubId) (t : FrameType) (content : List Nat) : State :=
  (s.modX w (fun x => { x with wait := x.wait ++ [(t, content)] })).pump w

/-- The hub-tested field of the most recent valid persistence copy, 0xFF without one (R262, R272). -/
def State.testedField (s : State) : Byte :=
  if s.flash.answers then ((s.flash.recent).map (·.2.hubTested)).getD 0xFF#8 else 0xFF#8

/-- A hub reports the result of its self-test on the cross-link (R272, R282). -/
def State.reportTest (s : State) (w : HubId) (pass : Bool) : State :=
  s.queueFrame w .hello [idRev.toNat, hubIdx w, b2n pass, s.testedField.toNat]

/-- HELLO: a hub's identity, index, self-test result and tested-hub field reach the other hub in stage 2 (R272). -/
def execHello (hub : HubId) (selfTest : Bool) (s : State) : Host.Outcome State Fault Refusal :=
  live s fun s =>
    if s.stage = some 2 ∧ s.build.hubs = 2 ∧ s.xlinkOn ∧ s.canSend hub then
      let f := s.testedField
      let s := (s.sendFrame hub .hello [idRev.toNat, hubIdx hub, b2n selfTest, f.toNat]).modHub hub
        (fun k => { k with selfTest := k.selfTest && selfTest })
      match hub with
      | .a => { s with twin := { s.twin with helloB := some (selfTest, f) } }
      | .b => { s with twin := { s.twin with helloA := some (selfTest, f) } }
    else s

/-- HEART_SEND: a hub that has sent nothing for 256 ns, and has nothing else that it could send, sends a HEART (R270, R271). -/
def execHeartSend (hub : HubId) (s : State) : Host.Outcome State Fault Refusal :=
  live s fun s =>
    if s.pairTalks ∧ (s.firstClass hub = 3 ∨ !s.canSend hub) then
      (s.advanceTo ((s.xsend hub).lastSent + 256)).sendFrame hub .heart []
    else s

/-- The frames that an ACK leaves unacknowledged. -/
def dropAcked (ack : Byte) (l : List XFrame) : List XFrame :=
  match l.findIdx? (fun e => decide (e.seq = ack)) with
  | none => l
  | some i => l.drop (i + 1)

/-- XLINK_FRAME_RECEIVE: a good frame is a sign of life and acknowledges frames; one with a bad CRC or a reserved TYPE is
discarded and counted (R270). -/
def execXlinkFrameReceive (hub : HubId) (frame : BitVec 256) (s : State) : Host.Outcome State Fault Refusal :=
  live s fun s =>
    if s.hubBuilt (twinHub hub) ∧ s.hubUp hub then
      let s := if frameGood frame then s.modX hub (fun x => { x with lastGood := s.now }) else s
      if frameGood frame ∧ frameType frame ≠ .reserved then
        (s.modX hub (fun x => { x with unacked := dropAcked (frameAck frame) x.unacked,
                                       got := if heldFrame (frameType frame) ∧ frameSeq frame = x.got + 1 then frameSeq frame
                                              else x.got })).pump hub
      else s.modHub hub (fun k => { k with xlinkBadFrames := satInc k.xlinkBadFrames })
    else s

/-- XLINK_RESEND: 512 ns after the oldest frame not acknowledged was sent, it and every later one are sent again (R270). -/
def execXlinkResend (hub : HubId) (s : State) : Host.Outcome State Fault Refusal :=
  live s fun s =>
    match (s.xsend hub).unacked with
    | [] => s
    | e :: r =>
      if s.xlinkOn ∧ s.hubUp hub then
        let s := s.advanceTo (e.at_ + 512)
        let s := s.modX hub (fun x => { x with unacked := x.unacked.map (fun y => { y with at_ := s.now }), lastSent := s.now })
        s.each (e :: r) (fun y s => s.present (.frame hub y.bits))
      else s

/-- CROSS_LINK_RETRAIN: the cross-link retrains while the hubs run on (R268). -/
def execCrossLinkRetrain (s : State) : Host.Outcome State Fault Refusal :=
  live s fun s =>
    if s.pairTalks then { s with xlink := { s.xlink with retraining := true, tries := 0 } } else s

/-! ### The state digest (R280) -/

/-- The command in progress as a hub's digest has it. -/
def Twin.cmdAt (t : Twin) : HubId → Nat
  | .a => t.cmdA
  | .b => t.cmdB

/-- A driver write shows in a hub's state: at the other hub once it is applied, at the serving hub once that is acknowledged (R293). -/
def State.writesShown (s : State) (h : HubId) : Bool :=
  let x := s.xsend s.twin.serving
  x.writes.isEmpty && (decide (h ≠ s.twin.serving) || !(x.unacked.any (fun f => decide (frameType f.bits = .regWrite))))

/-- The command in progress as the hubs show it now. -/
def State.showCmd (s : State) : State :=
  let c := s.cmd.op * 2 ^ 8 + s.cmd.code
  { s with twin := { s.twin with cmdA := if s.writesShown .a then c else s.twin.cmdA, cmdB := if s.writesShown .b then c else s.twin.cmdB } }

/-- Section 0xB: epoch, command in progress, and the progress of the serialised operations of R275: the announced epoch, the pattern
cache, the persistence copies, the trot-ups, the retake records and the signing chains (R280). -/
def State.serialItems (s : State) (h : HubId) : List (Nat × Nat × Nat) :=
  let t := s.test
  let item (k v : Nat) : Nat × Nat × Nat := (0xB, k, v)
  [item 0 s.epoch.cur, item 1 (s.twin.cmdAt h), item 2 (if s.epoch.announced then s.epoch.next * 2 ^ 64 + s.epoch.act.toNat else 0),
      item 3 t.wrapNext, item 4 (b2n t.eraseDone + 2 * b2n t.recordWritten + 4 * b2n t.wrapDone)]
    ++ t.sets.map (fun p => item (0x10 + patCode p) 1) ++ t.fetchFails.map (fun e => item (0x20 + patCode e.1) e.2)
    ++ (t.trots ++ t.kept).map (fun x => item (0x10000 + x.agent) x.step)
    ++ (s.retakes.entries.filter (fun e => e.2.used)).map (fun e => item (0x20000 + e.1) e.2.runs.length)
    ++ (s.streams.entries.filter (fun e => e.2.bound)).map (fun e => item (0x30000 + e.1) (natBE e.2.head))

/-- The items of the sections: code, key, value. The sections of the serialised state are the same at both hubs. -/
def State.digestItems (s : State) (h : HubId) : List (Nat × Nat × Nat) :=
  let k := s.hub h
  let on (c : Nat) (l : List Nat) : List (Nat × Nat × Nat) := l.map (fun x => (c, x, 1))
  [(0x1, 0, k.st.code)]
    ++ on 0x2 ((k.srcs.entries.filter (fun e => e.2.fault)).map (fun (e : Nat × Source) => e.1))
    ++ on 0x3 ((k.srcs.entries.filter (fun e => e.2.lame)).map (fun (e : Nat × Source) => e.1))
    ++ on 0x4 (k.fences.map (fun (e : Nat × Nat) => e.1))
    ++ (k.paddock.entries.filter (fun e => e.2.valid)).map (fun e => (0x5, e.2.agent, e.2.pack.toNat))
    ++ on 0x6 k.aborted
    ++ (s.retakes.entries.filter (fun e => e.2.used)).map (fun e => (0x7, e.1, e.2.decision))
    ++ s.jobs.entries.map (fun e => (0x8, e.1, ((e.2.history.head?.map (fun (x : W64 × W64) => x.1)).getD 0).toNat))
    ++ (List.range s.build.dies).map (fun d => (0x9, d, s.curbAt h d))
    ++ on 0xA ((((recsOf 0x12 s.recs).zipIdx).filter (fun e => (s.job (e.1.fld 1 7 0)).launched)).map (fun (e : Rec × Nat) => e.2))
    ++ s.serialItems h

/-- The code of a section. -/
def sectionCode : DigestSection → Nat
  | .hubState => 0x1
  | .faults => 0x2
  | .lame => 0x3
  | .fences => 0x4
  | .paddock => 0x5
  | .aborted => 0x6
  | .retakes => 0x7
  | .gates => 0x8
  | .curb => 0x9
  | .frozen => 0xA
  | .serial => 0xB

/-- Every section, in order. -/
def allSections : List DigestSection :=
  [.hubState, .faults, .lame, .fences, .paddock, .aborted, .retakes, .gates, .curb, .frozen, .serial]

/-- The items of a section at a hub. -/
def State.sectionItems (s : State) (h : HubId) (c : DigestSection) : List (Nat × Nat × Nat) :=
  (s.digestItems h).filter (fun (i : Nat × Nat × Nat) => decide (i.1 = sectionCode c))

/-- The sum of the CRC-64 of some items' encodings (R280). -/
def digestOf (l : List (Nat × Nat × Nat)) : W64 :=
  l.foldl (fun a i => a + crc64 (BitVec.ofNat 8 i.1 :: Config.itemBytes i.1 i.2.1 i.2.2)) 0

/-- The digest of a hub's decision state (R280). -/
def State.stateDigest (s : State) (h : HubId) : W64 := digestOf (s.digestItems h)

/-- A hub's DIGEST of the last cut goes in its turn (R271); while the cross-link does not carry frames it is sent never, as no DIGEST
is resent (R270). -/
def State.sendDigest (s : State) (w : HubId) (value : W64) : State :=
  (s.modX w (fun x => { x with cut := if s.xlinkOn then some [s.twin.cutSeq.toNat, value.toNat] else none })).pump w

/-- DIGEST_CUT: at the next multiple of 1,024 ns each hub cuts its digest and sends it (R280). A RETIRE_TWIN that waits for the lead
to pass goes on before its 10 µs are over (R286). -/
def execDigestCut (s : State) : Host.Outcome State Fault Refusal :=
  live s fun s =>
    if s.pairUp ∧ s.clock.running then
      let s := (s.advanceClk (s.clk + (1024 - s.clk % 1024))).showCmd
      let s := { s with twin := { s.twin with cutSeq := s.twin.cutSeq + 1, cutA := s.stateDigest .a, cutB := s.stateDigest .b } }
      ((s.sendDigest .a s.twin.cutA).sendDigest .b s.twin.cutB).endRetire
    else s

/-- The twin source that a hub holds for the other hub (R283). -/
def twinSrc (h : HubId) : BitVec 16 := srcId 6 (hubIdx h)

/-- DIGEST: a received digest, which its sender has sent, is compared with the own cut; a second mismatch in a row starts a merge
(R281). -/
def execDigest (hub : HubId) (seq : W32) (value : W64) (s : State) : Host.Outcome State Fault Refusal :=
  live s fun s =>
    if s.pairTalks ∧ seq = s.twin.cutSeq ∧ (s.xsend (twinHub hub)).cut = none then
      let own := match hub with | .a => s.twin.cutA | .b => s.twin.cutB
      if own = value then s.modHub hub (fun k => { k with digestMiss := 0, merging := false })
      else
        let k := s.hub hub
        let s := s.modHub hub (fun k => { k with digestMiss := min (k.digestMiss + 1) 255 })
        if 1 ≤ k.digestMiss then
          let s := s.modHub hub (fun k => { k with merging := true, digestMismatches := satInc k.digestMismatches })
          let s := s.queueFrame hub .sections (allSections.map (fun c => (digestOf (s.sectionItems hub c)).toNat))
          s.note hub (twinSrc hub) 0x18 1 (BitVec.ofNat 48 seq.toNat) 0
        else s
    else s

/-! ### Merging (R280, R281) -/

/-- The sections in which the hubs differ. -/
def State.differing (s : State) : List DigestSection :=
  allSections.filter (fun c => decide (s.sectionItems .a c ≠ s.sectionItems .b c))

/-- A hub has frames of a type that wait for their turn. -/
def State.waits (s : State) (w : HubId) (t : FrameType) : Bool := (s.xsend w).wait.any (fun f => decide (f.1 = t))

/-- SECTIONS: the other hub's section digests arrive, once it has sent them, and the hub sends its items of each that differs, in their
turn (R271, R281). -/
def execSections (hub : HubId) (s : State) : Host.Outcome State Fault Refusal :=
  live s fun s =>
    if s.pairTalks ∧ (s.hub hub).merging ∧ !(s.waits (twinHub hub) .sections) then
      s.each s.differing (fun c s => s.queueFrame hub .items ((s.sectionItems hub c).flatMap (fun i => [i.1, i.2.1, i.2.2])))
    else s

/-- A source is in its fault state at a hub because the other hub has it so. -/
def State.mergeFault (s : State) (h : HubId) (p : Nat) : State :=
  let x := (s.hub h).src p
  if x.fault || x.lame then s
  else
    let s := s.modHub h (fun k => k.modSrc p (fun y => { y with fault := true, quietSince := s.now }))
    let s := s.orderFences h (s.unitAgents p)
    (if posGroup p = 0 then s.removePad h p else s).syncState h

/-- A source is lame at a hub because the other hub has it so. -/
def State.mergeLame (s : State) (h : HubId) (p : Nat) (recovery : Nat) : State :=
  if ((s.hub h).src p).lame then s
  else
    let s := s.modHub h (fun k => { k.modSrc p (fun y => { y with fault := false, lame := true, recovery := max y.recovery recovery }) with
      lameSinceReady := k.lameSinceReady || k.st.pastReady })
    let s := s.orderFences h (s.unitAgents p)
    let s := if posGroup p = 0 then s.removePad h p else s
    ((s.modHub h (·.count 9)).lameEvent h).syncState h

/-- A paddock entry of the other hub: present, flags ORed, lower CLEAN, higher EVENTS, earlier DUE (R280). A unit that is in its fault
state or lame at a hub has no entry there (R237). -/
def State.mergePad (s : State) (h : HubId) (e : PadEntry) : State :=
  if (s.hub h).fences? e.agent then s else
  match (s.hub h).padSlot e.agent with
  | some i => s.modHub h (fun k => { k with paddock := k.paddock.mod {} i (fun x =>
      { x with tile := x.tile || e.tile, agentSus := x.agentSus || e.agentSus, clean := min x.clean e.clean,
               events := max x.events e.events, due := min x.due e.due, gap := x.gap || e.gap, dirty := x.dirty || e.dirty }) })
  | none =>
    match (List.range 64).find? (fun i => !((s.hub h).paddock.get {} i).valid) with
    | none => s
    | some i => (s.modHub h (fun k => { k with paddock := k.paddock.set {} i e })).syncPaddock e.agent

/-- The state that R280 takes for a section, at one hub against the other's. -/
def State.mergeSection (s : State) (h : HubId) (c : DigestSection) : State :=
  let o := s.hub (twinHub h)
  let k := s.hub h
  match c with
  | .hubState =>
    if o.st = .stopped ∧ k.st ≠ .stopped then s.chipStop h
    else if k.st = .stopped then s
    else if o.st = .degraded ∧ k.st = .run then s.setSt h .degraded
    else if k.st = .degraded ∧ o.st = .run then s
    else s.setSt h (s.hub s.twin.leader).st
  | .faults => s.each ((o.srcs.entries.filter (fun e => e.2.fault)).map (·.1)) (fun p s => s.mergeFault h p)
  | .lame => s.each (o.srcs.entries.filter (fun e => e.2.lame)) (fun e s => s.mergeLame h e.1 e.2.recovery)
  | .fences => s.orderFences h (o.fences.map (·.1))
  | .paddock => s.each ((o.paddock.entries.filter (fun e => e.2.valid)).map (·.2)) (fun e s => s.mergePad h e)
  | .aborted => s.modHub h (fun k => { k with aborted := o.aborted.foldl (fun l j => setAdd j l) k.aborted })
  | .curb => s.each (List.range s.build.dies) (fun d s =>
      let n := s.curbAt (twinHub h) d
      if s.curbAt h d < n then s.setCurb h d n (decide (s.bands.curbHi < n)) else s)
  | .retakes => s
  | .gates => s
  | .frozen => s
  | .serial => s

/-- ITEMS: the other hub's items of a section arrive, once it has sent them, and each that differs takes the state of R280 (R281). -/
def execItems (hub : HubId) (sec : DigestSection) (s : State) : Host.Outcome State Fault Refusal :=
  live s fun s =>
    if s.pairTalks ∧ (s.hub hub).merging ∧ !(s.waits (twinHub hub) .items) then s.mergeSection hub sec else s

/-! ### Consent (R274, R277) -/

/-- The source position that CLEAR_SOURCE names, and the job that LAUNCH_AT names. -/
def Cmd.pos (c : Cmd) : Nat := bits c.arg0 12 0
def Cmd.job (c : Cmd) : Nat := bits c.arg0 7 0

/-- The follower's own state permits the command in progress (R276): it is not in chip stop, and its source is not lame or
its job not aborted. -/
def Cmd.permits (c : Cmd) (f : Hub) : Bool :=
  !f.s4 && (match c.act with
    | some .clearSource => !(f.src c.pos).lame
    | some .launchAt => !(f.aborted.contains c.job)
    | _ => true)

/-- The follower's own state permits a relaxing action (R277): a settle order where its own decision, which is `own` where the accounts
that it has fetched are others, settles too. -/
def State.permits (s : State) (x : RelaxAction) (own : Option Nat) : Bool :=
  let w := twinHub s.twin.leader
  let f := s.hub w
  match x with
  | .unfence p => s.permitsUnfence p f
  | .openGate job _ => permitsGate job f
  | .settle n => !f.s4 && !(f.aborted.contains (s.retake n).job.toNat) && decide (own.getD 0 ≤ 3)
  | .removePaddock a => !f.s4 && s.wouldLeave f a
  | .lowerCurb d => !f.s4 && (match s.dieTemp w d, (f.thermal.get {} d).release with
      | some t, some r => decide (t < r)
      | _, _ => false)
  | .admitPort _ => !f.s4
  | .command _ => s.cmd.permits f

/-- A proposal as its frame carries it: the action and its object (R277). -/
def actionWords : RelaxAction → List Nat
  | .unfence p => [0, p]
  | .openGate job step => [1, job.toNat, step.toNat]
  | .settle n => [2, n]
  | .removePaddock a => [3, a]
  | .lowerCurb d => [4, d]
  | .admitPort p => [5, p]
  | .command op => [6, op]

/-! ### MIRROR and REG_WRITE frames (R275, R279, R454, R482) -/

/-- A source leaves its fault state at a hub that follows the other one's recovery, of which `m` is the entry. -/
def State.takeRecovery (s : State) (h : HubId) (p recovery : Nat) (m : Msg) : State :=
  let s := s.modHub h (fun k => (k.modSrc p (fun y => { y with fault := false, recovery := max y.recovery recovery })).count 8)
  let s := s.endFences h (s.unitAgents p)
  let s := if posGroup p = 0 ∧ !s.standins.isEmpty then s.place h p true true 2 m else s
  s.syncState h

/-- A mirrored recovery: the source leaves its fault state here too, unless the own state is the more restrictive one. -/
def State.mirrorRecovery (s : State) (h : HubId) (p : Nat) (m : Msg) : State :=
  if ((s.hub h).src p).fault && s.permitsUnfence p (s.hub h) then s.takeRecovery h p m.addr.toNat m else s

/-- A mirrored entry is applied under the more restrictive rule (R279), a disagreement of R228 with the state that the other hub has
taken. -/
def State.applyMirror (s : State) (h : HubId) (m : Msg) : State :=
  let p := (srcPos m.source).getD 0
  let s := s.record h { m with twin := true }
  let s := if m.kind = 0x16#8 then s.mirrorRecovery h p m
    else if m.kind = 0x17#8 then s.mergeLame h p m.addr.toNat
    else if m.kind = 0x13#8 ∧ m.sev = 1#3 then s.reconcileTake h p (m.addr.getLsbD 0)
    else if m.sev = 4#3 then s.chipStop h (some m)
    else if m.sev = 3#3 then s.enterFault h p m.kind (some m)
    else s
  if s.aborts m && (s.job m.job.toNat).abortHeld then
    s.modHub h (fun k => { k with aborted := setAdd m.job.toNat k.aborted })
  else s

/-- MIRROR: the other hub's next entry, or the follower's next abort, arrives (R279, R482). -/
def execMirror (hub : HubId) (s : State) : Host.Outcome State Fault Refusal :=
  live s fun s =>
    let w := twinHub hub
    if s.pairTalks ∧ s.canSend w ∧ 1 ≤ s.firstClass w then
      match (s.xsend w).mirrors with
      | m :: r => (((s.modX w (fun x => { x with mirrors := r })).sendFrame w .mirror [m.pack.toNat]).applyMirror hub m).takeUpLead
      | [] =>
        match (s.xsend w).aborts with
        | [] => s
        | (job, kind) :: r =>
          let s := (s.modX w (fun x => { x with aborts := r })).sendFrame w .mirror [job.toNat, kind.toNat]
          let s := s.fifoAbort job.toNat kind
          if (s.job job.toNat).abortHeld then s.modHub hub (fun k => { k with aborted := setAdd job.toNat k.aborted }) else s
    else s

/-- REG_WRITE: the next write accepted at the serving hub is applied at the other hub (R454). -/
def execRegWrite (hub : HubId) (s : State) : Host.Outcome State Fault Refusal :=
  live s fun s =>
    let w := twinHub hub
    if s.pairTalks ∧ s.canSend w ∧ 2 ≤ s.firstClass w then
      match (s.xsend w).writes with
      | [] => s
      | (a, d) :: r =>
        ((s.modX w (fun x => { x with writes := r })).sendFrame w .regWrite [a.toNat, d.toNat]).applyWrite hub a.toNat d
    else s

/-! ### Silence, takeover, arbitration (R282 to R285) -/

/-- Raise the claim of a hub. -/
def State.claim (s : State) (h : HubId) : State :=
  if s.claims h then s
  else match h with
    | .a => { s with alive := { s.alive with claimA := true, claimAtA := s.now } }
    | .b => { s with alive := { s.alive with claimB := true, claimAtB := s.now } }

/-- The hub whose claim the cell grants: the first that it samples, of two in one KCLK cycle of 40 ns the leader's (R283). -/
def State.claimant (s : State) : Option HubId :=
  let c := s.alive
  let a := c.claimAtA / 40
  let b := c.claimAtB / 40
  if c.claimA ∧ c.claimB then some (if a < b then .a else if b < a then .b else s.twin.leader)
  else if c.claimA then some .a
  else if c.claimB then some .b
  else none

/-- TWIN_SILENCE: no good frame for 4 µs: the claim and KIND 0x19; an arbitration under way is abandoned (R283, R293). -/
def execTwinSilence (hub : HubId) (s : State) : Host.Outcome State Fault Refusal :=
  live s fun s =>
    if s.pairUp then
      let s := s.advanceTo ((s.xsend hub).lastGood + 4000)
      let s := { s with twin := { s.twin with arbitration := false } }
      (s.claim hub).note hub (twinSrc hub) 0x19 3 0 0
    else s

/-- After a takeover in bring-up the survivor reruns the stage from its start, with a fresh budget (R349): a die link that is not down
trains again, a port is judged again. -/
def State.rerunStage (s : State) : State :=
  match s.stage with
  | none => s
  | some n => { s with stageFrom := s.now, image := if n = 5 then none else s.image,
                       links := if n = 3 then s.links.map {} (fun l => if l.down then l else { l with lanes := 0, tries := 0 }) else s.links,
                       ports := if n = 9 then s.ports.map {} (fun p => { tx := p.tx, bcWidth := p.bcWidth, lastSent := p.lastSent })
                                else s.ports }

/-- ALIVE_CLAIM_GRANT: the cell grants a claim; the other hub is detached (R283). -/
def execAliveClaimGrant (s : State) : Host.Outcome State Fault Refusal :=
  live s fun s =>
    match s.claimant with
    | none => s
    | some h => if s.pairUp then (s.detach (twinHub h) 3).takeUpLead.rerunStage else s

/-- TWIN_ARBITRATION: each hub reports its self-test on the cross-link, in a HELLO frame, which carries that result (R272). The one hub
that fails it is detached, the follower where both pass; where both fail each records an S4 (R282). -/
def execTwinArbitration (passA passB : Bool) (s : State) : Host.Outcome State Fault Refusal :=
  live s fun s =>
    if s.twin.arbitration && s.pairUp then
      let s := { s with twin := { s.twin with arbitration := false } }.selfTests passA passB
      let s := (s.reportTest .a passA).reportTest .b passB
      match passA, passB with
      | true, true => (s.detach (twinHub s.twin.leader) 4).takeUpLead
      | true, false => (s.detach .b 4).takeUpLead
      | false, true => (s.detach .a 4).takeUpLead
      | false, false => s.eachHub (fun h s => s.note h (twinSrc h) 0x18 4 (BitVec.ofNat 48 s.twin.cutSeq.toNat) 0)
    else s

/-! ### The alive cell (R226) -/

/-- HUB_STROBE: a healthy hub strobes the cell (R226). -/
def execHubStrobe (hub : HubId) (s : State) : Host.Outcome State Fault Refusal :=
  live s fun s => if s.hubUp hub ∧ (s.hub hub).st ≠ .failedBringup then { s with alive := { s.alive with strobed := true } } else s

/-- An S4 is recorded at an acting hub. -/
def State.anyS4 (s : State) : Bool := s.upHubs.any (fun h => (s.hub h).s4)

/-- ALIVE_BOUNDARY: ALIVE toggles if a hub has strobed since the last boundary and no S4 is recorded; otherwise it stops
for good (R226). -/
def execAliveBoundary (s : State) : Host.Outcome State Fault Refusal :=
  live s fun s =>
    if s.alive.started then
      let s := s.advanceTo (s.alive.lastEdge + s.alivePeriod / 2)
      let c := s.alive
      if !c.stopped && c.strobed && !s.anyS4 then
        { s with alive := { c with level := !c.level, strobed := false, lastEdge := s.now } }.present (.alive (!c.level))
      else
        { s with alive := { c with stopped := true, forWant := c.forWant || (!c.stopped && !c.strobed), strobed := false,
                                   lastEdge := s.now } }
    else s

end Sys2Proof.Machine
end

