-- ==== Sys2Proof/Machine/Commands.lean ====
section
/-! DEFINITION. The driver's commands: acceptance, the order of refusals, and what each does (R215, R235, R258, R276, R286,
R313, R317, R364, R368 to R377, R392, R461 to R463). -/

namespace Sys2Proof.Machine

open Sys2Proof

/-! ### Acceptance (R276, R461) -/

/-- HUB_CMD while a command is BUSY: OVERRUN, counted (R461). -/
def State.overrunCmd (s : State) : State := { s.refuseWord with cmd := { s.refuseWord.cmd with overrun := true } }

/-- A command is accepted: TAG and OP are shown, the arguments sampled; the write goes to the other hub (R275, R461). -/
def State.acceptCmd (s : State) (op : Nat) (tag : Byte) : State :=
  { s with cmd := { s.cmd with tag := tag, op := op, code := 1, at_ := s.now, arg0 := s.sv.regs.arg0, arg1 := s.sv.regs.arg1,
                               arg2 := s.sv.regs.arg2, arg3 := s.sv.regs.arg3 } }.mirrorWrite 0x0C (at32 tag.toNat 8 ||| at32 op 0)

/-- Bits of HUB_ARG0 to HUB_ARG3 that the command's row does not name are all 0 (R462). -/
def Cmd.unnamedZero (c : Cmd) (m0 m1 m2 m3 : W32) : Bool :=
  decide (c.arg0 &&& ~~~m0 = 0 ∧ c.arg1 &&& ~~~m1 = 0 ∧ c.arg2 &&& ~~~m2 = 0 ∧ c.arg3 &&& ~~~m3 = 0)

/-- LOAD_HARNESS while START runs: it ends STATE_REFUSED, counted and with CMD_DONE, and HUB_CMD_STS reads BUSY as before, which R318
wants until the call sheet ends (R317, R349). DEDUCED (log 111). -/
def State.refuseLoad (s : State) : State := s.refuseWord.modHubs (fun h => { h with irq := h.irq ||| 8#32 })

/-- A write of HUB_CMD: refused while BUSY, by state, by argument, or carried out (R461). -/
def State.issue (s : State) (op : Nat) (tag : Byte) (states : List HubSt) (masks : W32 × W32 × W32 × W32)
    (argOk : State → Bool) (act : State → State) : State :=
  if s.cmd.code = 1 then (if op = 2 ∧ s.cmd.op = 1 ∧ s.ld.st = .bringup then s.refuseLoad else s.overrunCmd)
  else
    let s := s.acceptCmd op tag
    if s.ld.st ∉ states then s.refuseWord.endCmd 2
    else if s.cmd.unnamedZero masks.1 masks.2.1 masks.2.2.1 masks.2.2.2 && argOk s then act s
    else s.endCmd 3

/-- A relaxing command of a leader with a twin stays BUSY until the follower has answered (R276, R277); a hub alone carries
it out. -/
def State.consented (s : State) (x : CmdAct) (act : State → State) : State :=
  if s.pairUp then
    let no := fun y : RelaxAction => match y with
      | .command _ => false
      | _ => true
    { s with cmd := { s.cmd with act := some x },
             twin := { s.twin with proposals := s.twin.proposals.filter no ++ [.command s.cmd.op],
                                   answer := s.twin.answer.filter (fun y => no y.1) } }
  else act s

/-- No argument. -/
def noArgs : W32 × W32 × W32 × W32 := (0, 0, 0, 0)

/-- The states of ordinary work. -/
def workStates : List HubSt := [.ready, .run, .degraded]

/-! ### START, LOAD_HARNESS, RUN, QUIESCE (R317, R318, R462, R463) -/

/-- The effect of START. -/
def State.startAct (s : State) : State := (s.eachHub (fun h s => s.setSt h .bringup)).beginStage 0

/-- START: the call sheet begins at stage 0; without a recorded location ARG_INVALID. -/
def execStart (tag : Byte) (s : State) : Host.Outcome State Fault Refusal :=
  live s fun s => s.portDo fun s =>
    s.issue 0x1 tag [.off] noArgs (fun s => s.harness.located) fun s =>
      s.consented .start (·.startAct)

/-- The effect of LOAD_HARNESS. -/
def State.loadHarnessAct (s : State) : State :=
  { s with harness := { s.harness with
      located := true, addr := s.sv.regs.harnessAddrLo.toNat + 2 ^ 32 * bits s.sv.regs.harnessAddrHi 15 0,
      len := s.sv.regs.harnessLen.toNat } }.endCmd 0

/-- LOAD_HARNESS: the location is recorded; nothing is read. After OFF it ends STATE_REFUSED, while START runs too (R317). -/
def execLoadHarness (tag : Byte) (s : State) : Host.Outcome State Fault Refusal :=
  live s fun s => s.portDo fun s =>
    s.issue 0x2 tag [.off] noArgs
      (fun s => decide (s.sv.regs.harnessAddrLo.toNat % 4 = 0 ∧ s.sv.regs.harnessLen ≠ 0)) fun s =>
      s.consented .loadHarness (·.loadHarnessAct)

/-- The effect of RUN. -/
def State.runAct (s : State) : State :=
  (s.eachHub (fun h s => s.setSt h (if (s.hub h).faulted then .degraded else .run))).endCmd 0

/-- RUN: the state is RUN, or DEGRADED where FAULTED is 1. -/
def execRun (tag : Byte) (s : State) : Host.Outcome State Fault Refusal :=
  live s fun s => s.portDo fun s =>
    s.issue 0x3 tag [.ready, .saved] noArgs (fun _ => true) fun s => s.consented .run (·.runAct)

/-- QUIESCE: it ends, with READY, once everything is quiet. -/
def execQuiesce (tag : Byte) (s : State) : Host.Outcome State Fault Refusal :=
  live s fun s => s.portDo fun s => s.issue 0x4 tag [.run, .degraded] noArgs (fun _ => true) fun s => s.endQuiesce

/-! ### SAVE and RESTORE (R165, R369 to R371) -/

/-- Something that SAVE waits for remains (R369): a gate that the hubs have opened and not every agent has heard of is no open gate
yet, and a step element of a signing stream waits for ranges of a gate list (R165, R372). DEDUCED (log 112). -/
def State.saveBlocked (s : State) : Bool :=
  s.agents.entries.any (fun e => decide (e.2.ctxs ≠ [] ∨ e.2.gates ≠ []) || e.2.groups.entries.any (·.2.isSome))
    || s.concs.entries.any (fun e => decide (e.2.engine ≠ []))
    || !(s.openRetakes (fun _ => true)).isEmpty
    || s.jobs.entries.any (fun e => e.2.pending.isSome || decide (e.2.opens ≠ [] ∨ e.2.opened ≠ []))
    || s.streams.entries.any (fun e => decide (e.2.elems ≠ []))

/-- The 48-bit address of ARG0 and ARG1. -/
def Cmd.address (c : Cmd) : Nat := c.arg0.toNat + 2 ^ 32 * bits c.arg1 15 0

/-- A VECTOR_CLASS record with the parameters in force: those that a launch pulse binds are the ones bound (R157, R165). -/
def State.classInForce (s : State) (r : Rec) : Rec :=
  let e := (s.conc (s.clusters.headD 0)).env.get {} (r.fld 1 31 26)
  let w := at32 e.k16Base 24 ||| at32 e.alpha 20 ||| at32 e.warm 12 ||| at32 e.sigmaMin 4 ||| (r.word 4 &&& 0xF#32)
  { r with words := r.words.set 4 w }

/-- The sections of a save image after its header, in the order and with the lengths of R370; places inside an entry that R370
does not give are the model's. DESIGN CHOICE (log 102). -/
def imageBody (i : SaveImage) : List Byte :=
  let at_ (l : List (Nat × Nat)) (p : Nat) : Nat := ((l.find? (fun e => decide (e.1 = p))).map (·.2)).getD 0
  i.slates.flatMap (fun x => bytesBE 8 x.job.toNat ++ (List.range 42).flatMap (fun k => bytesBE 4 (x.words.getD k 0).toNat) ++ bytesBE 8 x.live.toNat)
    ++ i.envelopes.flatMap (fun x => bytesBE 4 (BitVec.ofInt 32 x.mu).toNat ++ bytesBE 4 (BitVec.ofInt 32 x.var).toNat
        ++ bytesBE 4 x.steps ++ bytesBE 2 x.k16 ++ bytesBE 2 x.clean)
    ++ (List.range 1024).map (Config.paramByte (i.classes.map (·.words)) i.odd
        (i.envelopes.map (fun x => [x.cluster, x.vclass, x.k16Base, x.alpha, x.warm, x.sigmaMin])))
    ++ bytesBE 8 i.inlogHead.toNat ++ bytesBE 8 i.inlogWraps.toNat
    ++ i.streams.flatMap (fun x => bytesBE 4 x.stream ++ bytesBE 4 x.job.toNat ++ bytesBE 8 (b2n x.first.isSome) ++ padTo 48 x.head
        ++ bytesBE 8 (x.first.getD 0).toNat ++ bytesBE 8 x.last.toNat)
    ++ (List.range 8192).map (fun p => BitVec.ofNat 8 (at_ i.buckets p))
    ++ (List.range 4096).map (fun p => BitVec.ofNat 8 (at_ i.recovery (2 * p) % 16 + 16 * (at_ i.recovery (2 * p + 1) % 16)))
    ++ (List.range 64).flatMap (fun p => bytesBE 8 (((i.paddock.find? (fun e => decide (e.1 = p))).map (·.2.toNat)).getD 0))

/-- Every byte of a save image before its SHA-384 (R370): the header's fields follow one another in R370's order, the rest of its
128 bytes is 0, and its length is that of the whole image. DESIGN CHOICE (log 102). -/
def imageBytes (i : SaveImage) : List Byte :=
  padTo 128 (bytesBE 2 i.magic.toNat ++ [i.format] ++ bytesBE 4 i.idRev.toNat ++ bytesBE 8 i.chipId.toNat
    ++ i.harness.flatMap (fun w => bytesBE 4 w.toNat) ++ bytesBE 4 (128 + (imageBody i).length + 48) ++ bytesBE 8 i.stepClock.toNat) ++ imageBody i

/-- A save image with its SHA-384 (R370). -/
def sealSave (i : SaveImage) : SaveImage := { i with digest := sha384 (imageBytes i) }

/-- The image of R370, from the leader's view. -/
def State.saveImage (s : State) : SaveImage :=
  let act := s.jobs.entries.filter (fun e => e.2.active)
  sealSave
  { magic := 0x5A7E#16, format := 1#8, idRev := idRev, chipId := s.keys.chipId, harness := s.harness.digest,
    stepClock := s.clock.count,
    slates := act.map (fun e =>
      { job := BitVec.ofNat 8 e.1, words := (List.range 42).map e.2.word, live := e.2.tccLive }),
    envelopes := s.clusters.flatMap (fun c => (recsOf 0x30 s.recs).map (fun r =>
      let v := r.fld 1 31 26
      let x := (s.conc c).env.get {} v
      { cluster := c, vclass := v, mu := x.mu, var := x.var, steps := x.steps, k16 := x.k16, clean := x.clean,
        k16Base := x.k16Base, alpha := x.alpha, warm := x.warm, sigmaMin := x.sigmaMin })),
    odd := s.clusters.flatMap (fun c => act.map (fun e => (c, e.1, ((s.conc c).jobs.get {} e.1).oddM.getD (s.conc c).oddFirst))),
    classes := (recsOf 0x30 s.recs).map s.classInForce ++ recsOf 0x31 s.recs,
    inlogHead := s.inlog.head, inlogWraps := s.inlog.wraps,
    streams := (s.streams.entries.filter (fun e => e.2.bound)).map (fun e =>
      { stream := e.1, job := e.2.job, head := e.2.head, first := e.2.first, last := e.2.last }),
    buckets := (s.ld.srcs.entries.filter (fun e => decide (e.2.bucket ≠ 0))).map (fun e => (e.1, e.2.bucket)),
    recovery := (s.ld.srcs.entries.filter (fun e => decide (e.2.recovery ≠ 0))).map (fun e => (e.1, e.2.recovery)),
    paddock := (s.ld.paddock.entries.filter (fun e => e.2.valid)).map (fun e => (e.1, e.2.pack)),
    digest := [] }

/-- The effect of SAVE; work that has come since its acceptance refuses it (R369). -/
def State.saveAct (s : State) : State :=
  if s.saveBlocked then s.refuseWord.endCmd 2
  else ((s.present (.saved s.cmd.address s.saveImage)).eachHub (fun h s => s.setSt h .saved)).endCmd 0

/-- SAVE: the image is written and the state is SAVED (R369, R370). -/
def execSave (tag : Byte) (s : State) : Host.Outcome State Fault Refusal :=
  live s fun s => s.portDo fun s =>
    s.issue 0x5 tag workStates (BitVec.allOnes 32, 0xFFFF, 0, 0) (fun s => decide (s.cmd.address % 4096 = 0)) fun s =>
      if s.saveBlocked then s.refuseWord.endCmd 2 else s.consented .save (·.saveAct)

/-- The image may be loaded here (R371). -/
def State.imageFits (s : State) (i : SaveImage) : Bool :=
  decide (i.magic = 0x5A7E#16 ∧ i.format = 1#8 ∧ i.idRev = idRev ∧ i.harness = s.harness.digest) && decide (i.digest = sha384 (imageBytes i))
    && i.slates.all (fun x => !(s.job x.job.toNat).active)

/-- A slate of the image is the job's again; its next launch takes the STEP that follows (R371). Neither a choice nor a beacon that
an aborted run of the job has left is the resumed run's (R360, R372). -/
def State.loadSlate (s : State) (x : SavedSlate) : State :=
  let n := x.job.toNat
  let m : SMap W32 := (List.range 42).foldl (fun m i => m.set 0 i (x.words.getD i 0)) ⟨[]⟩
  let s := if (s.job n).abortHeld then s else s.modHubs (fun k => { k with aborted := k.aborted.erase n })
  let s := (s.clearChoices x.job).dropHeld n
  s.modJob n (fun j =>
    let j := { j with active := true, slate := m, tccLive := x.live, launchedOnce := true, judgedPorts := [] }
    { j with tcc := BitVec.ofNat 64 ((j.word 38).toNat + 2 ^ 32 * (j.word 39).toNat), digest := slateDigest j.shared })

/-- An envelope of the image, with cleared sums (R165). -/
def State.loadEnvelope (s : State) (x : SavedEnvelope) : State :=
  let e : Envelope :=
    { mu := x.mu, var := x.var, steps := x.steps, k16 := x.k16, clean := x.clean, k16Base := x.k16Base, alpha := x.alpha,
      warm := x.warm, sigmaMin := x.sigmaMin }
  s.modConc x.cluster (fun c => { c with env := c.env.set {} x.vclass e })

/-- A paddock entry in the layout of R243; a trot-up of the saving chip goes on as one that is due. -/
def padOfWord (w : W64) : PadEntry :=
  { valid := bit w 51, agent := bits w 63 52, tile := bit w 50, agentSus := bit w 49,
    state := if bits w 48 47 = 0 then .watch else .due, clean := bits w 46 43, events := bits w 42 39, cause := bits w 38 36,
    gap := bit w 35, dirty := bit w 34, due := bits w 31 0 * 2 ^ 26 }

/-- A hub with the buckets and recovery counters of a save image, and an empty paddock (R371). -/
def Hub.loadSources (k : Hub) (i : SaveImage) : Hub :=
  let srcs := k.srcs.map {} (fun x => { x with bucket := 0, recovery := 0 })
  let srcs := i.buckets.foldl (fun m x => m.mod {} x.1 (fun y => { y with bucket := x.2 })) srcs
  let srcs := i.recovery.foldl (fun m x => m.mod {} x.1 (fun y => { y with recovery := x.2 })) srcs
  { k with srcs := srcs, paddock := ⟨[]⟩ }

/-- Buckets, recovery counters and paddock of the same chip (R371); a unit that is lame or in its fault state has no entry
(R236), and the deferrals of the entries that it replaces are over (R245). -/
def State.loadUnits (s : State) (i : SaveImage) : State :=
  let s := s.eachHub (fun h s => s.modHub h (·.loadSources i))
  let s := { s with test := { s.test with deferredSince := [] } }
  let s := s.each i.paddock (fun x s =>
    let e := padOfWord x.2
    s.eachHub (fun h s =>
      if e.valid && !((s.hub h).fences? e.agent) then s.modHub h (fun k => { k with paddock := k.paddock.set {} x.1 e }) else s))
  s.each s.allAgents (fun a s => s.syncPaddock a)

/-- The static parameters of the image are in force again, in the records of the same classes, and its ODD record, or none where ODD_M
was the default (R165): a hot update may have added one on either side (R390). -/
def loadClasses (recs cs : List Rec) : List Rec :=
  (recs.filter (fun r => decide (r.type ≠ 0x31))).map (fun r =>
    if r.type = 0x30 then
      match cs.find? (fun x => decide (x.type = r.type ∧ x.fld 1 31 26 = r.fld 1 31 26)) with
      | none => r
      | some x => { r with words := x.words }
    else r) ++ cs.filter (fun r => decide (r.type = 0x31))

/-- RESTORE loads every section (R371). -/
def State.loadImage (s : State) (i : SaveImage) : State :=
  let s := s.each i.slates (fun x s => s.loadSlate x)
  let s := s.each i.envelopes (fun x s => s.loadEnvelope x)
  let s := { s with harness := { s.harness with recs := loadClasses s.harness.recs i.classes } }
  let s := s.each i.odd (fun x s => s.modConc x.1 (fun c => { c with jobs := c.jobs.mod {} x.2.1 (fun y => { y with oddM := some x.2.2 }) }))
  let s := { s with inlog := { s.inlog with head := i.inlogHead, wraps := i.inlogWraps } }
  let s := s.each i.streams (fun x s => s.modStream x.stream (fun _ =>
    { bound := true, job := x.job, head := x.head, first := x.first, last := x.last }))
  if i.chipId = s.keys.chipId then s.loadUnits i else { s with restoreSkipped := satInc s.restoreSkipped }

/-- The effect of RESTORE. -/
def State.restoreAct (s : State) (image : SaveImage) : State :=
  ((s.loadImage image).eachHub (fun h s => s.setSt h .ready)).endCmd 0

/-- RESTORE: the image is checked and loaded, and the state is READY (R371). -/
def execRestore (tag : Byte) (image : SaveImage) (s : State) : Host.Outcome State Fault Refusal :=
  live s fun s => s.portDo fun s =>
    s.issue 0x6 tag [.ready, .saved] (BitVec.allOnes 32, 0xFFFF, 0, 0)
      (fun s => decide (s.cmd.address % 4096 = 0) && s.imageFits image) fun s =>
      s.consented (.restore image) (·.restoreAct image)

/-! ### TROT_UP, CLEAR_SOURCE, SET_BAND (R215, R235, R236, R310, R313) -/

/-- The list has room for an agent at a hub, or holds its entry. -/
def Hub.padRoom (k : Hub) (a : Nat) : Bool :=
  (k.padSlot a).isSome || (List.range 64).any (fun i => !(k.paddock.get {} i).valid)

/-- The driver places an agent at a hub, with cause 4 (R235, R236); the DUE of one whose trot-up is in progress stays (R267). -/
def State.placeByDriver (s : State) (h : HubId) (a : Nat) : State :=
  if (s.hub h).padRoom a then
    let e := (s.hub h).pad? a
    let s := s.place h a true true 4 { source := srcId 0 a, stamp := s.stamp, seq := (s.hub h).intake.seq }
    match e, (s.hub h).padSlot a with
    | some e, some i => if e.state = .testing then s.modHub h (fun k => { k with paddock := k.paddock.mod {} i (fun x => { x with due := e.due }) }) else s
    | _, _ => s
  else s

/-- TROT_UP: the agent enters the paddock with cause 4 (R235, R236). -/
def execTrotUp (tag : Byte) (s : State) : Host.Outcome State Fault Refusal :=
  live s fun s => s.portDo fun s =>
    let agent (s : State) : Nat := bits s.cmd.arg0 11 0
    s.issue 0x7 tag workStates (0xFFF, 0, 0, 0)
      (fun s => s.agentOn (agent s) && !(s.ld.fences? (agent s)) && s.ld.padRoom (agent s)) fun s =>
      (s.eachHub (fun h s => s.placeByDriver h (agent s))).endCmd 0

/-- The follower takes the recovery that the command gives; a source that becomes lame is mirrored. -/
def State.clearFollower (s : State) (h : HubId) (p : Nat) : State :=
  let x := (s.hub h).src p
  let rc := min (x.recovery + 1) 15
  let s := s.modHub h (fun k => k.modSrc p (fun y => { y with bucket := 0 }))
  if x.fault && decide (rc < s.grpL (posGroup p)) then s.takeRecovery h p rc { source := posSrc p, kind := 0x16, stamp := s.stamp } else s

/-- The effect of CLEAR_SOURCE: that of on_quiet at once, and the bucket is cleared (R215). -/
def State.clearSourceAct (s : State) : State :=
  let p := s.cmd.pos
  let l := s.twin.leader
  let s := if s.ld.fences? p then (s.onQuiet l p).modHub l (fun k => k.modSrc p (fun y => { y with bucket := 0 })) else s
  let s := if s.pairUp then s.clearFollower (twinHub l) p else s
  s.startWaiting.endCmd 0

/-- CLEAR_SOURCE: the fault state of a source ends (R215). -/
def execClearSource (tag : Byte) (s : State) : Host.Outcome State Fault Refusal :=
  live s fun s => s.portDo fun s =>
    s.issue 0x8 tag [.ready, .run, .degraded, .saved] (0x1FFF, 0, 0, 0)
      (fun s => (s.ld.src s.cmd.pos).fault && !(s.ld.src s.cmd.pos).lame) fun s => s.consented .clearSource (·.clearSourceAct)

/-- The range of a loop's band (R310). -/
def bandRange : Nat → Nat × Nat
  | 0 => (1, 7)
  | 1 => (1, 86400)
  | 2 => (1, 100)
  | _ => (16, 255)

/-- The argument of SET_BAND holds (R313). -/
def State.bandOk (s : State) : Bool :=
  let r := s.sv.regs
  let loop := bits r.bandSel 2 0
  let lo := r.bandLo.toNat
  let hi := r.bandHi.toNat
  let g := bandRange loop
  decide (loop ≤ 3 ∧ lo ≤ hi ∧ g.1 ≤ lo ∧ hi ≤ g.2) &&
    (decide (loop ≠ 3) || (match s.vclass? (bits r.bandSel 15 8) with
      | none => false
      | some v => bit (v.word 1) 24 && decide (orDef (v.fld 4 31 24) 128 ≤ lo)))

/-- The effect of SET_BAND with what BAND_SEL, BAND_LO and BAND_HI held at its acceptance. -/
def State.setBandAct (s : State) (sel lo hi : W32) : State :=
  let b := match bits sel 2 0 with
    | 0 => { s.bands with curbLo := lo.toNat, curbHi := hi.toNat, curbMoved := true }
    | 1 => { s.bands with tpMin := lo.toNat, tpMax := hi.toNat }
    | 2 => { s.bands with roundLo := lo.toNat, roundHi := hi.toNat }
    | _ => { s.bands with k16 := s.bands.k16.set none (bits sel 15 8) (some (lo.toNat, hi.toNat)) }
  { s with bands := b }.endCmd 0

/-- SET_BAND: the band is recorded; it takes effect at the loop's next evaluation (R313). -/
def execSetBand (tag : Byte) (s : State) : Host.Outcome State Fault Refusal :=
  live s fun s => s.portDo fun s =>
    s.issue 0x9 tag workStates noArgs (fun s => s.bandOk) fun s =>
      let r := s.sv.regs
      s.consented (.setBand r.bandSel r.bandLo r.bandHi) (fun s => s.setBandAct r.bandSel r.bandLo r.bandHi)

/-! ### RETIRE_TWIN (R286) -/

/-- A merge under way is completed at once at the hub that stays. -/
def State.finishMerge (s : State) (h : HubId) : State :=
  if (s.hub h).merging then
    (s.each allSections (fun c s => s.mergeSection h c)).modHub h (fun k => { k with merging := false, digestMiss := 0 })
  else s

/-- RETIRE_TWIN: a merge under way is completed; then the named hub is detached, the other one leads and records KIND 0x1A at
S0 (R286, R293). -/
def execRetireTwin (tag : Byte) (s : State) : Host.Outcome State Fault Refusal :=
  live s fun s => s.portDo fun s =>
    s.issue 0xA tag workStates (1, 0, 0, 0) (fun s => decide (s.build.hubs = 2) && s.pairUp) fun s =>
      (s.finishMerge (twinHub s.cmd.named)).endRetire

/-! ### WRAP (R258, R261) -/

/-- WRAP: the wrap test starts; the state is WRAP once the command has ended DONE, until a whole reset (R261, R463). Without flash it
ends at once. DEDUCED (log 35). -/
def execWrap (tag : Byte) (s : State) : Host.Outcome State Fault Refusal :=
  live s fun s => s.portDo fun s =>
    s.issue 0xB tag [.ready, .saved] noArgs (fun _ => true) fun s =>
      let none_ := !s.flash.answers
      let s := { s with test := { s.test with wrapping := true, wrapNext := 0, imageAbsent := !s.testReady, hubTested := 0xFF#8,
                                              wrapDone := none_ } }
      if none_ then s.endWrap else s.askGroup

/-! ### SIGN_RESULT (R374 to R377) -/

/-- The blocks of a weight range, in address order. -/
def State.rangeBlocks (s : State) (x : Nat × Nat) : List Nat :=
  match s.regionAt x.1 with
  | none => []
  | some g =>
    let b := g.blockBase x.1
    (List.range ((x.2 - b + g.blockBytes - 1) / g.blockBytes)).map (fun i => b + i * g.blockBytes)

/-- The blocks of a range with the tag words read from the sidecar. -/
def State.rangeTags (s : State) (x : Nat × Nat) (ws : List W32) : List (Nat × W32) :=
  (s.rangeBlocks x).zipIdx.map (fun e => (e.1, ws.getD e.2 0))

/-- Every weight range of a stream with its tag words. -/
def State.weightTags (s : State) (n : Nat) (weights : List (List W32)) : List (List (Nat × W32)) :=
  match s.stream? n with
  | none => []
  | some r => (streamWeights r).zipIdx.map (fun e => s.rangeTags e.1 (weights.getD e.2 []))

/-- The chain after OPEN: the first element, then one for each weight range (R374). -/
def State.openHead (s : State) (n job : Nat) (tags : List (List (Nat × W32))) : List Byte :=
  let j := s.job job
  let h := sha384 ([0x01#8] ++ bytesBE 8 s.keys.chipId.toNat ++ Config.streamBytes n ++ j.shared
    ++ bytesBE 2 (bits (j.word 0) 15 0) ++ s.harnessBytes 48 ++ bytesBE 4 idRev.toNat)
  tags.foldl (fun h l => sha384 (h ++ [0x02#8] ++ sha384 (l.flatMap (fun p => tagPair p.1 p.2)))) h

/-- The stream and the job that SIGN_RESULT names. -/
def Cmd.streamNo (c : Cmd) : Nat := bits c.arg0 13 8
def Cmd.signJob (c : Cmd) : Nat := bits c.arg0 23 16

/-- SIGN_RESULT with a sub-operation; ARG0 with another sub-operation is that row's, with the reserved one nobody's. -/
def State.signResult (s : State) (tag : Byte) (sub : Nat) (argOk : State → Bool) (x : CmdAct) (act : State → State) : State :=
  let o := bits s.sv.regs.arg0 1 0
  if o = sub ∨ o = 3 then s.portDo fun s =>
    s.issue 0xC tag workStates (0x00FF3F03, 0, 0, 0)
      (fun s => decide (o ≠ 3) && (s.stream? s.cmd.streamNo).isSome && argOk s) fun s =>
      s.consented x act
  else s

/-- The signing block shows no result while a new one is formed (R377). -/
def State.signBegin (s : State) : State := { s with sign := { s.sign with valid := false } }

/-- The effect of OPEN: the stream is bound, and the chain's first elements are formed (R374). -/
def State.signOpenAct (s : State) (weights : List (List W32)) : State :=
  let n := s.cmd.streamNo
  let h := s.openHead n s.cmd.signJob (s.weightTags n weights)
  (s.signBegin.modStream n (fun _ => { bound := true, job := BitVec.ofNat 8 s.cmd.signJob, head := h })).endCmd 0

/-- The effect of SIGN and of CLOSE, once the step elements that came before are absorbed (R377, R378). -/
def State.signAct (s : State) : State := s.signBegin.finishSign s.cmd.streamNo

/-- SIGN_RESULT OPEN: a stream is bound to a job with an active slate, and its first elements are formed (R374). -/
def execSignResultOpen (tag : Byte) (weights : List (List W32)) (s : State) : Host.Outcome State Fault Refusal :=
  live s fun s =>
    s.signResult tag 0
      (fun s => !(s.streams.get {} s.cmd.streamNo).bound && (s.job s.cmd.signJob).active
        && (s.weightTags s.cmd.streamNo weights).all (fun l => l.all (fun p => !(isPending p.2) && !(isPoison p.2))))
      (.signOpen weights) (·.signOpenAct weights)

/-- The stream is bound to the job that ARG0 names. -/
def State.boundTo (s : State) : Bool :=
  let t := s.streams.get {} s.cmd.streamNo
  t.bound && decide (t.job.toNat = s.cmd.signJob)

/-- SIGN_RESULT SIGN: the head is signed once the step elements that came before are absorbed (R377, R378). -/
def execSignResultSign (tag : Byte) (s : State) : Host.Outcome State Fault Refusal :=
  live s fun s => s.signResult tag 1 (fun s => s.boundTo) .sign (·.signAct)

/-- SIGN_RESULT CLOSE: as SIGN, and the stream is unbound (R377). -/
def execSignResultClose (tag : Byte) (s : State) : Host.Outcome State Fault Refusal :=
  live s fun s => s.signResult tag 2 (fun s => s.boundTo) .sign (·.signAct)

/-! ### LAUNCH_AT (R345, R364) -/

/-- A slice is usable: every port whose admitted entry names it is admitted (R345). -/
def State.sliceUsable (s : State) (c : Nat) : Bool :=
  (recsOf 0x71 s.recs).all (fun r => decide (r.fld 1 18 15 ≠ c)
    || s.ports.entries.any (fun e => e.2.admitted && decide (e.2.entryPort = r.fld 1 31 24)))

/-- The count of ARG1 and ARG2. -/
def Cmd.count (c : Cmd) : Nat := c.arg1.toNat + 2 ^ 32 * c.arg2.toNat

/-- The effect of LAUNCH_AT. A job that has been aborted since the acceptance has no active slate and is given no pulse (R364); the
command ends ARG_INVALID. DEDUCED (log 112). -/
def State.launchAct (s : State) : State :=
  if (s.job s.cmd.job).active then
    (s.modJob s.cmd.job (fun j =>
      { j with pending := some (BitVec.ofNat 64 s.cmd.count, BitVec.ofNat 16 (bits s.cmd.arg0 31 16)) })).endCmd 0
  else s.endCmd 3

/-- LAUNCH_AT: the count is distributed; the pulse follows at the count (R364). -/
def execLaunchAt (tag : Byte) (s : State) : Host.Outcome State Fault Refusal :=
  live s fun s => s.portDo fun s =>
    s.issue 0xD tag [.run, .degraded] (0xFFFF00FF, BitVec.allOnes 32, BitVec.allOnes 32, 0)
      (fun s =>
        let j := s.job s.cmd.job
        decide (s.clk + 10000 ≤ s.cmd.count) && j.active && j.pending.isNone && decide (j.opens.length < 2)
          && (List.range 16).all (fun c => !(s.cmd.arg0.getLsbD (16 + c)) || s.sliceUsable c)) fun s =>
      s.consented .launchAt (·.launchAct)

/-! ### HOT_UPDATE (R276, R392, R396) -/

/-- The harness with the records of an accepted update (R392). -/
def State.withHot (s : State) (recs : List Rec) (seq : W32) : State :=
  { s with harness := { s.harness with recs := applyHot s.harness.recs recs, hotSeq := seq,
                                       hotCount := satInc s.harness.hotCount } }

/-- What a hub finds in the words of an update that it has read (R392). -/
def State.hotCheck (s : State) (wordsA wordsB : List W32) (h : HubId) : HarnessResult :=
  checkHarness 1 { s.harnessEnv true with len := s.sv.regs.harnessLen.toNat } (match h with | .a => wordsA | .b => wordsB)

/-- The effect of HOT_UPDATE with an update that has been accepted. The leader, which after a takeover is the survivor, checks the words
again from their start and ends the command with its own result (R397); they are those it has read already. DESIGN CHOICE (log 112). -/
def State.hotAct (s : State) (wordsA wordsB : List W32) : State :=
  let r := s.hotCheck wordsA wordsB s.twin.leader
  if r.first.isSome then (s.recordCheck s.twin.leader s.harness.accepted true r).endCmd 4
  else ((s.withHot r.recs r.seq).pdrEvent (s.changedPdrs (s.withHot r.recs r.seq))).endCmd 0

/-- HOT_UPDATE: each hub checks the words that it reads; the update is accepted whole or not at all (R392). One that only one
hub rejects ends TWIN_DISAGREE; the follower's rejection is its refusal (R276). -/
def execHotUpdate (tag : Byte) (wordsA wordsB : List W32) (s : State) : Host.Outcome State Fault Refusal :=
  live s fun s => s.portDo fun s =>
    s.issue 0xE tag workStates noArgs (fun _ => true) fun s =>
      let r := s.hotCheck wordsA wordsB
      let bad := s.upHubs.filter (fun h => (r h).first.isSome)
      let n := s.upHubs.length
      let s := s.eachHub (fun h s => s.recordCheck h s.harness.accepted true (r h))
      if bad = [] then s.consented (.hotUpdate wordsA wordsB) (·.hotAct wordsA wordsB)
      else if bad.length = n then s.endCmd 4
      else if s.twin.leader ∈ bad then s.endCmd 6
      else s.refusal.endCmd 6

/-! ### REPLAY (R368) -/

/-- The effect of REPLAY. -/
def State.replayAct (s : State) (recorded : List InlogEntry) : State :=
  if s.cmd.arg3 = 0 then { s with replay := { s.replay with active := false } }.endCmd 0
  else
    { s with replay := { active := true, liveJob := BitVec.ofNat 8 s.cmd.job, recJob := BitVec.ofNat 8 (bits s.cmd.arg0 15 8),
                         recorded := recorded.take s.cmd.arg3.toNat } }.endCmd 0

/-- REPLAY: the comparison of a live job with a recorded log starts; a count of 0 ends the replay in progress. -/
def execReplay (tag : Byte) (recorded : List InlogEntry) (s : State) : Host.Outcome State Fault Refusal :=
  live s fun s => s.portDo fun s =>
    s.issue 0xF tag [.run, .degraded] (0xFFFF, BitVec.allOnes 32, 0xFFFF, 0x1FFFFF)
      (fun s => decide (s.cmd.arg1.toNat % 64 = 0 ∧ s.cmd.arg3.toNat ≤ 1048576) && (s.job s.cmd.job).active
        && !(s.replay.active && decide (s.replay.liveJob.toNat ≠ s.cmd.job))) fun s =>
      s.consented (.replay recorded) (·.replayAct recorded)

/-! ### COMMAND_TIMEOUT (R461) -/

/-- COMMAND_TIMEOUT: a command still BUSY 10 s after its acceptance ends with TIMEOUT. -/
def execCommandTimeout (s : State) : Host.Outcome State Fault Refusal :=
  live s fun s => if s.cmd.code = 1 then (s.advanceTo (s.cmd.at_ + 10000000000)).endCmd 5 else s

/-- REGISTER_WRITE to HUB_CMD with the reserved OP 0x0 (R461, step 1). -/
def State.reservedOp (s : State) (data : W32) : State :=
  if s.cmd.code = 1 then s.overrunCmd else (s.acceptCmd 0 (BitVec.ofNat 8 (bits data 15 8))).endCmd 3

/-- REGISTER_WRITE: a write to a register without a behaviour of its own (R455); HUB_CMD is the command's own row, but for
the reserved OP. -/
def execRegisterWrite (addr : BitVec 16) (data : W32) (s : State) : Host.Outcome State Fault Refusal :=
  live s fun s =>
    if ownRow (wordAddr addr) ∨ (wordAddr addr = 0x0C ∧ bits data 3 0 ≠ 0) then s
    else s.portDo fun s =>
      if wordAddr addr = 0x0C then s.reservedOp data
      else s.regWriteServing (wordAddr addr) data (fun k => { k with regs := k.regs.write (wordAddr addr) data })

end Sys2Proof.Machine
end

