-- ==== Sys2Proof/Machine/Consent.lean ====
section
/-! DEFINITION. Proposals and their answers: what the leader takes when the follower consents, and what it does instead when
the follower refuses (R274, R276, R277, R293). -/

namespace Sys2Proof.Machine

open Sys2Proof

/-- The command in progress has its effect. -/
def State.commandAct (s : State) : State :=
  match s.cmd.act with
  | none => s
  | some .start => s.startAct
  | some .loadHarness => s.loadHarnessAct
  | some .run => s.runAct
  | some .save => s.saveAct
  | some (.restore i) => s.restoreAct i
  | some .clearSource => s.clearSourceAct
  | some (.setBand sel lo hi) => s.setBandAct sel lo hi
  | some (.signOpen w) => s.signOpenAct w
  | some .sign => s.signAct
  | some .launchAt => s.launchAct
  | some (.hotUpdate a b) => s.hotAct a b
  | some (.replay l) => s.replayAct l

/-- The leader takes a relaxing action, if its own conditions still hold; after an S4 it takes none (R277, R293). -/
def State.takeAction (s : State) (x : RelaxAction) : State :=
  match x with
  | .unfence p => if (s.ld.src p).fault && !s.stopped then (s.onQuiet s.twin.leader p).startWaiting else s
  | .openGate job step =>
    match (s.job job.toNat).opens with
    | [] => s
    | o :: _ => if o.step = step ∧ s.gateReady job.toNat o then s.openGateAct job.toNat o else s
  | .settle n =>
    let r := s.retake n
    if r.used ∧ r.phase = .proposed ∧ !s.stopped then s.takeDecision n r.decision else s
  | .removePaddock a => if s.stopped then s else s.leavePad a
  | .lowerCurb d => s.takeRelease d
  | .admitPort p => if s.stopped then s else s.admitPort p
  | .command op =>
    if s.busyWith op then
      let s := s.commandAct
      { s with cmd := { s.cmd with act := none } }
    else s

/-- A proposal is answered: neither it nor its answer is left. -/
def State.clearProposal (s : State) (x : RelaxAction) : State :=
  { s with twin := { s.twin with proposals := s.twin.proposals.filter (fun y => decide (y ≠ x)), answer := none } }

/-- PROPOSE: the follower answers a proposal from its own state (R277): `own` is its own decision about a record whose accounts it has
fetched otherwise than the leader. While no twin takes part the survivor of a takeover takes what had been proposed on its own state
(R293). -/
def execPropose (action : RelaxAction) (own : Option Nat) (s : State) : Host.Outcome State Fault Refusal :=
  live s fun s =>
    let l := s.twin.leader
    let w := twinHub l
    if s.pairUp then
      if s.pairTalks ∧ action ∈ s.proposable ∧ s.canSend l ∧ s.canSend w then
        let ok := s.permits action own
        let s := { s with twin := { s.twin with answer := some (action, ok), dissent := own } }
        (((s.sendFrame l .propose (actionWords action)).sendFrame w (if ok then .consent else .refuse) (actionWords action)).pump l).pump w
      else s
    else if action ∈ s.twin.proposals ∧ s.twin.answer ≠ some (action, false) then
      let stands := s.twin.answer
      let s := (s.clearProposal action).takeAction action
      { s with twin := { s.twin with answer := stands } }
    else s

/-- CONSENT: the leader takes the proposed action (R277); while its MIRROR queue is full it takes none (R271). -/
def execConsent (s : State) : Host.Outcome State Fault Refusal :=
  live s fun s =>
    match s.twin.answer with
    | some (x, true) => if s.pairTalks && !s.mirrorFull s.twin.leader then (s.clearProposal x).takeAction x else s
    | _ => s

/-- The decision with which a record ends whose settle order the follower has refused: the follower's where that is a poisoning code of
R186, else ABORTED (R277). -/
def Twin.refusedCode (t : Twin) : Nat :=
  let d := t.dissent.getD 8
  if 4 ≤ d ∧ d ≤ 7 then d else 8

/-- The more restrictive alternative to an action that the follower has refused (R276, R277): a settle order becomes poison and
JOB_ABORT, a command ends TWIN_DISAGREE; a gate stays closed, and an unfence, a removal, a curb release or a port is not taken, until
the follower's state changes. -/
def State.refuseAction (s : State) (x : RelaxAction) : State :=
  match x with
  | .settle n => if (s.retake n).used ∧ (s.retake n).phase = .proposed then s.takeDecision n s.twin.refusedCode else s
  | .command op => if s.busyWith op then { s with cmd := { s.cmd with act := none } }.endCmd 6 else s
  | .openGate _ _ | .unfence _ | .removePaddock _ | .lowerCurb _ | .admitPort _ => s.keepRefusal x

/-- REFUSE: KIND 0x18, ACTION_DISAGREE, and the more restrictive alternative (R277). A refusal stands where the leader takes
over as it comes (R293). -/
def execRefuse (s : State) : Host.Outcome State Fault Refusal :=
  live s fun s =>
    match s.twin.answer with
    | some (x, false) => if s.pairTalks || !s.pairUp then ((s.clearProposal x).refusal).refuseAction x else s
    | _ => s

end Sys2Proof.Machine
end

