-- ==== Sys2Proof/Machine/Links.lean ====
section
/-! DEFINITION. Die links while running: retraining and its outcomes (R330, R348). -/

namespace Sys2Proof.Machine

open Sys2Proof

/-- The messages of a link end move to the other way's queue of the die, their order kept (R217, R348). -/
def State.moveQueue (s : State) (i : Nat) : State :=
  let o := 2 * (i / 2) + (1 - i % 2)
  if s.linkUsable o then
    s.each (s.linkEnd i).queue.all (fun e s =>
      match (s.linkEnd o).queue.hop (.linkEnd o) e with
      | none => s
      | some q => (s.modLink o (fun l => { l with queue := q })).modLink i (fun l => { l with queue := { l.queue with
          reserved := l.queue.reserved.erase e, own := if l.queue.reserved.contains e then l.queue.own else l.queue.own.erase e,
          ordinary := if l.queue.reserved.contains e ∨ l.queue.own.contains e then l.queue.ordinary else l.queue.ordinary.erase e } }))
  else s

/-- A die link starts to retrain: it is unavailable, and its messages take the other way (R348). -/
def State.startRetrain (s : State) (i : Nat) : State :=
  let f := s.farEnd i
  if s.build.dies = 1 ∨ 2 * s.build.dies ≤ i ∨ (s.linkEnd i).lanes = 0 ∨ (s.linkEnd i).down ∨ (s.linkEnd i).retraining then s
  else
    let s := (s.modLink i (fun l => { l with retraining := true, tries := 0, resentAt := [] })).modLink f
      (fun l => { l with retraining := true, tries := 0, resentAt := [] })
    (s.moveQueue i).moveQueue f

/-- DIE_LINK_LOCK_LOSS: a lane loses lock (R348). -/
def execDieLinkLockLoss (link : Nat) (s : State) : Host.Outcome State Fault Refusal :=
  live s fun s => s.startRetrain link

/-- LINK_ERR_MAX (R348, R389). -/
def State.linkErrMax (s : State) : Nat := s.single 0x73 1 23 16 16

/-- The resends over a die link, from both ends, within the last 1 ms (R348). -/
def State.recentResends (s : State) (i : Nat) : Nat :=
  (((s.linkEnd i).resentAt ++ (s.linkEnd (s.farEnd i)).resentAt).filter (fun t => decide (s.now ≤ t + 1000000))).length

/-- DIE_LINK_RESEND_LIMIT: more than LINK_ERR_MAX messages are resent within 1 ms (R348). -/
def execDieLinkResendLimit (link : Nat) (s : State) : Host.Outcome State Fault Refusal :=
  live s fun s => if s.linkErrMax < s.recentResends link then s.startRetrain link else s

/-- The lanes a training may end with: 0, 1, 2 or 4. -/
def laneStep (n : Nat) : Nat := if 4 ≤ n then 4 else if 2 ≤ n then 2 else n

/-- The report of a retraining at one end: the same width, narrower, or down (R348). -/
def State.reportTrained (s : State) (i old new : Nat) : State :=
  let m : Msg := { source := srcId 3 i, addr := BitVec.ofNat 48 new }
  if new = 0 then s.emit (.linkEnd i) { m with kind := 0x32, sev := 3 }
  else if new = old then s.emit (.linkEnd i) { m with kind := 0x30, sev := 1 }
  else s.emit (.linkEnd i) { m with kind := 0x31, sev := 1 }

/-- DIE_LINK_RETRAIN_DONE: a retraining ends at the width found, never wider than before; after a recovery it starts from
4 lanes (R330, R348). -/
def execDieLinkRetrainDone (link lanes : Nat) (s : State) : Host.Outcome State Fault Refusal :=
  live s fun s =>
    let f := s.farEnd link
    if s.build.dies ≠ 1 ∧ link < 2 * s.build.dies ∧ ((s.linkEnd link).retraining ∨ (s.linkEnd f).retraining) then
      let old := if (s.linkEnd link).lanes = 0 ∨ (s.linkEnd f).lanes = 0 then 4 else min (s.linkEnd link).lanes (s.linkEnd f).lanes
      let new := laneStep (min lanes old)
      let done (l : LinkEnd) : LinkEnd := { l with lanes := new, retraining := false, down := decide (new = 0), retrains := satInc l.retrains }
      let s := (s.modLink link done).modLink f done
      ((s.reportTrained link old new).reportTrained f old new).judgeDies
    else s

end Sys2Proof.Machine
end

