-- ==== Sys2Proof/Machine/Dispatch.lean ====
section
/-! DEFINITION. What each command does: one arm for each constructor of Instr. -/

namespace Sys2Proof.Machine

open Sys2Proof

/-- The effect of a command on everything but the queue (95_what_each_step_holds). -/
def exec (i : Instr) (s : State) : Host.Outcome State Fault Refusal :=
  match i with
  | .rstLAssert => Sys2Proof.Machine.execRstLAssert s
  | .rstLDeassert => Sys2Proof.Machine.execRstLDeassert s
  | .registerWrite addr data => Sys2Proof.Machine.execRegisterWrite addr data s
  | .regAccessLatch addr => Sys2Proof.Machine.execRegAccessLatch addr s
  | .start tag => Sys2Proof.Machine.execStart tag s
  | .loadHarness tag => Sys2Proof.Machine.execLoadHarness tag s
  | .run tag => Sys2Proof.Machine.execRun tag s
  | .quiesce tag => Sys2Proof.Machine.execQuiesce tag s
  | .save tag => Sys2Proof.Machine.execSave tag s
  | .restore tag image => Sys2Proof.Machine.execRestore tag image s
  | .trotUp tag => Sys2Proof.Machine.execTrotUp tag s
  | .clearSource tag => Sys2Proof.Machine.execClearSource tag s
  | .setBand tag => Sys2Proof.Machine.execSetBand tag s
  | .retireTwin tag => Sys2Proof.Machine.execRetireTwin tag s
  | .wrap tag => Sys2Proof.Machine.execWrap tag s
  | .signResultOpen tag weights => Sys2Proof.Machine.execSignResultOpen tag weights s
  | .signResultSign tag => Sys2Proof.Machine.execSignResultSign tag s
  | .signResultClose tag => Sys2Proof.Machine.execSignResultClose tag s
  | .launchAt tag => Sys2Proof.Machine.execLaunchAt tag s
  | .hotUpdate tag wordsA wordsB => Sys2Proof.Machine.execHotUpdate tag wordsA wordsB s
  | .replay tag recorded => Sys2Proof.Machine.execReplay tag recorded s
  | .commandTimeout => Sys2Proof.Machine.execCommandTimeout s
  | .stepEnd data => Sys2Proof.Machine.execStepEnd data s
  | .slateBegin data => Sys2Proof.Machine.execSlateBegin data s
  | .abortFifoPop data => Sys2Proof.Machine.execAbortFifoPop data s
  | .stickyClear w data => Sys2Proof.Machine.execStickyClear w data s
  | .irqStsClear data => Sys2Proof.Machine.execIrqStsClear data s
  | .thrEvtClear data => Sys2Proof.Machine.execThrEvtClear data s
  | .overrunClear data => Sys2Proof.Machine.execOverrunClear data s
  | .forceWrite w data => Sys2Proof.Machine.execForceWrite w data s
  | .injectionTimeout pos => Sys2Proof.Machine.execInjectionTimeout pos s
  | .indSelect isAddr data => Sys2Proof.Machine.execIndSelect isAddr data s
  | .indFetchDone => Sys2Proof.Machine.execIndFetchDone s
  | .indDataRead => Sys2Proof.Machine.execIndDataRead s
  | .indDataWrite data => Sys2Proof.Machine.execIndDataWrite data s
  | .reelDataRead word => Sys2Proof.Machine.execReelDataRead word s
  | .stage0Identity us badAgents badConcs reports hubAOk hubBOk => Sys2Proof.Machine.execStage0Identity us badAgents badConcs reports hubAOk hubBOk s
  | .stage1Keys us => Sys2Proof.Machine.execStage1Keys us s
  | .stage2Pairing us passA passB => Sys2Proof.Machine.execStage2Pairing us passA passB s
  | .stage3DieLinks us => Sys2Proof.Machine.execStage3DieLinks us s
  | .stage4Harness us wordsA wordsB => Sys2Proof.Machine.execStage4Harness us wordsA wordsB s
  | .stage5AgentImage len => Sys2Proof.Machine.execStage5AgentImage len s
  | .stage6LameList us => Sys2Proof.Machine.execStage6LameList us s
  | .stage7Housekeeping us crystalOk offset counts => Sys2Proof.Machine.execStage7Housekeeping us crystalOk offset counts s
  | .stage8KnownAnswer us lanes units concs => Sys2Proof.Machine.execStage8KnownAnswer us lanes units concs s
  | .stage9Discovery us => Sys2Proof.Machine.execStage9Discovery us s
  | .discWindowEnd => Sys2Proof.Machine.execDiscWindowEnd s
  | .stage10Ready us => Sys2Proof.Machine.execStage10Ready us s
  | .stageBudgetExpiry => Sys2Proof.Machine.execStageBudgetExpiry s
  | .keyPortBeat data last => Sys2Proof.Machine.execKeyPortBeat data last s
  | .keyPortBad => Sys2Proof.Machine.execKeyPortBad s
  | .keyItemTimeout => Sys2Proof.Machine.execKeyItemTimeout s
  | .linkTrainAttemptEnd l ok => Sys2Proof.Machine.execLinkTrainAttemptEnd l ok s
  | .imagePacket agent header payload => Sys2Proof.Machine.execImagePacket agent header payload s
  | .imageCollect silent => Sys2Proof.Machine.execImageCollect silent s
  | .tdDescriptor agent handle data cyc => Sys2Proof.Machine.execTdDescriptor agent handle data cyc s
  | .tapElementBeat agent beat => Sys2Proof.Machine.execTapElementBeat agent beat s
  | .prjBeat agent beat => Sys2Proof.Machine.execPrjBeat agent beat s
  | .auditBeat agent tap handle addr d poison cyc => Sys2Proof.Machine.execAuditBeat agent tap handle addr d poison cyc s
  | .cLast agent beat => Sys2Proof.Machine.execCLast agent beat s
  | .handoffSlice cluster agent => Sys2Proof.Machine.execHandoffSlice cluster agent s
  | .verdict cluster => Sys2Proof.Machine.execVerdict cluster s
  | .verdictAtAgent agent => Sys2Proof.Machine.execVerdictAtAgent agent s
  | .cmtAccept agent cycles => Sys2Proof.Machine.execCmtAccept agent cycles s
  | .vhHeader agent gid data => Sys2Proof.Machine.execVhHeader agent gid data s
  | .veBeat agent beat => Sys2Proof.Machine.execVeBeat agent beat s
  | .vectorGroupVerdict agent gid => Sys2Proof.Machine.execVectorGroupVerdict agent gid s
  | .choiceStrobe agent job => Sys2Proof.Machine.execChoiceStrobe agent job s
  | .fenceOrder agent => Sys2Proof.Machine.execFenceOrder agent s
  | .fenceAckRise agent => Sys2Proof.Machine.execFenceAckRise agent s
  | .fenceEnd agent => Sys2Proof.Machine.execFenceEnd agent s
  | .fenceAckFall agent => Sys2Proof.Machine.execFenceAckFall agent s
  | .fenceTimeout agent => Sys2Proof.Machine.execFenceTimeout agent s
  | .scAck agent => Sys2Proof.Machine.execScAck agent s
  | .settleOrder agent record => Sys2Proof.Machine.execSettleOrder agent record s
  | .poisonOrder agent record => Sys2Proof.Machine.execPoisonOrder agent record s
  | .gateOpen job step => Sys2Proof.Machine.execGateOpen job step s
  | .jobAbortActions job => Sys2Proof.Machine.execJobAbortActions job s
  | .epochAnnounce => Sys2Proof.Machine.execEpochAnnounce s
  | .epochActivation => Sys2Proof.Machine.execEpochActivation s
  | .laneSelfCheck agent unit ok cyc => Sys2Proof.Machine.execLaneSelfCheck agent unit ok cyc s
  | .scrubAccess unit macroNo word data check taskData contexts => Sys2Proof.Machine.execScrubAccess unit macroNo word data check taskData contexts s
  | .summaryJudge cluster agent => Sys2Proof.Machine.execSummaryJudge cluster agent s
  | .concStepAnswer cluster job step => Sys2Proof.Machine.execConcStepAnswer cluster job step s
  | .gateDecision job => Sys2Proof.Machine.execGateDecision job s
  | .messageOrigin unit src kind sev addr job => Sys2Proof.Machine.execMessageOrigin unit src kind sev addr job s
  | .messageHop unit dest => Sys2Proof.Machine.execMessageHop unit dest s
  | .hopBadCrc unit dest => Sys2Proof.Machine.execHopBadCrc unit dest s
  | .mergedS2Send unit => Sys2Proof.Machine.execMergedS2Send unit s
  | .hubAcceptMessage hub => Sys2Proof.Machine.execHubAcceptMessage hub s
  | .leakTick group => Sys2Proof.Machine.execLeakTick group s
  | .quietEnd pos => Sys2Proof.Machine.execQuietEnd pos s
  | .reelMark => Sys2Proof.Machine.execReelMark s
  | .reconcileMaskSend cluster => Sys2Proof.Machine.execReconcileMaskSend cluster s
  | .reconcileCompare hub cluster => Sys2Proof.Machine.execReconcileCompare hub cluster s
  | .accountFetch record => Sys2Proof.Machine.execAccountFetch record s
  | .retakeIssueTimeout record => Sys2Proof.Machine.execRetakeIssueTimeout record s
  | .retakeWaitExpiry record => Sys2Proof.Machine.execRetakeWaitExpiry record s
  | .retakeRunTimeout record => Sys2Proof.Machine.execRetakeRunTimeout record s
  | .writeChecked engine stream addr job => Sys2Proof.Machine.execWriteChecked engine stream addr job s
  | .writePlain engine stream addr job => Sys2Proof.Machine.execWritePlain engine stream addr job s
  | .writeExpect engine stream addr job d => Sys2Proof.Machine.execWriteExpect engine stream addr job d s
  | .writePoison engine stream addr job => Sys2Proof.Machine.execWritePoison engine stream addr job s
  | .writeExternal engine stream addr job => Sys2Proof.Machine.execWriteExternal engine stream addr job s
  | .writePartial engine stream addr job first last => Sys2Proof.Machine.execWritePartial engine stream addr job first last s
  | .read engine stream addr job whole => Sys2Proof.Machine.execRead engine stream addr job whole s
  | .tgDataBeat engine beat => Sys2Proof.Machine.execTgDataBeat engine beat s
  | .commit engine addr count job => Sys2Proof.Machine.execCommit engine addr count job s
  | .poison engine addr count job => Sys2Proof.Machine.execPoison engine addr count job s
  | .ledgerOpen engine receiver addr count job round value => Sys2Proof.Machine.execLedgerOpen engine receiver addr count job round value s
  | .ledgerClose engine receiver job round => Sys2Proof.Machine.execLedgerClose engine receiver job round s
  | .ledgerPacket engine packet => Sys2Proof.Machine.execLedgerPacket engine packet s
  | .sideAck engine id rdata ue => Sys2Proof.Machine.execSideAck engine id rdata ue s
  | .sidecarTimeout engine id => Sys2Proof.Machine.execSidecarTimeout engine id s
  | .commitBufferFree engine => Sys2Proof.Machine.execCommitBufferFree engine s
  | .tgSourceReply engine code d addr uses => Sys2Proof.Machine.execTgSourceReply engine code d addr uses s
  | .linkPacketSend engine packet ledger => Sys2Proof.Machine.execLinkPacketSend engine packet ledger s
  | .linkPacketReceive engine packet tag => Sys2Proof.Machine.execLinkPacketReceive engine packet tag s
  | .hostReport engine line kind addr dests => Sys2Proof.Machine.execHostReport engine line kind addr dests s
  | .inlogEntryWrite => Sys2Proof.Machine.execInlogEntryWrite s
  | .stepSync time => Sys2Proof.Machine.execStepSync time s
  | .syncMissing => Sys2Proof.Machine.execSyncMissing s
  | .launchCountReached job => Sys2Proof.Machine.execLaunchCountReached job s
  | .beaconSend port width => Sys2Proof.Machine.execBeaconSend port width s
  | .beaconReceive port frame width => Sys2Proof.Machine.execBeaconReceive port frame width s
  | .slateWaitExpiry job step port => Sys2Proof.Machine.execSlateWaitExpiry job step port s
  | .portSilence port => Sys2Proof.Machine.execPortSilence port s
  | .beaconTxReady port => Sys2Proof.Machine.execBeaconTxReady port s
  | .hkRound => Sys2Proof.Machine.execHkRound s
  | .sensorSample chan data => Sys2Proof.Machine.execSensorSample chan data s
  | .busSample chan => Sys2Proof.Machine.execBusSample chan s
  | .marginWindowDone cluster counts => Sys2Proof.Machine.execMarginWindowDone cluster counts s
  | .kclkCheckWindow hub count => Sys2Proof.Machine.execKclkCheckWindow hub count s
  | .curbCombine => Sys2Proof.Machine.execCurbCombine s
  | .aliveBoundary => Sys2Proof.Machine.execAliveBoundary s
  | .hubStrobe hub => Sys2Proof.Machine.execHubStrobe hub s
  | .hello hub selfTest => Sys2Proof.Machine.execHello hub selfTest s
  | .heartSend hub => Sys2Proof.Machine.execHeartSend hub s
  | .xlinkFrameReceive hub frame => Sys2Proof.Machine.execXlinkFrameReceive hub frame s
  | .xlinkResend hub => Sys2Proof.Machine.execXlinkResend hub s
  | .digestCut => Sys2Proof.Machine.execDigestCut s
  | .digest hub seq value => Sys2Proof.Machine.execDigest hub seq value s
  | .sections hub => Sys2Proof.Machine.execSections hub s
  | .items hub sec => Sys2Proof.Machine.execItems hub sec s
  | .propose action own => Sys2Proof.Machine.execPropose action own s
  | .consent => Sys2Proof.Machine.execConsent s
  | .refuse => Sys2Proof.Machine.execRefuse s
  | .mirror hub => Sys2Proof.Machine.execMirror hub s
  | .regWrite hub => Sys2Proof.Machine.execRegWrite hub s
  | .twinSilence hub => Sys2Proof.Machine.execTwinSilence hub s
  | .aliveClaimGrant => Sys2Proof.Machine.execAliveClaimGrant s
  | .twinArbitration passA passB => Sys2Proof.Machine.execTwinArbitration passA passB s
  | .trotDue agent => Sys2Proof.Machine.execTrotDue agent s
  | .trotIdleAfterExpiry agent => Sys2Proof.Machine.execTrotIdleAfterExpiry agent s
  | .secretsCleared region => Sys2Proof.Machine.execSecretsCleared region s
  | .secretsTimeoutExpiry region => Sys2Proof.Machine.execSecretsTimeoutExpiry region s
  | .trotHostBoundMiss agent => Sys2Proof.Machine.execTrotHostBoundMiss agent s
  | .tapGrantWaitExpiry => Sys2Proof.Machine.execTapGrantWaitExpiry s
  | .scanDone agent tileSet agentSet => Sys2Proof.Machine.execScanDone agent tileSet agentSet s
  | .patternSetFetched set data => Sys2Proof.Machine.execPatternSetFetched set data s
  | .cacheBlockBad block set at_ streaming group reread => Sys2Proof.Machine.execCacheBlockBad block set at_ streaming group reread s
  | .persistEraseDone => Sys2Proof.Machine.execPersistEraseDone s
  | .wrapGroupDone results => Sys2Proof.Machine.execWrapGroupDone results s
  | .wrapRecordWritten readBack => Sys2Proof.Machine.execWrapRecordWritten readBack s
  | .dieLinkLockLoss link => Sys2Proof.Machine.execDieLinkLockLoss link s
  | .dieLinkResendLimit link => Sys2Proof.Machine.execDieLinkResendLimit link s
  | .dieLinkRetrainDone link lanes => Sys2Proof.Machine.execDieLinkRetrainDone link lanes s
  | .entdaa addr => Sys2Proof.Machine.execEntdaa addr s
  | .setdasa addr => Sys2Proof.Machine.execSetdasa addr s
  | .rstdaa => Sys2Proof.Machine.execRstdaa s
  | .enec events => Sys2Proof.Machine.execEnec events s
  | .disec events => Sys2Proof.Machine.execDisec events s
  | .getpid => Sys2Proof.Machine.execGetpid s
  | .getbcr => Sys2Proof.Machine.execGetbcr s
  | .getdcr => Sys2Proof.Machine.execGetdcr s
  | .getstatus => Sys2Proof.Machine.execGetstatus s
  | .getmrl => Sys2Proof.Machine.execGetmrl s
  | .getmwl => Sys2Proof.Machine.execGetmwl s
  | .setmrl n => Sys2Proof.Machine.execSetmrl n s
  | .setmwl n => Sys2Proof.Machine.execSetmwl n s
  | .mctpDiscard => Sys2Proof.Machine.execMctpDiscard s
  | .setEndpointId eid => Sys2Proof.Machine.execSetEndpointId eid s
  | .getEndpointId => Sys2Proof.Machine.execGetEndpointId s
  | .getEndpointUuid => Sys2Proof.Machine.execGetEndpointUuid s
  | .getMctpVersionSupport type => Sys2Proof.Machine.execGetMctpVersionSupport type s
  | .getMessageTypeSupport => Sys2Proof.Machine.execGetMessageTypeSupport s
  | .setTid tid => Sys2Proof.Machine.execSetTid tid s
  | .getTid => Sys2Proof.Machine.execGetTid s
  | .getPldmVersion type => Sys2Proof.Machine.execGetPldmVersion type s
  | .getPldmTypes => Sys2Proof.Machine.execGetPldmTypes s
  | .getPldmCommands type => Sys2Proof.Machine.execGetPldmCommands type s
  | .setEventReceiver mode eid heartbeat => Sys2Proof.Machine.execSetEventReceiver mode eid heartbeat s
  | .getEventReceiver => Sys2Proof.Machine.execGetEventReceiver s
  | .pollForPlatformEventMessage offset => Sys2Proof.Machine.execPollForPlatformEventMessage offset s
  | .eventMessageSupported => Sys2Proof.Machine.execEventMessageSupported s
  | .eventMessageBufferSize n => Sys2Proof.Machine.execEventMessageBufferSize n s
  | .getSensorReading id => Sys2Proof.Machine.execGetSensorReading id s
  | .getStateSensorReadings id => Sys2Proof.Machine.execGetStateSensorReadings id s
  | .getPdrRepositoryInfo => Sys2Proof.Machine.execGetPdrRepositoryInfo s
  | .getPdr index => Sys2Proof.Machine.execGetPdr index s
  | .eventSend => Sys2Proof.Machine.execEventSend s
  | .eventAcknowledged => Sys2Proof.Machine.execEventAcknowledged s
  | .eventResendTimeout => Sys2Proof.Machine.execEventResendTimeout s
  | .heartbeatTimer => Sys2Proof.Machine.execHeartbeatTimer s
  | .scAckFall agent => Sys2Proof.Machine.execScAckFall agent s
  | .tapGrantRise once => Sys2Proof.Machine.execTapGrantRise once s
  | .crossLinkRetrain => Sys2Proof.Machine.execCrossLinkRetrain s
  | .errorUnsupportedCmd code => Sys2Proof.Machine.execErrorUnsupportedCmd code s
  | .errorUnsupportedPldmCmd type code => Sys2Proof.Machine.execErrorUnsupportedPldmCmd type code s

end Sys2Proof.Machine
end

