-- ==== Sys2Proof/Safety.lean ====
section
/-! DEFINITION. What a run may rely on: the parts of the state that no command changes, the time that never runs back, and
the chip stop that only RST_L ends. -/

namespace Sys2Proof.Machine

open Sys2Proof

/-- What the effect of a command keeps: the generation parameters (R4), the queue of the commands still to come, the level
of RST_L (R447), a time that never runs back (log 2), and each hub's chip stop (R209). -/
structure Keeps (s t : State) : Prop where
  build : t.build = s.build
  pending : t.pending = s.pending
  rstL : t.rstL = s.rstL
  now : s.now ≤ t.now
  stopA : s.hubA.s4 = true → t.hubA.s4 = true
  stopB : s.hubB.s4 = true → t.hubB.s4 = true

/-- The state in which a command begins: what the command before presented at the ports is gone. -/
def State.fresh (s : State) : State := { s with out := [] }

/-- A command completes at a state: `exec` answers a next state, and `P` holds of it. -/
def Completes (c : Instr) (s : State) (P : State → Prop) : Prop := ∃ t, exec c s = .next t ∧ P t

/-- The rule whose bound a command breaks: a beat of a bound tap handle or of an open vector group carries no element, or more than the
rule lets one beat carry (R421, R423). -/
def State.brokenBound (s : State) : Instr → Option Nat
  | .tapElementBeat a b => if s.agentOn a && s.badBeat a b then some 421 else none
  | .cLast a b => if s.agentOn a && s.badBeat a { b with tap := .c } then some 421 else none
  | .prjBeat a b => if s.agentOn a && s.badPrj a b then some 421 else none
  | .veBeat a b =>
    if s.agentOn a && ((s.agent a).groups.get none b.gid.toNat).isSome && decide (b.count = 0 ∨ 32 < b.count) then some 423 else none
  | _ => none

/-- A hub is in chip stop (R209). -/
def State.chipStopped (s : State) (h : HubId) : Bool := (s.hub h).s4

/-- The state in which RST_L holds the block (R447): all that is not kept through reset stands at its reset value. -/
def State.heldInReset (s : State) : Prop :=
  s = { State.reset with pending := s.pending, now := s.now, freeCtr := s.freeCtr, build := s.build, flash := s.flash,
                         rstL := true }

/-- A command that is issued now is accepted and passes the test of the state (R461, step 2): a hub serves the port, the leader
acts, nothing is BUSY, and the leader's state is one of those listed. -/
abbrev State.takes (s : State) (states : List HubSt) : Prop :=
  s.rstL = false ∧ s.answers = true ∧ s.hubUp s.twin.leader = true ∧ s.cmd.code ≠ 1 ∧ s.ld.st ∈ states

/-- The follower has consented to the command in progress, and the frames between the hubs pass (R277). -/
abbrev Consented (op : Nat) (t u : State) : Prop :=
  u = { t with twin := { t.twin with answer := some (.command op, true) } } ∧ u.pairTalks = true
    ∧ u.mirrorFull u.twin.leader = false

/-- A relaxing command of a hub alone has its effect at once; with a twin it is proposed to the follower and stays BUSY, and has
its effect once the follower has consented (R274, R276, R277). -/
def Relaxes (c : Instr) (op : Nat) (s : State) (P : State → Prop) : Prop :=
  (s.pairUp = false → Completes c s P)
  ∧ (s.pairUp = true → Completes c s fun t => t.cmd.code = 1 ∧ .command op ∈ t.twin.proposals
      ∧ ∀ u, Consented op t u → Completes .consent u P)

/-- HUB_ARG0 to HUB_ARG3 as a command samples them. -/
abbrev State.argsAre (s : State) (a0 a1 a2 a3 : W32) : Prop :=
  s.sv.regs.arg0 = a0 ∧ s.sv.regs.arg1 = a1 ∧ s.sv.regs.arg2 = a2 ∧ s.sv.regs.arg3 = a3

/-- The newest entry of a hub's reel: the slot written last. -/
def Hub.newest (k : Hub) : Msg := k.reel.get {} ((k.reelHead.toNat + 65535) % 65536)

/-- A unit emits one message: it enters the unit's queue by R219 with STAMP and the unit's next SEQ (R200, R202). -/
def Emitted (u : NetUnit) (m : Msg) (s t : State) : Prop :=
  t.queueOf u = { s.queueOf u with seq := (s.queueOf u).seq + 1 }.origin u { m with stamp := s.stamp, seq := (s.queueOf u).seq } s.now

/-- What the endpoint presents with an answer: the MCTP message, and the sizes of its packets (R401). -/
def mctpOut (r : MgmtReply) : List PortOut := [.mgmt r, .mctp (packetSizes r.size)]

/-- The bits of a cross-link frame are one of a type, with a good CRC (R269). -/
def FrameOk (ty : FrameType) (f : BitVec 256) : Prop := frameType f = ty ∧ frameGood f = true

/-- A hub has sent a frame that it holds until it is acknowledged: the next SEQ, the SEQ received last as ACK, a good CRC, and
the last place in the window (R269, R270). -/
def FrameHeld (w : HubId) (ty : FrameType) (s t : State) : Prop :=
  ∃ f : XFrame, (t.xsend w).unacked = (s.xsend w).unacked ++ [f] ∧ f.seq = (s.xsend w).seq + 1 ∧ f.at_ = s.now
    ∧ FrameOk ty f.bits ∧ frameSeq f.bits = f.seq ∧ frameAck f.bits = (s.xsend w).got ∧ .frame w f.bits ∈ t.out

/-- A memory operation has taken a stream at an engine: the stream holds the operation, the block, the job and its step, with
nothing folded yet, and no other stream of the engine has changed (R129, R429). -/
def StreamOpened (e id block : Nat) (job : Job) (op : MemOp) (s t : State) : Prop :=
  (∃ st : Stream, (t.engine e).stream id = some st ∧ st.op = op ∧ st.addr = block ∧ st.job = job
    ∧ st.step = (s.job job.toNat).stepNo ∧ st.d = 0 ∧ st.bytes = 0 ∧ st.untagged = false ∧ st.poison = false ∧ st.broken = false
    ∧ st.closed = false)
  ∧ (∀ k, k ≠ id → (t.engine e).stream k = (s.engine e).stream k) ∧ t.out = []

/-- The parts of a hub: its fields. -/
inductive HubPart where
  | st | srcs | lameSinceReady | s4 | fences | sticky | reel | reelHead | reelBase | reelWraps | reelStopped |
   afterS4 | tailA | tailB | ctr | intake | paddock | aborted | fails | regs | irq | thrEvt | thermal | chans |
   snaps | roundMs | roundAt | busWatch | fallback | badKclk | oscOffset | trim | reconcile | zeroised | secReq
   | secClr | selfTest | actionDisagree | digestMismatches | xlinkBadFrames | digestMiss | merging | dailies |
   dailiesBuilt | dailyBase | dailiesSent | dailiesDropped | dailyDropped | mctpDiscarded | harnessSts |
   harnessOver | odd
deriving DecidableEq, Repr

/-- The parts of the state: its fields, a field of the two hubs as one part. -/
inductive Part where
  | hub (p : HubPart) | pending | out | now | readyAt | freeCtr | build | rstL | leakAt | agents | concs |
   engines | links | ways | twin | xlink | alive | curbPort | flash | latch | cmd | stage | stageFrom | stages |
   image | keyPort | keys | harness | clock | epoch | jobs | abortFifo | tccOrphan | retakes | retakeLog |
   logHead | decCnt | retakesOrdered | retakeTimeouts | staleReleases | bands | ports | slices | inlog | replay
   | streams | sign | restoreSkipped | test | mgmt | ind
deriving DecidableEq, Repr

/-- A part of a hub is the same in two hubs. -/
def HubPart.same (h k : Hub) : HubPart → Prop
  | .st => k.st = h.st
  | .srcs => k.srcs = h.srcs
  | .lameSinceReady => k.lameSinceReady = h.lameSinceReady
  | .s4 => k.s4 = h.s4
  | .fences => k.fences = h.fences
  | .sticky => k.sticky = h.sticky
  | .reel => k.reel = h.reel
  | .reelHead => k.reelHead = h.reelHead
  | .reelBase => k.reelBase = h.reelBase
  | .reelWraps => k.reelWraps = h.reelWraps
  | .reelStopped => k.reelStopped = h.reelStopped
  | .afterS4 => k.afterS4 = h.afterS4
  | .tailA => k.tailA = h.tailA
  | .tailB => k.tailB = h.tailB
  | .ctr => k.ctr = h.ctr
  | .intake => k.intake = h.intake
  | .paddock => k.paddock = h.paddock
  | .aborted => k.aborted = h.aborted
  | .fails => k.fails = h.fails
  | .regs => k.regs = h.regs
  | .irq => k.irq = h.irq
  | .thrEvt => k.thrEvt = h.thrEvt
  | .thermal => k.thermal = h.thermal
  | .chans => k.chans = h.chans
  | .snaps => k.snaps = h.snaps
  | .roundMs => k.roundMs = h.roundMs
  | .roundAt => k.roundAt = h.roundAt
  | .busWatch => k.busWatch = h.busWatch
  | .fallback => k.fallback = h.fallback
  | .badKclk => k.badKclk = h.badKclk
  | .oscOffset => k.oscOffset = h.oscOffset
  | .trim => k.trim = h.trim
  | .reconcile => k.reconcile = h.reconcile
  | .zeroised => k.zeroised = h.zeroised
  | .secReq => k.secReq = h.secReq
  | .secClr => k.secClr = h.secClr
  | .selfTest => k.selfTest = h.selfTest
  | .actionDisagree => k.actionDisagree = h.actionDisagree
  | .digestMismatches => k.digestMismatches = h.digestMismatches
  | .xlinkBadFrames => k.xlinkBadFrames = h.xlinkBadFrames
  | .digestMiss => k.digestMiss = h.digestMiss
  | .merging => k.merging = h.merging
  | .dailies => k.dailies = h.dailies
  | .dailiesBuilt => k.dailiesBuilt = h.dailiesBuilt
  | .dailyBase => k.dailyBase = h.dailyBase
  | .dailiesSent => k.dailiesSent = h.dailiesSent
  | .dailiesDropped => k.dailiesDropped = h.dailiesDropped
  | .dailyDropped => k.dailyDropped = h.dailyDropped
  | .mctpDiscarded => k.mctpDiscarded = h.mctpDiscarded
  | .harnessSts => k.harnessSts = h.harnessSts
  | .harnessOver => k.harnessOver = h.harnessOver
  | .odd => k.odd = h.odd

/-- A part is the same in two states. -/
def Part.same (s t : State) : Part → Prop
  | .hub p => p.same s.hubA t.hubA ∧ p.same s.hubB t.hubB
  | .pending => t.pending = s.pending
  | .out => t.out = s.out
  | .now => t.now = s.now
  | .readyAt => t.readyAt = s.readyAt
  | .freeCtr => t.freeCtr = s.freeCtr
  | .build => t.build = s.build
  | .rstL => t.rstL = s.rstL
  | .leakAt => t.leakAt = s.leakAt
  | .agents => t.agents = s.agents
  | .concs => t.concs = s.concs
  | .engines => t.engines = s.engines
  | .links => t.links = s.links
  | .ways => t.ways = s.ways
  | .twin => t.twin = s.twin
  | .xlink => t.xlink = s.xlink
  | .alive => t.alive = s.alive
  | .curbPort => t.curbPort = s.curbPort
  | .flash => t.flash = s.flash
  | .latch => t.latch = s.latch
  | .cmd => t.cmd = s.cmd
  | .stage => t.stage = s.stage
  | .stageFrom => t.stageFrom = s.stageFrom
  | .stages => t.stages = s.stages
  | .image => t.image = s.image
  | .keyPort => t.keyPort = s.keyPort
  | .keys => t.keys = s.keys
  | .harness => t.harness = s.harness
  | .clock => t.clock = s.clock
  | .epoch => t.epoch = s.epoch
  | .jobs => t.jobs = s.jobs
  | .abortFifo => t.abortFifo = s.abortFifo
  | .tccOrphan => t.tccOrphan = s.tccOrphan
  | .retakes => t.retakes = s.retakes
  | .retakeLog => t.retakeLog = s.retakeLog
  | .logHead => t.logHead = s.logHead
  | .decCnt => t.decCnt = s.decCnt
  | .retakesOrdered => t.retakesOrdered = s.retakesOrdered
  | .retakeTimeouts => t.retakeTimeouts = s.retakeTimeouts
  | .staleReleases => t.staleReleases = s.staleReleases
  | .bands => t.bands = s.bands
  | .ports => t.ports = s.ports
  | .slices => t.slices = s.slices
  | .inlog => t.inlog = s.inlog
  | .replay => t.replay = s.replay
  | .streams => t.streams = s.streams
  | .sign => t.sign = s.sign
  | .restoreSkipped => t.restoreSkipped = s.restoreSkipped
  | .test => t.test = s.test
  | .mgmt => t.mgmt = s.mgmt
  | .ind => t.ind = s.ind

/-- Nothing but the listed parts differs (the frame of a command). -/
def Touches (l : List Part) (s t : State) : Prop := ∀ p : Part, p ∉ l → p.same s t

/-- What an entry at a hub may touch, with its reactions (R206 to R213). -/
def noteParts : List Part :=
  [.hub .st, .hub .srcs, .hub .s4, .hub .fences, .hub .sticky, .hub .reel, .hub .reelHead, .hub .reelWraps,
   .hub .reelStopped, .hub .afterS4, .hub .ctr, .hub .intake, .hub .paddock, .hub .aborted, .hub .irq, .hub .thrEvt,
   .hub .thermal, .hub .snaps, .hub .roundMs, .hub .dailies, .hub .dailiesBuilt, .hub .dailiesDropped,
   .hub .dailyDropped, .agents, .concs, .twin, .xlink, .alive, .cmd, .stage, .stages, .keyPort, .jobs, .abortFifo,
   .retakes, .retakeLog, .logHead, .decCnt, .ports, .slices, .replay, .streams, .test, .mgmt]

/-- What the end of a stage of the call sheet may touch, and the begin of the next (R318 to R322). -/
def callParts : List Part :=
  [.hub .st, .hub .sticky, .hub .reel, .hub .reelHead, .hub .reelWraps, .hub .reelStopped, .hub .afterS4,
   .hub .intake, .hub .irq, .hub .snaps, .cmd, .stage, .stageFrom, .stages, .image, .keyPort, .mgmt]

/-- What a message put into a unit's queue may touch (R219). -/
def netParts : List Part :=
  [.hub .intake, .agents, .concs, .engines, .links]

/-- What a time-driven event moves besides (log 2). -/
def timeParts : List Part :=
  [.now, .clock]

/-- What the end of a command touches (R461). -/
def endParts : List Part :=
  [.hub .irq, .cmd]

/-- What RST_L loses: all but the flash (R316), and the model's own time, free values, build and queue. -/
def resetParts : List Part :=
  [.hub .st, .hub .srcs, .hub .lameSinceReady, .hub .s4, .hub .fences, .hub .sticky, .hub .reel, .hub .reelHead,
   .hub .reelBase, .hub .reelWraps, .hub .reelStopped, .hub .afterS4, .hub .tailA, .hub .tailB, .hub .ctr,
   .hub .intake, .hub .paddock, .hub .aborted, .hub .fails, .hub .regs, .hub .irq, .hub .thrEvt, .hub .thermal,
   .hub .chans, .hub .snaps, .hub .roundMs, .hub .roundAt, .hub .busWatch, .hub .fallback, .hub .badKclk,
   .hub .oscOffset, .hub .trim, .hub .reconcile, .hub .zeroised, .hub .secReq, .hub .secClr, .hub .selfTest,
   .hub .actionDisagree, .hub .digestMismatches, .hub .xlinkBadFrames, .hub .digestMiss, .hub .merging,
   .hub .dailies, .hub .dailiesBuilt, .hub .dailyBase, .hub .dailiesSent, .hub .dailiesDropped, .hub .dailyDropped,
   .hub .mctpDiscarded, .hub .harnessSts, .hub .harnessOver, .hub .odd, .readyAt, .rstL, .leakAt, .agents, .concs,
   .engines, .links, .ways, .twin, .xlink, .alive, .curbPort, .latch, .cmd, .stage, .stageFrom, .stages, .image,
   .keyPort, .keys, .harness, .clock, .epoch, .jobs, .abortFifo, .tccOrphan, .retakes, .retakeLog, .logHead,
   .decCnt, .retakesOrdered, .retakeTimeouts, .staleReleases, .bands, .ports, .slices, .inlog, .replay, .streams,
   .sign, .restoreSkipped, .test, .mgmt, .ind]

/-- The parts that a command may touch, besides what it presents at a port. -/
def Instr.parts : Instr → List Part
  | .rstLAssert => resetParts
  | .rstLDeassert => [.rstL]
  | .registerWrite _ _ => endParts ++ [.hub .regs, .xlink]
  | .regAccessLatch _ => [.latch]
  | .start _ => endParts ++ [.hub .st, .twin, .xlink, .stage, .stageFrom, .stages, .image, .keyPort, .mgmt]
  | .loadHarness _ => endParts ++ [.twin, .xlink, .harness]
  | .run _ => endParts ++ [.hub .st, .twin, .xlink, .mgmt]
  | .quiesce _ => endParts ++ [.hub .st, .xlink, .mgmt]
  | .save _ => endParts ++ [.hub .st, .twin, .xlink, .mgmt]
  | .restore _ _ => endParts ++ [.hub .st, .hub .srcs, .hub .paddock, .hub .aborted, .agents, .concs, .twin, .xlink, .harness, .jobs, .ports, .inlog, .streams, .restoreSkipped, .test, .mgmt]
  | .trotUp _ => endParts ++ [.hub .st, .hub .srcs, .hub .s4, .hub .fences, .hub .sticky, .hub .reel, .hub .reelHead, .hub .reelWraps, .hub .reelStopped, .hub .afterS4, .hub .intake, .hub .paddock, .hub .thrEvt, .hub .thermal, .hub .snaps, .hub .roundMs, .hub .dailies, .hub .dailiesBuilt, .hub .dailiesDropped, .hub .dailyDropped, .agents, .concs, .twin, .xlink, .alive, .stage, .stages, .keyPort, .jobs, .abortFifo, .retakes, .retakeLog, .logHead, .decCnt, .test, .mgmt]
  | .clearSource _ => endParts ++ [.hub .st, .hub .srcs, .hub .lameSinceReady, .hub .s4, .hub .fences, .hub .sticky, .hub .reel, .hub .reelHead, .hub .reelWraps, .hub .reelStopped, .hub .afterS4, .hub .ctr, .hub .intake, .hub .paddock, .hub .thrEvt, .hub .thermal, .hub .snaps, .hub .roundMs, .hub .dailies, .hub .dailiesBuilt, .hub .dailiesDropped, .hub .dailyDropped, .agents, .concs, .links, .twin, .xlink, .alive, .stage, .stages, .keyPort, .jobs, .abortFifo, .retakes, .retakeLog, .logHead, .decCnt, .retakesOrdered, .test, .mgmt]
  | .setBand _ => endParts ++ [.twin, .xlink, .bands]
  | .retireTwin _ => noteParts ++ [.hub .lameSinceReady, .hub .fails, .hub .digestMiss, .hub .merging, .freeCtr, .retakesOrdered]
  | .wrap _ => endParts ++ [.hub .st, .hub .zeroised, .hub .secReq, .hub .secClr, .agents, .concs, .xlink, .test, .mgmt]
  | .signResultOpen _ _ => endParts ++ [.twin, .xlink, .streams, .sign]
  | .signResultSign _ => endParts ++ [.twin, .xlink, .streams, .sign]
  | .signResultClose _ => endParts ++ [.twin, .xlink, .streams, .sign]
  | .launchAt _ => endParts ++ [.twin, .xlink, .jobs]
  | .hotUpdate _ _ _ => noteParts ++ [.hub .actionDisagree, .hub .harnessSts, .hub .harnessOver, .harness]
  | .replay _ _ => endParts ++ [.twin, .xlink, .replay]
  | .commandTimeout => timeParts ++ endParts
  | .stepEnd _ => [.xlink, .cmd, .jobs]
  | .slateBegin _ => [.agents, .xlink, .cmd, .jobs, .ports]
  | .abortFifoPop _ => netParts ++ endParts ++ [.hub .st, .hub .sticky, .hub .reel, .hub .reelHead, .hub .reelWraps, .hub .reelStopped, .hub .afterS4, .hub .ctr, .hub .aborted, .hub .snaps, .hub .dailies, .hub .dailiesBuilt, .hub .dailiesDropped, .hub .dailyDropped, .twin, .xlink, .jobs, .abortFifo, .retakes, .retakeLog, .logHead, .decCnt, .retakesOrdered, .ports, .slices, .replay, .streams, .mgmt]
  | .stickyClear _ _ => [.hub .sticky, .xlink]
  | .irqStsClear _ => [.hub .irq, .xlink]
  | .thrEvtClear _ => [.hub .thrEvt, .xlink]
  | .overrunClear _ => [.xlink, .cmd]
  | .forceWrite _ _ => netParts ++ [.hub .srcs, .hub .ctr, .xlink]
  | .injectionTimeout _ => timeParts ++ [.hub .srcs, .hub .ctr]
  | .indSelect _ _ => [.hub .regs, .agents, .concs, .engines, .links, .xlink, .ind]
  | .indFetchDone => [.hub .regs, .agents, .concs, .engines, .links, .ind]
  | .indDataRead => [.hub .regs, .ind]
  | .indDataWrite _ => [.hub .regs, .agents, .concs, .engines, .links, .xlink, .ind]
  | .reelDataRead _ => [.hub .regs, .latch]
  | .stage0Identity _ _ _ _ _ _ => callParts ++ timeParts ++ [.hub .srcs, .hub .lameSinceReady, .hub .fences, .hub .ctr, .hub .paddock, .hub .selfTest, .hub .dailies, .hub .dailiesBuilt, .hub .dailiesDropped, .hub .dailyDropped, .agents, .xlink, .alive, .test]
  | .stage1Keys _ => callParts ++ timeParts ++ [.keys]
  | .stage2Pairing _ _ _ => callParts ++ timeParts ++ [.hub .srcs, .twin, .xlink, .alive]
  | .stage3DieLinks _ => noteParts ++ callParts ++ netParts ++ timeParts ++ [.hub .lameSinceReady]
  | .stage4Harness _ _ _ => callParts ++ timeParts ++ [.hub .fences, .hub .regs, .hub .harnessSts, .hub .harnessOver, .concs, .harness]
  | .stage5AgentImage _ => [.agents, .image]
  | .stage6LameList _ => callParts ++ timeParts ++ [.hub .srcs, .hub .lameSinceReady, .hub .fences, .hub .tailA, .hub .tailB, .hub .ctr, .hub .paddock, .hub .dailies, .hub .dailiesBuilt, .hub .dailiesDropped, .hub .dailyDropped, .agents, .xlink, .test]
  | .stage7Housekeeping _ _ _ _ => noteParts ++ callParts ++ netParts ++ timeParts ++ [.hub .chans, .hub .roundAt, .hub .busWatch, .hub .oscOffset, .hub .trim]
  | .stage8KnownAnswer _ _ _ _ => callParts ++ netParts ++ timeParts ++ [.hub .srcs, .hub .lameSinceReady, .hub .fences, .hub .ctr, .hub .paddock, .hub .dailies, .hub .dailiesBuilt, .hub .dailiesDropped, .hub .dailyDropped, .xlink, .test]
  | .stage9Discovery _ => noteParts ++ callParts ++ timeParts
  | .discWindowEnd => noteParts ++ callParts ++ timeParts
  | .stage10Ready _ => callParts ++ timeParts ++ [.hub .reelBase, .hub .paddock, .hub .dailyBase, .readyAt, .agents, .harness, .epoch]
  | .stageBudgetExpiry => timeParts ++ endParts ++ [.hub .st, .hub .sticky, .hub .reel, .hub .reelHead, .hub .reelWraps, .hub .reelStopped, .hub .afterS4, .hub .intake, .hub .snaps, .stage, .stages, .keyPort, .mgmt]
  | .keyPortBeat _ _ => endParts ++ [.hub .st, .hub .sticky, .hub .reel, .hub .reelHead, .hub .reelWraps, .hub .reelStopped, .hub .afterS4, .hub .intake, .hub .snaps, .stage, .stages, .keyPort, .keys, .mgmt]
  | .keyPortBad => endParts ++ [.hub .st, .hub .sticky, .hub .reel, .hub .reelHead, .hub .reelWraps, .hub .reelStopped, .hub .afterS4, .hub .intake, .hub .snaps, .stage, .stages, .keyPort, .mgmt]
  | .keyItemTimeout => timeParts ++ endParts ++ [.hub .st, .hub .sticky, .hub .reel, .hub .reelHead, .hub .reelWraps, .hub .reelStopped, .hub .afterS4, .hub .intake, .hub .snaps, .stage, .stages, .keyPort, .mgmt]
  | .linkTrainAttemptEnd _ _ => noteParts ++ [.hub .lameSinceReady, .links]
  | .imagePacket _ _ _ => [.agents]
  | .imageCollect _ => callParts ++ timeParts ++ [.hub .srcs, .hub .lameSinceReady, .hub .fences, .hub .ctr, .hub .paddock, .hub .dailies, .hub .dailiesBuilt, .hub .dailiesDropped, .hub .dailyDropped, .agents, .xlink, .test]
  | .tdDescriptor _ _ _ _ => netParts ++ [.hub .paddock, .retakes]
  | .tapElementBeat _ _ => netParts ++ [.hub .paddock, .retakes]
  | .prjBeat _ _ => [.hub .paddock, .agents, .retakes]
  | .auditBeat _ _ _ _ _ _ _ => [.agents]
  | .cLast _ _ => netParts ++ endParts ++ [.hub .st, .hub .paddock, .retakes, .retakeLog, .logHead, .decCnt, .retakesOrdered, .mgmt]
  | .handoffSlice _ _ => [.agents, .concs]
  | .verdict _ => [.agents, .concs, .retakes]
  | .verdictAtAgent _ => netParts ++ [.retakes, .retakesOrdered]
  | .cmtAccept _ _ => [.agents]
  | .vhHeader _ _ _ => netParts
  | .veBeat _ _ => netParts
  | .vectorGroupVerdict _ _ => [.agents, .concs]
  | .choiceStrobe _ _ => [.agents, .jobs, .tccOrphan]
  | .fenceOrder _ => netParts ++ [.retakes, .retakesOrdered]
  | .fenceAckRise _ => [.agents]
  | .fenceEnd _ => [.agents, .retakes, .retakesOrdered]
  | .fenceAckFall _ => [.agents]
  | .fenceTimeout _ => noteParts ++ timeParts
  | .scAck _ => noteParts ++ [.hub .fails, .hub .zeroised, .hub .secReq, .hub .secClr, .freeCtr, .retakesOrdered]
  | .settleOrder _ _ => noteParts ++ [.hub .fails, .freeCtr, .retakesOrdered]
  | .poisonOrder _ _ => noteParts ++ [.hub .fails, .freeCtr, .retakesOrdered]
  | .gateOpen _ _ => noteParts ++ [.hub .fails, .freeCtr, .retakesOrdered]
  | .jobAbortActions _ => noteParts ++ netParts ++ [.hub .fails, .freeCtr, .retakesOrdered]
  | .epochAnnounce => timeParts ++ [.hub .irq, .agents, .epoch]
  | .epochActivation => timeParts ++ [.agents, .harness, .epoch]
  | .laneSelfCheck _ _ _ _ => netParts ++ [.retakes]
  | .scrubAccess _ _ _ _ _ _ _ => netParts ++ [.retakes]
  | .summaryJudge _ _ => netParts
  | .concStepAnswer _ _ _ => [.agents, .jobs]
  | .gateDecision _ => endParts ++ [.hub .st, .twin, .jobs, .replay, .streams, .sign, .mgmt]
  | .messageOrigin _ _ _ _ _ _ => netParts
  | .messageHop _ _ => netParts ++ [.ways]
  | .hopBadCrc _ _ => netParts
  | .mergedS2Send _ => netParts
  | .hubAcceptMessage _ => noteParts ++ netParts ++ [.hub .lameSinceReady, .hub .fails, .hub .odd, .freeCtr, .retakesOrdered]
  | .leakTick _ => timeParts ++ [.hub .srcs, .leakAt]
  | .quietEnd _ => timeParts ++ endParts ++ [.hub .st, .hub .srcs, .hub .lameSinceReady, .hub .s4, .hub .fences, .hub .sticky, .hub .reel, .hub .reelHead, .hub .reelWraps, .hub .reelStopped, .hub .afterS4, .hub .ctr, .hub .intake, .hub .paddock, .hub .thrEvt, .hub .thermal, .hub .snaps, .hub .roundMs, .hub .dailies, .hub .dailiesBuilt, .hub .dailiesDropped, .hub .dailyDropped, .agents, .concs, .links, .twin, .xlink, .alive, .stage, .stages, .keyPort, .jobs, .abortFifo, .retakes, .retakeLog, .logHead, .decCnt, .retakesOrdered, .test, .mgmt]
  | .reelMark => timeParts ++ [.hub .sticky, .hub .reel, .hub .reelHead, .hub .reelWraps, .hub .reelStopped, .hub .afterS4, .hub .intake, .hub .snaps]
  | .reconcileMaskSend _ => [.concs]
  | .reconcileCompare _ _ => noteParts ++ [.hub .reconcile]
  | .accountFetch _ => noteParts ++ [.retakesOrdered]
  | .retakeIssueTimeout _ => noteParts ++ timeParts ++ [.hub .fails, .freeCtr, .retakesOrdered, .retakeTimeouts]
  | .retakeWaitExpiry _ => noteParts ++ timeParts ++ [.retakesOrdered]
  | .retakeRunTimeout _ => noteParts ++ timeParts ++ [.retakesOrdered, .retakeTimeouts]
  | .writeChecked _ _ _ _ => netParts ++ endParts ++ [.streams, .sign]
  | .writePlain _ _ _ _ => netParts ++ endParts ++ [.streams, .sign]
  | .writeExpect _ _ _ _ _ => netParts ++ endParts ++ [.streams, .sign]
  | .writePoison _ _ _ _ => netParts ++ endParts ++ [.streams, .sign]
  | .writeExternal _ _ _ _ => netParts ++ endParts ++ [.streams, .sign]
  | .writePartial _ _ _ _ _ _ => netParts ++ endParts ++ [.streams, .sign]
  | .read _ _ _ _ _ => netParts ++ endParts ++ [.streams, .sign]
  | .tgDataBeat _ _ => netParts ++ endParts ++ [.jobs, .staleReleases, .inlog, .streams, .sign]
  | .commit _ _ _ _ => netParts ++ endParts ++ [.staleReleases, .streams, .sign]
  | .poison _ _ _ _ => netParts ++ endParts ++ [.streams, .sign]
  | .ledgerOpen _ _ _ _ _ _ _ => [.concs, .engines]
  | .ledgerClose _ _ _ _ => netParts ++ endParts ++ [.staleReleases, .streams, .sign]
  | .ledgerPacket _ _ => netParts ++ endParts ++ [.jobs, .staleReleases, .inlog, .streams, .sign]
  | .sideAck _ _ _ _ => netParts ++ endParts ++ [.staleReleases, .streams, .sign]
  | .sidecarTimeout _ _ => netParts ++ timeParts ++ endParts ++ [.staleReleases, .streams, .sign]
  | .commitBufferFree _ => netParts ++ endParts ++ [.staleReleases, .streams, .sign]
  | .tgSourceReply _ _ _ _ _ => [.engines]
  | .linkPacketSend _ _ _ => netParts
  | .linkPacketReceive _ _ _ => netParts
  | .hostReport _ _ _ _ _ => netParts ++ endParts ++ [.hub .ctr, .streams, .sign]
  | .inlogEntryWrite => [.inlog]
  | .stepSync _ => noteParts ++ [.clock]
  | .syncMissing => noteParts ++ timeParts
  | .launchCountReached _ => noteParts ++ timeParts
  | .beaconSend _ _ => timeParts ++ [.ports]
  | .beaconReceive _ _ _ => noteParts ++ callParts
  | .slateWaitExpiry _ _ _ => noteParts ++ timeParts
  | .portSilence _ => noteParts ++ timeParts
  | .beaconTxReady _ => [.ports]
  | .hkRound => noteParts ++ timeParts ++ [.hub .fails, .hub .chans, .hub .roundAt, .hub .trim, .freeCtr, .retakesOrdered, .bands]
  | .sensorSample _ _ => [.hub .chans]
  | .busSample _ => noteParts ++ timeParts ++ [.hub .chans]
  | .marginWindowDone _ _ => netParts ++ [.mgmt]
  | .kclkCheckWindow _ _ => noteParts ++ [.hub .fallback, .hub .badKclk]
  | .curbCombine => [.curbPort, .mgmt]
  | .aliveBoundary => timeParts ++ [.alive]
  | .hubStrobe _ => [.alive]
  | .hello _ _ => [.hub .selfTest, .twin, .xlink]
  | .heartSend _ => timeParts ++ [.xlink]
  | .xlinkFrameReceive _ _ => [.hub .xlinkBadFrames, .xlink]
  | .xlinkResend _ => timeParts ++ [.xlink]
  | .digestCut => noteParts ++ timeParts ++ [.hub .fails, .freeCtr, .retakesOrdered]
  | .digest _ _ _ => noteParts ++ [.hub .digestMismatches, .hub .digestMiss, .hub .merging]
  | .sections _ => [.xlink]
  | .items _ _ => endParts ++ [.hub .st, .hub .srcs, .hub .lameSinceReady, .hub .s4, .hub .fences, .hub .sticky, .hub .reel, .hub .reelHead, .hub .reelWraps, .hub .reelStopped, .hub .afterS4, .hub .ctr, .hub .intake, .hub .paddock, .hub .aborted, .hub .thrEvt, .hub .thermal, .hub .snaps, .hub .roundMs, .hub .dailies, .hub .dailiesBuilt, .hub .dailiesDropped, .hub .dailyDropped, .agents, .concs, .twin, .xlink, .stage, .stages, .keyPort, .retakes, .retakeLog, .logHead, .decCnt, .test, .mgmt]
  | .propose _ _ => noteParts ++ callParts ++ [.hub .lameSinceReady, .hub .harnessSts, .hub .harnessOver, .links, .harness, .retakesOrdered, .bands, .inlog, .sign, .restoreSkipped]
  | .consent => noteParts ++ callParts ++ [.hub .lameSinceReady, .hub .harnessSts, .hub .harnessOver, .links, .harness, .retakesOrdered, .bands, .inlog, .sign, .restoreSkipped]
  | .refuse => noteParts ++ [.hub .actionDisagree]
  | .mirror _ => noteParts ++ [.hub .lameSinceReady, .hub .fails, .freeCtr, .retakesOrdered]
  | .regWrite _ => netParts ++ [.hub .srcs, .hub .sticky, .hub .ctr, .hub .regs, .hub .irq, .hub .thrEvt, .xlink]
  | .twinSilence _ => noteParts ++ timeParts
  | .aliveClaimGrant => noteParts ++ callParts ++ [.hub .fails, .freeCtr, .links, .retakesOrdered]
  | .twinArbitration _ _ => noteParts ++ [.hub .fails, .hub .selfTest, .freeCtr, .retakesOrdered]
  | .trotDue _ => timeParts ++ [.hub .paddock, .agents, .test]
  | .trotIdleAfterExpiry _ => timeParts ++ [.hub .paddock, .agents, .test]
  | .secretsCleared _ => [.hub .zeroised, .hub .secReq, .hub .secClr, .agents, .concs, .test]
  | .secretsTimeoutExpiry _ => noteParts ++ timeParts ++ [.hub .zeroised, .hub .secReq, .hub .secClr]
  | .trotHostBoundMiss _ => timeParts ++ endParts ++ [.hub .st, .hub .paddock, .hub .zeroised, .hub .secReq, .hub .secClr, .agents, .concs, .test, .mgmt]
  | .tapGrantWaitExpiry => timeParts ++ endParts ++ [.hub .st, .hub .paddock, .hub .zeroised, .hub .secReq, .hub .secClr, .agents, .concs, .test, .mgmt]
  | .scanDone _ _ _ => noteParts
  | .patternSetFetched _ _ => noteParts
  | .cacheBlockBad _ _ _ _ _ _ => noteParts ++ [.hub .zeroised, .hub .secReq, .hub .secClr]
  | .persistEraseDone => [.flash, .test]
  | .wrapGroupDone _ => noteParts ++ [.hub .zeroised, .hub .secReq, .hub .secClr]
  | .wrapRecordWritten _ => endParts ++ [.hub .st, .flash, .test, .mgmt]
  | .dieLinkLockLoss _ => [.links]
  | .dieLinkResendLimit _ => [.links]
  | .dieLinkRetrainDone _ _ => noteParts ++ netParts ++ [.hub .lameSinceReady]
  | .entdaa _ => [.mgmt]
  | .setdasa _ => [.mgmt]
  | .rstdaa => [.mgmt]
  | .enec _ => [.mgmt]
  | .disec _ => [.mgmt]
  | .getpid => [.mgmt]
  | .getbcr => [.mgmt]
  | .getdcr => [.mgmt]
  | .getstatus => [.freeCtr]
  | .getmrl => [.mgmt]
  | .getmwl => [.mgmt]
  | .setmrl _ => [.mgmt]
  | .setmwl _ => [.mgmt]
  | .mctpDiscard => [.hub .mctpDiscarded]
  | .setEndpointId _ => [.mgmt]
  | .getEndpointId => [.mgmt]
  | .getEndpointUuid => [.mgmt]
  | .getMctpVersionSupport _ => [.mgmt]
  | .getMessageTypeSupport => [.mgmt]
  | .setTid _ => [.mgmt]
  | .getTid => [.mgmt]
  | .getPldmVersion _ => [.mgmt]
  | .getPldmTypes => [.mgmt]
  | .getPldmCommands _ => [.mgmt]
  | .setEventReceiver _ _ _ => [.mgmt]
  | .getEventReceiver => [.mgmt]
  | .pollForPlatformEventMessage _ => [.hub .dailies, .hub .dailiesSent, .mgmt]
  | .eventMessageSupported => [.mgmt]
  | .eventMessageBufferSize _ => [.mgmt]
  | .getSensorReading _ => [.mgmt]
  | .getStateSensorReadings _ => [.mgmt]
  | .getPdrRepositoryInfo => [.mgmt]
  | .getPdr _ => [.mgmt]
  | .eventSend => [.hub .dailies, .mgmt]
  | .eventAcknowledged => [.hub .dailies, .hub .dailiesSent, .mgmt]
  | .eventResendTimeout => timeParts ++ [.mgmt]
  | .heartbeatTimer => timeParts ++ [.mgmt]
  | .scAckFall _ => [.agents]
  | .tapGrantRise _ => [.hub .zeroised, .hub .secReq, .hub .secClr, .agents, .concs, .test]
  | .crossLinkRetrain => [.xlink]
  | .errorUnsupportedCmd _ => [.mgmt]
  | .errorUnsupportedPldmCmd _ _ => [.mgmt]

end Sys2Proof.Machine
end

