-- ==== Sys2Proof/WellFormed.lean ====
section
/-! DEFINITION. Well-formed commands: the operands that the ports, the registers and the generation parameters allow. -/

namespace Sys2Proof

/-- A hub that is built: hub B with `HUBS` = 2 only (R22). -/
def Build.hasHub (b : Build) : HubId → Bool
  | .a => true
  | .b => decide (b.hubs = 2)

/-- A die-link end: two for each die when there is more than one (R202, R328). -/
def Build.hasLinkEnd (b : Build) (i : Nat) : Bool := decide (1 < b.dies ∧ i < 2 * b.dies)

/-- A unit with a queue of the fault network that is built (R202, R218). -/
def NetUnit.wf (b : Build) : NetUnit → Bool
  | .agent i => decide (i < b.agents)
  | .conc i => decide (i < b.clusters)
  | .engine i => decide (i < b.tagEngines)
  | .linkEnd i => b.hasLinkEnd i
  | .hub h => b.hasHub h

/-- A beat on a tap: at most 32 elements, and coordinates in their widths (R418). -/
def TapBeat.wf (t : TapBeat) : Bool :=
  decide (1 ≤ t.count ∧ t.count ≤ 32 ∧ t.member < 2 ^ 12 ∧ t.idx0 < 2 ^ 24 ∧ t.idx1 < 2 ^ 24)

/-- A PRJ beat (R418, R421). -/
def PrjBeat.wf (p : PrjBeat) : Bool :=
  decide (1 ≤ p.count ∧ p.count ≤ 32 ∧ p.member < 2 ^ 12 ∧ p.idx1 < 2 ^ 24)

/-- A vector element beat: 1 to 32 elements (R418). -/
def VeBeat.wf (v : VeBeat) : Bool := decide (1 ≤ v.count ∧ v.count ≤ 32)

/-- A tag-port data beat: up to 256 bytes, and old bytes in the same lanes (R428). -/
def TgBeat.wf (t : TgBeat) : Bool := decide (t.data.length ≤ 256 ∧ t.old.length ≤ 256)

/-- A test region that is built (R248). -/
def Region.wf (b : Build) : Region → Bool
  | .tile a => decide (a < b.agents)
  | .agent a => decide (a < b.agents)
  | .conc c => decide (c < b.clusters)
  | .hub h => b.hasHub h

/-- A link whose training is attempted (R268, R329). -/
def TrainLink.wf (b : Build) : TrainLink → Bool
  | .die d => decide (1 < b.dies ∧ d < b.dies)
  | .cross => decide (b.hubs = 2)

/-- A known-answer unit of an agent: its lanes, the reducer, two generators (R87, R88). -/
def KatUnit.wf (b : Build) : KatUnit → Bool
  | .lane l => decide (l < b.lanes)
  | .reducer => true
  | .generator g => decide (g < 2)

/-- A save image: step sections of ports and streams in their ranges (R370). -/
def SaveImage.wf (b : Build) (x : SaveImage) : Bool :=
  x.envelopes.all (fun e => decide (e.cluster < b.clusters ∧ e.vclass < 64))
    && x.odd.all (fun e => decide (e.1 < b.clusters ∧ e.2.1 < 256))
    && x.paddock.all (fun e => decide (e.1 < 64))
    && x.streams.all (fun e => decide (e.stream < 64))

/-- Every operand lies in the range that the command's port or parameter gives it. -/
@[simp] def Instr.wf (b : Build) : Instr → Bool
  | .rstLAssert | .rstLDeassert | .start _ | .loadHarness _ | .run _ | .quiesce _ | .save _ | .trotUp _ | .clearSource _
  | .setBand _ | .retireTwin _ | .wrap _ | .signResultOpen _ _ | .signResultSign _ | .signResultClose _ | .launchAt _
  | .hotUpdate _ _ _ | .replay _ _ | .commandTimeout | .stepEnd _ | .slateBegin _ | .abortFifoPop _ | .irqStsClear _
  | .thrEvtClear _ | .overrunClear _ | .indSelect _ _ | .indFetchDone | .indDataRead | .indDataWrite _ | .reelDataRead _
  | .stickyClear _ _ | .forceWrite _ _ => true
  | .registerWrite addr _ => decide (addr.toNat % 4 = 0)
  | .regAccessLatch addr => decide (addr.toNat % 4 = 0)
  | .restore _ image => image.wf b
  | .injectionTimeout pos => decide (pos < 8192)
  | .stage0Identity _ agents concs reports _ _ => agents.all (fun a => decide (a < b.agents)) && concs.all (fun c => decide (c < b.clusters))
    && reports.all (fun x => decide (x.1 < b.agents))
  | .stage1Keys _ | .stage2Pairing _ _ _ | .stage3DieLinks _ | .stage4Harness _ _ _ | .stage5AgentImage _ | .stage6LameList _
  | .stage7Housekeeping _ _ _ _ | .stage9Discovery _ | .discWindowEnd | .stage10Ready _ | .stageBudgetExpiry | .keyPortBeat _ _
  | .keyPortBad | .keyItemTimeout => true
  | .stage8KnownAnswer _ lanes units concs =>
    lanes.all (fun e => decide (e.1 < b.agents ∧ e.2 < b.lanes)) && units.all (fun e => decide (e.1 < b.agents))
      && concs.all (fun c => decide (c < b.clusters))
  | .linkTrainAttemptEnd l _ => l.wf b
  | .imagePacket agent _ payload => decide (agent < b.agents ∧ payload.length = 256)
  | .imageCollect silent => silent.all (fun c => decide (c < b.clusters))
  | .tdDescriptor agent _ _ _ => decide (agent < b.agents)
  | .tapElementBeat agent beat => decide (agent < b.agents) && beat.wf
  | .prjBeat agent beat => decide (agent < b.agents) && beat.wf
  | .auditBeat agent tap _ _ _ _ _ => decide (agent < b.agents ∧ tap ≠ Tap.c)
  | .cLast agent beat => decide (agent < b.agents ∧ beat.tap = Tap.c) && beat.wf
  | .handoffSlice cluster agent => decide (cluster < b.clusters ∧ agent < b.agents)
  | .verdict cluster => decide (cluster < b.clusters)
  | .verdictAtAgent agent => decide (agent < b.agents)
  | .cmtAccept agent cycles => decide (agent < b.agents ∧ 1 ≤ cycles)
  | .vhHeader agent _ _ => decide (agent < b.agents)
  | .veBeat agent beat => decide (agent < b.agents) && beat.wf
  | .vectorGroupVerdict agent _ => decide (agent < b.agents)
  | .choiceStrobe agent _ => decide (agent < b.agents)
  | .fenceOrder agent | .fenceAckRise agent | .fenceEnd agent | .fenceAckFall agent | .fenceTimeout agent | .scAck agent =>
    decide (agent < b.agents)
  | .settleOrder agent record => decide (agent < b.agents ∧ record < 64)
  | .poisonOrder agent _ => decide (agent < b.agents)
  | .gateOpen _ _ | .jobAbortActions _ | .epochAnnounce | .epochActivation => true
  | .laneSelfCheck agent unit _ _ => decide (agent < b.agents) && unit.wf b
  | .scrubAccess unit _ _ _ _ _ contexts => unit.wf b && contexts.all (fun x => decide (x < b.contexts))
  | .summaryJudge cluster agent => decide (cluster < b.clusters ∧ agent < b.agents)
  | .concStepAnswer cluster _ _ => decide (cluster < b.clusters)
  | .gateDecision _ => true
  | .messageOrigin unit _ _ sev _ _ => unit.wf b && decide (sev.toNat ≤ 4)
  | .messageHop unit dest | .hopBadCrc unit dest => unit.wf b && b.hasHub dest
  | .mergedS2Send unit => unit.wf b
  | .hubAcceptMessage hub => b.hasHub hub
  | .leakTick group => decide (group < 7)
  | .quietEnd pos => decide (pos < 8192)
  | .reelMark => true
  | .reconcileMaskSend cluster => decide (cluster < b.clusters)
  | .reconcileCompare hub cluster => b.hasHub hub && decide (cluster < b.clusters)
  | .accountFetch record | .retakeIssueTimeout record | .retakeWaitExpiry record | .retakeRunTimeout record => decide (record < 64)
  | .writeChecked engine stream _ _ | .writePlain engine stream _ _ | .writeExpect engine stream _ _ _
  | .writePoison engine stream _ _ | .writeExternal engine stream _ _ | .writePartial engine stream _ _ _ _ =>
    decide (engine < b.tagEngines ∧ stream.toNat < 64)
  | .read engine stream _ _ _ => decide (engine < b.tagEngines ∧ 64 ≤ stream.toNat)
  | .tgDataBeat engine beat => decide (engine < b.tagEngines) && beat.wf
  | .commit engine _ _ _ | .poison engine _ _ _ => decide (engine < b.tagEngines)
  | .ledgerOpen engine _ _ _ _ _ _ | .ledgerClose engine _ _ _ | .ledgerPacket engine _ => decide (engine < b.tagEngines)
  | .sideAck engine _ _ _ | .sidecarTimeout engine _ | .commitBufferFree engine | .tgSourceReply engine _ _ _ _
  | .linkPacketSend engine _ _ | .linkPacketReceive engine _ _ | .hostReport engine _ _ _ _ => decide (engine < b.tagEngines)
  | .inlogEntryWrite | .stepSync _ | .syncMissing | .launchCountReached _ => true
  | .beaconSend port _ | .beaconReceive port _ _ | .slateWaitExpiry _ _ port | .portSilence port | .beaconTxReady port =>
    decide (port < 256)
  | .hkRound | .curbCombine => true
  | .sensorSample chan _ | .busSample chan => decide (chan.toNat < b.hkChannels)
  | .marginWindowDone cluster _ => decide (cluster < b.clusters)
  | .kclkCheckWindow hub _ | .hubStrobe hub | .hello hub _ | .heartSend hub | .xlinkFrameReceive hub _
  | .xlinkResend hub | .digest hub _ _ | .sections hub | .items hub _ | .mirror hub | .regWrite hub | .twinSilence hub =>
    b.hasHub hub
  | .aliveBoundary | .digestCut | .propose _ _ | .consent | .refuse | .aliveClaimGrant | .twinArbitration _ _ => true
  | .trotDue agent | .trotIdleAfterExpiry agent | .trotHostBoundMiss agent | .scanDone agent _ _ => decide (agent < b.agents)
  | .secretsCleared region | .secretsTimeoutExpiry region => region.wf b
  | .tapGrantWaitExpiry | .patternSetFetched _ _ | .persistEraseDone | .wrapRecordWritten _ | .tapGrantRise _ => true
  | .cacheBlockBad _ _ _ streaming _ _ => streaming.all (fun a => decide (a < b.agents))
  | .wrapGroupDone results => results.all (fun e => decide (e.1 < 8192))
  | .dieLinkLockLoss link | .dieLinkResendLimit link => b.hasLinkEnd link
  | .dieLinkRetrainDone link lanes => b.hasLinkEnd link && decide (lanes ∈ [0, 1, 2, 4])
  | .entdaa _ | .setdasa _ | .rstdaa | .enec _ | .disec _ | .getpid | .getbcr | .getdcr | .getstatus | .getmrl | .getmwl
  | .setmrl _ | .setmwl _ | .mctpDiscard | .setEndpointId _ | .getEndpointId | .getEndpointUuid | .getMctpVersionSupport _
  | .getMessageTypeSupport | .setTid _ | .getTid | .getPldmVersion _ | .getPldmTypes | .getPldmCommands _
  | .setEventReceiver _ _ _ | .getEventReceiver | .pollForPlatformEventMessage _ | .eventMessageSupported
  | .eventMessageBufferSize _ | .getSensorReading _ | .getStateSensorReadings _ | .getPdrRepositoryInfo | .getPdr _
  | .eventSend | .eventAcknowledged | .eventResendTimeout | .heartbeatTimer => true
  | .scAckFall agent => decide (agent < b.agents)
  | .crossLinkRetrain => decide (b.hubs = 2)
  | .errorUnsupportedCmd _ | .errorUnsupportedPldmCmd _ _ => true

/-- Every generation parameter at the upper bound that R4 gives it: the widest operands any build takes. -/
def Build.largest : Build :=
  { agents := 4096, clusterSize := 16, clusters := 256, dies := 8, lanes := 64, contexts := 16,
    hubs := 2, tagEngines := 64, hkChannels := 512, clusterDie := [] }

end Sys2Proof
end

