-- ==== Sys2Proof/Certificates/Slice0/Obligations.lean ====
section
/-! DEFINITION. The statements for the provers: the rules of the spec as properties of exec and step. -/

open Sys2Proof Sys2Proof.Machine

/-- A step runs the command at the front of the queue. For every state whose queue holds a command c in front, step
answers what exec answers for c on the state with the rest of the queue. -/
def Obligations.StepRunsTheFrontCommand : Prop :=
  ∀ (c : Instr) (rest : List Instr) (s : State), s.pending = c :: rest → step s = exec c { s with pending := rest }

/-- On an empty queue one HCLK cycle passes. The model's choice (log 10): with no command waiting a step moves time on
by one cycle of HCLK and the step clock, while it runs unheld, by the declared period of HCLK, 1 ns where no harness
declares one, and changes nothing else. -/
def Obligations.EmptyQueueIsOneCycle : Prop :=
  ∀ s : State, s.pending = [] →
    ∃ t, step s = .next t ∧ t.now = s.now + 1
      ∧ (s.clock.running = true → s.clock.hold = none →
          t.clock.count.toNat * 65536 + t.clock.frac.toNat
            = (s.clock.count.toNat * 65536 + s.clock.frac.toNat + (if s.hclkPeriod = 0 then 65536 else s.hclkPeriod)) % 2 ^ 80)
      ∧ (s.clock.running = false → t.clock = s.clock)
      ∧ Touches [.now, .clock] s t

/-- What every word of the hub window reads after reset. Right after reset both hubs are in OFF and not faulted, and
every word of the window reads 0 but for ID_REV, BOOT_CTL.FORCE_EN 1, FORCE_CTRL.DRY_RUN 1 and the group words,
which hold the defaults of R214. -/
def Obligations.ResetWindow : Prop :=
  State.reset.hubA.st = .off ∧ State.reset.hubB.st = .off ∧ State.reset.hubA.faulted = false ∧ State.reset.hubB.faulted = false
    ∧ ∀ a : BitVec 16, State.reset.regRead (wordAddr a) =
        if wordAddr a = 0x0000 then 0x7A34C210#32
        else if wordAddr a = 0x0060 then 1#32
        else if 0x1800 ≤ wordAddr a ∧ wordAddr a < 0x1838 then
          (if wordAddr a % 8 = 0 then BitVec.ofNat 32 (60 * 2 ^ 20 + 3 * 2 ^ 16 + 8) else 10000#32)
        else if wordAddr a = 0x1840 then 0x00100000#32
        else 0#32

/-- Asserting and deasserting RST_L. RST_L_ASSERT completes in every state, also while RST_L is asserted: everything
returns to its reset value but the flash, the model's own time and the parameters of the build; no output is left
presented. RST_L_DEASSERT completes in every state: it ends the reset and changes nothing else. -/
def Obligations.ResetCommands : Prop :=
  (∀ s : State, Completes .rstLAssert s fun t =>
      t = { State.reset with pending := s.pending, now := s.now, freeCtr := s.freeCtr, build := s.build, flash := s.flash,
                             rstL := true })
    ∧ (∀ s : State, Completes .rstLDeassert s fun t => t = { s.fresh with rstL := false })

/-- While RST_L is asserted no command has an effect. In a state in which RST_L is asserted, every command but
RST_L_DEASSERT and RST_L_ASSERT leaves the state as it is. -/
def Obligations.HeldWhileResetIsAsserted : Prop :=
  ∀ (c : Instr) (s : State), s.rstL = true → c ≠ .rstLAssert → c ≠ .rstLDeassert → exec c s = .next s

/-- A step keeps every unit at its reset value while RST_L is asserted. Inv: if RST_L is asserted then all state but the
flash, the model's time and free-value counter, the build and the queue stands at its reset value. Every step keeps
Inv, whatever command is in front. -/
def Obligations.ResetHoldsEveryUnit : Prop :=
  ∀ s t : State, (s.rstL = true → s.heldInReset) → step s = .next t → (t.rstL = true → t.heldInReset)

/-- Only a whole reset ends a chip stop. A hub that has recorded an S4 stays in chip stop over every step whose command
is not RST_L_ASSERT, and while a hub is in chip stop the block withholds every commit. -/
def Obligations.ChipStopLastsUntilReset : Prop :=
  ∀ (s t : State) (h : HubId), s.chipStopped h = true → s.pending.head? ≠ some .rstLAssert → step s = .next t →
    t.chipStopped h = true ∧ t.withheld = true

/-- A step keeps the generation parameters and time never runs back. Over every step the parameters of the build are the
same, time does not run back, and the queue loses at most the command in front. -/
def Obligations.BuildIsFixedAndTimeNeverRunsBack : Prop :=
  ∀ s t : State, step s = .next t → t.build = s.build ∧ s.now ≤ t.now ∧ t.pending = s.pending.tail

/-- Every command changes nothing outside its own parts. The frame of all 209 commands: when a command answers a next
state, every part of the state, each field of the hubs taken on its own, is unchanged unless the command's row of
the table Instr.parts names it; what a command presents at the ports always belongs to that command alone. -/
def Obligations.EveryCommandKeepsItsFrame : Prop :=
  ∀ (c : Instr) (s t : State), exec c s = .next t → Touches (.out :: Instr.parts c) s t

/-- A command stops only where its beat breaks its bound. Every command answers a next state in every state, but for a beat
that breaks its bound while RST_L is not asserted, which stops with hostContract and the rule's number: no rule says what
such a beat does, and the stop is the model's choice (log 77). A bound is broken only by a tap or C-last beat of a handle
bound to one context, with no element, more than 32 elements or more than 256 bits, by a PRJ beat of records with no record,
more than 8 residues or more than 2 records of four words (R421), and by a vector beat of an open group with no element or
more than 32 (R423). -/
def Obligations.OnlyBrokenBeatsStop : Prop :=
  ∀ (c : Instr) (s : State),
    (s.rstL = true ∨ s.brokenBound c = none → ∃ t, exec c s = .next t)
    ∧ (∀ r, s.rstL = false → s.brokenBound c = some r → exec c s = .fault (.hostContract r))
    ∧ (∀ r, s.brokenBound c = some r ↔
        (r = 421 ∧ ∃ (a : Nat) (b : TapBeat) (tap : Tap) (x : Ctx), (c = .tapElementBeat a b ∧ tap = b.tap ∨ c = .cLast a b ∧ tap = .c)
          ∧ s.agentOn a = true ∧ (s.agent a).boundCtx b.handle = some x
          ∧ (b.count = 0 ∨ 32 < b.count ∨ 256 < b.count * fmtWidth (tapFmt x.desc tap)))
        ∨ (r = 421 ∧ ∃ (a : Nat) (b : PrjBeat) (x : Ctx), c = .prjBeat a b ∧ s.agentOn a = true ∧ (s.agent a).boundCtx b.handle = some x
          ∧ b.header = false ∧ (b.count = 0 ∨ (if x.bounded then 2 else 8) < b.count))
        ∨ (r = 423 ∧ ∃ (a : Nat) (b : VeBeat), c = .veBeat a b ∧ s.agentOn a = true
          ∧ ((s.agent a).groups.get none b.gid.toNat).isSome = true ∧ (b.count = 0 ∨ 32 < b.count)))

/-- Operands that fit a build lie within the bounds of R4. For every build within the ranges of R4 and every command,
operands that are well formed for that build are well formed for the build with every parameter at its upper bound. -/
def Obligations.OperandsFitTheLargestBuild : Prop :=
  ∀ (i : Instr) (b : Build), b.wf = true → i.wf b = true → i.wf Build.largest = true

/-- A write of an RW register reads back, a write of a read-only word has no effect. REGISTER_WRITE completes whenever a
hub serves the port. A word of a plain RW register then reads the written value in its fields and 0 in its RSVD
bits; BOOT_CTL is written until the harness locks it; a driver word of the staged slate reads the data; a read-only
word is left alone; the write is mirrored to the other hub, RP_ACK rises, and no other state changes. Before the pair has
formed the write takes effect at both hubs (log 113, the model's reading). A word whose write is a row of its own (the
sticky and force words, IRQ_STS, THR_EVT, IND_SEL, IND_ADDR, and HUB_CMD with an OP of a row) is left to that row: the
model's choice (log 28). HUB_CMD with the reserved OP 0 ends ARG_INVALID, or OVERRUN while a command is BUSY. -/
def Obligations.PlainRegisterWrite : Prop :=
  ∀ (s : State) (addr : BitVec 16) (data : W32), s.rstL = false → s.answers = true →
    (wordAddr addr ≠ 0x0C → ownRow (wordAddr addr) = false → Completes (.registerWrite addr data) s fun t =>
      t = ((s.fresh.atServing (fun h u => u.modHub h (fun k => { k with regs := (t.hub h).regs }))).mirrorWrite (wordAddr addr) data).present
            .rpWritten
      ∧ (∀ m : W32, (wordAddr addr, m) ∈ [(0x24, 0xFFFFFFFF#32), (0x28, 0xFFFFFFFF#32), (0x2C, 0xFFFFFFFF#32), (0x30, 0xFFFFFFFF#32),
            (0x100, 0xFFFFFFFF#32), (0x104, 0x0000FFFF#32), (0x108, 0xFFFFFFFF#32), (0x404, 0x000000FF#32), (0x1840, 0xFFF000FF#32),
            (0x1844, 0xFFFFFFFF#32), (0x1848, 0x0000FFFF#32), (0x1850, 0x00001FFF#32), (0x30C4, 0x000000FF#32), (0x3200, 0x000000FF#32),
            (0x4010, 0x0000FF07#32), (0x4014, 0xFFFFFFFF#32), (0x4018, 0xFFFFFFFF#32), (0x7000, 0xE000FFFF#32)] →
          t.regRead (wordAddr addr) = data &&& m)
      ∧ (wordAddr addr = 0x60 → ∀ h, h = s.twin.serving ∨ s.twin.paired = false ∧ s.hubUp h = true →
          (t.hub h).regs.bootCtl = if (s.hub h).regs.bootLocked then (s.hub h).regs.bootCtl else data &&& 1#32)
      ∧ (∀ w < 42, w ∈ [0, 2, 3, 40] ∨ (4 ≤ w ∧ w ≤ 23) → wordAddr addr = 0x3000 + 4 * w → t.regRead (0x3000 + 4 * w) = data)
      ∧ (wordAddr addr ∈ [0x00, 0x04, 0x08, 0x10, 0x14, 0x18, 0x1C, 0x34, 0x40, 0x44, 0x48, 0x4C, 0x50, 0x54, 0x58, 0x5C, 0x10C, 0x110,
            0x114, 0x118, 0x408, 0x488, 0x48C, 0x490, 0x1854, 0x30C8, 0x30CC, 0x30D0, 0x3100, 0x3104, 0x3108, 0x3204, 0x3208, 0x320C,
            0x3210, 0x3214, 0x3300, 0x330C, 0x3520, 0x4000, 0x4004, 0x4008, 0x600C, 0x7004, 0x8000, 0x8020] →
          t.sv.regs = s.sv.regs))
    ∧ ((0x1000 ≤ wordAddr addr ∧ wordAddr addr < 0x1800) ∨ wordAddr addr ∈ [0x38, 0x400C, 0x6000, 0x6004]
          ∨ wordAddr addr = 0x0C ∧ bits data 3 0 ≠ 0 →
        Completes (.registerWrite addr data) s fun t => t = s.fresh)
    ∧ (wordAddr addr = 0x0C → bits data 3 0 = 0 →
        (s.cmd.code ≠ 1 → Completes (.registerWrite addr data) s fun t =>
          t.cmd.op = 0 ∧ t.cmd.code = 3 ∧ t.cmd.tag.toNat = bits data 15 8 ∧ t.sv.irq = s.sv.irq ||| 8#32 ∧ t.out = [.rpWritten])
        ∧ (s.cmd.code = 1 → Completes (.registerWrite addr data) s fun t =>
          t = { s.fresh with cmd := { s.cmd with overrun := true, refusedCnt := satInc s.cmd.refusedCnt }, out := [.rpWritten] }))

/-- Writing 1 to a W1C bit clears it. STICKY_CLEAR, IRQ_STS_CLEAR, THR_EVT_CLEAR and OVERRUN_CLEAR complete whenever a
hub serves the port: each bit written 1 is 0 afterwards and each bit written 0 is unchanged, at the serving hub, and
before the pair has formed at both hubs (log 113, the model's reading); the write goes to the other hub as a REG_WRITE
frame, RP_ACK rises, and nothing else changes. IRQ_STS.ABORT_PENDING, which is read only, stays. -/
def Obligations.ClearRegisters : Prop :=
  ∀ (s : State) (data : W32), s.rstL = false → s.answers = true →
    (∀ w : Byte, Completes (.stickyClear w data) s fun t =>
      (∀ h, h = s.twin.serving ∨ s.twin.paired = false ∧ s.hubUp h = true →
        (t.hub h).sticky.get 0 w.toNat = (s.hub h).sticky.get 0 w.toNat &&& ~~~data
        ∧ ∀ v, v ≠ w.toNat → (t.hub h).sticky.get 0 v = (s.hub h).sticky.get 0 v)
      ∧ t = ((s.fresh.atServing (fun h u => u.modHub h (fun k => { k with sticky := (t.hub h).sticky }))).mirrorWrite
              (0x1000 + 4 * w.toNat) data).present .rpWritten)
    ∧ (Completes (.irqStsClear data) s fun t =>
      t = ((s.fresh.atServing (fun h u => u.modHub h (fun k => { k with irq := (s.hub h).irq &&& ~~~data }))).mirrorWrite 0x38 data).present
            .rpWritten
      ∧ (t.regRead 0x38).getLsbD 8 = (s.regRead 0x38).getLsbD 8)
    ∧ (Completes (.thrEvtClear data) s fun t =>
      t = ((s.fresh.atServing (fun h u => u.modHub h (fun k => { k with thrEvt := (s.hub h).thrEvt &&& ~~~data }))).mirrorWrite 0x400C
            data).present .rpWritten)
    ∧ (Completes (.overrunClear data) s fun t =>
      t.cmd = { s.cmd with overrun := s.cmd.overrun && !(data.getLsbD 8) }
      ∧ t = ({ s.fresh with cmd := t.cmd }.mirrorWrite 0x20 data).present .rpWritten)

/-- A read of a lowest word latches the quantity. REG_ACCESS_LATCH completes whenever a hub serves the port and gives
the word read. After the read of the lowest word of the step clock, of a retake log entry, of the oldest job abort, of
the signature record or of any other quantity of the list, a read of each of its other words returns the value that it had at that read, whatever the value has
become since; a read of another word latches nothing. REEL_DATA_READ completes likewise: the read of REEL_DATA0
latches the entry, and with AUTOINC a read of REEL_DATA3 advances INDEX by 1 within 16 bits and leaves AREA,
TAIL_HUB and AUTOINC. -/
def Obligations.LatchedReads : Prop :=
  (∀ (s : State) (addr : BitVec 16), s.rstL = false → s.answers = true →
      Completes (.regAccessLatch addr) s fun t =>
        t.out = [.rpAck (s.regRead (wordAddr addr))] ∧ Touches [.out, .latch] s t
        ∧ (∀ f n : Nat, (f, n) ∈ [(0x40, 2), (0x58, 2), (0x120, 12), (0x200, 4), (0x410, 4), (0x480, 4), (0x2200, 2), (0x2800, 4),
              (0x30C8, 3), (0x30D4, 2), (0x3100, 2), (0x3204, 2), (0x320C, 2), (0x3300, 2), (0x3310, 2), (0x3320, 4), (0x3400, 44),
              (0x34C0, 12), (0x34F0, 12), (0x3608, 2), (0x3630, 12), (0x3660, 12), (0x9000, 4)] →
            wordAddr addr = f → ∀ i, 0 < i → i < n → ∀ u : State, u.latch = t.latch → u.regRead (f + 4 * i) = s.regLive (f + 4 * i))
        ∧ (wordAddr addr ∈ [0x04, 0x10, 0x20, 0x38, 0x404, 0x1850, 0x1854, 0x3104, 0x4004] → t.latch = s.latch))
    ∧ (∀ (s : State) (i : BitVec 2), s.rstL = false → s.answers = true →
      Completes (.reelDataRead i) s fun t =>
        t.out = [.rpAck (s.regRead (0x7010 + 4 * i.toNat))]
        ∧ (i = 0#2 → ∀ j, 0 < j → j < 4 → ∀ u : State, u.latch = t.latch → u.regRead (0x7010 + 4 * j) = wordLE s.reelEntry j)
        ∧ (i ≠ 0#2 → t.latch = s.latch)
        ∧ (i = 3#2 → s.sv.regs.reelSel.getLsbD 29 = true →
            bits t.sv.regs.reelSel 15 0 = (bits s.sv.regs.reelSel 15 0 + 1) % 65536 ∧ bits t.sv.regs.reelSel 31 16 = bits s.sv.regs.reelSel 31 16)
        ∧ (i ≠ 3#2 ∨ s.sv.regs.reelSel.getLsbD 29 = false → t.sv.regs.reelSel = s.sv.regs.reelSel)
        ∧ Touches [.out, .latch, .hub .regs] s t)

/-- An injection makes the unit emit its message, once. FORCE_WRITE completes whenever a hub serves the port, and takes effect
at the serving hub, before the pair has formed at both (log 113, the model's reading). With FORCE_EN 0 nothing but
FORCE_IGNORED changes. For the bit of one source that is enabled and has no injection
outstanding, the injection is outstanding at the serving hub with the DRY_RUN of FORCE_CTRL, and the source's agent
emits one message with the KIND, JOB, ADDRESS and SEV of the force control fields, SEV 5 to 7 as 4, INJECTED set and
its next SEQ. A source that is not enabled or has an injection outstanding is counted in FORCE_IGNORED only.
INJECTION_TIMEOUT ends an injection that is still outstanding and counts it. -/
def Obligations.FaultInjection : Prop :=
  ∀ s : State, s.rstL = false → s.answers = true →
    (∀ (w : Byte) (data : W32), (∀ h, h = s.twin.serving ∨ s.twin.paired = false → (s.hub h).regs.bootCtl.getLsbD 0 = false) →
      Completes (.forceWrite w data) s fun t =>
        t = ((s.fresh.atServing (fun h u => u.modHub h (·.count 6))).mirrorWrite (0x1400 + 4 * w.toNat) data).present .rpWritten)
    ∧ (∀ (w : Byte) (b : Fin 32), s.sv.regs.bootCtl.getLsbD 0 = true → 32 * w.toNat + b.val < 4096 →
        (s.agentOn (32 * w.toNat + b.val) = true → (s.sv.src (32 * w.toNat + b.val)).injection = none →
          Completes (.forceWrite w (BitVec.ofNat 32 (2 ^ b.val))) s fun t =>
            (t.sv.src (32 * w.toNat + b.val)).injection = some (s.sv.regs.forceCtrl.getLsbD 20)
            ∧ Emitted (.agent (32 * w.toNat + b.val))
                { source := BitVec.ofNat 16 (32 * w.toNat + b.val), kind := BitVec.ofNat 8 (bits s.sv.regs.forceCtrl 31 24),
                  sev := BitVec.ofNat 3 (min (bits s.sv.regs.forceCtrl 23 21) 4), injected := true,
                  addr := BitVec.ofNat 48 (s.sv.regs.forceAddrLo.toNat + 2 ^ 32 * bits s.sv.regs.forceAddrHi 15 0),
                  job := BitVec.ofNat 8 (bits s.sv.regs.forceCtrl 7 0) } s t)
        ∧ (s.agentOn (32 * w.toNat + b.val) = false
            ∨ (∀ h, h = s.twin.serving ∨ s.twin.paired = false → ((s.hub h).src (32 * w.toNat + b.val)).injection.isSome = true) →
          Completes (.forceWrite w (BitVec.ofNat 32 (2 ^ b.val))) s fun t =>
            t = ((s.fresh.atServing (fun h u => u.modHub h (·.count 6))).mirrorWrite (0x1400 + 4 * w.toNat)
                  (BitVec.ofNat 32 (2 ^ b.val))).present .rpWritten))
    ∧ (∀ (pos : Nat) (h : HubId), s.hubUp h = true → ((s.hub h).src pos).injection.isSome = true →
        Completes (.injectionTimeout pos) s fun t =>
          ((t.hub h).src pos).injection = none ∧ (t.hub h).ctr.get 0 6 = satInc ((s.hub h).ctr.get 0 6)
          ∧ ((s.hub h).src pos).injAt + 10000000 ≤ t.now)

/-- Fetches and posted words of the indirect window. IND_SELECT, IND_FETCH_DONE, IND_DATA_READ and IND_DATA_WRITE
complete whenever a hub serves the port. A write of IND_SEL or IND_ADDR starts a fetch. A fetch that is done gives
the unit's word, or data 0 with ERR for an unmapped word and with NO_UNIT for an absent unit, and PENDING falls. A
read of IND_DATA gives the last completed fetch and, with AUTOINC and nothing in flight, advances WORD and starts
the next fetch. A write of IND_DATA sets the field and posts its word, is mirrored, and PENDING stays high until the unit
takes it. That a write made while a fetch or a posted word is in flight lets that access end first, so that no word is
lost, is the model's choice (log 30). Of an agent, CTR_CLEAR alone can be written: a word posted to any other offset sets
ERR and changes no agent. -/
def Obligations.IndirectWindow : Prop :=
  ∀ s : State, s.rstL = false → s.answers = true →
    (∀ data : W32, s.ind.posted = none → Completes (.indSelect false data) s fun t =>
      t = { (s.fresh.atServing (fun h u => u.modHub h (fun k => { k with regs := { k.regs with indSel := data &&& 0xE0001FFF#32 } }))).mirrorWrite
              0x6000 data with ind := { s.ind with pending := true } }.present .rpWritten)
    ∧ (∀ data : W32, s.ind.posted = none → Completes (.indSelect true data) s fun t =>
      t = { (s.fresh.atServing (fun h u => u.modHub h (fun k => { k with regs := { k.regs with indAddr := data &&& 0x8000FFFC#32 } }))).mirrorWrite
              0x6004 data with ind := { s.ind with pending := true } }.present .rpWritten)
    ∧ (s.ind.pending = true → s.ind.posted = none → Completes .indFetchDone s fun t =>
      t = { s.fresh with ind := t.ind } ∧ t.ind.pending = false ∧
      match s.indUnit with
      | none => t.ind.data = 0#32 ∧ t.ind.noUnit = true
      | some u => t.ind.noUnit = false ∧
        match s.indWord u s.indAddr with
        | none => t.ind.data = 0#32 ∧ t.ind.err = true
        | some w => t.ind.data = w ∧ t.ind.err = false)
    ∧ (Completes .indDataRead s fun t =>
      t.out = [.rpAck s.ind.data] ∧ t.ind.data = s.ind.data
      ∧ (s.sv.regs.indAddr.getLsbD 31 = true → s.ind.pending = false →
          t.ind.pending = true ∧ bits t.sv.regs.indAddr 15 2 = (bits s.sv.regs.indAddr 15 2 + 1) % 2 ^ 14)
      ∧ (s.sv.regs.indAddr.getLsbD 31 = false ∨ s.ind.pending = true → t = { s.fresh with out := [.rpAck s.ind.data] }))
    ∧ (∀ data : W32, s.ind.posted = none →
      (s.ind.pending = false → Completes (.indDataWrite data) s fun t =>
        t = ({ s.fresh with ind := { s.ind with pending := true, posted := some data, data := data } }.mirrorWrite 0x6008 data).present
              .rpWritten)
      ∧ (s.ind.pending = true → Completes (.indDataWrite data) s fun t =>
        t.ind.pending = true ∧ t.ind.posted = some data ∧ t.ind.data = data ∧ t.ind.noUnit = s.indUnit.isNone
        ∧ t = ({ s.fresh with ind := t.ind }.mirrorWrite 0x6008 data).present .rpWritten))
    ∧ (∀ data w : W32, s.ind.posted = some w → Completes (.indDataWrite data) s fun t =>
      t.ind.pending = true ∧ t.ind.posted = some data ∧ t.ind.data = data
      ∧ (∀ i : Nat, s.indUnit = some (.agent i) → s.indAddr = 0xF8 → w.getLsbD 0 = true → (t.agent i).tapStray = 0 ∧ (t.agent i).groupsJudged = 0))
    ∧ (∀ (w : W32) (i : Nat), s.ind.pending = true → s.ind.posted = some w → s.indUnit = some (.agent i) → s.indAddr ≠ 0xF8 →
        Completes .indFetchDone s fun t =>
          t.ind.pending = false ∧ t.ind.posted = none ∧ t.ind.err = true ∧ t.agents = s.agents
          ∧ Touches [.out, .ind, .hub .regs] s t)
    ∧ (∀ (data : W32) (i : Nat), s.ind.pending = true → s.ind.posted = some data → s.indUnit = some (.agent i) → s.indAddr = 0xF8 →
        data.getLsbD 0 = true → Completes .indFetchDone s fun t =>
          t.ind.pending = false ∧ t.ind.posted = none ∧ t.ind.err = false
          ∧ t.agent i = { s.agent i with incl := ⟨[]⟩, groupsJudged := 0, groupsUnchecked := 0, runSkipped := 0, failBits := ⟨[]⟩,
                                         tapStray := 0, commitLate := 0, paddockGaps := 0, classes := ⟨[]⟩ }
          ∧ ∀ j, j ≠ i → t.agent j = s.agent j)

/-- POP removes the head entry of the job abort FIFO. ABORT_FIFO_POP completes whenever a hub serves the port. With POP
1 the head entry is gone and the entries behind it keep their order; the popped job is no longer held as aborted at
either hub and its abort entry no longer counts as unread. With POP 0, or on an empty FIFO, it has no effect. -/
def Obligations.AbortFifoPop : Prop :=
  ∀ s : State, s.rstL = false → s.answers = true →
    (∀ (data : W32) (e : AbortEntry) (r : List AbortEntry), data.getLsbD 0 = true → s.abortFifo = e :: r →
      Completes (.abortFifoPop data) s fun t =>
        t.abortFifo = r ∧ (t.job e.job.toNat).abortHeld = false
        ∧ t.hubA.aborted = s.hubA.aborted.erase e.job.toNat ∧ t.hubB.aborted = s.hubB.aborted.erase e.job.toNat)
    ∧ (∀ data : W32, data.getLsbD 0 = false ∨ s.abortFifo = [] → Completes (.abortFifoPop data) s fun t =>
        t = s.fresh.present .rpWritten)

/-- The order in which a command is refused. For every command of the table: while one is BUSY a write of HUB_CMD has no
effect but OVERRUN and CMD_REFUSED_CNT; otherwise TAG and OP are shown, and in a state that does not accept the
command it ends STATE_REFUSED and is counted; in a state that accepts it, a nonzero HUB_ARG bit that the command
does not name ends it ARG_INVALID, uncounted. Every end sets IRQ_STS.CMD_DONE, and a refusal changes nothing else. The one
exception while BUSY is LOAD_HARNESS while START runs: it ends STATE_REFUSED, counted and with CMD_DONE, and
HUB_CMD_STS goes on showing START (log 111, the model's reading). -/
def Obligations.CommandRefusalsComeInOrder : Prop :=
  ∀ (s : State) (tag : Byte) (image : SaveImage) (wa wb : List W32) (ws : List (List W32)) (log : List InlogEntry),
    s.rstL = false → s.answers = true → ∀ (c : Instr) (op : Nat) (states : List HubSt) (named : W32),
      ((c, op, states, named) ∈ [(.start tag, 0x1, [.off], 0#32), (.loadHarness tag, 0x2, [.off], 0#32),
          (.run tag, 0x3, [.ready, .saved], 0#32), (.quiesce tag, 0x4, [.run, .degraded], 0#32),
          (.save tag, 0x5, [.ready, .run, .degraded], 0xFFFFFFFF#32), (.restore tag image, 0x6, [.ready, .saved], 0xFFFFFFFF#32),
          (.trotUp tag, 0x7, [.ready, .run, .degraded], 0xFFF#32), (.clearSource tag, 0x8, [.ready, .run, .degraded, .saved], 0x1FFF#32),
          (.setBand tag, 0x9, [.ready, .run, .degraded], 0#32), (.retireTwin tag, 0xA, [.ready, .run, .degraded], 1#32),
          (.wrap tag, 0xB, [.ready, .saved], 0#32), (.launchAt tag, 0xD, [.run, .degraded], 0xFFFF00FF#32),
          (.hotUpdate tag wa wb, 0xE, [.ready, .run, .degraded], 0#32), (.replay tag log, 0xF, [.run, .degraded], 0xFFFF#32)]
        ∨ (c, op, states, named) ∈ [(.signResultOpen tag ws, 0xC, [.ready, .run, .degraded], 0x00FF3F03#32),
            (.signResultSign tag, 0xC, [.ready, .run, .degraded], 0x00FF3F03#32),
            (.signResultClose tag, 0xC, [.ready, .run, .degraded], 0x00FF3F03#32)] ∧ bits s.sv.regs.arg0 1 0 = 3) →
      (s.cmd.code = 1 → ¬(op = 2 ∧ s.cmd.op = 1 ∧ s.ld.st = .bringup) → Completes c s fun t =>
        t = { s.fresh with cmd := { s.cmd with overrun := true, refusedCnt := satInc s.cmd.refusedCnt }, out := [.rpWritten] })
      ∧ (s.cmd.code = 1 → op = 2 → s.cmd.op = 1 → s.ld.st = .bringup → Completes c s fun t =>
        t.cmd = { s.cmd with refusedCnt := satInc s.cmd.refusedCnt } ∧ t.hubA.irq = s.hubA.irq ||| 8#32
        ∧ t.hubB.irq = s.hubB.irq ||| 8#32 ∧ t.out = [.rpWritten] ∧ Touches [.out, .cmd, .hub .irq] s t)
      ∧ (s.cmd.code ≠ 1 → s.ld.st ∉ states → Completes c s fun t =>
        t.cmd.op = op ∧ t.cmd.tag = tag ∧ t.cmd.code = 2 ∧ t.cmd.refusedCnt = satInc s.cmd.refusedCnt
        ∧ t.hubA.irq = s.hubA.irq ||| 8#32 ∧ t.hubB.irq = s.hubB.irq ||| 8#32 ∧ Touches [.out, .cmd, .hub .irq, .xlink] s t)
      ∧ (s.cmd.code ≠ 1 → s.ld.st ∈ states → s.sv.regs.arg0 &&& ~~~named ≠ 0#32 → Completes c s fun t =>
        t.cmd.op = op ∧ t.cmd.tag = tag ∧ t.cmd.code = 3 ∧ t.cmd.refusedCnt = s.cmd.refusedCnt
        ∧ t.hubA.irq = s.hubA.irq ||| 8#32 ∧ t.hubB.irq = s.hubB.irq ||| 8#32 ∧ Touches [.out, .cmd, .hub .irq, .xlink] s t)

/-- START, LOAD_HARNESS, RUN, QUIESCE and WRAP where they are accepted. START with a recorded location moves every
acting hub to BRINGUP, begins stage 0 and stays BUSY; without one it ends ARG_INVALID. LOAD_HARNESS records address
and length and changes no hub state. RUN moves a hub to RUN, or to DEGRADED where it is FAULTED. These three have
their effect at once at a hub alone, and with a twin once the follower has consented. QUIESCE ends with READY once
everything is quiet and stays BUSY until then. WRAP starts the wrap test; the state is left as it is while the
command is BUSY, and is WRAP once it has ended DONE, which where no flash answers is at once: the model's reading of when
the state follows (log 35). -/
def Obligations.CommandsThatMoveTheState : Prop :=
  ∀ (s : State) (tag : Byte), s.argsAre 0 0 0 0 →
    (s.takes [.off] → s.harness.located = true → Relaxes (.start tag) 0x1 s fun t =>
      (∀ h, s.hubUp h = true → (t.hub h).st = .bringup) ∧ t.stage = some 0 ∧ (t.stages.get {} 0).status = 1 ∧ t.stageFrom = s.now
        ∧ t.cmd.code = 1 ∧ t.cmd.op = 0x1 ∧ t.cmd.tag = tag)
    ∧ (s.takes [.off] → s.harness.located = false → Completes (.start tag) s fun t =>
      t.cmd.code = 3 ∧ t.cmd.op = 0x1 ∧ t.cmd.tag = tag ∧ t.stage = s.stage ∧ ∀ h, (t.hub h).st = (s.hub h).st)
    ∧ (s.takes [.off] → s.sv.regs.harnessAddrLo.toNat % 4 = 0 → s.sv.regs.harnessLen ≠ 0#32 → Relaxes (.loadHarness tag) 0x2 s fun t =>
      t.harness = { s.harness with located := true, len := s.sv.regs.harnessLen.toNat,
                                   addr := s.sv.regs.harnessAddrLo.toNat + 2 ^ 32 * bits s.sv.regs.harnessAddrHi 15 0 }
        ∧ t.cmd.code = 0 ∧ t.cmd.op = 0x2 ∧ t.cmd.tag = tag ∧ ∀ h, (t.hub h).st = (s.hub h).st)
    ∧ (s.takes [.off] → s.sv.regs.harnessAddrLo.toNat % 4 ≠ 0 ∨ s.sv.regs.harnessLen = 0#32 → Completes (.loadHarness tag) s fun t =>
      t.harness = s.harness ∧ t.cmd.code = 3)
    ∧ (s.takes [.ready, .saved] → Relaxes (.run tag) 0x3 s fun t =>
      (∀ h, s.hubUp h = true → (t.hub h).st = if (s.hub h).faulted then .degraded else .run) ∧ t.cmd.code = 0 ∧ t.cmd.op = 0x3
        ∧ t.cmd.tag = tag)
    ∧ (s.takes [.run, .degraded] → s.quiet = true → Completes (.quiesce tag) s fun t =>
      (∀ h, s.hubUp h = true → (t.hub h).st = .ready) ∧ t.cmd.code = 0 ∧ t.cmd.op = 0x4 ∧ t.cmd.tag = tag)
    ∧ (s.takes [.run, .degraded] → s.quiet = false → Completes (.quiesce tag) s fun t =>
      (∀ h, (t.hub h).st = (s.hub h).st) ∧ t.cmd.code = 1 ∧ t.cmd.op = 0x4 ∧ t.cmd.tag = tag)
    ∧ (s.takes [.ready, .saved] → Completes (.wrap tag) s fun t =>
      (∀ h, s.hubUp h = true → (t.hub h).st = if s.flash.answers then (s.hub h).st else .wrap) ∧ t.test.wrapping = true ∧ t.cmd.op = 0xB ∧ t.cmd.tag = tag
        ∧ t.test.wrapDone = !s.flash.answers ∧ t.cmd.code = if s.flash.answers then 1 else 0)

/-- SAVE and RESTORE. SAVE ends STATE_REFUSED and is counted while something that it waits for remains; otherwise, at
once at a hub alone and with a twin once the follower has consented, it writes an image with this chip's CHIP_ID,
ID_REV, harness digest, step clock, input-log head, the jobs with active slates and the SHA-384 of its bytes, ends DONE, and every acting hub
is SAVED. RESTORE of an image that fits likewise loads the slates, the input log, the signing streams, the static test
parameters and, only where the CHIP_ID is this chip's, the bucket levels; from another chip it counts the skip and
leaves the sources alone; every acting hub is READY. An image that does not fit ends ARG_INVALID and loads nothing. The
bytes over which the digest runs are the model's choice (log 102), and what RESTORE replaces is its reading (log 36). -/
def Obligations.SaveAndRestore : Prop :=
  ∀ (s : State) (tag : Byte), s.sv.regs.arg1 &&& 0xFFFF0000#32 = 0#32 → s.sv.regs.arg2 = 0#32 → s.sv.regs.arg3 = 0#32 →
    s.sv.regs.arg0.toNat % 4096 = 0 →
    (s.takes [.ready, .run, .degraded] → s.saveBlocked = true → Completes (.save tag) s fun t =>
      t.cmd.code = 2 ∧ t.cmd.refusedCnt = satInc s.cmd.refusedCnt ∧ t.out = [.rpWritten] ∧ ∀ h, (t.hub h).st = (s.hub h).st)
    ∧ (s.takes [.ready, .run, .degraded] → s.saveBlocked = false → Relaxes (.save tag) 0x5 s fun t =>
      (∃ i : SaveImage, .saved (s.sv.regs.arg0.toNat + 2 ^ 32 * bits s.sv.regs.arg1 15 0) i ∈ t.out
        ∧ i.magic = 0x5A7E#16 ∧ i.format = 1#8 ∧ i.idRev = 0x7A34C210#32 ∧ i.chipId = s.keys.chipId ∧ i.harness = s.harness.digest
        ∧ i.stepClock = s.clock.count ∧ i.inlogHead = s.inlog.head ∧ i.inlogWraps = s.inlog.wraps
        ∧ i.digest = sha384 (imageBytes i) ∧ i.slates.map (fun x => (x.job.toNat, x.live))
            = (s.jobs.entries.filter (fun e => e.2.active)).map (fun e => (e.1 % 256, e.2.tccLive)))
      ∧ (∀ h, s.hubUp h = true → (t.hub h).st = .saved) ∧ t.cmd.code = 0)
    ∧ (∀ image : SaveImage, s.takes [.ready, .saved] → s.imageFits image = true → Relaxes (.restore tag image) 0x6 s fun t =>
      (∀ h, s.hubUp h = true → (t.hub h).st = .ready) ∧ t.cmd.code = 0 ∧ t.inlog.head = image.inlogHead ∧ t.inlog.wraps = image.inlogWraps
      ∧ (∀ x ∈ image.slates, (t.job x.job.toNat).active = true ∧ (t.job x.job.toNat).launchedOnce = true)
      ∧ (∀ x ∈ image.streams, (t.streams.get {} x.stream).bound = true)
      ∧ t.harness = { s.harness with recs := loadClasses s.harness.recs image.classes }
      ∧ (image.chipId ≠ s.keys.chipId → t.restoreSkipped = satInc s.restoreSkipped ∧ t.hubA.srcs = s.hubA.srcs ∧ t.hubB.srcs = s.hubB.srcs
          ∧ t.hubA.paddock = s.hubA.paddock ∧ t.hubB.paddock = s.hubB.paddock)
      ∧ (image.chipId = s.keys.chipId → t.restoreSkipped = s.restoreSkipped
          ∧ ((image.buckets.map (·.1)).Nodup → ∀ x ∈ image.buckets, ∀ h, s.hubUp h = true → ((t.hub h).src x.1).bucket = x.2)))
    ∧ (∀ image : SaveImage, s.takes [.ready, .saved] → s.imageFits image = false → Completes (.restore tag image) s fun t =>
      t.cmd.code = 3 ∧ t.jobs = s.jobs ∧ t.inlog = s.inlog ∧ t.streams = s.streams ∧ t.concs = s.concs ∧ ∀ h, (t.hub h).st = (s.hub h).st)

/-- TROT_UP, CLEAR_SOURCE, SET_BAND and RETIRE_TWIN. TROT_UP of an agent that is enabled and neither faulty nor lame,
with room in the list, gives the agent an entry at the leader that is DUE at once, suspects tile and agent and has
cause 4, or ORs the flags into the one it has, counts a further event and leaves the cause. CLEAR_SOURCE of a source
in its fault state clears its bucket, counts the recovery, and makes it lame at L recoveries, otherwise ends its
fault state. SET_BAND of the curb, the paddock interval, the round period or an envelope's factor records the band,
and one outside the loop's range ends ARG_INVALID. These two have their effect at once at a hub alone, and with a twin
once the follower has consented. RETIRE_TWIN detaches the named hub, the other one leads and serves in
SINGLE_RETIRED, and it records KIND 0x1A at S0; where it names the leader it stays BUSY while an order of a
serialised operation is outstanding. Which orders count as outstanding is the model's choice (log 89), and that TROT_UP
needs room at the leader alone is its reading (log 34). -/
def Obligations.FaultAndTwinCommands : Prop :=
  ∀ (s : State) (tag : Byte),
    (∀ a : Nat, a < 4096 → s.takes [.ready, .run, .degraded] → s.argsAre (BitVec.ofNat 32 a) 0 0 0 → s.agentOn a = true →
      s.ld.fences? a = false → s.ld.padRoom a = true → Completes (.trotUp tag) s fun t =>
        t.cmd.code = 0
        ∧ (s.ld.padSlot a = none → t.ld.pad? a = some { valid := true, agent := a, tile := true, agentSus := true, state := .due,
                                                        cause := 4, due := s.clk })
        ∧ (∀ i, s.ld.padSlot a = some i → (t.ld.paddock.get {} i).tile = true ∧ (t.ld.paddock.get {} i).agentSus = true
            ∧ (t.ld.paddock.get {} i).cause = (s.ld.paddock.get {} i).cause ∧ (t.ld.paddock.get {} i).clean = 0
            ∧ (t.ld.paddock.get {} i).events = min ((s.ld.paddock.get {} i).events + 1) 15))
    ∧ (∀ p : Nat, p < 8192 → s.takes [.ready, .run, .degraded, .saved] → s.argsAre (BitVec.ofNat 32 p) 0 0 0 → (s.ld.src p).fault = true →
      (s.ld.src p).lame = false → Relaxes (.clearSource tag) 0x8 s fun t =>
        t.cmd.code = 0 ∧ ((t.hub s.twin.leader).src p).bucket = 0
        ∧ ((t.hub s.twin.leader).src p).recovery = min ((s.ld.src p).recovery + 1) 15
        ∧ ((t.hub s.twin.leader).src p).lame = decide (s.grpL (posGroup p) ≤ min ((s.ld.src p).recovery + 1) 15)
        ∧ (4096 ≤ p ∨ s.ld.padRoom p = true → ((t.hub s.twin.leader).src p).fault = false))
    ∧ (∀ p : Nat, p < 8192 → s.takes [.ready, .run, .degraded, .saved] → s.argsAre (BitVec.ofNat 32 p) 0 0 0 →
      (s.ld.src p).fault = false ∨ (s.ld.src p).lame = true → Completes (.clearSource tag) s fun t =>
        t.cmd.code = 3 ∧ t.hubA.srcs = s.hubA.srcs ∧ t.hubB.srcs = s.hubB.srcs)
    ∧ (s.takes [.ready, .run, .degraded] → s.argsAre 0 0 0 0 → s.sv.regs.bandLo.toNat ≤ s.sv.regs.bandHi.toNat →
      (bits s.sv.regs.bandSel 2 0 = 0 → 1 ≤ s.sv.regs.bandLo.toNat → s.sv.regs.bandHi.toNat ≤ 7 → Relaxes (.setBand tag) 0x9 s fun t =>
        t.cmd.code = 0 ∧ t.bands = { s.bands with curbLo := s.sv.regs.bandLo.toNat, curbHi := s.sv.regs.bandHi.toNat, curbMoved := true })
      ∧ (bits s.sv.regs.bandSel 2 0 = 1 → 1 ≤ s.sv.regs.bandLo.toNat → s.sv.regs.bandHi.toNat ≤ 86400 → Relaxes (.setBand tag) 0x9 s fun t =>
        t.cmd.code = 0 ∧ t.bands = { s.bands with tpMin := s.sv.regs.bandLo.toNat, tpMax := s.sv.regs.bandHi.toNat })
      ∧ (bits s.sv.regs.bandSel 2 0 = 2 → 1 ≤ s.sv.regs.bandLo.toNat → s.sv.regs.bandHi.toNat ≤ 100 → Relaxes (.setBand tag) 0x9 s fun t =>
        t.cmd.code = 0 ∧ t.bands = { s.bands with roundLo := s.sv.regs.bandLo.toNat, roundHi := s.sv.regs.bandHi.toNat })
      ∧ (∀ v : Rec, bits s.sv.regs.bandSel 2 0 = 3 → s.vclass? (bits s.sv.regs.bandSel 15 8) = some v → (v.word 1).getLsbD 24 = true →
        16 ≤ s.sv.regs.bandLo.toNat → orDef (v.fld 4 31 24) 128 ≤ s.sv.regs.bandLo.toNat → s.sv.regs.bandHi.toNat ≤ 255 →
        Relaxes (.setBand tag) 0x9 s fun t => t.cmd.code = 0
          ∧ t.bands = { s.bands with k16 := s.bands.k16.set none (bits s.sv.regs.bandSel 15 8)
                                              (some (s.sv.regs.bandLo.toNat, s.sv.regs.bandHi.toNat)) }))
    ∧ (s.takes [.ready, .run, .degraded] → s.argsAre 0 0 0 0 → 3 < bits s.sv.regs.bandSel 2 0
        ∨ s.sv.regs.bandHi.toNat < s.sv.regs.bandLo.toNat ∨ s.sv.regs.bandLo = 0#32 ∨ 86400 < s.sv.regs.bandHi.toNat →
      Completes (.setBand tag) s fun t => t.cmd.code = 3 ∧ t.bands = s.bands)
    ∧ (∀ n : HubId, s.takes [.ready, .run, .degraded] → s.argsAre (if n = .b then 1 else 0) 0 0 0 → s.build.hubs = 2 → s.pairUp = true →
      (s.hub (twinHub n)).merging = false → s.claims .a = false → s.claims .b = false →
      (n ≠ s.twin.leader ∨ s.ordersOut = false → Completes (.retireTwin tag) s fun t =>
        t.cmd.code = 0 ∧ t.twin.leader = twinHub n ∧ t.twin.serving = twinHub n ∧ t.twin.mode = 2 ∧ t.pairUp = false
        ∧ t.hubUp (twinHub n) = true ∧ t.hubUp n = false
        ∧ ((s.hub (twinHub n)).afterS4 = none → (s.hub (twinHub n)).fails = [] →
            (t.hub (twinHub n)).newest.kind = 0x1A#8 ∧ (t.hub (twinHub n)).newest.sev = 0#3))
      ∧ (n = s.twin.leader → s.ordersOut = true → Completes (.retireTwin tag) s fun t =>
        t.cmd.code = 1 ∧ t.twin.leader = s.twin.leader ∧ t.pairUp = true))

/-- SIGN_RESULT: OPEN, SIGN and CLOSE. OPEN of a stream that has a record and is not bound, for a job with an active
slate and weight blocks none of which is pending or poisoned, binds the stream to the job and forms the chain's
first elements. SIGN of a stream bound to the job whose step elements are all absorbed presents the signature record
and leaves the stream bound; CLOSE does the same and unbinds it; while a step element waits for its commits both
stay BUSY and no record is valid. With a twin the effect comes once the follower has consented. A stream not bound to
the job ends ARG_INVALID. The bytes of the stream in the first element are a free value of the model (log 4), and what
the chain absorbs and the signature covers is its reading (log 63). -/
def Obligations.SigningCommands : Prop :=
  ∀ (s : State) (tag : Byte) (n job : Nat), n < 64 → job < 256 → s.takes [.ready, .run, .degraded] → (s.stream? n).isSome = true →
    (∀ ws : List (List W32), s.argsAre (BitVec.ofNat 32 (job * 2 ^ 16 + n * 2 ^ 8)) 0 0 0 → (s.streams.get {} n).bound = false →
      (s.job job).active = true → (∀ l ∈ s.weightTags n ws, ∀ p ∈ l, isPending p.2 = false ∧ isPoison p.2 = false) →
      Relaxes (.signResultOpen tag ws) 0xC s fun t =>
        t.cmd.code = 0 ∧ t.sign.valid = false
        ∧ t.streams.get {} n = { bound := true, job := BitVec.ofNat 8 job, head :=
            ((s.weightTags n ws).foldl (fun h l => sha384 (h ++ [0x02#8] ++ sha384 (l.flatMap (fun p => bytesBE 6 p.1 ++ bytesBE 4 p.2.toNat))))
              (sha384 ([0x01#8] ++ bytesBE 8 s.keys.chipId.toNat ++ Config.streamBytes n ++ (s.job job).shared
                ++ bytesBE 2 (bits ((s.job job).word 0) 15 0) ++ s.harnessBytes 48 ++ bytesBE 4 0x7A34C210))) }
        ∧ ∀ m, m ≠ n → t.streams.get {} m = s.streams.get {} m)
    ∧ ((s.streams.get {} n).bound = true → (s.streams.get {} n).job.toNat = job →
        (s.argsAre (BitVec.ofNat 32 (job * 2 ^ 16 + n * 2 ^ 8 + 1)) 0 0 0 → (s.streams.get {} n).elems = [] →
          Relaxes (.signResultSign tag) 0xC s fun t =>
            t.cmd.code = 0 ∧ t.sign.valid = true ∧ t.sign.closed = false ∧ t.sign.stream = n ∧ t.sign.job.toNat = job
            ∧ t.sign.head = (s.streams.get {} n).head ∧ t.sign.last = (s.streams.get {} n).last
            ∧ (t.sign.r, t.sign.s) = ecdsaSign (s.hubKeys s.twin.leader).signKey (sha384 (s.streams.get {} n).head) ∧ t.streams = s.streams)
        ∧ (s.argsAre (BitVec.ofNat 32 (job * 2 ^ 16 + n * 2 ^ 8 + 2)) 0 0 0 → (s.streams.get {} n).elems = [] →
          Relaxes (.signResultClose tag) 0xC s fun t =>
            t.cmd.code = 0 ∧ t.sign.valid = true ∧ t.sign.closed = true ∧ t.sign.stream = n ∧ t.sign.job.toNat = job
            ∧ t.sign.head = (s.streams.get {} n).head
            ∧ (t.sign.r, t.sign.s) = ecdsaSign (s.hubKeys s.twin.leader).signKey (sha384 (s.streams.get {} n).head) ∧ (t.streams.get {} n).bound = false)
        ∧ (s.argsAre (BitVec.ofNat 32 (job * 2 ^ 16 + n * 2 ^ 8 + 1)) 0 0 0 → (s.streams.get {} n).elems ≠ [] →
          Relaxes (.signResultSign tag) 0xC s fun t => t.cmd.code = 1 ∧ t.sign.valid = false ∧ t.streams = s.streams))
    ∧ ((s.streams.get {} n).bound = false ∨ (s.streams.get {} n).job.toNat ≠ job →
        (s.argsAre (BitVec.ofNat 32 (job * 2 ^ 16 + n * 2 ^ 8 + 1)) 0 0 0 → Completes (.signResultSign tag) s fun t =>
          t.cmd.code = 3 ∧ t.sign = s.sign ∧ t.streams = s.streams)
        ∧ (s.argsAre (BitVec.ofNat 32 (job * 2 ^ 16 + n * 2 ^ 8 + 2)) 0 0 0 → Completes (.signResultClose tag) s fun t =>
          t.cmd.code = 3 ∧ t.sign = s.sign ∧ t.streams = s.streams))

/-- LAUNCH_AT, HOT_UPDATE, REPLAY and the command timeout. LAUNCH_AT of a count at least 10 us ahead, with usable
slices, for a job with an active slate, no launch pending and fewer than two open steps, leaves the launch pending
and ends DONE; a count that is nearer, a job without an active slate, one with a launch pending or with two open
steps end ARG_INVALID. HOT_UPDATE is accepted when every acting hub's check passes, ends HARNESS_REJECTED when every
one fails, and TWIN_DISAGREE otherwise; a rejected one leaves the harness alone. REPLAY starts the comparison, and a
count of 0 ends it without a report. With a twin these three have their effect once the follower has consented.
COMMAND_TIMEOUT ends a BUSY command with TIMEOUT 10 s after its acceptance. -/
def Obligations.LaunchUpdateReplayTimeout : Prop :=
  ∀ (s : State) (tag : Byte),
    (∀ (job mask : Nat) (lo hi : W32), job < 256 → mask < 65536 → s.takes [.run, .degraded] →
      s.argsAre (BitVec.ofNat 32 (mask * 2 ^ 16 + job)) lo hi 0 →
      (s.clk + 10000 ≤ lo.toNat + 2 ^ 32 * hi.toNat → (s.job job).active = true → (s.job job).pending = none → (s.job job).opens.length < 2 →
        (∀ c < 16, mask.testBit c = true → s.sliceUsable c = true) → Relaxes (.launchAt tag) 0xD s fun t =>
          t.cmd.code = 0 ∧ t.job job = { s.job job with pending := some (BitVec.ofNat 64 (lo.toNat + 2 ^ 32 * hi.toNat), BitVec.ofNat 16 mask) }
          ∧ ∀ k, k ≠ job → t.job k = s.job k)
      ∧ (lo.toNat + 2 ^ 32 * hi.toNat < s.clk + 10000 ∨ (s.job job).active = false ∨ (s.job job).pending.isSome = true
          ∨ 2 ≤ (s.job job).opens.length ∨ (∃ c < 16, mask.testBit c = true ∧ s.sliceUsable c = false) → Completes (.launchAt tag) s fun t =>
          t.cmd.code = 3 ∧ t.jobs = s.jobs))
    ∧ (∀ wa wb : List W32, s.takes [.ready, .run, .degraded] → s.argsAre 0 0 0 0 →
      let r (h : HubId) : HarnessResult := checkHarness 1 { s.harnessEnv true with len := s.sv.regs.harnessLen.toNat }
        (match h with | .a => wa | .b => wb)
      ((∀ h, s.hubUp h = true → (r h).first = none) → Relaxes (.hotUpdate tag wa wb) 0xE s fun t =>
        t.cmd.code = 0 ∧ t.harness.recs = applyHot s.harness.recs (r s.twin.leader).recs ∧ t.harness.hotSeq = (r s.twin.leader).seq
        ∧ t.harness.hotCount = satInc s.harness.hotCount)
      ∧ ((∀ h, s.hubUp h = true → (r h).first.isSome = true) → Completes (.hotUpdate tag wa wb) s fun t =>
        t.cmd.code = 4 ∧ t.harness = s.harness)
      ∧ ((∃ h, s.hubUp h = true ∧ (r h).first = none) → (∃ h, s.hubUp h = true ∧ (r h).first.isSome = true) →
        Completes (.hotUpdate tag wa wb) s fun t => t.cmd.code = 6 ∧ t.harness = s.harness))
    ∧ (∀ (log : List InlogEntry) (live recd : Nat) (base base2 : W32) (n : Nat), live < 256 → recd < 256 → base.toNat % 64 = 0 →
      base2.toNat < 65536 → n ≤ 1048576 → s.takes [.run, .degraded] → s.argsAre (BitVec.ofNat 32 (recd * 2 ^ 8 + live)) base base2 (BitVec.ofNat 32 n) →
      (s.job live).active = true → (s.replay.active = true → s.replay.liveJob.toNat = live) → Relaxes (.replay tag log) 0xF s fun t =>
        t.cmd.code = 0 ∧ (n = 0 → t.replay = { s.replay with active := false })
        ∧ (0 < n → t.replay = { active := true, liveJob := BitVec.ofNat 8 live, recJob := BitVec.ofNat 8 recd, recorded := log.take n }))
    ∧ (s.rstL = false → s.cmd.code = 1 → Completes .commandTimeout s fun t =>
        t.cmd = { s.cmd with code := 5 } ∧ t.hubA.irq = s.hubA.irq ||| 8#32 ∧ t.hubB.irq = s.hubB.irq ||| 8#32
        ∧ s.cmd.at_ + 10000000000 ≤ t.now ∧ Touches [.out, .cmd, .hub .irq, .now, .clock] s t)

/-- STEP_SYNC, SYNC_MISSING and LAUNCH_COUNT_REACHED. The first STEP_SYNC after stage 0 loads the step clock and starts
it; a later one steps a count that is behind forward, and holds one that is ahead; a difference of more than 100 ns,
at the first sync that from 0, is recorded as KIND 0x3C with the difference in ADDRESS (its magnitude: log 64, the model's
reading). SYNC_MISSING records KIND 0x3C with ADDRESS all ones, once
until the next sync. LAUNCH_COUNT_REACHED presents LAUNCH, opens the step after the last one launched, gives it to
every agent and clears the pending launch; in chip stop, and for a job that is no longer active, no pulse is presented. -/
def Obligations.StepClockAndLaunches : Prop :=
  ∀ s : State, s.rstL = false →
    (∀ time : W64, s.pastStage0 = true →
      (s.clock.running = false → Completes (.stepSync time) s fun t =>
        t.clock.count = time ∧ t.clock.running = true ∧ t.clock.synced = true ∧ t.clock.lost = false)
      ∧ (s.clock.running = true → s.clock.count.toNat < time.toNat → Completes (.stepSync time) s fun t =>
        t.clock.count = time ∧ t.clock.hold = none ∧ t.clock.synced = true ∧ t.clock.lost = false)
      ∧ (s.clock.running = true → time.toNat < s.clock.count.toNat → Completes (.stepSync time) s fun t =>
        t.clock.count = s.clock.count ∧ t.clock.hold = some time ∧ t.clock.synced = true ∧ t.clock.lost = false)
      ∧ (s.clock.running = true → s.clock.count = time → Completes (.stepSync time) s fun t =>
        t.clock.count = time ∧ t.clock.hold = none ∧ t = { s.fresh with clock := t.clock })
      ∧ (∀ d, d = max (time.toNat - s.clock.count.toNat) (s.clock.count.toNat - time.toNat) →
          (d ≤ 100 → Completes (.stepSync time) s fun t => t = { s.fresh with clock := t.clock })
          ∧ (100 < d → Completes (.stepSync time) s fun t =>
              ∀ h, s.hubUp h = true → (s.hub h).afterS4 = none → (t.hub h).newest.kind = 0x3C#8 ∧ (t.hub h).newest.sev = 1#3
                ∧ (t.hub h).newest.addr = BitVec.ofNat 48 d)))
    ∧ (s.pastStage0 = true → s.clock.lost = false → Completes .syncMissing s fun t =>
        t.clock.lost = true ∧ s.clock.lastSync + 10000000 ≤ t.now
        ∧ ∀ h, s.hubUp h = true → (s.hub h).afterS4 = none → (t.hub h).newest.kind = 0x3C#8 ∧ (t.hub h).newest.addr = BitVec.allOnes 48)
    ∧ (s.clock.lost = true → Completes .syncMissing s fun t => t = s.fresh)
    ∧ (∀ (job : Job) (c : W64) (m : BitVec 16), (s.job job.toNat).pending = some (c, m) → (s.job job.toNat).active = true →
        (∀ e ∈ s.jobs.entries, e.1 < job.toNat → ∀ x, e.2.pending = some x → x.1 ≠ c) →
        (s.clkReaches c.toNat = true → s.withheld = false → Completes (.launchCountReached job) s fun t =>
          (t.job job.toNat).pending = none ∧ .launch job ∈ t.out ∧ s.now ≤ t.now
          ∧ (∀ a ∈ s.allAgents, (t.agent a).steps.get none job.toNat
              = some (if (s.job job.toNat).launchedOnce then (s.job job.toNat).stepNo + 1 else (s.job job.toNat).stepNo))
          ∧ ((∀ p, ∀ y ∈ (s.port p).held, y.1 ≠ job.toNat) → ∃ o : OpenStep, (t.job job.toNat).opens = (s.job job.toNat).opens ++ [o] ∧ o.ended = false
              ∧ o.launchedAt = c ∧ o.step = (if (s.job job.toNat).launchedOnce then (s.job job.toNat).stepNo + 1 else (s.job job.toNat).stepNo)))
        ∧ (s.withheld = true → Completes (.launchCountReached job) s fun t => t = s.fresh))
    ∧ (∀ job : Job, (s.job job.toNat).active = false → Completes (.launchCountReached job) s fun t => t = s.fresh)

/-- SLATE_BEGIN, STEP_END, CONC_STEP_ANSWER and CHOICE_STROBE. SLATE_BEGIN is accepted in RUN and DEGRADED for a job
without a pending launch, an open step or an abort that is unread, the leader's or the follower's: the slate is active, holds the staged words where the
driver gives them and the hub's own elsewhere, and TCC is 0; any other BEGIN is counted and has no effect. STEP_END
ends the oldest launched step of the job that it names; any other is counted and has no effect. A concentrator whose
count for an ended step is 0 answers it once. A choice strobe counts for an active job, and in TCC_ORPHAN otherwise. -/
def Obligations.SlatesAndStepEnds : Prop :=
  ∀ s : State, s.rstL = false →
    (∀ data : W32, s.answers = true →
      (s.ld.st.running = true → (s.job (bits data 7 0)).pending = none → (s.job (bits data 7 0)).opens = [] →
        (s.job (bits data 7 0)).abortHeld = false → s.jobAborted (BitVec.ofNat 8 (bits data 7 0)) = false →
        Completes (.slateBegin data) s fun t =>
          (t.job (bits data 7 0)).active = true ∧ (t.job (bits data 7 0)).tcc = 0 ∧ (t.job (bits data 7 0)).tccLive = 0
          ∧ (t.job (bits data 7 0)).launchedOnce = false
          ∧ (∀ i < 42, (t.job (bits data 7 0)).slate.get 0 i =
              if i = 0 ∨ i = 2 ∨ i = 3 ∨ i = 40 ∨ (4 ≤ i ∧ i ≤ 23) then s.sv.regs.slate.get 0 i
              else if i = 1 then BitVec.ofNat 32 (bits data 7 0)
              else if 24 ≤ i ∧ i ≤ 35 then s.harness.digest.getD (i - 24) 0
              else if i = 36 then s.keys.grade
              else if i = 37 then 0x7A34C210#32
              else if i = 41 then BitVec.ofNat 32 (s.epochTasksLog2 * 2 ^ 27) ||| BitVec.ofNat 32 (s.epochTime * 2 ^ 15)
              else 0#32)
          ∧ ∀ k, k ≠ bits data 7 0 → t.job k = s.job k)
      ∧ (s.ld.st.running = false ∨ (s.job (bits data 7 0)).pending ≠ none ∨ (s.job (bits data 7 0)).opens ≠ []
          ∨ (s.job (bits data 7 0)).abortHeld = true ∨ s.jobAborted (BitVec.ofNat 8 (bits data 7 0)) = true →
          Completes (.slateBegin data) s fun t =>
            t = { s.fresh with cmd := { s.cmd with refusedCnt := satInc s.cmd.refusedCnt }, out := [.rpWritten] })
      ∧ (∀ (pre post : List OpenStep) (o : OpenStep), s.ld.st.running = true → (s.job (bits data 7 0)).opens = pre ++ o :: post →
          o.ended = false → bits o.step 15 0 = bits data 31 16 → (∀ x ∈ pre, x.ended = true ∨ bits x.step 15 0 ≠ bits data 31 16) →
          Completes (.stepEnd data) s fun t =>
            (t.job (bits data 7 0)).opens = pre ++ { o with ended := true } :: post ∧ ∀ k, k ≠ bits data 7 0 → t.job k = s.job k)
      ∧ (s.ld.st.running = false ∨ (∀ x ∈ (s.job (bits data 7 0)).opens, x.ended = true ∨ bits x.step 15 0 ≠ bits data 31 16) →
          Completes (.stepEnd data) s fun t =>
            t = { s.fresh with cmd := { s.cmd with refusedCnt := satInc s.cmd.refusedCnt }, out := [.rpWritten] }))
    ∧ (∀ (c : Nat) (job : Job) (step : W64) (pre post : List OpenStep) (o : OpenStep), (s.clusterRec c).isSome = true →
        (s.job job.toNat).opens = pre ++ o :: post → o.step = step → o.ended = true → c ∉ o.answered →
        (∀ x ∈ pre, x.step ≠ step ∨ x.ended = false ∨ c ∈ x.answered) →
        ((s.conc c).openCount job step = 0 → Completes (.concStepAnswer c job step) s fun t =>
          (t.job job.toNat).opens = pre ++ { o with answered := o.answered ++ [c], choices := o.choices + s.clusterChoices c job step } :: post)
        ∧ (0 < (s.conc c).openCount job step → Completes (.concStepAnswer c job step) s fun t => t = s.fresh))
    ∧ (∀ (a : Nat) (job : Job), s.agentOn a = true →
        ((s.job job.toNat).active = true → Completes (.choiceStrobe a job) s fun t =>
          (t.job job.toNat).tccLive = (s.job job.toNat).tccLive + 1 ∧ t.tccOrphan = s.tccOrphan
          ∧ ((t.agent a).choices.map (·.n)).sum = ((s.agent a).choices.map (·.n)).sum + 1)
        ∧ ((s.job job.toNat).active = false → Completes (.choiceStrobe a job) s fun t =>
          t = { s.fresh with tccOrphan := satInc s.tccOrphan }))

/-- GATE_DECISION, GATE_OPEN, JOB_ABORT_ACTIONS and INLOG_ENTRY_WRITE. The gate of the oldest open step opens at a lone
hub exactly when its conditions hold and no refusal stands: the step leaves the open ones, its choices are added to
TCC, and the history shows it with the step-clock count; with a twin the opening is proposed and nothing else
happens. GATE_OPEN commits every range and held context of the step at every agent that is not fenced, presents nothing at a
fenced one, which keeps its ranges for the end of its fence, the model's choice (log 86), and has no effect in chip stop or
for an aborted job.
JOB_ABORT_ACTIONS presents a poison for every deferred range of the job and empties the job's gate lists, and clears
its excursion count. INLOG_ENTRY_WRITE writes the next entry to its slot. -/
def Obligations.GatesAbortsAndInputLog : Prop :=
  ∀ s : State, s.rstL = false →
    (∀ (job : Job) (o : OpenStep) (r : List OpenStep), (s.job job.toNat).opens = o :: r →
      (s.gateReady job.toNat o = true → s.refusalStands (.openGate job o.step) = false → s.pairUp = false → Completes (.gateDecision job) s fun t =>
        (t.job job.toNat).opens = (o :: r).filter (fun x => decide (x.step ≠ o.step))
        ∧ (t.job job.toNat).opened = (s.job job.toNat).opened ++ [o.step]
        ∧ (t.job job.toNat).tcc = (s.job job.toNat).tcc + BitVec.ofNat 64 o.choices
        ∧ (t.job job.toNat).history = ((o.step, s.clock.count) :: (s.job job.toNat).history).take 4)
      ∧ (s.gateReady job.toNat o = true → s.refusalStands (.openGate job o.step) = false → s.pairUp = true →
          Completes (.gateDecision job) s fun t =>
            .openGate job o.step ∈ t.twin.proposals ∧ t = { s.fresh with twin := { s.twin with proposals := t.twin.proposals } })
      ∧ (s.gateReady job.toNat o = false ∨ s.refusalStands (.openGate job o.step) = true → Completes (.gateDecision job) s fun t => t = s.fresh))
    ∧ (∀ (job : Job) (step : W64), step ∈ (s.job job.toNat).opened → s.jobAborted job = false → s.withheld = false → s.test.wrapping = false →
        s.busyWith 0xA = false → Completes (.gateOpen job step) s fun t =>
          step ∉ (t.job job.toNat).opened ∧ ∀ a ∈ s.allAgents,
            ((s.agent a).fence = false →
              (t.agent a).cmt = (s.agent a).cmt
                ++ ((s.agent a).gates.filter (fun r => decide (r.job = job ∧ r.step = some step))).map (fun r =>
                    { job := job, base := BitVec.ofNat 48 r.base, count := BitVec.ofNat 16 r.count })
                ++ ((s.agent a).ctxs.filter (fun x => x.held && decide (tdJob x.desc = job ∧ x.step = some step))).map (fun x =>
                    { job := job, base := tdBase x.desc, count := tdCount x.desc })
              ∧ (∀ r ∈ (t.agent a).gates, r.job ≠ job ∨ r.step ≠ some step)
              ∧ (∀ r ∈ (s.agent a).gates, r.job ≠ job ∨ r.step ≠ some step → r ∈ (t.agent a).gates))
            ∧ ((s.agent a).fence = true → (t.agent a).cmt = (s.agent a).cmt
              ∧ (∀ r ∈ (t.agent a).gates, r.job = job → r.step = some step → r.opened = true)))
    ∧ (∀ (job : Job) (step : W64), s.withheld = true ∨ s.jobAborted job = true ∨ step ∉ (s.job job.toNat).opened →
        Completes (.gateOpen job step) s fun t => t = s.fresh)
    ∧ (∀ job : Job, s.jobAborted job = true → s.busyWith 0xA = false → Completes (.jobAbortActions job) s fun t =>
        (∀ a ∈ s.allAgents, (∀ r ∈ (t.agent a).gates, r.job ≠ job)
          ∧ ∀ r ∈ (s.agent a).gates, r.job = job →
              { poison := true, job := job, base := BitVec.ofNat 48 r.base, count := BitVec.ofNat 16 r.count } ∈ (t.agent a).cmt)
        ∧ ∀ c ∈ s.clusters, ((t.conc c).jobs.get {} job.toNat).excStep = 0)
    ∧ (∀ job : Job, s.jobAborted job = false → Completes (.jobAbortActions job) s fun t => t = s.fresh)
    ∧ (∀ (x : InlogEntry) (r : List InlogEntry), s.inlog.waiting = x :: r → Completes .inlogEntryWrite s fun t =>
        t.inlog.head = s.inlog.head + 1 ∧ t.inlog.waiting = r
        ∧ t.inlog.wraps = (if 2 ^ s.inlogLog2 ≤ s.inlog.head.toNat then satInc s.inlog.wraps else s.inlog.wraps)
        ∧ t.out = [.inlog (s.inlogBase + 16 * (s.inlog.head.toNat % 2 ^ s.inlogLog2)) x])
    ∧ (s.inlog.waiting = [] → Completes .inlogEntryWrite s fun t => t = s.fresh)

/-- Beacons on a port. While its ports are at work, BEACON_SEND presents the port's beacon where none waits for the
host, and otherwise queues it behind the one presented; BEACON_TX_READY takes the beacon presented off and presents
the next. BEACON_RECEIVE records a frame without a good beacon as KIND 0x3B at S0 with the port and begins the
count of consecutive good beacons anew, takes up a good one, and at the second identical one of stage 9 resolves the port, admitting MATCH and SWAPPED alone; after READY a
leader with a twin proposes the admission and admits nothing itself.
SLATE_WAIT_EXPIRY records a mismatch of reason MISSING and aborts the job; PORT_SILENCE withdraws an admitted port
as MISSING. -/
def Obligations.BeaconPorts : Prop :=
  ∀ s : State, s.rstL = false →
    (∀ (p : Nat) (w : Byte), s.portsOn = true → p < 256 → Completes (.beaconSend p w) s fun t =>
      (t.port p).bcWidth = w ∧ (t.port p).lastSent = t.now
      ∧ ((s.port p).tx = [] → t.out = [.beacon p (s.beaconBytes p w)] ∧ (t.port p).tx = [s.beaconBytes p w])
      ∧ (∀ b, (s.port p).tx = [b] → t.out = [] ∧ (t.port p).tx = [b, s.beaconBytes p w])
      ∧ ∀ q, q ≠ p → t.port q = s.port q)
    ∧ (∀ (p : Nat) (b : List Byte) (r : List (List Byte)), (s.port p).tx = b :: r → Completes (.beaconTxReady p) s fun t =>
        (t.port p).tx = r ∧ t.out = (r.take 1).map (fun x => .beacon p x) ∧ ∀ q, q ≠ p → t.port q = s.port q)
    ∧ (∀ (p : Nat) (f : List Byte) (w : Byte), s.portsOn = true → p < 256 → parseBeacon f = none →
        Completes (.beaconReceive p f w) s fun t =>
          (∀ h, s.hubUp h = true → (s.hub h).afterS4 = none → (t.hub h).newest.kind = 0x3B#8 ∧ (t.hub h).newest.sev = 0#3
            ∧ (t.hub h).newest.addr = BitVec.ofNat 48 p)
          ∧ (t.port p).result = (s.port p).result ∧ (t.port p).lastGood = (s.port p).lastGood ∧ (t.port p).seen = 0)
    ∧ (∀ (p : Nat) (f : List Byte) (w : Byte) (b : Beacon), s.portsOn = true → p < 256 → parseBeacon f = some b →
        Completes (.beaconReceive p f w) s fun t =>
          (t.port p).peerChip = b.chip ∧ (t.port p).peerPort = b.port ∧ (t.port p).lastGood = s.now
          ∧ (s.ld.st.pastReady = false → (s.port p).result = 0 → (s.port p).seen = 1 → (s.port p).lastBytes = steadyBytes f →
              (t.port p).result = (s.judgePort p w.toNat b).1
              ∧ (t.port p).admitted = decide ((s.judgePort p w.toNat b).1 = 1 ∨ (s.judgePort p w.toNat b).1 = 2))
          ∧ (s.ld.st.pastReady = false → (s.port p).seen = 0 → (t.port p).result = (s.port p).result ∧ (t.port p).seen = 1)
          ∧ (s.ld.st.pastReady = true → s.pairUp = true → (s.port p).admitted = false → (s.port p).seen = 1 →
              (s.port p).lastBytes = steadyBytes f → b.v1 = true → (s.judgePort p w.toNat b).1 = 1 ∨ (s.judgePort p w.toNat b).1 = 2 →
              s.refusalStands (.admitPort p) = false → .admitPort p ∈ t.twin.proposals ∧ (t.port p).admitted = false))
    ∧ (∀ (job : Job) (step : W64) (p : Nat), s.clock.running = true → s.hubUp s.twin.leader = true →
        (s.job job.toNat).abortRaised = false ∨ (s.job job.toNat).abortHeld = true →
        (∃ o ∈ (s.job job.toNat).opens, o.step = step ∧ (p, false) ∈ o.judged) → Completes (.slateWaitExpiry job step p) s fun t =>
          (t.job job.toNat).mismatch = some { reason := 3, port := p, peerStep := 0 } ∧ (t.job job.toNat).active = false
          ∧ (t.job job.toNat).opens = [])
    ∧ (∀ p : Nat, s.ld.st.pastReady = true → s.ld.s4 = false → (s.port p).admitted = true → Completes (.portSilence p) s fun t =>
        (t.port p).admitted = false ∧ (t.port p).result = 3 ∧ (t.port p).seen = 0 ∧ (s.port p).lastGood + 10000000 ≤ t.now)

/-- The beacon that a port sends reads back as what it says. For every state with an accepted harness digest of 12
words, every port and every width, the frame that the port sends has a good MAGIC, FORMAT, length and CRC, and its
fields read back: CHIP_ID, port, width, ID_REV, and on a v2 port the first 16 bytes of the harness digest, SLATE and
STEP. -/
def Obligations.BeaconsReadBack : Prop :=
  ∀ (s : State) (p : Nat) (w : Byte), p < 256 → s.harness.digest.length = 12 →
    ∃ b : Beacon, parseBeacon (s.beaconBytes p w) = some b ∧ b.chip = s.keys.chipId ∧ b.port = p ∧ b.width = w.toNat
      ∧ b.rev = 0x7A34C210#32
      ∧ b.v1 = (match s.port? p with | none => false | some r => (r.word 1).getLsbD 20)
      ∧ (b.v1 = false → b.harness = s.harnessBytes 16 ∧ b.slate = (s.portSlate p).1 ∧ b.step = (s.portSlate p).2)

/-- TD_DESCRIPTOR. A descriptor at an agent that is neither fenced nor shut is one task. An empty one passes without a
context, counted by class and by job, and on a bound handle it ends the task bound there, the model's reading
(log 45). On a free handle one whose class, order, formats, size, key and room permit a check takes a context, bound
to the handle and armed, where the coverage rule, the paddock or its sample selects it; otherwise it is left
SAMPLED_OUT, counted and put into the ring. -/
def Obligations.DescriptorsAndSampling : Prop :=
  ∀ (s : State) (a : Nat) (h : BitVec 5) (d : BitVec 256) (cyc : Nat), s.rstL = false → s.agentOn a = true → s.shut = false →
    (s.agent a).fence = false → (s.agent a).fenceReq = false → (s.agent a).retakeBind = none →
    (emptyTask d = true → Completes (.tdDescriptor a h d cyc) s fun t =>
      ((t.agent a).classes.get {} (tdClass d)).passEmpty = satInc ((s.agent a).classes.get {} (tdClass d)).passEmpty
      ∧ ((t.conc (s.build.clusterOf a)).jobs.get {} (tdJob d).toNat).passEmpty
          = satInc ((s.conc (s.build.clusterOf a)).jobs.get {} (tdJob d).toNat).passEmpty
      ∧ ((s.agent a).bound.get [] h.toNat = [] → (t.agent a).ctxs = (s.agent a).ctxs ∧ (t.agent a).bound = (s.agent a).bound
          ∧ (t.agent a).ring = (s.agent a).ring)
      ∧ (∀ x : Ctx, (s.agent a).bound.get [] h.toNat = [.ctx x.id] → (s.agent a).ctx? x.id = some x →
          (t.agent a).ctx? x.id = none ∧ (t.agent a).ringHead = (s.agent a).ringHead + 1))
    ∧ (∀ (c : Rec) (key : W64), (s.agent a).bound.get [] h.toNat = [] → emptyTask d = false → s.class? (tdClass d) = some c →
        tdOrder d ≠ 3 → tdBatch d ≠ 3 → formatsOk d c = true → oversize d (clsBounded c) = false →
        (s.agent a).keyOf? (s.agent a).epoch = some key → (s.agent a).ctxs.length < s.build.contexts →
        (s.agent a).wordsUsed + footprint d (clsBounded c) ≤ 4096 →
        (covered d (clsMacRate c) (s.lanesOf a) (tdWpc d) (clsBounded c) = true ∨ (s.agent a).paddock = true
            ∨ sampleZ key (tdTask d) < selLevel d (clsMacRate c) s.build.lanes
                (clsLoad ((s.classAt (s.agent a).epoch (tdClass d)).getD c)) (tdWpc d) →
          Completes (.tdDescriptor a h d cyc) s fun t =>
            ∃ x : Ctx, (t.agent a).ctxs = (s.agent a).ctxs ++ [x] ∧ (t.agent a).bound.get [] h.toNat = [.ctx x.id]
              ∧ x.id = (s.agent a).freeId ∧ x.state = .armed ∧ x.desc = d ∧ x.handle = h ∧ x.bounded = clsBounded c
              ∧ x.epoch = (s.agent a).epoch ∧ x.step = (s.agent a).steps.get none (tdJob d).toNat ∧ x.retake = none
              ∧ x.cyc = cyc ∧ (t.agent a).ring = (s.agent a).ring)
        ∧ (covered d (clsMacRate c) (s.lanesOf a) (tdWpc d) (clsBounded c) = false → (s.agent a).paddock = false →
            selLevel d (clsMacRate c) s.build.lanes (clsLoad ((s.classAt (s.agent a).epoch (tdClass d)).getD c)) (tdWpc d)
              ≤ sampleZ key (tdTask d) → tdFill d = false →
          Completes (.tdDescriptor a h d cyc) s fun t =>
            (t.agent a).ctxs = (s.agent a).ctxs ∧ (t.agent a).ringHead = (s.agent a).ringHead + 1
            ∧ ((t.agent a).classes.get {} (tdClass d)).sampledOut = satInc ((s.agent a).classes.get {} (tdClass d)).sampledOut
            ∧ ∃ u : Unchecked, (t.agent a).bound.get [] h.toNat = [.task u] ∧ u.desc = d ∧ u.outcome = .sampledOut
              ∧ u.step = (s.agent a).steps.get none (tdJob d).toNat))

/-- TAP_ELEMENT_BEAT, PRJ_BEAT and AUDIT_BEAT. A beat on a handle with no task is counted in TAP_STRAY and has no other
effect. The elements of a C beat reach the context they are bound to, which counts each of them. An A or B beat
whose elements keep the stream's order leaves the context as the elements make it, and one that departs from it ends
the context UNCHECKED_ORDER. A good header of a cache entry is accepted; an audit beat of a retake closes one block,
and reaches no other context, but its poison mark is the task's as that of any operand beat. A beat that overruns the lane
input queue ends its context UNCHECKED_ORDER. A beat with no element or more than 32 of them stops, as no rule says what it
does (R6, R421; log 77, the model's choice). -/
def Obligations.BeatsOfTheTaps : Prop :=
  ∀ (s : State) (a : Nat), s.rstL = false → s.agentOn a = true →
    (∀ b : TapBeat, (s.agent a).bound.get [] b.handle.toNat = [] → Completes (.tapElementBeat a b) s fun t =>
      (t.agent a).tapStray = satInc (s.agent a).tapStray ∧ (t.agent a).ctxs = (s.agent a).ctxs ∧ t.out = [])
    ∧ (∀ (b : TapBeat) (x : Ctx), (s.agent a).bound.get [] b.handle.toNat = [.ctx x.id] → (s.agent a).ctx? x.id = some x →
        x.state = .accumulating → x.fill = false → x.retake = none → b.poison = false → b.auditOnly = false →
        (0 < b.count → b.count ≤ 32 → b.count * fmtWidth (tapFmt x.desc b.tap) ≤ 256 →
          ∀ z : Ctx, z = { x with backlog := x.queued (s.laneRate a x) (x.beatOps b) b.cyc, beatAt := b.cyc } →
          (x.overRate (s.laneRate a x) (x.beatOps b) b.cyc = true → Completes (.tapElementBeat a b) s fun t =>
            (t.agent a).ctx? x.id = none ∧ (t.agent a).ringHead = (s.agent a).ringHead + 1
            ∧ ((t.agent a).classes.get {} (tdClass x.desc)).unchecked = satInc ((s.agent a).classes.get {} (tdClass x.desc)).unchecked)
          ∧ (x.overRate (s.laneRate a x) (x.beatOps b) b.cyc = false →
          (b.tap = .c → Completes (.tapElementBeat a b) s fun t => ∃ y : Ctx, (t.agent a).ctx? x.id = some y
            ∧ y.nC = x.nC + b.count ∧ y.nA = x.nA ∧ y.nB = x.nB ∧ y.p = x.p ∧ y.r = x.r ∧ y.state = .accumulating
            ∧ (t.agent a).bound = (s.agent a).bound)
          ∧ (∀ y : Ctx, takeElems (s.paramsOf a x) b b.count 0 z = (y, none) → Completes (.tapElementBeat a b) s fun t =>
              (t.agent a).ctxs = ((s.agent a).setCtx y).ctxs ∧ (t.agent a).bound = (s.agent a).bound)
          ∧ (∀ (y : Ctx) (r : Nat), takeElems (s.paramsOf a x) b b.count 0 z = (y, some r) →
              Completes (.tapElementBeat a b) s fun t => (t.agent a).ctx? x.id = none
                ∧ (t.agent a).ringHead = (s.agent a).ringHead + 1
                ∧ ((t.agent a).classes.get {} (tdClass x.desc)).unchecked
                    = satInc ((s.agent a).classes.get {} (tdClass x.desc)).unchecked)))
        ∧ (b.count = 0 ∨ 32 < b.count → exec (.tapElementBeat a b) s = .fault (.hostContract 421)))
    ∧ (∀ b : PrjBeat, (s.agent a).bound.get [] b.handle.toNat = [] → Completes (.prjBeat a b) s fun t =>
        (t.agent a).tapStray = satInc (s.agent a).tapStray ∧ (t.agent a).ctxs = (s.agent a).ctxs ∧ t.out = [])
    ∧ (∀ (b : PrjBeat) (x : Ctx), (s.agent a).bound.get [] b.handle.toNat = [.ctx x.id] → (s.agent a).ctx? x.id = some x →
        x.state = .accumulating → x.retake = none → x.cache = .waiting → b.header = true → b.poison = false →
        b.auditOnly = false → x.headerOk (s.paramsOf a x) b.data = true → Completes (.prjBeat a b) s fun t =>
          (t.agent a).ctxs = ((s.agent a).setCtx { x with cache := .accepted }).ctxs)
    ∧ (∀ (tap : Tap) (h : BitVec 5) (addr : Addr) (d : BitVec 31) (poison : Bool) (cyc : Nat),
        ((s.agent a).bound.get [] h.toNat = [] → Completes (.auditBeat a tap h addr d poison cyc) s fun t =>
          (t.agent a).tapStray = satInc (s.agent a).tapStray ∧ (t.agent a).ctxs = (s.agent a).ctxs)
        ∧ (∀ x : Ctx, (s.agent a).bound.get [] h.toNat = [.ctx x.id] → (s.agent a).ctx? x.id = some x →
            (x.retake = none → poison = false ∨ tap = .c → Completes (.auditBeat a tap h addr d poison cyc) s fun t => t = s.fresh)
            ∧ (x.retake = none → poison = true → tap ≠ .c → Completes (.auditBeat a tap h addr d poison cyc) s fun t =>
                (t.agent a).ctx? x.id = some { x with poison := true } ∧ (t.agent a).bound = (s.agent a).bound)
            ∧ (x.retake ≠ none → tap ≠ .c → Completes (.auditBeat a tap h addr d poison cyc) s fun t =>
                ∃ y : Ctx, (t.agent a).ctx? x.id = some y ∧ y.audit.blocks = x.audit.blocks + 1 ∧ y.nA = x.nA ∧ y.nB = x.nB
                  ∧ y.poison = (x.poison || poison))))

/-- C_LAST. The last C element of a handle with no task is counted in TAP_STRAY. That of a task in the exact personality
that accumulates leaves its context AWAITING and its handle free, with a count error exactly where the counts of its
elements differ from the descriptor; that of a task left SAMPLED_OUT commits its range, ungated, and frees the
handle. -/
def Obligations.LastElementOfATask : Prop :=
  ∀ (s : State) (a : Nat) (b : TapBeat), s.rstL = false → s.agentOn a = true →
    ((s.agent a).bound.get [] b.handle.toNat = [] → Completes (.cLast a b) s fun t =>
      (t.agent a).tapStray = satInc (s.agent a).tapStray ∧ (t.agent a).ctxs = (s.agent a).ctxs ∧ t.out = [])
    ∧ (∀ x : Ctx, (s.agent a).bound.get [] b.handle.toNat = [.ctx x.id] → (s.agent a).ctx? x.id = some x →
        x.state = .accumulating → x.fill = false → x.bounded = false → x.cache ≠ .rejected →
        x.aborted = false → s.jobAborted (tdJob x.desc) = false → 0 < b.count → b.count ≤ 32 →
        b.count * fmtWidth (tdFmtC x.desc) ≤ 256 → x.overRate (s.laneRate a x) b.count b.cyc = false → Completes (.cLast a b) s fun t =>
          (t.agent a).bound.get [] b.handle.toNat = [] ∧ ∃ y : Ctx, (t.agent a).ctx? x.id = some y ∧ y.state = .awaiting
            ∧ y.nC = x.nC + b.count ∧ y.handed = x.handed
            ∧ (y.countError = false ↔ x.nA = tdM x.desc * tdK x.desc * tdMembers x.desc
                ∧ x.nC + b.count = tdM x.desc * tdN x.desc * tdMembers x.desc
                ∧ (x.cached = true → x.nPrj = tdK x.desc * tdMembers x.desc)
                ∧ (x.cached = false → x.nB = tdK x.desc * tdN x.desc * tdMembers x.desc)))
    ∧ (∀ (u : Unchecked) (r : List Bound), (s.agent a).bound.get [] b.handle.toNat = .task u :: r → u.outcome = .sampledOut →
        u.retake = none → tdFill u.desc = false → u.poison = false → u.aborted = false → (s.agent a).fence = false →
        s.jobAborted (tdJob u.desc) = false → s.noCommit = false →
        ((s.classAt u.epoch (tdClass u.desc)).map clsGated).getD false = false → Completes (.cLast a b) s fun t =>
          (t.agent a).bound.get [] b.handle.toNat = r
          ∧ (t.agent a).cmt = (s.agent a).cmt ++ [{ job := tdJob u.desc, base := tdBase u.desc, count := tdCount u.desc }])

/-- HANDOFF_SLICE and VERDICT. In its slice an agent hands every awaiting context, in the order in which they became so,
to its cluster's residue engine, and the slice moves on; a slice that is another agent's does nothing. The engine
judges the oldest: a count error fails it, a reason makes it inconclusive, otherwise the exact personality passes
exactly where s and t agree modulo 2^31 − 1, and the bounded one where they differ by at most tau. At every verdict
the account of an original task, or of a run whose record is open, is kept while the store has room. In a fenced cluster, and
while the agent's queue holds 8 verdicts, no verdict is returned. -/
def Obligations.VerdictsOfTheEngine : Prop :=
  ∀ s : State, s.rstL = false →
    (∀ c a : Nat, s.sliceOf c = some a → s.build.clusterOf a = c → (∀ x ∈ (s.agent a).ctxs, x.ended = false) →
      Completes (.handoffSlice c a) s fun t => (t.conc c).pointer = a + 1
        ∧ ∃ l : List Ctx, List.Perm l ((s.agent a).ctxs.filter (fun x =>
            decide (x.state = .awaiting) && !x.handed && !x.held && !x.waiting))
          ∧ l.Pairwise (fun x y => x.awaitNo ≤ y.awaitNo)
          ∧ (t.conc c).engine = (s.conc c).engine ++ l.map (fun x => { agent := a, ctx := x }))
    ∧ (∀ c a : Nat, s.sliceOf c ≠ some a → Completes (.handoffSlice c a) s fun t => t = s.fresh)
    ∧ (∀ (c : Nat) (h : Handed) (r : List Handed), (s.conc c).engine = h :: r →
        (s.concFenced c = true ∨ 8 ≤ (s.agent h.agent).verdicts.length → Completes (.verdict c) s fun t => t = s.fresh)
        ∧ (s.concFenced c = false → (s.agent h.agent).verdicts.length < 8 → Completes (.verdict c) s fun t => (t.conc c).engine = r ∧ ∃ m : VerdictMsg,
            (t.agent h.agent).verdicts = (s.agent h.agent).verdicts ++ [m] ∧ m.ctx = h.ctx.id
            ∧ (h.ctx.countError = true → m.verdict = .fail)
            ∧ (h.ctx.countError = false → h.ctx.reasons ≠ [] → m.verdict = .inconclusive ∧ m.reason = h.ctx.lowest)
            ∧ (h.ctx.countError = false → h.ctx.reasons = [] → h.ctx.bounded = false →
                m.verdict = if h.ctx.s % (2 ^ 31 - 1 : Int) = h.ctx.t % (2 ^ 31 - 1 : Int) then .pass else .fail)
            ∧ (∀ k : Rec, h.ctx.countError = false → h.ctx.reasons = [] → h.ctx.bounded = true →
                s.classAt h.ctx.epoch (tdClass h.ctx.desc) = some k →
                m.verdict = if (h.ctx.s - h.ctx.t).natAbs ≤ h.ctx.tau k then .pass else .fail)
            ∧ (h.ctx.retake = none ∨ (∃ n, h.ctx.retake = some n ∧ n ≠ closedRecord ∧ (s.retake n).used = true) →
                ((s.conc c).accounts.length < 32 → m.storeFull = false ∧ ∃ y : Account,
                  (t.conc c).accounts = (s.conc c).accounts ++ [y] ∧ y.task = tdTask h.ctx.desc ∧ y.job = tdJob h.ctx.desc
                  ∧ y.base = tdBase h.ctx.desc ∧ y.count = tdCount h.ctx.desc ∧ y.agent = h.agent ∧ y.retake = h.ctx.retake
                  ∧ y.verdict = m.verdict ∧ y.scalars = true)
                ∧ (32 ≤ (s.conc c).accounts.length → m.storeFull = decide (m.verdict ≠ .pass)
                  ∧ (t.conc c).accounts = (s.conc c).accounts))
            ∧ (∀ n, h.ctx.retake = some n → n = closedRecord ∨ (s.retake n).used = false → (t.conc c).accounts = (s.conc c).accounts)))
    ∧ (∀ c : Nat, (s.conc c).engine = [] → Completes (.verdict c) s fun t => t = s.fresh)

/-- VERDICT_AT_AGENT and CMT_ACCEPT. A PASS of an original task commits its range and frees its context, at once or,
where its class is gated, in the agent's gate list; a task that consumed poison presents a poison and KIND 0x04
instead. A FAIL is reported as KIND 0x01 or 0x02 at S1 with the range's base; without stand-ins, or with the account
store full, its range is poisoned at once. A retake waits for the hub's order whatever its verdict, which enters no
counter of the agent. The host's acceptance takes the oldest presentation off the channel, counts one later than the fourth
cycle, and presents the next; of those that wait no commit is left after an S4 or without a hub. -/
def Obligations.VerdictsAtTheAgent : Prop :=
  ∀ (s : State) (a : Nat), s.rstL = false →
    (∀ (v : VerdictMsg) (r : List VerdictMsg) (x : Ctx), (s.agent a).verdicts = v :: r → (s.agent a).ctx? v.ctx = some x →
      (x.retake = none → x.poison = false → x.fill = false → v.verdict = .pass → s.jobAborted (tdJob x.desc) = false →
        s.noCommit = false →
        ((s.agent a).fence = false → ((s.class? (tdClass x.desc)).map clsGated).getD false = false → Completes (.verdictAtAgent a) s fun t =>
          (t.agent a).verdicts = r ∧ (t.agent a).ctx? v.ctx = none ∧ (t.agent a).gates = (s.agent a).gates
          ∧ (t.agent a).cmt = (s.agent a).cmt ++ [{ job := tdJob x.desc, base := tdBase x.desc, count := tdCount x.desc }]
          ∧ ((t.agent a).classes.get {} (tdClass x.desc)).checked
              = satInc ((s.agent a).classes.get {} (tdClass x.desc)).checked)
        ∧ (((s.class? (tdClass x.desc)).map clsGated).getD false = true → (s.agent a).gates = [] →
            Completes (.verdictAtAgent a) s fun t =>
            (t.agent a).gates = [{ job := tdJob x.desc, step := x.step, base := (tdBase x.desc).toNat, count := (tdCount x.desc).toNat }]
            ∧ (t.agent a).cmt = (s.agent a).cmt ∧ (t.agent a).ctx? v.ctx = none))
      ∧ (x.retake = none → x.poison = true → tdFill x.desc = false → v.verdict = .pass → Completes (.verdictAtAgent a) s fun t =>
          (t.agent a).ctx? v.ctx = none
          ∧ (t.agent a).cmt = (s.agent a).cmt
              ++ [{ poison := true, job := tdJob x.desc, base := tdBase x.desc, count := tdCount x.desc }]
          ∧ Emitted (.agent a) { source := srcId 0 a, kind := 0x04, sev := 2, addr := tdBase x.desc, job := tdJob x.desc } s t)
      ∧ (x.retake = none → x.poison = false → tdFill x.desc = false → v.verdict = .fail → Completes (.verdictAtAgent a) s fun t =>
          (t.agent a).ctx? v.ctx = none
          ∧ Emitted (.agent a) { source := srcId 0 a, kind := if x.bounded then 0x02 else 0x01, sev := 1, addr := tdBase x.desc,
                                 job := tdJob x.desc } s t
          ∧ (s.standins = [] ∨ v.storeFull = true → (t.agent a).cmt = (s.agent a).cmt
              ++ [{ poison := true, job := tdJob x.desc, base := tdBase x.desc, count := tdCount x.desc }])
          ∧ (s.standins ≠ [] → v.storeFull = false → (t.agent a).cmt = (s.agent a).cmt))
      ∧ (∀ n : Nat, x.retake = some n → x.poison = false → x.crcGood = true → s.runLive n a = true →
          Completes (.verdictAtAgent a) s fun t => (t.agent a).ctxs = ((s.agent a).setCtx { x with waiting := true }).ctxs
            ∧ (t.agent a).cmt = (s.agent a).cmt ∧ (t.agent a).classes = (s.agent a).classes ∧ (t.agent a).incl = (s.agent a).incl))
    ∧ ((s.agent a).verdicts = [] → Completes (.verdictAtAgent a) s fun t => t = s.fresh)
    ∧ (∀ (cycles : Nat) (c : Cmt) (r : List Cmt), (s.agent a).cmt = c :: r → Completes (.cmtAccept a cycles) s fun t =>
        (s.withheld = false → (t.agent a).cmt = r) ∧ (s.withheld = true → (t.agent a).cmt = r.filter (·.poison))
        ∧ t.out = ((t.agent a).cmt.take 1).map (fun x => .cmt a x)
        ∧ (t.agent a).commitLate = (if 4 < cycles then satInc (s.agent a).commitLate else (s.agent a).commitLate))
    ∧ (∀ cycles : Nat, (s.agent a).cmt = [] → Completes (.cmtAccept a cycles) s fun t => t = s.fresh)

/-- LANE_SELF_CHECK and SCRUB_ACCESS. A lane that fails its known-answer vector is retired, reported as KIND 0x40, at S3
when fewer than LANE_MIN remain; every context without its verdict ends. A lane that has run no vector for 10 ms is withdrawn
from admission for the 64 cycles of its vector (log 84, the model's choice). A reducer or a generator that fails is
reported as KIND 0x41 at S3. A corrected SRAM word is KIND 0x10 at S1; an uncorrectable one is KIND 0x11, at S1 in
an agent's task data and at S3 elsewhere; a clean one changes nothing. A word that is read as it was written is
clean, one wrong bit of it or of its check bits is corrected, two are found, and so is a word of another address whose
fold differs in one bit. -/
def Obligations.SelfChecksAndScrubs : Prop :=
  ∀ s : State, s.rstL = false →
    (∀ (a cyc : Nat), s.agentOn a = true →
      (∀ l : Nat, l < s.build.lanes → l ∉ (s.agent a).retired → Completes (.laneSelfCheck a (.lane l) false cyc) s fun t =>
        (t.agent a).retired = (s.agent a).retired ++ [l]
        ∧ (∀ x ∈ (t.agent a).ctxs, x.ended = true ∨ x.held = true ∨ x.waiting = true)
        ∧ ((s.agent a).ctxs = [] → Emitted (.agent a)
          { source := srcId 0 a, kind := 0x40,
            sev := if s.build.lanes - ((s.agent a).retired.length + 1) < s.laneMin then 3 else 1,
            addr := BitVec.ofNat 48 (l % 64) } s t))
      ∧ (∀ u : KatUnit, (∀ l, u ≠ .lane l) → Completes (.laneSelfCheck a u false cyc) s fun t => (t.agent a).unitFailed = true
          ∧ (∀ x ∈ (t.agent a).ctxs, x.ended = true ∨ x.held = true ∨ x.waiting = true)
          ∧ ((s.agent a).ctxs = [] → ∃ m : Msg, Emitted (.agent a) m s t ∧ m.kind = 0x41#8 ∧ m.sev = 3#3 ∧ m.source = srcId 0 a))
      ∧ (∀ l : Nat, l < s.build.lanes → Completes (.laneSelfCheck a (.lane l) true cyc) s fun t =>
          l ∉ (t.agent a).katDue ∧ (t.agent a).katLast.get 0 l = s.now ∧ (t.agent a).ctxs = (s.agent a).ctxs
          ∧ (t.agent a).queue = (s.agent a).queue ∧ Touches [.out, .agents] s t
          ∧ ((s.agent a).katLast.get 0 l + 10000000 ≤ s.now → l ∉ (s.agent a).retired → ∀ c, cyc ≤ c → c < cyc + 64 →
              t.admitLanes a c < s.lanesOf a ∨ s.lanesOf a = 0))
      ∧ (∀ u : KatUnit, (∀ l, u = .lane l → s.build.lanes ≤ l) → Completes (.laneSelfCheck a u true cyc) s fun t => t = s.fresh))
    ∧ (∀ (u : NetUnit) (m : Byte) (w data : W32) (td : Bool) (l : List Nat), s.sourceOn (unitSrc u) = true →
        (∀ (chk syn : BitVec 7), syn = syndrome w data chk →
          (scrubResult syn = .clean → Completes (.scrubAccess u m w data chk td l) s fun t => t = s.fresh)
          ∧ (scrubResult syn = .corrected → Completes (.scrubAccess u m w data chk td l) s fun t => Emitted u
            { source := unitSrc u, kind := 0x10, sev := 1,
              addr := BitVec.ofNat 48 (m.toNat * 2 ^ 40 + w.toNat * 2 ^ 8 + syn.toNat) } s t)
          ∧ (scrubResult syn = .uncorrectable → (∀ a, u = .agent a → td = false) →
            Completes (.scrubAccess u m w data chk td l) s fun t => Emitted u
              { source := unitSrc u, kind := 0x11, sev := 3,
                addr := BitVec.ofNat 48 (m.toNat * 2 ^ 40 + w.toNat * 2 ^ 8 + syn.toNat) } s t)
          ∧ (scrubResult syn = .uncorrectable → ∀ a, u = .agent a → (∀ x ∈ (s.agent a).ctxs, x.id ∉ l) →
            Completes (.scrubAccess u m w data chk true l) s fun t => Emitted u
              { source := unitSrc u, kind := 0x11, sev := 1,
                addr := BitVec.ofNat 48 (m.toNat * 2 ^ 40 + w.toNat * 2 ^ 8 + syn.toNat) } s t))
        ∧ Completes (.scrubAccess u m w data (checkBits w data) td l) s (fun t => t = s.fresh)
        ∧ (∀ i < 32, Completes (.scrubAccess u m w (data ^^^ 1#32 <<< i) (checkBits w data) td l) s fun t =>
            ∃ x : Msg, Emitted u x s t ∧ x.kind = 0x10#8 ∧ x.sev = 1#3)
        ∧ (∀ i < 7, Completes (.scrubAccess u m w data (checkBits w data ^^^ 1#7 <<< i) td l) s fun t =>
            ∃ x : Msg, Emitted u x s t ∧ x.kind = 0x10#8 ∧ x.sev = 1#3)
        ∧ (∀ i < 32, ∀ j < i, Completes (.scrubAccess u m w (data ^^^ 1#32 <<< i ^^^ 1#32 <<< j) (checkBits w data) false l) s fun t =>
            ∃ x : Msg, Emitted u x s t ∧ x.kind = 0x11#8 ∧ x.sev = 3#3)
        ∧ (∀ i < 32, ∀ j < 7, Completes (.scrubAccess u m w (data ^^^ 1#32 <<< i) (checkBits w data ^^^ 1#7 <<< j) false l) s fun t =>
            ∃ x : Msg, Emitted u x s t ∧ x.kind = 0x11#8 ∧ x.sev = 3#3)
        ∧ (∀ i < 7, ∀ j < i, Completes (.scrubAccess u m w data (checkBits w data ^^^ 1#7 <<< i ^^^ 1#7 <<< j) false l) s fun t =>
            ∃ x : Msg, Emitted u x s t ∧ x.kind = 0x11#8 ∧ x.sev = 3#3)
        ∧ (∀ i < 32, Completes (.scrubAccess u m w data (checkBits (w ^^^ 1#32 <<< i) data) false l) s fun t =>
            ∃ x : Msg, Emitted u x s t ∧ x.kind = 0x11#8 ∧ x.sev = 3#3))

/-- VH_HEADER, VE_BEAT, VECTOR_GROUP_VERDICT and SUMMARY_JUDGE. A header binds its group id; its group is judged
where its class has a record, its format is one of the tests' and fewer than four judged groups are open, and is
counted unchecked otherwise. Elements of an unbound id are counted in TAP_STRAY; the elements of a bound one are
taken in order. A judged group is reported at its last element where a test failed, and waits for its verdict, which
presents the commit or the poison of a gated group and sends a summary. The concentrator judges the summary's
statistic against the envelope of its class: it enters the sums clamped to the band, and one outside the band of a
warm envelope is an excursion. -/
def Obligations.VectorGroupsAndSummaries : Prop :=
  ∀ s : State, s.rstL = false →
    (∀ (a : Nat) (gid : BitVec 3) (data : BitVec 110), s.agentOn a = true → s.shut = false → (s.agent a).fence = false →
      (s.agent a).fenceReq = false → (s.agent a).groups.get none gid.toNat = none → Completes (.vhHeader a gid data) s fun t =>
        ∃ g : Group, (t.agent a).groups.get none gid.toNat = some g ∧ g.head = data ∧ g.complete = false ∧ g.settled = false
          ∧ g.step = (s.agent a).steps.get none (vhJob data).toNat
          ∧ g.judged = ((s.vclass? (vhClass data)).isSome && decide ((s.agent a).openJudged < 4) && decide (vhFmt data ≤ 11))
          ∧ (t.agent a).groupsUnchecked
              = (if g.judged then (s.agent a).groupsUnchecked else satInc (s.agent a).groupsUnchecked))
    ∧ (∀ (a : Nat) (b : VeBeat), s.agentOn a = true →
        ((s.agent a).groups.get none b.gid.toNat = none → Completes (.veBeat a b) s fun t =>
          (t.agent a).tapStray = satInc (s.agent a).tapStray ∧ (t.agent a).groups = (s.agent a).groups)
        ∧ (∀ g : Group, (s.agent a).groups.get none b.gid.toNat = some g →
            (0 < b.count → b.count ≤ 32 → ∀ (g' : Group) (n : Nat),
              Group.takeElems b b.count 0 { g with poison := g.poison || b.poison } = (g', n) →
              (g'.complete = false → Completes (.veBeat a b) s fun t => (t.agent a).groups.get none b.gid.toNat = some g')
              ∧ (g'.complete = true → n = b.count → g'.judged = false → g'.gated = true → g'.settled = false →
                  g'.poison = false → g'.aborted = false → g'.stepGated = false → s.jobAborted (vhJob g'.head) = false → s.noCommit = false →
                  (s.agent a).fence = false → Completes (.veBeat a b) s fun t => (t.agent a).groups.get none b.gid.toNat = none
                    ∧ (t.agent a).cmt = (s.agent a).cmt
                        ++ [{ job := vhJob g'.head, base := vhBase g'.head, count := vhCount g'.head }])
              ∧ (∀ e : Group, e = g'.failIf 0 (decide (g'.fld 2 31 16 < g'.nonfinite)) → g'.complete = true → n = b.count →
                  g'.judged = true → g'.poison = false → Completes (.veBeat a b) s fun t =>
                    (t.agent a).groups.get none b.gid.toNat = none ∧ (t.agent a).cmt = (s.agent a).cmt
                    ∧ (∃ k : Nat, 8 ≤ k ∧ k % 8 = b.gid.toNat ∧ (s.agent a).groups.get none k = none
                        ∧ (t.agent a).groups.get none k = some e)
                    ∧ (t.agent a).groupsJudged = satInc (s.agent a).groupsJudged
                    ∧ (e.failed ≠ [] → Emitted (.agent a)
                        { source := srcId 0 a, kind := if 0 ∈ e.failed then 0x06 else 0x05,
                          sev := if e.mustPoison then 2 else 0, addr := vhBase e.head, job := vhJob e.head } s t)
                    ∧ (e.failed = [] → (t.agent a).queue = (s.agent a).queue)))
            ∧ (b.count = 0 ∨ 32 < b.count → exec (.veBeat a b) s = .fault (.hostContract 423))))
    ∧ (∀ (a : Nat) (gid : BitVec 3) (k : Nat) (g : Group),
        (s.agent a).groups.keys.find? (fun k => decide (8 ≤ k ∧ k % 8 = gid.toNat)) = some k →
        (s.agent a).groups.get none k = some g → Completes (.vectorGroupVerdict a gid) s fun t =>
          (t.agent a).groups.get none k = none ∧ (t.agent a).queue = (s.agent a).queue
          ∧ ((s.agent a).summaries.length < 8 → (t.agent a).summaries = (s.agent a).summaries
              ++ [{ job := vhJob g.head, step := g.step, vclass := vhClass g.head, stat := g.stat, failed := g.failed,
                    running := g.runs 6, poisoned := g.poisoned }])
          ∧ (8 ≤ (s.agent a).summaries.length → (t.agent a).runSkipped = satInc (s.agent a).runSkipped)
          ∧ (g.gated = false ∨ g.settled = true → (t.agent a).cmt = (s.agent a).cmt)
          ∧ (g.gated = true → g.settled = false → g.poison = true ∨ g.mustPoison = true → (t.agent a).cmt = (s.agent a).cmt
                ++ [{ poison := true, job := vhJob g.head, base := vhBase g.head, count := vhCount g.head }])
          ∧ (g.gated = true → g.settled = false → g.poison = false → g.mustPoison = false → g.stepGated = false →
              s.jobAborted (vhJob g.head) = false → s.noCommit = false → (s.agent a).fence = false →
              (t.agent a).cmt = (s.agent a).cmt ++ [{ job := vhJob g.head, base := vhBase g.head, count := vhCount g.head }]))
    ∧ (∀ (c a : Nat) (m : Summary) (r : List Summary) (y : Int), s.build.clusterOf a = c → (s.agent a).summaries = m :: r →
        m.stat = some y → m.running = true → s.ownerOf m.vclass = some m.job.toNat → m.failed = [] →
        ∀ e : Envelope, e = (s.conc c).env.get {} m.vclass → Completes (.summaryJudge c a) s fun t =>
          (t.agent a).summaries = r ∧ ((t.conc c).env.get {} m.vclass).n = e.n + 1
          ∧ ((t.conc c).env.get {} m.vclass).sy = e.sy + min (max y (e.mu - e.half)) (e.mu + e.half)
          ∧ ((t.conc c).env.get {} m.vclass).mu = e.mu
          ∧ (e.warm ≤ e.steps → e.half < ((y - e.mu).natAbs : Int) →
              ((t.conc c).env.get {} m.vclass).excursion = true
              ∧ ((t.conc c).jobs.get {} m.job.toNat).excTotal = satInc ((s.conc c).jobs.get {} m.job.toNat).excTotal)
          ∧ (e.steps < e.warm ∨ ((y - e.mu).natAbs : Int) ≤ e.half →
              ((t.conc c).env.get {} m.vclass).excursion = e.excursion ∧ (t.conc c).jobs = (s.conc c).jobs))
    ∧ (∀ c a : Nat, s.build.clusterOf a = c → (s.agent a).summaries = [] → Completes (.summaryJudge c a) s fun t => t = s.fresh)

/-- FENCE_ORDER, FENCE_ACK_RISE, FENCE_END, FENCE_ACK_FALL and FENCE_TIMEOUT. An order of an acting hub fences an agent
that is not fenced: FENCE_REQ rises where FENCE_ACK is low, and every original context that has not ended ends, but
for one that only waits for its gate. FENCE_ACK follows FENCE_REQ; once no hub orders the fence FENCE_REQ falls,
every handle is unbound, and what a gate that opened meanwhile lets commit is presented, the model's choice (log
86); after FENCE_ACK has fallen a fence ordered meanwhile raises FENCE_REQ. A handshake that
misses its bound is an S4 at every acting hub, once for an edge. -/
def Obligations.FencesOfAnAgent : Prop :=
  ∀ (s : State) (a : Nat), s.rstL = false →
    (s.agentOn a = true → s.fenceOrdered a = true → (s.agent a).fence = false → Completes (.fenceOrder a) s fun t =>
      (t.agent a).fence = true ∧ (t.agent a).fenceReq = !(s.agent a).fenceAck ∧ (t.agent a).fenceAck = (s.agent a).fenceAck
      ∧ ((s.agent a).fenceAck = false → .fenceReq a true ∈ t.out)
      ∧ (∀ x ∈ (t.agent a).ctxs, x.retake = none → x.ended = true ∨ x.held = true))
    ∧ (s.fenceOrdered a = false ∨ (s.agent a).fence = true → Completes (.fenceOrder a) s fun t => t = s.fresh)
    ∧ ((s.agent a).fenceReq = true → Completes (.fenceAckRise a) s fun t => (t.agent a).fenceAck = true
        ∧ (t.agent a).fenceReq = true ∧ (t.agent a).ctxs = (s.agent a).ctxs)
    ∧ ((s.agent a).fenceReq = false → Completes (.fenceAckRise a) s fun t => t = s.fresh)
    ∧ ((s.agent a).fence = true → s.fenceOrdered a = false → Completes (.fenceEnd a) s fun t =>
        (t.agent a).fence = false ∧ (t.agent a).fenceReq = false ∧ (∀ h : Nat, (t.agent a).bound.get [] h = [])
        ∧ (t.agent a).ctxs = (s.agent a).ctxs.filter (fun x => !(x.held && x.opened))
        ∧ (t.agent a).gates = (s.agent a).gates.filter (fun r => !r.opened)
        ∧ (s.noCommit = false → (t.agent a).cmt = (s.agent a).cmt
            ++ ((s.agent a).gates.filter (fun r => r.opened)).map (fun r =>
                { job := r.job, base := BitVec.ofNat 48 r.base, count := BitVec.ofNat 16 r.count })
            ++ ((s.agent a).ctxs.filter (fun x => x.held && x.opened)).map (fun x =>
                { job := tdJob x.desc, base := tdBase x.desc, count := tdCount x.desc }))
        ∧ (s.noCommit = true → (t.agent a).cmt = (s.agent a).cmt)
        ∧ ((∀ r ∈ (s.agent a).gates, r.opened = false) → (∀ x ∈ (s.agent a).ctxs, x.opened = false) →
            s.openRetakes (fun r => decide (r.phase = .waitStandin)) = [] → t.out = (if (s.agent a).fenceReq then [.fenceReq a false] else [])))
    ∧ ((s.agent a).fence = false ∨ s.fenceOrdered a = true → Completes (.fenceEnd a) s fun t => t = s.fresh)
    ∧ ((s.agent a).fenceAck = true → (s.agent a).fenceReq = false → Completes (.fenceAckFall a) s fun t =>
        (t.agent a).fenceAck = false ∧ (t.agent a).fenceReq = (s.agent a).fence ∧ (t.agent a).fence = (s.agent a).fence
        ∧ t.out = (if (s.agent a).fence then [.fenceReq a true] else []))
    ∧ ((s.agent a).fenceAck = false ∨ (s.agent a).fenceReq = true → Completes (.fenceAckFall a) s fun t => t = s.fresh)
    ∧ ((s.agent a).fenceReq ≠ (s.agent a).fenceAck → (s.agent a).fenceLate = false → Completes (.fenceTimeout a) s fun t =>
        (s.agent a).fenceSince + 2000 ≤ t.now ∧ ∀ h, s.hubUp h = true → (t.hub h).s4 = true)
    ∧ ((s.agent a).fenceReq = (s.agent a).fenceAck ∨ (s.agent a).fenceLate = true → Completes (.fenceTimeout a) s fun t => t = s.fresh)

/-- SETTLE_ORDER, POISON_ORDER, SC_ACK and SC_ACK_FALL. A settle order commits the range of the context that waits for
it, and closes and logs its record; a poison order presents a poison over the record's range and does the same. The
acknowledgement of a RETAKE_REQ binds the agent's next descriptor to the record; that of a SWAP_OUT orders the unit
fenced and moves its trot-up on. The agent presents its next operation once the acknowledgement has fallen. -/
def Obligations.RetakeOrdersAndControl : Prop :=
  ∀ (s : State) (a : Nat), s.rstL = false →
    (∀ (n : Nat) (x : Ctx), (s.retake n).used = true → (s.retake n).phase = .settling → (s.retake n).lastIs a = true →
      (s.agent a).waitingCtx n = some x → x.fill = false → s.jobAborted (tdJob x.desc) = false → s.noCommit = false →
      (s.agent a).fence = false → s.busyWith 0xA = false → ((s.class? (tdClass x.desc)).map clsGated).getD false = false → Completes (.settleOrder a n) s fun t =>
        (t.agent a).cmt = (s.agent a).cmt ++ [{ job := tdJob x.desc, base := tdBase x.desc, count := tdCount x.desc }]
        ∧ (t.retake n).used = false ∧ t.logHead = s.logHead + 1
        ∧ t.decCnt.get 0 (s.retake n).decision = satInc (s.decCnt.get 0 (s.retake n).decision))
    ∧ (∀ n : Nat, (s.retake n).used = false ∨ (s.retake n).phase ≠ .settling ∨ (s.retake n).lastIs a = false →
        Completes (.settleOrder a n) s fun t => t = s.fresh)
    ∧ (∀ n : Nat, (s.retake n).used = true → (s.retake n).phase = .poisoning → (s.retake n).lastIs a = true →
        s.busyWith 0xA = false → Completes (.poisonOrder a n) s fun t =>
        (t.agent a).cmt = (s.agent a).cmt
            ++ [{ poison := true, job := (s.retake n).job, base := (s.retake n).base, count := (s.retake n).count }]
        ∧ (t.retake n).used = false ∧ t.logHead = if n < 64 then s.logHead + 1 else s.logHead)
    ∧ (∀ n : Nat, (s.retake n).used = false ∨ (s.retake n).phase ≠ .poisoning ∨ (s.retake n).lastIs a = false →
        Completes (.poisonOrder a n) s fun t => t = s.fresh)
    ∧ (∀ (o : ScOp) (r : List ScOp), (s.agent a).sc = o :: r → (s.agent a).scWaitFall = false → s.withheld = false →
        o.stale = false → s.busyWith 0xA = false →
        (∀ (pre : List Run) (x : Run), o.op = 1 → (s.retake o.record).used = true → (s.retake o.record).phase = .requested →
          (s.retake o.record).runs = pre ++ [x] → x.agent = a → x.acked = false → Completes (.scAck a) s fun t =>
            (t.agent a).sc = r ∧ (t.agent a).scWaitFall = true ∧ (t.agent a).retakeBind = some o.record
            ∧ (t.retake o.record).runs = pre ++ [{ x with acked := true, ackAt := s.now }])
        ∧ (∀ t0 : Trot, o.op = 2 → s.trot? a = some t0 → t0.step = 1 → Completes (.scAck a) s fun t =>
            (∀ h, s.hubUp h = true → ∃ e ∈ (t.hub h).fences, e.1 = a)
            ∧ ∃ t1 : Trot, t.trot? a = some t1 ∧ t1.step = (if s.saveBytes = 0 then 3 else 2) ∧ t1.standin = t0.standin))
    ∧ ((s.agent a).sc = [] → Completes (.scAck a) s fun t => t = s.fresh)
    ∧ (∀ (o : ScOp) (r : List ScOp), (s.agent a).sc = o :: r → (s.agent a).scWaitFall = true →
        Completes (.scAck a) s (fun t => t = s.fresh)
        ∧ (s.withheld = false → Completes (.scAckFall a) s fun t =>
            (t.agent a).scWaitFall = false ∧ (t.agent a).sc = o :: r ∧ t.out = [.sc a o]))
    ∧ ((s.agent a).sc = [] → Completes (.scAckFall a) s fun t => (t.agent a).scWaitFall = false ∧ t.out = [])

/-- ACCOUNT_FETCH and the bounds of a retake. With one run made the hub orders another where one can be had and
answers code 7 otherwise; a second run whose audit is good and whose result fits its own operands settles the record,
as code 1 where the first run's s agrees and code 2 where it does not. Where the record's runs name agents, a
settling code of a lone hub leaves the record settling and is recorded as KIND 0x14 at S1; any other leaves it
poisoning and aborts the job, unless its abort has been popped and no launch has come since. A bound that is missed
is counted. Where a stand-in is eligible as the wait ends it makes the run; a wait that ends without one is decided with
the runs made. -/
def Obligations.RetakeDecisions : Prop :=
  ∀ s : State, s.rstL = false →
    (∀ o x : Run, decideRuns [o] true = .again ∧ decideRuns [o] false = .code 7
      ∧ ∀ (p q : Account) (more : Bool), o.acc = some p → x.acc = some q → p.audit ≠ .ok → q.audit = .ok → q.bounded = false →
          q.t = q.s → decideRuns [o, x] more = .code (if p.s = q.s then 1 else 2))
    ∧ (∀ (n : Nat) (pre : List Run) (x : Run) (y : Account), (s.retake n).used = true → (s.retake n).phase = .running →
        (s.retake n).runs = pre ++ [x] → s.runAccount n = some y →
        (∀ d : Nat, (∀ z ∈ (s.retake n).runs, posGroup z.agent = 0) → decideRuns (pre ++ [{ x with account := some y }]) true = .code d →
          (d ≤ 3 → s.pairUp = false → Completes (.accountFetch n) s fun t =>
            (t.retake n).phase = .settling ∧ (t.retake n).decision = d
            ∧ ((s.ld).afterS4 = none → t.ld.newest.kind = 0x14#8 ∧ t.ld.newest.sev = 1#3 ∧ t.ld.newest.addr = (s.retake n).base))
          ∧ (3 < d → ((s.job (s.retake n).job.toNat).abortRaised = true → (s.job (s.retake n).job.toNat).abortHeld = true) →
              Completes (.accountFetch n) s fun t =>
              (t.retake n).phase = .poisoning ∧ (t.retake n).decision = d ∧ (s.retake n).job.toNat ∈ t.ld.aborted))
        ∧ (decideRuns (pre ++ [{ x with account := some y }]) true = .again → Completes (.accountFetch n) s fun t =>
            ((t.retake n).phase = .requested ∧ t.retakesOrdered = satInc s.retakesOrdered
              ∧ ∃ b : Nat, (t.retake n).runs = pre ++ [{ x with account := some y }, { agent := b }])
            ∨ ((t.retake n).phase = .waitStandin ∧ t.retakesOrdered = s.retakesOrdered
              ∧ (t.retake n).runs = pre ++ [{ x with account := some y }])))
    ∧ (∀ n : Nat, (s.retake n).used = false → Completes (.accountFetch n) s (fun t => t = s.fresh))
    ∧ (∀ (n : Nat) (pre : List Run) (x : Run), (s.retake n).used = true → (s.retake n).runs = pre ++ [x] →
        ((s.retake n).phase = .requested → Completes (.retakeIssueTimeout n) s fun t =>
          t.retakeTimeouts = satInc s.retakeTimeouts ∧ (s.retake n).since + s.retakeIssue ≤ t.now)
        ∧ ((s.retake n).phase ≠ .requested → Completes (.retakeIssueTimeout n) s fun t => t = s.fresh)
        ∧ (x.acked = true → (s.retake n).phase = .requested ∨ (s.retake n).phase = .running → s.runAccount n = none →
            Completes (.retakeRunTimeout n) s fun t =>
              t.retakeTimeouts = satInc s.retakeTimeouts ∧ x.ackAt + s.retakeRun ≤ t.now)
        ∧ (x.acked = false → Completes (.retakeRunTimeout n) s fun t => t = s.fresh)
        ∧ (s.chooseStandin (s.retake n) ≠ none → (s.retake n).phase = .waitStandin → Completes (.retakeWaitExpiry n) s fun t =>
            (t.retake n).phase = .requested ∧ t.retakesOrdered = satInc s.retakesOrdered
            ∧ ∃ b : Nat, s.chooseStandin (s.retake n) = some b ∧ (t.retake n).runs = (s.retake n).runs ++ [{ agent := b }])
        ∧ (pre = [] → s.chooseStandin (s.retake n) = none → (s.retake n).phase = .waitStandin →
            Completes (.retakeWaitExpiry n) s fun t =>
            (t.retake n).phase = .poisoning ∧ (t.retake n).decision = 7 ∧ (s.retake n).waitFrom + s.retakeWait ≤ t.now
            ∧ (((s.job (s.retake n).job.toNat).abortRaised = true → (s.job (s.retake n).job.toNat).abortHeld = true) →
                (s.retake n).job.toNat ∈ t.ld.aborted))
        ∧ ((s.retake n).phase ≠ .waitStandin → Completes (.retakeWaitExpiry n) s fun t => t = s.fresh))

/-- EPOCH_ANNOUNCE and EPOCH_ACTIVATION. When an epoch runs and none is announced, and the epoch before it is closed,
the hub announces the next one: its activation is LEAD after the present count, IRQ_STS shows it, and every agent
whose keys stand holds its key. At the activation count every agent switches to it with the keys of the epoch before
and of the new one. -/
def Obligations.EpochsAnnouncedAndActive : Prop :=
  ∀ s : State, s.rstL = false →
    (s.epoch.started = true → s.epoch.announced = false → s.ld.st.working = true → s.shut = false →
      (s.epoch.cur = 0 ∨ s.epochClosed (s.epoch.cur - 1) = true) → Completes .epochAnnounce s fun t =>
        t.epoch.announced = true ∧ t.epoch.next = s.epoch.cur + 1 ∧ t.epoch.cur = s.epoch.cur
        ∧ t.epoch.act = BitVec.ofNat 64 (t.clk + s.epochLead)
        ∧ (∀ h, (t.hub h).irq = (s.hub h).irq ||| 4#32)
        ∧ (∀ a ∈ s.allAgents, (s.agent a).zeroised = false → (t.agent a).announced
            = some ({ epoch := s.epoch.cur + 1, key := epochKeyOf s.keys.checkRoot (s.epoch.cur + 1) }, t.epoch.act))
        ∧ ((∀ a ∈ s.allAgents, (s.agent a).allocated < 2 ^ s.epochTasksLog2) → s.epoch.since + s.epochTime * 1000000000 ≤ t.now))
    ∧ (s.epoch.started = false ∨ s.epoch.announced = true ∨ s.ld.st.working = false ∨ s.shut = true →
        Completes .epochAnnounce s fun t => t = s.fresh)
    ∧ (s.epoch.announced = true → s.clkReaches s.epoch.act.toNat = true → Completes .epochActivation s fun t =>
        t.epoch.cur = s.epoch.next ∧ t.epoch.announced = false
        ∧ ∀ a ∈ s.allAgents, (t.agent a).epoch = s.epoch.next ∧ (t.agent a).allocated = 0
          ∧ ((s.agent a).zeroised = false → (t.agent a).keys = t.curKeys ∧ (t.agent a).announced = none))
    ∧ (s.epoch.announced = false → Completes .epochActivation s fun t => t = s.fresh)

/-- MESSAGE_ORIGIN, MESSAGE_HOP, HOP_BAD_CRC and MERGED_S2_SEND. A unit's message enters its own queue with STAMP and
the unit's SEQ. A hop takes an agent's most severe, oldest message to its concentrator, marked DROPPED where a drop
came before it, or leaves it where the queue has no room, or a merged S2 message of the queue it leaves or of the one it would enter
is to go first. A bad reception is
resent and counted up to the third, which discards the message and is reported as KIND 0x34 at the next stage. A
merged S2 message takes the next free ordinary slot, lowest job first. -/
def Obligations.MessagesOnTheirWay : Prop :=
  ∀ s : State, s.rstL = false →
    (∀ (u : NetUnit) (src : BitVec 16) (kind : Byte) (sev : BitVec 3) (addr : Addr) (job : Job),
      Completes (.messageOrigin u src kind sev addr job) s fun t =>
        Emitted u { source := src, kind := kind, sev := sev, addr := addr, job := job } s t)
    ∧ (∀ (a i : Nat) (h : HubId) (e : QEntry), s.hubUp h = true → (s.agent a).queue.best (fun _ => true) = some (i, e) →
        (e.msg.sev.toNat < 3 → (s.agent a).queue.mergedFirst e.msg = false → (s.conc (s.build.clusterOf a)).queue.ordinary.length < 16 →
          (s.conc (s.build.clusterOf a)).queue.takes e.msg = true →
          Completes (.messageHop (.agent a) h) s fun t =>
            (t.agent a).queue = { (s.agent a).queue with droppedBefore := false }.upd i (fun _ => none)
            ∧ (t.conc (s.build.clusterOf a)).queue.ordinary = (s.conc (s.build.clusterOf a)).queue.ordinary
                ++ [{ msg := if (s.agent a).queue.droppedBefore then { e.msg with dropped := true } else e.msg, at_ := s.now }])
        ∧ ((e.msg.sev.toNat < 2 ∧ 16 ≤ (s.conc (s.build.clusterOf a)).queue.ordinary.length)
              ∨ (e.msg.sev.toNat < 2 ∧ (s.conc (s.build.clusterOf a)).queue.merged ≠ [])
              ∨ (s.agent a).queue.mergedFirst e.msg = true →
            Completes (.messageHop (.agent a) h) s fun t => t = s.fresh)
        ∧ (3 ≤ e.msg.sev.toNat → (s.conc (s.build.clusterOf a)).queue.reserved.length < 4 →
            Completes (.messageHop (.agent a) h) s fun t =>
              (t.agent a).queue = { (s.agent a).queue with droppedBefore := false }.upd i (fun _ => none)
              ∧ (t.conc (s.build.clusterOf a)).queue.reserved = (s.conc (s.build.clusterOf a)).queue.reserved
                  ++ [{ msg := if (s.agent a).queue.droppedBefore then { e.msg with dropped := true } else e.msg, at_ := s.now }])
        ∧ (2 ≤ e.bad → Completes (.hopBadCrc (.agent a) h) s fun t =>
            (t.agent a).queue = (s.agent a).queue.upd i (fun _ => none)
            ∧ Emitted (.conc (s.build.clusterOf a)) { source := srcId 0 a, kind := 0x34, sev := 1 } s t))
    ∧ (∀ (u v : NetUnit) (h : HubId) (i : Nat) (e : QEntry), s.hopHead u h = some (i, e) → s.nextHop u h = some v → e.bad < 2 →
        Completes (.hopBadCrc u h) s fun t => (t.queueOf u).hopResends = satInc (s.queueOf u).hopResends)
    ∧ (∀ (u : NetUnit) (h : HubId), s.hopHead u h = none →
        Completes (.messageHop u h) s (fun t => t = s.fresh) ∧ Completes (.hopBadCrc u h) s (fun t => t = s.fresh))
    ∧ (∀ (u : NetUnit) (j : Nat) (m : Msg), lowestJob (s.queueOf u).merged = some (j, m) →
        ((s.queueOf u).ordinary.length < (netSlots u).1 → Completes (.mergedS2Send u) s fun t =>
          (t.queueOf u).ordinary = (s.queueOf u).ordinary ++ [{ msg := m, at_ := s.now }]
          ∧ (t.queueOf u).merged = (s.queueOf u).merged.filter (fun p => decide (p.1 ≠ j)))
        ∧ ((netSlots u).1 ≤ (s.queueOf u).ordinary.length → Completes (.mergedS2Send u) s fun t => t = s.fresh))
    ∧ (∀ u : NetUnit, (s.queueOf u).merged = [] → Completes (.mergedS2Send u) s fun t => t = s.fresh)

/-- HUB_ACCEPT_MESSAGE. Every message of an enabled source that the intake serves next is taken out of it, its SEQ is
noted, the sticky bit of its source is set and an injection ends, whatever its severity and KIND. A message of a
source that does not exist is taken out, counted and nothing else. Of one that injects nothing, opens no record and
is no numbers-odd message, an S3 puts its source into the fault state unless it is lame, an S4 stops the chip, and a
KIND of the abort column below S4 aborts its job, unless its abort has been popped and no launch has come since.
One that counts fills its source's bucket, and a bucket that reaches N puts the source into its fault state. An S0
outside the catalogue's reactions is recorded. -/
def Obligations.MessagesAtTheHub : Prop :=
  ∀ (s : State) (h : HubId), s.rstL = false → s.hubUp h = true →
    ((s.hub h).intake.best (fun _ => true) = none → Completes (.hubAcceptMessage h) s fun t => t = s.fresh)
    ∧ (∀ (i : Nat) (e : QEntry), (s.hub h).intake.best (fun _ => true) = some (i, e) →
        (s.hub h).intake.mergedFirst e.msg = true → Completes (.hubAcceptMessage h) s fun t => t = s.fresh)
    ∧ (∀ (i p : Nat) (e : QEntry) (q : Queue), (s.hub h).intake.best (fun _ => true) = some (i, e) →
        (s.hub h).intake.mergedFirst e.msg = false → q = { (s.hub h).intake with droppedBefore := false }.upd i (fun _ => none) →
        (s.sourceOn e.msg.source = true → srcPos e.msg.source = some p → Completes (.hubAcceptMessage h) s fun t =>
          (t.hub h).intake.ordinary = q.ordinary ∧ (t.hub h).intake.reserved = q.reserved ∧ (t.hub h).intake.own = q.own
          ∧ (t.hub h).intake.merged = q.merged ∧ ((t.hub h).src p).lastSeq = some e.msg.seq
          ∧ ((t.hub h).sticky.get 0 (p / 32)).getLsbD (p % 32) = true
          ∧ (e.msg.injected = true → ((t.hub h).src p).injection = none))
        ∧ (s.sourceOn e.msg.source = false → Completes (.hubAcceptMessage h) s fun t => (t.hub h).intake = q
          ∧ (t.hub h).ctr.get 0 1 = satInc ((s.hub h).ctr.get 0 1) ∧ (t.hub h).reel = (s.hub h).reel)
        ∧ (s.sourceOn e.msg.source = true → srcPos e.msg.source = some p → e.msg.injected = false → failKind e.msg = false →
            e.msg.kind ≠ 5 → srcGroup e.msg.source ≠ 3 → e.msg.sev.toNat < 5 →
            (e.msg.sev.toNat = 3 → ((s.hub h).src p).lame = false → Completes (.hubAcceptMessage h) s fun t =>
              ((t.hub h).src p).fault = true)
            ∧ (e.msg.sev.toNat = 4 → Completes (.hubAcceptMessage h) s fun t => (t.hub h).s4 = true)
            ∧ (e.msg.sev.toNat < 4 → s.aborts e.msg = true →
                ((s.job e.msg.job.toNat).abortRaised = true → (s.job e.msg.job.toNat).abortHeld = true) → Completes (.hubAcceptMessage h) s fun t =>
                e.msg.job.toNat ∈ (t.hub h).aborted)
            ∧ (e.msg.sev.toNat < 3 → e.msg.counts = true → ((s.hub h).src p).fault = false → ((s.hub h).src p).lame = false →
                (((s.hub h).src p).bucket + 1 < s.grpN (posGroup p) → Completes (.hubAcceptMessage h) s fun t =>
                  ((t.hub h).src p).bucket = ((s.hub h).src p).bucket + 1 ∧ ((t.hub h).src p).fault = false)
                ∧ (s.grpN (posGroup p) ≤ ((s.hub h).src p).bucket + 1 → Completes (.hubAcceptMessage h) s fun t =>
                    ((t.hub h).src p).bucket = 0 ∧ ((t.hub h).src p).fault = true))
            ∧ (e.msg.sev.toNat = 0 → e.msg.counts = false → s.aborts e.msg = false → (s.hub h).afterS4 = none → s.ld.fails = [] →
                Completes (.hubAcceptMessage h) s fun t =>
                  (t.hub h).newest = (if (s.hub h).intake.droppedBefore then { e.msg with dropped := true } else e.msg)
                  ∧ (t.hub h).reelHead = (s.hub h).reelHead + 1
                  ∧ ((t.hub h).src p).bucket = ((s.hub h).src p).bucket ∧ ((t.hub h).src p).fault = ((s.hub h).src p).fault)))

/-- Every command keeps the two hubs' stores of sources in canonical form. Where both hubs' stores of sources list each
position once, in rising order, and no source that stands at its reset value, they do so after every command;
State.reset meets this. -/
def Obligations.SourceStoresStayCanonical : Prop :=
  (∀ (c : Instr) (s t : State), s.hubA.srcs.wf {} = true → s.hubB.srcs.wf {} = true → exec c s = .next t →
    t.hubA.srcs.wf {} = true ∧ t.hubB.srcs.wf {} = true)
    ∧ State.reset.hubA.srcs.wf {} = true ∧ State.reset.hubB.srcs.wf {} = true

/-- LEAK_TICK, QUIET_END, REEL_MARK, RECONCILE_MASK_SEND and RECONCILE_COMPARE. A leak tick takes one from every
bucket above 0 of its group, and each group keeps its own period W/N. The end of a quiet period counts one more
recovery: below L, where the follower has refused it not, the source leaves its fault state at a hub alone, and with a
twin the leader proposes it; at L it is lame. Each hub past READY writes a reel mark of its own. A concentrator sends its agents' fence bits; a hub whose
fenced set agrees with them records nothing, and an agent that alone is fenced for the concentrator and not for the
hub enters its fault state. -/
def Obligations.LeaksQuietEndsAndMarks : Prop :=
  ∀ s : State, s.rstL = false →
    (∀ g : Nat, g ≤ 6 → s.hubA.srcs.wf {} = true → s.hubB.srcs.wf {} = true → (s.ticking .a = true ∨ s.ticking .b = true) →
      Completes (.leakTick g) s fun t => s.now ≤ t.now
        ∧ t.leakAt.get 0 g = max s.readyAt (s.leakAt.get 0 g) + s.grpW g * 1000 / s.grpN g * 1000 ∧ t.leakAt.get 0 g ≤ t.now
        ∧ (∀ k, k ≠ g → t.leakAt.get 0 k = s.leakAt.get 0 k)
        ∧ ∀ (h : HubId) (p : Nat),
        ((t.hub h).src p) = { (s.hub h).src p with
          bucket := if posGroup p = g then ((s.hub h).src p).bucket - 1 else ((s.hub h).src p).bucket })
    ∧ (∀ g : Nat, s.ticking .a = false → s.ticking .b = false → Completes (.leakTick g) s fun t => t = s.fresh)
    ∧ (∀ p : Nat, s.hubUp s.twin.leader = true → s.ld.s4 = false → p < 8160 →
        ((s.ld.src p).fault = true → s.pairUp = false → (∀ e ∈ s.twin.refused, e.1 ≠ .unfence p) →
          s.twin.answer ≠ some (.unfence p, false) → (posGroup p ≠ 0 ∨ s.standins = []) →
          (s.ld.src p).recovery + 1 < s.grpL (posGroup p) → Completes (.quietEnd p) s fun t =>
            (t.ld.src p).fault = false ∧ (t.ld.src p).recovery = min ((s.ld.src p).recovery + 1) 15
            ∧ (s.ld.src p).quietSince + s.grpQ (posGroup p) * 1000000000 ≤ t.now)
        ∧ ((s.ld.src p).fault = true → s.pairUp = true → (∀ e ∈ s.twin.refused, e.1 ≠ .unfence p) →
          s.twin.answer ≠ some (.unfence p, false) → (s.ld.src p).recovery + 1 < s.grpL (posGroup p) →
          Completes (.quietEnd p) s fun t => .unfence p ∈ t.twin.proposals ∧ t.hubA = s.hubA ∧ t.hubB = s.hubB)
        ∧ ((s.ld.src p).fault = true → s.grpL (posGroup p) ≤ (s.ld.src p).recovery + 1 →
            Completes (.quietEnd p) s fun t => (t.ld.src p).fault = false ∧ (t.ld.src p).lame = true
              ∧ (s.ld.src p).quietSince + s.grpQ (posGroup p) * 1000000000 ≤ t.now)
        ∧ ((s.ld.src p).fault = false → Completes (.quietEnd p) s fun t => t = s.fresh))
    ∧ (s.ticking .a = true ∨ s.ticking .b = true → Completes .reelMark s fun t => ∀ h, s.ticking h = true →
        (s.hub h).afterS4 = none → (t.hub h).reelHead = (s.hub h).reelHead + 1 ∧ (t.hub h).newest.kind = 0x00#8
          ∧ (t.hub h).newest.sev = 0#3 ∧ (t.hub h).newest.source = srcId 2 (hubIdx h))
    ∧ (s.ticking .a = false → s.ticking .b = false → Completes .reelMark s fun t => t = s.fresh)
    ∧ (∀ c : Nat, (s.clusterRec c).isSome = true → Completes (.reconcileMaskSend c) s (fun t =>
        (t.conc c).maskSent = s.fenceMask c ∧ ∀ k, k ≠ c → t.conc k = s.conc k))
    ∧ (∀ c : Nat, (s.clusterRec c).isSome = false → Completes (.reconcileMaskSend c) s (fun t => t = s.fresh))
    ∧ (∀ (h : HubId) (c : Nat), s.hubUp h = true → (s.hub h).s4 = false → (s.clusterRec c).isSome = true →
        ((∀ i, i < min 16 s.build.clusterSize → s.agentOn (c * s.build.clusterSize + i) = true →
            (s.conc c).maskSent.getLsbD i = s.fencedAt h (c * s.build.clusterSize + i)) →
          Completes (.reconcileCompare h c) s fun t => (t.hub h).reel = (s.hub h).reel ∧ (t.hub h).srcs = (s.hub h).srcs
            ∧ (t.hub h).fences = (s.hub h).fences)
        ∧ (∀ j, j < min 16 s.build.clusterSize → s.agentOn (c * s.build.clusterSize + j) = true →
            (s.conc c).maskSent.getLsbD j = true → s.fencedAt h (c * s.build.clusterSize + j) = false →
            (∀ e ∈ (s.hub h).fences, e.1 ≠ c * s.build.clusterSize + j) →
            (∀ i, i < min 16 s.build.clusterSize → i ≠ j → s.agentOn (c * s.build.clusterSize + i) = true →
              (s.conc c).maskSent.getLsbD i = s.fencedAt h (c * s.build.clusterSize + i)) →
            Completes (.reconcileCompare h c) s fun t =>
              ((t.hub h).src (c * s.build.clusterSize + j)).fault = true))

/-- The write operations and TG_DATA_BEAT. A write of a MEM engine to a tagged block that no other write has open
takes its stream; a read of the block that was accepted before and has not begun asks for the block's word first (the
model's reading, DEDUCED, logs 60 and 96). One
that touches an enforced frozen range is refused with reply 10 and KIND 0x07. A beat is folded into its stream; one
of no stream is counted. At the last beat of a complete WRITE_CHECKED the engine writes the pending tag of the folded
residue and replies 0; one that is not complete stores poison and reports KIND 0x03, and a WRITE_EXPECT whose residue
is not the one expected replies 7. An engine that is no MEM engine performs none. -/
def Obligations.WritesOpenAndStore : Prop :=
  ∀ (s : State) (e : Nat), s.rstL = false →
    (∀ (id : BitVec 7) (addr : Addr) (job : Job) (b : Nat), s.engineRole e = 1 → s.blockAt addr.toNat = some b →
      (s.engine e).stream id.toNat = none → (∀ x ∈ (s.engine e).bound, x.2.writes b = false) → (s.engine e).openWrites < 64 →
      (s.frozen b (b + s.blockBytesAt b) = false →
        (∀ x ∈ (s.engine e).bound, x.2.op = .read → x.2.addr = b → x.2.requested = true) →
        Completes (.writeChecked e id addr job) s (StreamOpened e id.toNat b job .checked s)
        ∧ Completes (.writePlain e id addr job) s (StreamOpened e id.toNat b job .plain s)
        ∧ (∀ d, Completes (.writeExpect e id addr job d) s fun t => StreamOpened e id.toNat b job .expect s t
            ∧ ∃ st : Stream, (t.engine e).stream id.toNat = some st ∧ st.expected = d.toNat)
        ∧ Completes (.writePoison e id addr job) s (StreamOpened e id.toNat b job .poison s)
        ∧ Completes (.writeExternal e id addr job) s (StreamOpened e id.toNat b job .external s))
      ∧ (∀ (k : Nat) (st : Stream), s.frozen b (b + s.blockBytesAt b) = false →
          (∀ x ∈ (s.engine e).bound, x.2.op = .read → x.2.addr = b → x.2.closed = false) →
          (s.engine e).stream k = some st → st.op = .read → st.addr = b → st.whole = true →
          st.untagged = false → Completes (.writeChecked e id addr job) s fun t =>
            (∃ st' : Stream, (t.engine e).stream k = some st' ∧ st'.requested = true)
            ∧ ∃ st' : Stream, (t.engine e).stream id.toNat = some st' ∧ st'.op = .checked ∧ st'.addr = b)
      ∧ (∀ first last : BitVec 16, s.frozen (b + first.toNat) (b + last.toNat + 1) = false →
          Completes (.writePartial e id addr job first last) s fun t => StreamOpened e id.toNat b job .part s t
            ∧ ∃ st : Stream, (t.engine e).stream id.toNat = some st ∧ st.first = first.toNat ∧ st.final = last.toNat)
      ∧ (s.frozen b (b + s.blockBytesAt b) = true → Completes (.writeChecked e id addr job) s fun t =>
          t.out = [.rsp e id 10#4 0#31]
          ∧ Emitted (.engine e) { source := srcId 5 e, kind := 0x07, sev := 2, addr := BitVec.ofNat 48 b, job := job } s t))
    ∧ (∀ (id : BitVec 7) (addr : Addr) (job : Job), s.engineRole e ≠ 1 →
        Completes (.writeChecked e id addr job) s (fun t => t = s.fresh) ∧ Completes (.writePlain e id addr job) s (fun t => t = s.fresh))
    ∧ (∀ b : TgBeat, (s.engine e).stream b.stream.toNat = none → Completes (.tgDataBeat e b) s fun t =>
        (t.engine e).ctr.get 0 9 = satInc ((s.engine e).ctr.get 0 9) ∧ (t.engine e).streams = (s.engine e).streams ∧ t.out = [])
    ∧ (∀ (b : TgBeat) (st : Stream), (s.engine e).stream b.stream.toNat = some st → st.op ≠ .read → st.untagged = false →
        st.closed = false →
        (b.last = false → Completes (.tgDataBeat e b) s fun t =>
          (t.engine e).stream b.stream.toNat = some (s.foldBeat st b) ∧ t.out = []
          ∧ ∀ k, k ≠ b.stream.toNat → (t.engine e).stream k = (s.engine e).stream k)
        ∧ (b.last = true → st.op ≠ .part → st.broken = false → (s.foldBeat st b).poison = false → st.commitAtClose = false →
            (∀ i : Nat, st.op = .checked → (s.foldBeat st b).bytes = s.blockBytesAt st.addr →
              (s.engine e).freeSideId = some i → Completes (.tgDataBeat e b) s fun t =>
                (t.engine e).stream b.stream.toNat = none
                ∧ ∃ q : SideReq, t.out = [.side e q, .rsp e b.stream 0#4 0#31] ∧ q.id = i ∧ q.write = true
                  ∧ q.addr = s.sideOf st.addr ∧ q.block = st.addr
                  ∧ q.data = tagWord true (((s.foldBeat st b).d + s.addrTerm st.addr) % (2 ^ 31 - 1)))
            ∧ ((s.foldBeat st b).bytes ≠ s.blockBytesAt st.addr → Completes (.tgDataBeat e b) s fun t =>
                (t.engine e).stream b.stream.toNat = none ∧ .rsp e b.stream 0#4 0#31 ∈ t.out
                ∧ Emitted (.engine e)
                    { source := srcId 5 e, kind := 0x03, sev := 2, addr := BitVec.ofNat 48 st.addr, job := st.job } s t)
            ∧ (st.op = .expect → (s.foldBeat st b).bytes = s.blockBytesAt st.addr → (s.foldBeat st b).d ≠ st.expected →
                Completes (.tgDataBeat e b) s fun t => .rsp e b.stream 7#4 0#31 ∈ t.out
                  ∧ Emitted (.engine e)
                      { source := srcId 5 e, kind := 0x03, sev := 2, addr := BitVec.ofNat 48 st.addr, job := st.job } s t)))

/-- READ, SIDE_ACK and SIDECAR_TIMEOUT. A whole-block read of a tagged block takes its stream; a partial one asks for
the tag word at once; one of an untagged address is answered 9. When the word arrives, a closed whole-block read is
answered 1 with its residue where that is the content of the tag, 7 with KIND 0x03 where it is not or where the word
is bad, 6 where the word is poison or a POISON has come since the request, and 2 where it is pending, and is then
held. A completion of no request has no effect. A request that times out is a mismatch. -/
def Obligations.ReadsAndSidecars : Prop :=
  ∀ (s : State) (e : Nat), s.rstL = false →
    (∀ (id : BitVec 7) (addr : Addr) (job : Job), s.engineRole e = 1 → (s.engine e).stream id.toNat = none →
      (∀ b, s.blockAt addr.toNat = some b →
        Completes (.read e id addr job true) s (StreamOpened e id.toNat b job .read s)
        ∧ (∀ i, (s.engine e).ownWord (s.sideOf b) = none → (s.engine e).freeSideId = some i →
            Completes (.read e id addr job false) s fun t => ∃ q : SideReq, t.out = [.side e q] ∧ q.id = i ∧ q.write = false
              ∧ q.addr = s.sideOf b ∧ q.purpose = .readWord id.toNat ∧ (t.engine e).side = (s.engine e).side ++ [q]))
      ∧ (∀ whole, s.blockAt addr.toNat = none → Completes (.read e id addr job whole) s fun t =>
          t.out = [.rsp e id 9#4 0#31] ∧ (t.engine e).ctr.get 0 4 = satInc ((s.engine e).ctr.get 0 4)))
    ∧ (∀ (id : BitVec 4) (w : W32) (ue : Bool), (s.engine e).side.find? (fun r => decide (r.id = id.toNat)) = none →
        Completes (.sideAck e id w ue) s (fun t => t = s.fresh) ∧ Completes (.sidecarTimeout e id) s (fun t => t = s.fresh))
    ∧ (∀ (id : BitVec 4) (w : W32) (ue : Bool) (r : SideReq) (n : BitVec 7) (st : Stream),
        (s.engine e).side.find? (fun r => decide (r.id = id.toNat)) = some r → r.late = false → r.write = false →
        r.purpose = .readWord n.toNat → (s.engine e).sideWait = [] → (s.engine e).stream n.toNat = some st →
        st.held = false → st.whole = true → st.closed = true →
        (st.word = some (0x7FFFFFFF#32, false) → Completes (.sideAck e id w ue) s fun t => t.out = [.rsp e n 6#4 0#31]
          ∧ (t.engine e).stream n.toNat = none ∧ (t.engine e).ctr.get 0 2 = satInc ((s.engine e).ctr.get 0 2))
        ∧ (st.word = none → (st.d = s.contentOfTag st.addr w → isPoison w = false → isPending w = false → Completes (.sideAck e id w false) s fun t =>
          t.out = [.rsp e n 1#4 (BitVec.ofNat 31 st.d)] ∧ (t.engine e).stream n.toNat = none
          ∧ (t.engine e).ctr.get 0 0 = satInc ((s.engine e).ctr.get 0 0) ∧ (t.engine e).queue = (s.engine e).queue)
        ∧ (st.d ≠ s.contentOfTag st.addr w → isPoison w = false → isPending w = false → Completes (.sideAck e id w false) s fun t =>
            .rsp e n 7#4 0#31 ∈ t.out ∧ (t.engine e).stream n.toNat = none
            ∧ Emitted (.engine e)
                { source := srcId 5 e, kind := 0x03, sev := 2, addr := BitVec.ofNat 48 st.addr, job := st.job } s t)
        ∧ (isPoison w = true → Completes (.sideAck e id w false) s fun t => t.out = [.rsp e n 6#4 0#31]
            ∧ (t.engine e).stream n.toNat = none ∧ (t.engine e).ctr.get 0 2 = satInc ((s.engine e).ctr.get 0 2))
        ∧ (isPending w = true → st.committed = false → s.committing e st.addr = false →
            Completes (.sideAck e id w false) s fun t => t.out = [.rsp e n 2#4 0#31]
              ∧ (t.engine e).stream n.toNat = some { st with word := some (w, false), held := true })
        ∧ (Completes (.sideAck e id w true) s fun t => .rsp e n 7#4 0#31 ∈ t.out
            ∧ Emitted (.engine e)
                { source := srcId 5 e, kind := 0x03, sev := 2, addr := BitVec.ofNat 48 st.addr, job := st.job } s t)
        ∧ (Completes (.sidecarTimeout e id) s fun t => r.since + 1000 ≤ t.now ∧ .rsp e n 7#4 0#31 ∈ t.out
            ∧ Emitted (.engine e)
                { source := srcId 5 e, kind := 0x03, sev := 2, addr := BitVec.ofNat 48 st.addr, job := st.job }
                (s.advanceTo (r.since + 1000)) t)))
    ∧ (∀ (id : BitVec 4) (w : W32) (ue : Bool) (r : SideReq), (s.engine e).side.find? (fun r => decide (r.id = id.toNat)) = some r →
        r.late = true → (s.engine e).sideWait = [] → Completes (.sideAck e id w ue) s fun t =>
          (t.engine e).side = (s.engine e).side.filter (fun x => decide (x.id ≠ id.toNat))
          ∧ (t.engine e).streams = (s.engine e).streams ∧ t.out = [])

/-- COMMIT, POISON and COMMIT_BUFFER_FREE. A commit takes an entry of the buffer of 256 and is done; with the buffer
full it waits and is counted. A write that is open on its block, whole or partial, takes it at its close; a pending
word that the engine has read for it is written back with PENDING 0. A poison writes the poison word of its range's
first block. Of a range of which the engine owns no block, neither touches a sidecar word. A freed entry makes room
for those that wait. An engine that is no MEM engine performs none. -/
def Obligations.CommitsAndPoisons : Prop :=
  ∀ (s : State) (e : Nat), s.rstL = false →
    (∀ (addr : Addr) (count : BitVec 16) (job : Job), s.engineRole e = 1 →
      ((s.engine e).commits.length < 256 → Completes (.commit e addr count job) s fun t =>
        .tgcDone e ∈ t.out ∧ (t.engine e).commits.length = (s.engine e).commits.length + 1
        ∧ (t.engine e).nextKey = (s.engine e).nextKey + 1 ∧ (t.engine e).waitCommits = (s.engine e).waitCommits
        ∧ (∀ (b id : Nat) (st : Stream), count = 1 → s.ownBlock e addr.toNat 0 = some b → (s.engine e).stream id = some st →
            st.writes b = true → ∃ st' : Stream, (t.engine e).stream id = some st' ∧ st'.commitAtClose = true))
      ∧ ((∀ i, i < count.toNat → s.ownBlock e addr.toNat i = none) → (s.engine e).commits = [] →
          Completes (.commit e addr count job) s (fun t => t.out = [.tgcDone e] ∧ (t.engine e).streams = (s.engine e).streams)
          ∧ Completes (.poison e addr count job) s (fun t => t.out = [.tgcDone e] ∧ t.engines = s.engines))
      ∧ (256 ≤ (s.engine e).commits.length → Completes (.commit e addr count job) s fun t =>
          t.out = [.tgcDone e] ∧ (t.engine e).ctr.get 0 6 = satInc ((s.engine e).ctr.get 0 6)
          ∧ (t.engine e).waitCommits = (s.engine e).waitCommits ++ [{ base := addr.toNat, count := count.toNat, job := job }]
          ∧ (t.engine e).commits = (s.engine e).commits)
      ∧ (Completes (.poison e addr count job) s fun t => .tgcDone e ∈ t.out
          ∧ (∀ (b i : Nat), 0 < count.toNat → s.ownBlock e addr.toNat 0 = some b → (s.engine e).freeSideId = some i →
              ∃ q : SideReq, .side e q ∈ t.out ∧ q.write = true ∧ q.addr = s.sideOf b ∧ q.data = 0x7FFFFFFF#32)
          ∧ (t.engine e).queue = (s.engine e).queue))
    ∧ (∀ (addr : Addr) (count : BitVec 16) (job : Job), s.engineRole e ≠ 1 →
        Completes (.commit e addr count job) s (fun t => t = s.fresh) ∧ Completes (.poison e addr count job) s (fun t => t = s.fresh))
    ∧ (∀ (id : BitVec 4) (w : W32) (r : SideReq) (key : Nat) (c : CommitEntry),
        (s.engine e).side.find? (fun r => decide (r.id = id.toNat)) = some r → r.late = false → r.write = false →
        r.purpose = .commitRead key → (s.engine e).sideWait = [] →
        (s.engine e).commits.find? (fun c => decide (c.key = key)) = some c → c.skip.contains c.next = false →
        isPending w = true → Completes (.sideAck e id w false) s fun t => ∃ q : SideReq, t.out = [.side e q] ∧ q.write = true
          ∧ q.addr = s.sideOf r.block ∧ q.data = tagWord false (residueOf w) ∧ q.purpose = .commitWrite key)
    ∧ (Completes (.commitBufferFree e) s fun t => (t.engine e).waitCommits = (s.engine e).waitCommits.drop
          (256 - ((s.engine e).commits.filter (fun c => decide (c.next < c.count))).length)
        ∧ ((s.engine e).waitCommits = [] →
            (t.engine e).commits = (s.engine e).commits.filter (fun c => decide (c.next < c.count)) ∧ t.out = []))

/-- LEDGER_OPEN, LEDGER_CLOSE, LEDGER_PACKET, TG_SOURCE_REPLY, LINK_PACKET_SEND, LINK_PACKET_RECEIVE and HOST_REPORT.
A round opened at a receiver is empty; one opened at a sender's home counts up to its total, and its close reports
KIND 0x09 exactly where the total differs. A packet that has a header and fits its flow, its rows and its tag
advances the flow and reports nothing, where the owners of its blocks have sidecar ids to spare; a block that it fills,
and that the round has not poisoned, is written pending at its owner, with the tag of the bytes laid into it; one whose
payload does not fit its tag is KIND 0x03; one that has no header, or belongs to no round, changes nothing (the model's
reading, DEDUCED, log 98). A link packet adds its rows to its round at
the home, from a DMA engine too; a LINK engine sends it with the residue formed from its sources, or with poison
where a source is poison, or with poison and KIND 0x03 where the payload differs, and a received one gives its blocks
the residues of their own digits only where the tag fits. A source's good residue forms the destination's expected
residue, or enters the payload's; a bad one poisons it; regions of two keys link nothing. A host report of a known
line is emitted with the channel's source; of a host link uncorrectable at a LINK engine, the engine gives each of the
packet's destination blocks poison. The key and the form under which a payload is folded are the model's reading
(DEDUCED, log 97). -/
def Obligations.LedgersAndPackets : Prop :=
  ∀ (s : State) (e : Nat), s.rstL = false →
    (∀ (addr : Addr) (count : BitVec 16) (job : Job) (rd : BitVec 16) (v : W32), s.engineRole e ≠ 0 →
      Completes (.ledgerOpen e true addr count job rd v) s (fun t => t.out = [.tgcDone e]
        ∧ ∃ r : RecvRound, r ∈ (t.engine e).rounds ∧ r.job = job ∧ r.round = rd ∧ r.base = addr ∧ r.count = count.toNat
          ∧ r.flowsExpected = bits v 15 0 ∧ r.flows = [] ∧ r.poisoned = []
          ∧ ∀ x ∈ (t.engine e).rounds, x.job = job → x.round = rd → x = r)
      ∧ Completes (.ledgerOpen e false addr count job rd v) s (fun t => t.out = [.tgcDone e]
        ∧ ∃ r : SendRound, r ∈ (t.conc (s.engineHome e)).rounds ∧ r.job = job ∧ r.round = rd ∧ r.expected = v.toNat ∧ r.total = 0
          ∧ ∀ x ∈ (t.conc (s.engineHome e)).rounds, x.job = job → x.round = rd → x = r))
    ∧ (∀ (job : Job) (rd : BitVec 16) (r : SendRound), s.engineRole e ≠ 0 →
        (s.conc (s.engineHome e)).rounds.find? (fun r => decide (r.job = job ∧ r.round = rd)) = some r →
        (r.total = r.expected → Completes (.ledgerClose e false job rd) s fun t =>
          (t.conc (s.engineHome e)).queue = (s.conc (s.engineHome e)).queue ∧ t.out = [.tgcDone e]
          ∧ ∀ x ∈ (t.conc (s.engineHome e)).rounds, x.job ≠ job ∨ x.round ≠ rd)
        ∧ (r.total ≠ r.expected → Completes (.ledgerClose e false job rd) s fun t => t.out = [.tgcDone e]
            ∧ Emitted (.conc (s.engineHome e)) { source := srcId 1 (s.engineHome e), kind := 0x09, sev := 2, job := job } s t))
    ∧ (∀ (job : Job) (rd : BitVec 16) (r : RecvRound), s.engineRole e ≠ 0 →
        (s.engine e).rounds.find? (fun r => decide (r.job = job ∧ r.round = rd)) = some r → r.flows.length ≠ r.flowsExpected →
        Completes (.ledgerClose e true job rd) s fun t => .tgcDone e ∈ t.out ∧ Emitted (.engine e)
          { source := srcId 5 e, kind := 0x09, sev := 2, addr := r.base, job := job } s t)
    ∧ (∀ (p : DispatchPacket) (r : RecvRound) (f : Flow) (laid : List (Nat × Nat × Nat)), hdrOk p.header = true →
        (s.engine e).rounds.find? (fun r => decide (r.job = hdrJob p.header ∧ r.round = hdrRound p.header)) = some r →
        f = (r.flows.find? (fun f => decide (f.src = hdrSrc p.header))).getD { src := hdrSrc p.header } → f.last = false →
        f.failed = false → (hdrSeq p.header).toNat = f.next → p.digits.length = hdrCount p.header * hdrRowDigits p.header →
        laid = s.layBlocks f.part p.blocks (digitBytes p.digits) →
        (∀ x ∈ laid, s.frozen x.1 (x.1 + s.blockBytesAt x.1) = false) →
        (∀ (x : Nat × Nat × Nat) (o : Nat), x ∈ laid → s.ownerEngine x.1 = some o → (s.engine o).side.length + laid.length ≤ 16) → p.tag ≠ 0x7FFFFFFF#32 →
        (s.payloadResidue p.digits = p.tag.toNat → Completes (.ledgerPacket e p) s fun t =>
          (t.engine e).queue = (s.engine e).queue
          ∧ (t.engine e).rounds = (s.engine e).rounds.map (fun y => if y.job = hdrJob p.header ∧ y.round = hdrRound p.header then
              { y with flows := y.flows.filter (fun g => decide (g.src ≠ hdrSrc p.header))
                         ++ [{ f with next := (hdrSeq p.header).toNat + 1, last := hdrLast p.header, blocks := f.blocks ++ p.blocks,
                                      part := laid.getLast?.filter (fun x => !(s.laidFull x)) }] } else y)
          ∧ (∀ b n d o i : Nat, laid = [(b, n, d)] → hdrLast p.header = true ∨ s.blockBytesAt b ≤ n →
              (∀ x ∈ r.poisoned, s.blockAt x.toNat ≠ some b) → s.ownerEngine b = some o → (s.engine o).freeSideId = some i → ∃ q : SideReq, t.out = [.side o q] ∧ q.id = i
                ∧ q.write = true ∧ q.addr = s.sideOf b ∧ q.block = b ∧ q.data = tagWord true ((d + s.addrTerm b) % (2 ^ 31 - 1))))
        ∧ (s.payloadResidue p.digits ≠ p.tag.toNat → Completes (.ledgerPacket e p) s fun t =>
            Emitted (.engine e)
              { source := srcId 5 e, kind := 0x03, sev := 2, job := hdrJob p.header,
                addr := BitVec.ofNat 48 ((p.blocks.head?.map (fun a => a.toNat)).getD 0) } s t))
    ∧ (∀ p : DispatchPacket, hdrOk p.header = false ∨ (s.engine e).rounds.find?
          (fun r => decide (r.job = hdrJob p.header ∧ r.round = hdrRound p.header)) = none →
        Completes (.ledgerPacket e p) s fun t => t = s.fresh)
    ∧ (∀ (p : LinkPacket) (l : Option (BitVec 128)) (rounds : List SendRound),
        rounds = (s.conc (s.engineHome e)).rounds.map (fun x => match l.filter hdrOk with
          | none => x
          | some h => if x.job = hdrJob h ∧ x.round = hdrRound h then { x with total := x.total + hdrCount h } else x) →
        (s.engineRole e = 2 → Completes (.linkPacketSend e p l) s fun t =>
          (t.conc (s.engineHome e)).rounds = rounds ∧ t.engines = s.engines ∧ t.out = [])
        ∧ (s.engineRole e = 3 → (s.engine e).payload.started = true →
          ((s.engine e).payload.poison = true → Completes (.linkPacketSend e p l) s fun t =>
            (t.conc (s.engineHome e)).rounds = rounds ∧ t.out = [.ptag e 0x7FFFFFFF#32]
            ∧ (t.engine e).queue = (s.engine e).queue ∧ (t.engine e).payload = {})
          ∧ ((s.engine e).payload.poison = false →
              s.payloadD (s.engine e).payload.linear p.digits = (s.engine e).payload.d → Completes (.linkPacketSend e p l) s fun t =>
              (t.conc (s.engineHome e)).rounds = rounds ∧ t.out = [.ptag e (BitVec.ofNat 32 (s.engine e).payload.d)]
              ∧ (t.engine e).queue = (s.engine e).queue ∧ (t.engine e).payload = {})
          ∧ ((s.engine e).payload.poison = false →
              s.payloadD (s.engine e).payload.linear p.digits ≠ (s.engine e).payload.d → Completes (.linkPacketSend e p l) s fun t =>
              (t.conc (s.engineHome e)).rounds = rounds ∧ t.out = [.ptag e 0x7FFFFFFF#32] ∧ Emitted (.engine e)
                { source := srcId 5 e, kind := 0x03, sev := 2, addr := BitVec.ofNat 48 (LinkPacketFirst p) } s t)))
    ∧ (∀ (p : LinkPacket) (linear : Bool) (tag : W32), s.engineRole e = 3 →
        linear = ((s.regionAt (LinkPacketFirst p)).map (fun g => g.linear)).getD false →
        (tag ≠ 0x7FFFFFFF#32 → s.payloadD linear p.digits = tag.toNat → Completes (.linkPacketReceive e p tag) s fun t =>
          t.out = (splitDigits p.dests p.digits).map (fun x => .xd e x.1 (BitVec.ofNat 31 (s.destD x.1 x.2)) false)
          ∧ (t.engine e).queue = (s.engine e).queue)
        ∧ (s.payloadD linear p.digits ≠ tag.toNat → tag ≠ 0x7FFFFFFF#32 → Completes (.linkPacketReceive e p tag) s fun t =>
            t.out = p.dests.map (fun x => .xd e x.1 0#31 true) ∧ Emitted (.engine e)
              { source := srcId 5 e, kind := 0x03, sev := 2, addr := BitVec.ofNat 48 (LinkPacketFirst p) } s t)
        ∧ (Completes (.linkPacketReceive e p 0x7FFFFFFF#32) s fun t =>
            t.out = p.dests.map (fun x => .xd e x.1 0#31 true) ∧ (t.engine e).queue = (s.engine e).queue))
    ∧ (∀ (code : BitVec 4) (d : BitVec 31) (addr : Addr) (u : SrcUse) (g : Region124), 2 ≤ s.engineRole e →
        s.regionAt addr.toNat = some g →
        (u.packet = false → u.final = true → (s.engine e).forms.find? (fun f => decide (f.dest = u.dest)) = none →
          (code = 1#4 ∨ code = 3#4 → (s.regionAt u.dest.toNat).map (fun r => r.key) = some g.key →
            Completes (.tgSourceReply e code d addr [u]) s fun t =>
              t.out = [.xd e u.dest (BitVec.ofNat 31 (addPart 0 u (s.rho g.key) (partResidue g.linear (s.rho g.key) u d.toNat))) false])
          ∧ (∀ r : Region124, code = 1#4 ∨ code = 3#4 → s.regionAt u.dest.toNat = some r → r.key ≠ g.key →
              Completes (.tgSourceReply e code d addr [u]) s fun t => t.out = []
                ∧ (t.engine e).ctr.get 0 8 = satInc ((s.engine e).ctr.get 0 8))
          ∧ (code = 4#4 ∨ code = 5#4 ∨ code = 6#4 ∨ code = 7#4 → Completes (.tgSourceReply e code d addr [u]) s fun t =>
              t.out = [.xd e u.dest 0#31 true]))
        ∧ (u.packet = true → (s.engine e).payload.started = true →
          (code = 1#4 ∨ code = 3#4 → g.key = 0 → g.linear = (s.engine e).payload.linear →
            Completes (.tgSourceReply e code d addr [u]) s fun t => (t.engine e).payload = { (s.engine e).payload with
              d := addPart (s.engine e).payload.d u (s.rho 0) (partResidue g.linear (s.rho 0) u d.toNat) })
          ∧ (code = 4#4 ∨ code = 5#4 ∨ code = 6#4 ∨ code = 7#4 → Completes (.tgSourceReply e code d addr [u]) s fun t =>
              (t.engine e).payload.poison = true))
        ∧ (code = 2#4 → Completes (.tgSourceReply e code d addr [u]) s fun t => t = s.fresh))
    ∧ (∀ (line : BitVec 4) (kind : Byte) (addr : Addr),
        (s.hostChan? e line.toNat = none → Completes (.hostReport e line kind addr []) s fun t =>
          (t.engine e).queue = (s.engine e).queue
          ∧ ∀ h, s.hubUp h = true → (t.hub h).ctr.get 0 1 = satInc ((s.hub h).ctr.get 0 1))
        ∧ (∀ r : Rec, s.hostChan? e line.toNat = some r → ∀ dests : List Addr, Completes (.hostReport e line kind addr dests) s fun t => Emitted (.engine e)
            { source := srcId 5 (r.fld 1 31 20), kind := kind, addr := addr,
              sev := BitVec.ofNat 3 (hostSev kind (r.fld 1 31 20) (r.fld 1 9 7)) } s t
            ∧ (kind = 0x53#8 → s.engineRole e = 3 → t.out = dests.map (fun b => .xd e b 0#31 true))))

/-- SENSOR_SAMPLE, HK_ROUND, BUS_SAMPLE, MARGIN_WINDOW_DONE, KCLK_CHECK_WINDOW and CURB_COMBINE. A sample of a channel
that the harness records reaches every acting hub, any other is ignored. A round comes a period after the last, at each
hub that it leaves attached; a die without a temperature channel is curbed at CURB_FAILSAFE or above. A bus sample enters the watch's ring; a third
one in a row below BUS_COLLAPSE is an S4, one that first leaves the band is KIND 0x24; a channel that is stale, faulty
or lame is not judged. A margin, of what was broadcast at the start of the round, below MARGIN_LOW is reported at the
second round in a row. A second bad window puts a hub on the fall-back oscillator. The curb port
presents the combined levels and inverts its toggle at each change. -/
def Obligations.SamplesRoundsAndMargins : Prop :=
  ∀ s : State, s.rstL = false →
    (∀ (c : BitVec 9) (d : BitVec 16),
      ((s.chan? c.toNat).isSome = true → Completes (.sensorSample c d) s fun t => ∀ h, s.hubUp h = true →
        ((t.hub h).chans.get {} c.toNat).value = d ∧ ((t.hub h).chans.get {} c.toNat).arrived = true
        ∧ (t.hub h).thermal = (s.hub h).thermal ∧ ∀ k, k ≠ c.toNat → (t.hub h).chans.get {} k = (s.hub h).chans.get {} k)
      ∧ ((s.chan? c.toNat).isSome = false → Completes (.sensorSample c d) s fun t => t = s.fresh))
    ∧ (s.ld.busWatch = false → Completes .hkRound s fun t => t = s.fresh)
    ∧ (s.ld.busWatch = true → Completes .hkRound s fun t =>
        s.ld.roundAt + s.ld.roundMs * 1000000 ≤ t.now ∧ t.bands = { s.bands with curbMoved := false }
        ∧ ∀ h, s.hubUp h = true → t.hubUp h = true → (t.hub h).roundAt = t.now
          ∧ ((s.hub h).s4 = false → ∀ d, d < s.build.dies → s.dieChans 1 d = [] → s.curbFailsafe d ≤ t.curbAt h d))
    ∧ (∀ (c : BitVec 9) (r : Rec), s.ld.busWatch = true → s.chan? c.toNat = some r → r.fld 1 22 19 = 3 →
        Completes (.busSample c) s fun t => ∀ h, s.hubUp h = true → ((s.hub h).chans.get {} c.toNat).stale = false →
          ((s.hub h).src (4384 + c.toNat)).fault = false → ((s.hub h).src (4384 + c.toNat)).lame = false →
          ((t.hub h).chans.get {} c.toNat).ring = (((s.hub h).chans.get {} c.toNat).ring ++ [((s.hub h).chans.get {} c.toNat).value]).drop
              (((s.hub h).chans.get {} c.toNat).ring.length + 1 - 64)
          ∧ (((s.hub h).chans.get {} c.toNat).value.toNat < s.busCollapse → ((s.hub h).chans.get {} c.toNat).collapse = 2 →
              (t.hub h).s4 = true)
          ∧ (s.busCollapse ≤ ((s.hub h).chans.get {} c.toNat).value.toNat → ((s.hub h).chans.get {} c.toNat).value.toNat < s.busLo →
              ((s.hub h).chans.get {} c.toNat).lowHigh = false → ((s.hub h).chans.get {} c.toNat).ring.length < 10 →
              (s.hub h).afterS4 = none → s.stage = none → (t.hub h).newest.kind = 0x24#8 ∧ (t.hub h).newest.source = srcId 4 c.toNat))
    ∧ (∀ c : BitVec 9, s.ld.busWatch = false → Completes (.busSample c) s fun t => t = s.fresh)
    ∧ (∀ c : BitVec 9, (∀ h, ((s.hub h).chans.get {} c.toNat).stale = true ∨ ((s.hub h).src (4384 + c.toNat)).fault = true
          ∨ ((s.hub h).src (4384 + c.toNat)).lame = true) →
        Completes (.busSample c) s fun t => t.hubA = s.hubA ∧ t.hubB = s.hubB)
    ∧ (∀ c a n : Nat, s.agentOn a = true → s.build.clusterOf a = c → Completes (.marginWindowDone c [(a, n)]) s fun t =>
        (t.agent a).margin = s.marginOf (s.build.dieOfAgent a) n
        ∧ (s.marginLow 61604 ≤ s.marginOf (s.build.dieOfAgent a) n → (t.agent a).lowRounds = 0 ∧ (t.conc c).queue = (s.conc c).queue)
        ∧ (s.marginOf (s.build.dieOfAgent a) n < s.marginLow 61604 → (t.agent a).lowRounds = (s.agent a).lowRounds + 1
          ∧ ((s.agent a).lowRounds = 1 → Emitted (.conc c)
              { source := srcId 0 a, kind := 0x28, sev := 1,
                addr := BitVec.ofNat 48 (s.marginOf (s.build.dieOfAgent a) n % 2 ^ 16) } s t)))
    ∧ (∀ c : Nat, Completes (.marginWindowDone c []) s fun t => t = s.fresh)
    ∧ (∀ (h : HubId) (n p : Nat), s.hubUp h = true → s.pastStage0 = true → (s.hub h).fallback = false →
        (980 ≤ n → n ≤ 1020 → Completes (.kclkCheckWindow h n) s fun t => (t.hub h).badKclk = 0 ∧ (t.hub h).fallback = false)
        ∧ (n < 980 ∨ 1020 < n → (s.hub h).badKclk = 0 → Completes (.kclkCheckWindow h n) s fun t =>
            (t.hub h).badKclk = 1 ∧ (t.hub h).fallback = false ∧ (t.hub h).reel = (s.hub h).reel)
        ∧ (n < 980 ∨ 1020 < n → (s.hub h).badKclk ≠ 0 → srcPos (srcId 4 Config.kclkChannel.toNat) = some p →
            Completes (.kclkCheckWindow h n) s fun t => (t.hub h).fallback = true
              ∧ ((t.hub h).sticky.get 0 (p / 32)).getLsbD (p % 32) = true))
    ∧ (∀ l : BitVec 24, l = BitVec.ofNat 24 ((List.range s.build.dies).foldl (fun n d => n + s.curbLevel d * 2 ^ (3 * d)) 0) →
        (l = s.curbPort.level → Completes .curbCombine s fun t => t = s.fresh)
        ∧ (l ≠ s.curbPort.level → Completes .curbCombine s fun t => t.curbPort = { level := l, toggle := !s.curbPort.toggle }
            ∧ t.out = [.curb l (!s.curbPort.toggle)]))

/-- What a round does at a die's temperature. At T_CRIT or above the die asks, requests 7 and is curbed at 7. From
T_WARN on it asks at the level of R298 and its grace begins, with no curb yet; once the grace has ended the curb is
the request inside its band. Below T_WARN less the hysteresis the ask and the request end, and, where no refusal of the
release is kept, a lone hub releases the curb; a leader with a twin proposes its release and leaves the curb as it is. -/
def Obligations.TheThermalStep : Prop :=
  ∀ (s : State) (h : HubId) (d : Nat) (x : Int) (t0 : DieThermal), t0 = (s.hub h).thermal.get {} d →
    (s.tCrit d ≤ x → (((s.roundStep h d x).hub h).thermal.get {} d).curb = 7
      ∧ (((s.roundStep h d x).hub h).thermal.get {} d).req = 7 ∧ (((s.roundStep h d x).hub h).thermal.get {} d).ask = true)
    ∧ (x < s.tCrit d → s.tWarn d ≤ x → t0.ask = false →
        ((s.roundStep h d x).hub h).thermal.get {} d
          = { t0 with ask := true, req := s.reqLevel d x, graceEnd := s.now + s.tGrace d })
    ∧ (x < s.tCrit d → s.tWarn d ≤ x → t0.ask = true → t0.curb = 0 → t0.graceEnd ≤ s.now →
        (((s.roundStep h d x).hub h).thermal.get {} d).curb = min s.bands.curbHi (max s.bands.curbLo (s.reqLevel d x)))
    ∧ (x < s.tCrit d → x < s.tWarn d - s.tHyst d → t0.ask = true →
        (((s.roundStep h d x).hub h).thermal.get {} d).ask = false ∧ (((s.roundStep h d x).hub h).thermal.get {} d).req = 0
        ∧ (h = s.twin.leader → s.pairUp = false → (∀ e ∈ s.twin.refused, e.1 ≠ .lowerCurb d) →
          s.twin.answer ≠ some (.lowerCurb d, false) → (((s.roundStep h d x).hub h).thermal.get {} d).curb = 0)
        ∧ (h = s.twin.leader → s.pairUp = true → 0 < t0.curb → (∀ e ∈ s.twin.refused, e.1 ≠ .lowerCurb d) →
          s.twin.answer ≠ some (.lowerCurb d, false) → .lowerCurb d ∈ (s.roundStep h d x).twin.proposals
          ∧ (((s.roundStep h d x).hub h).thermal.get {} d).curb = t0.curb))

/-- The frames of the cross-link. HELLO carries a hub's self-test and the tested-hub field of the most recent valid
persistence copy to the other in stage 2. A hub that talks sends a heart where it has nothing else that it could
send; a good frame is a sign of life and acknowledges frames, one with a bad CRC or a reserved type is counted;
frames not acknowledged are sent again in order 512 ns after the oldest was sent; the link may retrain. A cut numbers
both digests and sends them, behind a PROPOSE that can go and not at all while the link carries no frames; a first
difference is only remembered and a second in a row is KIND 0x18 and starts a merge; a hub that merges sends its items
of each section that differs, which wait for their turn where the window is full. -/
def Obligations.FramesOfTheCrossLink : Prop :=
  ∀ s : State, s.rstL = false →
    (∀ (h : HubId) (st : Bool),
      (s.stage = some 2 → s.build.hubs = 2 → s.xlinkOn = true → s.canSend h = true → Completes (.hello h st) s fun t =>
        FrameHeld h .hello s t ∧ t.out.length = 1 ∧ (t.hub h).selfTest = ((s.hub h).selfTest && st)
        ∧ (h = .a → t.twin.helloB = some (st, s.testedField)) ∧ (h = .b → t.twin.helloA = some (st, s.testedField)))
      ∧ (s.stage ≠ some 2 → Completes (.hello h st) s fun t => t = s.fresh))
    ∧ (∀ h : HubId,
        (s.pairTalks = true → s.firstClass h = 3 ∨ s.canSend h = false → Completes (.heartSend h) s fun t =>
          (∃ f, t.out = [.frame h f] ∧ FrameOk .heart f ∧ frameAck f = (s.xsend h).got) ∧ (t.xsend h).lastSent = t.now
          ∧ (s.xsend h).lastSent + 256 ≤ t.now ∧ (t.xsend h).unacked = (s.xsend h).unacked)
        ∧ (s.pairTalks = true → s.firstClass h ≠ 3 → s.canSend h = true → Completes (.heartSend h) s fun t => t = s.fresh)
        ∧ (s.pairTalks = false → Completes (.heartSend h) s (fun t => t = s.fresh) ∧ Completes .crossLinkRetrain s (fun t => t = s.fresh)
            ∧ Completes (.sections h) s (fun t => t = s.fresh))
        ∧ (s.pairUp = false ∨ s.clock.running = false → Completes .digestCut s (fun t => t = s.fresh)))
    ∧ (∀ (h : HubId) (f : BitVec 256), s.hubBuilt (twinHub h) = true → s.hubUp h = true →
        (frameGood f = true → frameType f ≠ .reserved → Completes (.xlinkFrameReceive h f) s fun t =>
          (t.xsend h).lastGood = s.now
          ∧ (∃ l, (t.xsend h).unacked = dropAcked (frameAck f) (s.xsend h).unacked ++ l ∧ ((s.xsend h).wait = [] → l = []))
          ∧ (heldFrame (frameType f) = true → frameSeq f = (s.xsend h).got + 1 → (t.xsend h).got = frameSeq f)
          ∧ (heldFrame (frameType f) = false ∨ frameSeq f ≠ (s.xsend h).got + 1 → (t.xsend h).got = (s.xsend h).got))
        ∧ (frameGood f = true → frameType f = .reserved → Completes (.xlinkFrameReceive h f) s fun t =>
            (t.xsend h).lastGood = s.now ∧ (t.xsend h).unacked = (s.xsend h).unacked
            ∧ (t.hub h).xlinkBadFrames = satInc (s.hub h).xlinkBadFrames)
        ∧ (frameGood f = false → Completes (.xlinkFrameReceive h f) s fun t =>
            (t.hub h).xlinkBadFrames = satInc (s.hub h).xlinkBadFrames ∧ t.xlink = s.xlink))
    ∧ (∀ (h : HubId) (x : XFrame) (r : List XFrame), s.xlinkOn = true → s.hubUp h = true → (s.xsend h).unacked = x :: r →
        Completes (.xlinkResend h) s fun t => x.at_ + 512 ≤ t.now ∧ t.out = (x :: r).map (fun e => .frame h e.bits)
          ∧ (t.xsend h).unacked = (x :: r).map (fun e => { e with at_ := t.now }) ∧ (t.xsend h).lastSent = t.now)
    ∧ (∀ h : HubId, (s.xsend h).unacked = [] → Completes (.xlinkResend h) s fun t => t = s.fresh)
    ∧ (s.pairTalks = true → Completes .crossLinkRetrain s fun t => t.xlink.retraining = true ∧ t.xlink.tries = 0 ∧ t.xlinkOn = false)
    ∧ (s.pairUp = true → s.clock.running = true → s.busyWith 0xA = false → Completes .digestCut s fun t =>
        t.twin.cutSeq = s.twin.cutSeq + 1 ∧ t.twin.cutA = t.stateDigest .a ∧ t.twin.cutB = t.stateDigest .b
        ∧ (s.clock.hold = none → t.clk % 1024 = 0)
        ∧ (s.xlinkOn = true → (∀ h, s.firstClass h ≠ 0 ∧ (s.xsend h).wait = []) →
          ∃ f g, t.out = [.frame .a f, .frame .b g] ∧ FrameOk .digest f ∧ FrameOk .digest g)
        ∧ (∀ h, s.xlinkOn = true → s.firstClass h = 0 → s.canSend h = true → ∃ v : Nat, (t.xsend h).cut = some [t.twin.cutSeq.toNat, v])
        ∧ (s.xlinkOn = false → t.out = [] ∧ ∀ h, (t.xsend h).cut = none))
    ∧ (∀ (h : HubId) (v own : W64), s.pairTalks = true → own = (match h with | .a => s.twin.cutA | .b => s.twin.cutB) →
        (s.xsend (twinHub h)).cut = none →
        (v = own → Completes (.digest h s.twin.cutSeq v) s fun t => (t.hub h).digestMiss = 0 ∧ (t.hub h).merging = false
          ∧ (t.hub h).reel = (s.hub h).reel)
        ∧ (v ≠ own → (s.hub h).digestMiss = 0 → Completes (.digest h s.twin.cutSeq v) s fun t =>
            (t.hub h).digestMiss = 1 ∧ (t.hub h).merging = (s.hub h).merging ∧ (t.hub h).reel = (s.hub h).reel)
        ∧ (v ≠ own → 0 < (s.hub h).digestMiss → (s.hub h).merging = false → (s.hub h).afterS4 = none →
            Completes (.digest h s.twin.cutSeq v) s fun t => (t.hub h).merging = true
              ∧ (t.hub h).digestMismatches = satInc (s.hub h).digestMismatches
              ∧ (t.hub h).newest.kind = 0x18#8 ∧ (t.hub h).newest.source = twinSrc h)
        ∧ (∀ seq, seq ≠ s.twin.cutSeq → Completes (.digest h seq v) s fun t => t = s.fresh))
    ∧ (∀ h : HubId, s.pairTalks = true →
        ((s.hub h).merging = false → Completes (.sections h) s fun t => t = s.fresh)
        ∧ (s.waits (twinHub h) .sections = true → Completes (.sections h) s fun t => t = s.fresh)
        ∧ ((s.hub h).merging = true → s.waits (twinHub h) .sections = false → (s.xsend h).cut = none →
          ((s.xsend h).unacked.length + s.differing.length ≤ 16 → (s.xsend h).wait = [] → s.firstClass h ≠ 0 →
            Completes (.sections h) s fun t => t.out.length = s.differing.length ∧ ∀ y ∈ t.out, ∃ f, y = .frame h f ∧ FrameOk .items f)
          ∧ (s.canSend h = false → Completes (.sections h) s fun t =>
              t.out = [] ∧ (t.xsend h).wait.length = (s.xsend h).wait.length + s.differing.length)))

/-- ITEMS, PROPOSE, CONSENT, REFUSE, MIRROR and REG_WRITE. The items of a section make the receiving hub at least as
restrictive as the sender: a fault state or lame where either has it, fenced and aborted where either is, the higher
curb, every flag of a paddock entry of a unit that is not fenced. A proposal is answered from the follower's own state;
consent lets the leader act where its own state still allows it, a release by the T_WARN and T_HYST of its last round; a
refusal is KIND 0x18 and counted, stands while the follower's state is the same, ends a command TWIN_DISAGREE and turns
a settle into poison, in the follower's poisoning code where it has one; a hub alone takes what had been proposed. A
mirrored entry is recorded with TWIN and applied by its severity, one of KIND 0x13 as the disagreement that it reports, a
mirrored abort enters the FIFO, and a mirrored write takes effect at the other hub. -/
def Obligations.MergesMirrorsAndConsent : Prop :=
  ∀ s : State, s.rstL = false →
    (∀ (x : RelaxAction) (own : Option Nat), s.pairUp = false → x ∈ s.twin.proposals → s.twin.answer ≠ some (x, false) →
      Completes (.propose x own) s fun t => x ∉ t.twin.proposals ∧ t.twin.answer = s.twin.answer
        ∧ ∀ p, x = .unfence p → (s.ld.src p).fault = true → s.stopped = false → (s.ld.src p).recovery + 1 < s.grpL (posGroup p) →
            posGroup p ≠ 0 ∨ s.standins = [] → (t.ld.src p).fault = false)
    ∧ (∀ (x : RelaxAction) (own : Option Nat), s.pairUp = false → x ∉ s.twin.proposals ∨ s.twin.answer = some (x, false) →
      Completes (.propose x own) s fun t => t = s.fresh)
    ∧ (s.pairTalks = true →
    (∀ h : HubId, (s.hub h).merging = true → s.waits (twinHub h) .items = false →
      Completes (.items h .faults) s (fun t => ∀ p, ((s.hub (twinHub h)).src p).fault = true ∨ ((s.hub h).src p).fault = true →
          ((t.hub h).src p).fault = true ∨ ((t.hub h).src p).lame = true)
      ∧ Completes (.items h .lame) s (fun t => ∀ p, ((s.hub (twinHub h)).src p).lame = true ∨ ((s.hub h).src p).lame = true →
          ((t.hub h).src p).lame = true)
      ∧ Completes (.items h .fences) s (fun t => ∀ a, (∃ e ∈ (s.hub (twinHub h)).fences ++ (s.hub h).fences, e.1 = a) →
          ∃ e ∈ (t.hub h).fences, e.1 = a)
      ∧ Completes (.items h .aborted) s (fun t => ∀ j, j ∈ (s.hub (twinHub h)).aborted ∨ j ∈ (s.hub h).aborted → j ∈ (t.hub h).aborted)
      ∧ Completes (.items h .curb) s (fun t => ∀ d, d < s.build.dies →
          t.curbAt h d = max (s.curbAt h d) (s.curbAt (twinHub h) d))
      ∧ ((s.hub (twinHub h)).st = .stopped → (s.hub h).st ≠ .stopped → Completes (.items h .hubState) s fun t => (t.hub h).s4 = true)
      ∧ (∀ (i j : Nat) (e : PadEntry), (s.hub (twinHub h)).paddock.entries = [(i, e)] → e.valid = true →
          (s.hub h).padSlot e.agent = some j → (s.hub h).fences? e.agent = false → Completes (.items h .paddock) s fun t =>
            ((t.hub h).paddock.get {} j).clean = min ((s.hub h).paddock.get {} j).clean e.clean
            ∧ ((t.hub h).paddock.get {} j).events = max ((s.hub h).paddock.get {} j).events e.events
            ∧ ((t.hub h).paddock.get {} j).due = min ((s.hub h).paddock.get {} j).due e.due
            ∧ ((t.hub h).paddock.get {} j).tile = (((s.hub h).paddock.get {} j).tile || e.tile)
            ∧ ((t.hub h).paddock.get {} j).agentSus = (((s.hub h).paddock.get {} j).agentSus || e.agentSus)
            ∧ ((t.hub h).paddock.get {} j).gap = (((s.hub h).paddock.get {} j).gap || e.gap)
            ∧ ((t.hub h).paddock.get {} j).dirty = (((s.hub h).paddock.get {} j).dirty || e.dirty))
      ∧ (∀ sec, sec = .retakes ∨ sec = .gates ∨ sec = .frozen ∨ sec = .serial → Completes (.items h sec) s fun t => t = s.fresh))
    ∧ (∀ (h : HubId) (sec : DigestSection), (s.hub h).merging = false ∨ s.waits (twinHub h) .items = true → Completes (.items h sec) s fun t => t = s.fresh)
    ∧ (∀ (x : RelaxAction) (own : Option Nat), x ∈ s.proposable → s.canSend .a = true → s.canSend .b = true →
        Completes (.propose x own) s fun t => t.twin.answer = some (x, s.permits x own) ∧ t.twin.dissent = own
          ∧ t.twin.proposals = s.twin.proposals
          ∧ ((∀ h, (s.xsend h).wait = [] ∧ (s.xsend h).cut = none) → FrameHeld s.twin.leader .propose s t
            ∧ FrameHeld (twinHub s.twin.leader) (if s.permits x own then .consent else .refuse) s t ∧ t.out.length = 2))
    ∧ (∀ (x : RelaxAction) (own : Option Nat), x ∉ s.proposable → Completes (.propose x own) s fun t => t = s.fresh)
    ∧ (∀ x : RelaxAction, s.twin.answer = some (x, true) → s.mirrorFull s.twin.leader = false → Completes .consent s fun t =>
        t.twin.answer = none ∧ x ∉ t.twin.proposals
        ∧ (∀ (d : Nat) (v r : Int), x = .lowerCurb d → s.dieTemp s.twin.leader d = some v → (s.ld.thermal.get {} d).release = some r →
            (s.stopped = false → v < r → ∀ h, s.hubUp h = true → t.curbAt h d = 0)
            ∧ (s.stopped = true ∨ r ≤ v → ∀ h k, t.curbAt h k = s.curbAt h k))
        ∧ (∀ d : Nat, x = .lowerCurb d → s.dieTemp s.twin.leader d = none → ∀ h k, t.curbAt h k = s.curbAt h k))
    ∧ (s.mirrorFull s.twin.leader = true → Completes .consent s fun t => t = s.fresh)
    ∧ (∀ x : RelaxAction, s.twin.answer = some (x, false) → Completes .consent s (fun t => t = s.fresh)
        ∧ Completes .refuse s (fun t => t.twin.answer = none ∧ x ∉ t.twin.proposals
          ∧ (t.hub s.twin.leader).actionDisagree = satInc s.ld.actionDisagree
          ∧ ((∀ n, x ≠ .settle n) → s.ld.afterS4 = none → (t.hub s.twin.leader).newest.kind = 0x18#8)
          ∧ ((∀ n, x ≠ .settle n) → (∀ op, x ≠ .command op) → t.refusalStands x = true)
          ∧ (∀ op, x = .command op → s.busyWith op = true → t.cmd.code = 6)
          ∧ (∀ n, x = .settle n → (s.retake n).used = true → (s.retake n).phase = .proposed →
              (t.retake n).phase = .poisoning ∧ (t.retake n).decision = s.twin.refusedCode)))
    ∧ (s.twin.answer = none → Completes .consent s (fun t => t = s.fresh) ∧ Completes .refuse s (fun t => t = s.fresh))
    ∧ (∀ (h : HubId) (m : Msg) (r : List Msg) (p : Nat), s.canSend (twinHub h) = true → 1 ≤ s.firstClass (twinHub h) →
        (s.xsend (twinHub h)).mirrors = m :: r →
        srcPos m.source = some p → m.kind ≠ 0x16#8 → m.kind ≠ 0x17#8 → Completes (.mirror h) s fun t =>
          FrameHeld (twinHub h) .mirror s t
          ∧ (m.sev = 4#3 → (t.hub h).s4 = true)
          ∧ (m.sev = 3#3 → ((t.hub h).src p).fault = true ∨ ((t.hub h).src p).lame = true)
          ∧ (m.kind = 0x13#8 → m.sev = 1#3 → m.addr.getLsbD 0 = true → ((t.hub h).src p).fault = true ∨ ((t.hub h).src p).lame = true)
          ∧ (m.kind = 0x13#8 → m.sev = 1#3 → m.addr.getLsbD 0 = false → s.ld.fails = [] → ∃ e ∈ (t.hub h).fences, e.1 = p)
          ∧ (m.sev.toNat < 3 → m.kind ≠ 0x13#8 → (s.hub h).afterS4 = none → s.ld.fails = [] → (t.hub h).newest = { m with twin := true }
              ∧ (t.xsend (twinHub h)).mirrors = r ∧ t.out.length = 1))
    ∧ (∀ (h : HubId) (job : Job) (kind : Byte) (r : List (Job × Byte)), s.canSend (twinHub h) = true → 1 ≤ s.firstClass (twinHub h) →
        (s.xsend (twinHub h)).mirrors = [] → (s.xsend (twinHub h)).aborts = (job, kind) :: r →
        (s.job job.toNat).abortRaised = false → (s.job job.toNat).abortHeld = false → Completes (.mirror h) s fun t =>
          FrameHeld (twinHub h) .mirror s t ∧ (t.xsend (twinHub h)).aborts = r ∧ job.toNat ∈ (t.hub h).aborted
          ∧ t.abortFifo = s.abortFifo ++ [{ job := job, kind := kind, stamp := s.clock.count }])
    ∧ (∀ h : HubId, (s.xsend (twinHub h)).mirrors = [] → (s.xsend (twinHub h)).aborts = [] → Completes (.mirror h) s fun t => t = s.fresh)
    ∧ (∀ (h : HubId) (a : BitVec 16) (d : W32) (r : List (BitVec 16 × W32)), s.canSend (twinHub h) = true →
        2 ≤ s.firstClass (twinHub h) → (s.xsend (twinHub h)).writes = (a, d) :: r → Completes (.regWrite h) s fun t =>
          (t.xsend (twinHub h)).writes = r ∧ FrameHeld (twinHub h) .regWrite s t
          ∧ (a = 0x24#16 → (t.hub h).regs.arg0 = d) ∧ (a = 0x38#16 → (t.hub h).irq = (s.hub h).irq &&& ~~~d))
    ∧ (∀ h : HubId, s.firstClass (twinHub h) < 2 ∨ (s.xsend (twinHub h)).writes = [] → Completes (.regWrite h) s fun t => t = s.fresh))

/-- TWIN_SILENCE, TWIN_ARBITRATION, ALIVE_CLAIM_GRANT, HUB_STROBE and ALIVE_BOUNDARY. A silent twin is KIND 0x19 and a
claim. The cell grants the one claim, of two the first that it samples, and in one KCLK cycle the leader's: every
trot-up is abandoned, a refusal stands where the leader survives, and a RETIRE_TWIN that waits is decided. An
arbitration reports both self-tests on the cross-link, detaches the hub that fails, the follower where none does, and
stops both where both do; the survivor leads and serves alone. ALIVE toggles at a
boundary after a strobe while no S4 is recorded, and otherwise stops for good. -/
def Obligations.SilenceArbitrationAndTheAliveCell : Prop :=
  ∀ s : State, s.rstL = false →
    (∀ h : HubId,
      (s.pairUp = true → Completes (.twinSilence h) s fun t => (s.xsend h).lastGood + 4000 ≤ t.now ∧ t.twin.arbitration = false
        ∧ ((s.hub h).afterS4 = none → (t.hub h).newest.kind = 0x19#8 ∧ (t.hub h).newest.source = twinSrc h)
        ∧ (h = .a → t.alive.claimA = true ∧ t.alive.claimB = s.alive.claimB)
        ∧ (h = .b → t.alive.claimB = true ∧ t.alive.claimA = s.alive.claimA))
      ∧ (s.pairUp = false → Completes (.twinSilence h) s fun t => t = s.fresh))
    ∧ (s.pairUp = true → s.alive.claimA = true → s.alive.claimB = true → s.alive.claimAtA / 40 = s.alive.claimAtB / 40 →
        Completes .aliveClaimGrant s fun t =>
        t.hubUp (twinHub s.twin.leader) = false ∧ t.twin.leader = s.twin.leader ∧ t.twin.serving = s.twin.leader
        ∧ t.pairUp = false ∧ t.alive.granted = some s.twin.leader ∧ t.test.trots = []
        ∧ t.twin.answer = s.twin.answer.filter (fun x => !x.2)
        ∧ (s.busyWith 0xA = true → t.cmd.code = if s.twin.leader = s.cmd.named then 6 else 0))
    ∧ (s.pairUp = true → s.alive.claimA = true → s.alive.claimB = false ∨ s.alive.claimAtA / 40 < s.alive.claimAtB / 40 → Completes .aliveClaimGrant s fun t =>
        t.hubUp .b = false ∧ t.twin.leader = .a ∧ t.twin.serving = .a ∧ t.pairUp = false ∧ t.alive.granted = some .a)
    ∧ (s.pairUp = true → s.alive.claimA = false ∨ s.alive.claimAtB / 40 < s.alive.claimAtA / 40 → s.alive.claimB = true → Completes .aliveClaimGrant s fun t =>
        t.hubUp .a = false ∧ t.twin.leader = .b ∧ t.twin.serving = .b ∧ t.pairUp = false ∧ t.alive.granted = some .b)
    ∧ (s.pairUp = false ∨ (s.alive.claimA = false ∧ s.alive.claimB = false) → Completes .aliveClaimGrant s fun t => t = s.fresh)
    ∧ (s.twin.arbitration = true → s.pairUp = true →
        Completes (.twinArbitration true true) s (fun t => t.hubUp (twinHub s.twin.leader) = false ∧ t.twin.leader = s.twin.leader
          ∧ t.twin.mode = 4 ∧ t.pairUp = false)
        ∧ Completes (.twinArbitration true false) s (fun t => t.hubUp .b = false ∧ t.twin.leader = .a ∧ t.pairUp = false)
        ∧ Completes (.twinArbitration false true) s (fun t => t.hubUp .a = false ∧ t.twin.leader = .b ∧ t.pairUp = false)
        ∧ Completes (.twinArbitration false false) s (fun t => ∀ h, s.hubUp h = true → (t.hub h).s4 = true)
        ∧ (s.pairTalks = true → (∀ h, s.canSend h = true ∧ s.firstClass h ≠ 0 ∧ (s.xsend h).wait = []) → ∀ pa pb : Bool,
            Completes (.twinArbitration pa pb) s fun t => ∀ h, ∃ f, .frame h f ∈ t.out ∧ FrameOk .hello f))
    ∧ (∀ pa pb : Bool, s.twin.arbitration = false ∨ s.pairUp = false → Completes (.twinArbitration pa pb) s fun t => t = s.fresh)
    ∧ (∀ h : HubId,
        (s.hubUp h = true → (s.hub h).st ≠ .failedBringup → Completes (.hubStrobe h) s fun t =>
          t = { s.fresh with alive := { s.alive with strobed := true } })
        ∧ (s.hubUp h = false ∨ (s.hub h).st = .failedBringup → Completes (.hubStrobe h) s fun t => t = s.fresh))
    ∧ (s.alive.started = false → Completes .aliveBoundary s fun t => t = s.fresh)
    ∧ (s.alive.started = true → Completes .aliveBoundary s fun t => s.alive.lastEdge + s.alivePeriod / 2 ≤ t.now
        ∧ t.alive.strobed = false ∧ t.alive.lastEdge = t.now
        ∧ (s.alive.stopped = false → s.alive.strobed = true → s.anyS4 = false →
            t.alive.level = !s.alive.level ∧ t.alive.stopped = false ∧ t.out = [.alive (!s.alive.level)])
        ∧ (s.alive.stopped = true ∨ s.alive.strobed = false ∨ s.anyS4 = true →
            t.alive.level = s.alive.level ∧ t.alive.stopped = true ∧ t.out = [])
        ∧ (s.alive.stopped = false → s.alive.strobed = false → s.pastStage0 = true → t.fltAsserted = true))

/-- ENTDAA, SETDASA, RSTDAA, ENEC, DISEC, GETPID, GETBCR, GETDCR, GETSTATUS, GETMRL, GETMWL, SETMRL and SETMWL. A target
without an address takes one by ENTDAA where it has no static address, else by SETDASA; RSTDAA clears it and keeps
the held events. An addressed target answers its identity, characteristics and lengths; SETMRL and SETMWL accept 69
to 256. Nothing else changes, and an unaddressed target does not answer. GETSTATUS answers some word (the spec gives
none), and the bits of ENEC and DISEC are the family's (log 24). -/
def Obligations.TheI3CTarget : Prop :=
  ∀ s : State, s.rstL = false →
    (∀ a : BitVec 7,
      (s.mgmtOn = true → s.staticAddr = 0 → s.mgmt.dynAddr = 0 → Completes (.entdaa a) s fun t =>
        t = { s with mgmt := { s.mgmt with dynAddr := a }, out := [.mgmt (.i3cPid s.pid)] })
      ∧ (s.mgmtOn = true → s.staticAddr ≠ 0 → s.mgmt.dynAddr = 0 → Completes (.setdasa a) s fun t =>
        t = { s with mgmt := { s.mgmt with dynAddr := a }, out := [.mgmt .i3cAck] })
      ∧ (s.mgmtOn = false ∨ s.staticAddr ≠ 0 ∨ s.mgmt.dynAddr ≠ 0 → Completes (.entdaa a) s fun t => t = s.fresh)
      ∧ (s.mgmtOn = false ∨ s.staticAddr = 0 ∨ s.mgmt.dynAddr ≠ 0 → Completes (.setdasa a) s fun t => t = s.fresh))
    ∧ (s.mgmtOn = true → Completes .rstdaa s fun t =>
        t = { s with mgmt := { s.mgmt with dynAddr := 0 }, out := [.mgmt .i3cAck] } ∧ t.addressed = false
        ∧ t.mgmt.events = s.mgmt.events ∧ t.mgmt.polled = s.mgmt.polled)
    ∧ (s.mgmtOn = false → Completes .rstdaa s fun t => t = s.fresh)
    ∧ (∀ e : Byte,
        Completes (.enec e) s (fun t => ∃ i j : Bool, t = { s.fresh with mgmt := { s.mgmt with eventsOn := i, hotJoinOn := j } }
          ∧ i = (s.mgmt.eventsOn || e.getLsbD 0) ∧ j = (s.mgmt.hotJoinOn || e.getLsbD 3))
        ∧ Completes (.disec e) s (fun t => ∃ i j : Bool, t = { s.fresh with mgmt := { s.mgmt with eventsOn := i, hotJoinOn := j } }
          ∧ i = (s.mgmt.eventsOn && !e.getLsbD 0) ∧ j = (s.mgmt.hotJoinOn && !e.getLsbD 3)))
    ∧ (s.addressed = true →
        Completes .getpid s (fun t => t = { s with out := [.mgmt (.i3cPid s.pid)] })
        ∧ Completes .getbcr s (fun t => t = { s with out := [.mgmt (.i3cByte 0x06#8)] })
        ∧ Completes .getdcr s (fun t => t = { s with out := [.mgmt (.i3cByte 0x00#8)] })
        ∧ Completes .getstatus s (fun t => ∃ w : BitVec 16, t = { s with freeCtr := s.freeCtr + 1, out := [.mgmt (.i3cWord w)] })
        ∧ Completes .getmrl s (fun t => t = { s with out := [.mgmt (.i3cWord s.mgmt.mrl)] })
        ∧ Completes .getmwl s (fun t => t = { s with out := [.mgmt (.i3cWord s.mgmt.mwl)] })
        ∧ ∀ n : BitVec 16,
          (69 ≤ n.toNat → n.toNat ≤ 256 →
            Completes (.setmrl n) s (fun t => t = { s with mgmt := { s.mgmt with mrl := n }, out := [.mgmt .i3cAck] })
            ∧ Completes (.setmwl n) s (fun t => t = { s with mgmt := { s.mgmt with mwl := n }, out := [.mgmt .i3cAck] }))
          ∧ (n.toNat < 69 ∨ 256 < n.toNat →
            Completes (.setmrl n) s (fun t => t.mgmt = s.mgmt) ∧ Completes (.setmwl n) s (fun t => t.mgmt = s.mgmt)))
    ∧ (s.addressed = false → ∀ n : BitVec 16, ∀ c ∈ [Instr.getpid, .getbcr, .getdcr, .getstatus, .getmrl, .getmwl, .setmrl n, .setmwl n],
        Completes c s fun t => t = s.fresh)

/-- The MCTP control, PLDM discovery, sensor and PDR commands. An addressed endpoint answers the MCTP control commands
and the PLDM commands of the tables with their constants and its state; an unknown control command, PLDM command or
PLDM type is answered with its error code and a message of another type is counted. Set Endpoint ID is accepted in
every case, SetTID for every TID but 0x00 and 0xFF. Every answer leaves in packets of at most 64 bytes, and the
terminus locator's PDR carries the public key (the model's choice, log 114). The completion code 0 of a success, and any completion code that
R401 and R402 do not give, is not the spec's; the statement names the first as the model's and leaves the others
free. -/
def Obligations.AnswersOfTheEndpoint : Prop :=
  ∀ s : State, s.rstL = false →
    (s.addressed = true →
      (Completes .mctpDiscard s fun t => (t.hub s.twin.serving).mctpDiscarded = satInc s.sv.mctpDiscarded ∧ t.mgmt = s.mgmt ∧ t.out = [])
      ∧ (∀ e : Byte, Completes (.setEndpointId e) s fun t => t = { s with mgmt := { s.mgmt with eid := e }, out := mctpOut (.completion 0) })
      ∧ (Completes .getEndpointId s fun t => ∃ b : Bool, t = { s with out := mctpOut (.mctpEid s.mgmt.eid 0 b) }
          ∧ (b = true ↔ s.mgmtRec.fld 1 15 8 ≠ 0 ∧ s.mgmt.eid.toNat = s.mgmtRec.fld 1 15 8))
      ∧ (Completes .getEndpointUuid s fun t => t = { s with out := mctpOut (.mctpUuid 0x7A34#16 s.keys.chipId) })
      ∧ (∀ y : Byte, y ∈ [0xFF#8, 0x00#8, 0x01#8] →
          Completes (.getMctpVersionSupport y) s fun t => t = { s with out := mctpOut (.mctpVersion 1 3 1) })
      ∧ (∀ y : Byte, y ∉ [0xFF#8, 0x00#8, 0x01#8] →
          Completes (.getMctpVersionSupport y) s fun t => ∃ c : Byte, t = { s with out := mctpOut (.completion c) })
      ∧ (Completes .getMessageTypeSupport s fun t => t = { s with out := mctpOut (.mctpTypes [0x00#8, 0x01#8]) })
      ∧ (∀ c : Byte, c = 0#8 ∨ 5 < c.toNat →
          Completes (.errorUnsupportedCmd c) s fun t => t = { s with out := mctpOut (.completion 0x05#8) })
      ∧ (∀ d : Byte, d ≠ 0x00#8 → d ≠ 0xFF#8 → Completes (.setTid d) s fun t =>
          t = { s with mgmt := { s.mgmt with tid := d }, out := mctpOut (.completion 0) })
      ∧ (∀ d : Byte, d = 0x00#8 ∨ d = 0xFF#8 → Completes (.setTid d) s fun t => t.mgmt = s.mgmt)
      ∧ (Completes .getTid s fun t => t = { s with out := mctpOut (.pldmTid s.mgmt.tid) })
      ∧ (Completes (.getPldmVersion 0#8) s fun t => t = { s with out := mctpOut (.pldmVersion 1 0 0) })
      ∧ (Completes (.getPldmVersion 2#8) s fun t => t = { s with out := mctpOut (.pldmVersion 1 3 0) })
      ∧ (Completes .getPldmTypes s fun t => t = { s with out := mctpOut (.pldmTypes [0#8, 2#8]) })
      ∧ (Completes (.getPldmCommands 0#8) s fun t =>
          t = { s with out := mctpOut (.pldmCommands [0x01#8, 0x02#8, 0x03#8, 0x04#8, 0x05#8]) })
      ∧ (Completes (.getPldmCommands 2#8) s fun t =>
          t = { s with out := mctpOut (.pldmCommands [0x04#8, 0x05#8, 0x0B#8, 0x0C#8, 0x0D#8, 0x11#8, 0x21#8, 0x50#8, 0x51#8]) })
      ∧ (∀ y c : Byte, (y = 0#8 ∨ y = 2#8) → c ∉ pldmCommands y →
          Completes (.errorUnsupportedPldmCmd y c) s fun t => t = { s with out := mctpOut (.completion 0x05#8) })
      ∧ (∀ y c : Byte, y ≠ 0#8 → y ≠ 2#8 →
          Completes (.errorUnsupportedPldmCmd y c) s fun t => t = { s with out := mctpOut (.completion 0x20#8) })
      ∧ (∀ d : Nat, d < 8 → Build.dieUsed s.build d = true →
          Completes (.getSensorReading (BitVec.ofNat 16 (0x01 + d))) s (fun t =>
            t = { s with out := mctpOut (.sensor (s.dieTemp s.twin.serving d)) })
          ∧ Completes (.getSensorReading (BitVec.ofNat 16 (0x21 + d))) s (fun t =>
            t = { s with out := mctpOut (.sensor (some (s.curbShown d : Int))) })
          ∧ Completes (.getSensorReading (BitVec.ofNat 16 (0x31 + d))) s (fun t =>
            t = { s with out := mctpOut (.sensor ((s.lowestMargin d).map (fun m => (m : Int)))) }))
      ∧ (∀ i c : Nat, i < 2 → (s.chansOf 3)[i]? = some c → Completes (.getSensorReading (BitVec.ofNat 16 (0x11 + i))) s fun t =>
          t.mgmt = s.mgmt
          ∧ ((s.sv.chans.get {} c).stale = true ∨ (s.sv.src (4384 + c)).fault = true ∨ (s.sv.src (4384 + c)).lame = true → t.out = mctpOut (.sensor none))
          ∧ ((s.sv.chans.get {} c).stale = false → (s.sv.src (4384 + c)).fault = false → (s.sv.src (4384 + c)).lame = false →
              t.out = mctpOut (.sensor (some ((s.sv.chans.get {} c).value.toNat : Int)))))
      ∧ (Completes (.getSensorReading 0x102#16) s fun t =>
          t = { s with out := mctpOut (.sensor (some ((s.enabledAgents.filter (fun a => !(s.sv.src a).lame)).length : Int))) })
      ∧ (Completes (.getSensorReading 0x103#16) s fun t =>
          t = { s with out := mctpOut (.sensor (some ((s.sv.srcs.entries.filter (fun e => e.2.lame)).length : Int))) })
      ∧ (Completes (.getSensorReading 0x104#16) s fun t =>
          t = { s with out := mctpOut (.sensor (some ((s.sv.paddock.entries.filter (fun e => e.2.valid)).length : Int))) })
      ∧ (Completes (.getStateSensorReadings 0x100#16) s fun t => t = { s with out := mctpOut (.stateSensor (some (s.sv.st.code + 1))) })
      ∧ (Completes (.getStateSensorReadings 0x101#16) s fun t => t = { s with out := mctpOut (.stateSensor (some (s.twin.mode + 1))) })
      ∧ (Completes .getPdrRepositoryInfo s fun t => t = { s with out := mctpOut (.pdrInfo (s.sensors.length + 1)) })
      ∧ (Completes (.getPdr 0) s fun t => t = { s with out := mctpOut (.pdrLocator s.keys.pubX s.keys.pubY) })
      ∧ (∀ i x : Nat, s.sensors[i]? = some x → Completes (.getPdr (i + 1)) s fun t =>
          (x = 0x100 ∨ x = 0x101 → t = { s with out := mctpOut (.pdrState (BitVec.ofNat 16 x)) })
          ∧ (x ≠ 0x100 → x ≠ 0x101 →
              t = { s with out := mctpOut (.pdrNumeric (BitVec.ofNat 16 x) (sensorUnit x).1 (sensorUnit x).2 (s.thresholds x)) })))
    ∧ (s.addressed = false → ∀ b d : Byte, ∀ n : BitVec 16, ∀ i : Nat,
        ∀ c ∈ [Instr.mctpDiscard, .setEndpointId b, .getEndpointId, .getEndpointUuid, .getMctpVersionSupport b,
          .getMessageTypeSupport, .errorUnsupportedCmd b, .setTid b, .getTid, .getPldmVersion b, .getPldmTypes, .getPldmCommands b,
          .errorUnsupportedPldmCmd b d, .getSensorReading n, .getStateSensorReadings n, .getPdrRepositoryInfo, .getPdr i],
        Completes c s fun t => t = s.fresh)

/-- SetEventReceiver, GetEventReceiver, EVENT_SEND, EVENT_ACKNOWLEDGED, EVENT_RESEND_TIMEOUT, HEARTBEAT_TIMER and
PollForPlatformEventMessage. The oldest event goes to the receiver, or is announced with a poll event and held where
it is larger than the receiver's size; an event without a response is sent again up to 3 times and then held; an
acknowledged or fully polled event is released, its daily leaves both stores and the serving hub counts it. A poll
answers the oldest held event in parts of 240 bytes. The completion code 0 of an accepted setting, and the code of a
refused one, are the model's. -/
def Obligations.EventsAndPolls : Prop :=
  ∀ s : State, s.rstL = false →
    (∀ (m : EventMode) (e : Byte) (n : Nat), s.addressed = true →
      ((m = .keepAlive → 10 ≤ n ∧ n ≤ 3600) → Completes (.setEventReceiver m e n) s fun t =>
        t = { s with mgmt := { s.mgmt with receiver := true, mode := m, receiverEid := e, heartbeat := n, heartbeatAt := s.now },
                     out := mctpOut (.completion 0) })
      ∧ (m = .keepAlive → n < 10 ∨ 3600 < n → Completes (.setEventReceiver m e n) s fun t => t.mgmt = s.mgmt))
    ∧ (s.addressed = true →
        Completes .getEventReceiver s (fun t =>
          t = { s with out := mctpOut (.receiver s.mgmt.mode s.mgmt.receiverEid s.mgmt.heartbeat) })
        ∧ Completes .eventMessageSupported s (fun t => t = { s with out := mctpOut (.eventClasses [0x00#8, 0x04#8, 0x05#8, 0x06#8, 0x07#8]) })
        ∧ (∀ n : Nat, Completes (.eventMessageBufferSize n) s fun t =>
          t = { s with mgmt := { s.mgmt with bufferSize := n }, out := mctpOut (.bufferSize 256) }))
    ∧ (∀ (e : MgmtEvent) (r : List MgmtEvent), s.addressed = true → s.mgmt.sends = true → s.mgmt.inFlight = none →
        s.mgmt.events = e :: r → Completes .eventSend s fun t =>
          (e.size ≤ s.mgmt.bufferSize →
            t.mgmt = { s.mgmt with events := r, inFlight := some e, resends := 0, sentAt := s.now }
            ∧ t.out = (if s.mgmt.eventsOn then [.ibi Config.mctpMdb] else []) ++ [.event e, .mctp (packetSizes e.size)])
          ∧ (s.mgmt.bufferSize < e.size → t.mgmt.events = r ∧ t.mgmt.inFlight = some .pollNotice
            ∧ (e ≠ .pollNotice → s.dailyOf e = none → t.mgmt.polled = s.mgmt.polled ++ [e])
            ∧ (∀ d : Daily, s.dailyOf e = some d →
                t.mgmt.polled = if d.trigger.sev = 4#3 then e :: s.mgmt.polled else s.mgmt.polled ++ [e])
            ∧ t.out = (if s.mgmt.eventsOn then [.ibi Config.mctpMdb] else []) ++ [.pollEvent e, .mctp (packetSizes MgmtEvent.pollNotice.size)]))
    ∧ (s.addressed = false ∨ s.mgmt.sends = false ∨ s.mgmt.inFlight ≠ none ∨ s.mgmt.events = [] →
        Completes .eventSend s fun t => t = s.fresh)
    ∧ (∀ e : MgmtEvent, s.addressed = true → s.mgmt.inFlight = some e →
        (Completes .eventAcknowledged s fun t => t.mgmt = { s.mgmt with inFlight := none, resends := 0 } ∧ t.out = []
          ∧ (s.dailyOf e = none → t.hubA = s.hubA ∧ t.hubB = s.hubB)
          ∧ (∀ d : Daily, s.dailyOf e = some d →
              (∀ h, (t.hub h).dailies = (s.hub h).dailies.filter (fun x => !sameDaily d x))
              ∧ (t.hub s.twin.serving).dailiesSent = satInc s.sv.dailiesSent))
        ∧ (s.mgmt.resends < 3 → Completes .eventResendTimeout s fun t => s.mgmt.sentAt + 250000000 ≤ t.now
          ∧ t.mgmt = { s.mgmt with resends := s.mgmt.resends + 1, sentAt := t.now } ∧ .event e ∈ t.out)
        ∧ (3 ≤ s.mgmt.resends → e ≠ .pollNotice → Completes .eventResendTimeout s fun t => s.mgmt.sentAt + 250000000 ≤ t.now
          ∧ t.mgmt.inFlight = none ∧ e ∈ t.mgmt.polled ∧ t.mgmt.polled.length = s.mgmt.polled.length + 1 ∧ t.out = []))
    ∧ (s.addressed = false ∨ s.mgmt.inFlight = none →
        Completes .eventAcknowledged s (fun t => t = s.fresh) ∧ Completes .eventResendTimeout s (fun t => t = s.fresh))
    ∧ (s.mgmtOn = true → s.mgmt.receiver = true → s.mgmt.mode = .keepAlive → Completes .heartbeatTimer s fun t =>
        s.mgmt.heartbeatAt + s.mgmt.heartbeat * 1000000000 ≤ t.now
        ∧ t.mgmt = { s.mgmt with heartbeatAt := t.now, events := s.mgmt.events ++ [.heartbeat] })
    ∧ (s.mgmtOn = false ∨ s.mgmt.receiver = false ∨ s.mgmt.mode ≠ .keepAlive → Completes .heartbeatTimer s fun t => t = s.fresh)
    ∧ (s.addressed = true →
        (∀ (e : MgmtEvent) (k : Nat), (k = 0 ∧ s.mgmt.pollable.head? = some e) ∨ (k ≠ 0 ∧ s.mgmt.polling = some e) →
          Completes (.pollForPlatformEventMessage k) s fun t =>
            t.out = mctpOut (.event (some e) k (((s.eventBytes e).drop k).take 240) (decide ((s.eventBytes e).length ≤ k + 240)))
            ∧ (k + 240 < (s.eventBytes e).length → t.mgmt = { s.mgmt with polling := some e })
            ∧ ((s.eventBytes e).length ≤ k + 240 → t.mgmt.polling = none ∧ t.mgmt.polled = s.mgmt.polled.erase e
              ∧ (∀ d : Daily, s.dailyOf e = some d →
                  (∀ h, (t.hub h).dailies = (s.hub h).dailies.filter (fun x => !sameDaily d x))
                  ∧ (t.hub s.twin.serving).dailiesSent = satInc s.sv.dailiesSent)))
        ∧ (∀ k : Nat, (k = 0 ∧ s.mgmt.pollable = []) ∨ (k ≠ 0 ∧ s.mgmt.polling = none) →
          Completes (.pollForPlatformEventMessage k) s fun t => t = { s with out := mctpOut (.event none 0 [] true) }))
    ∧ (∀ k : Nat, s.addressed = false → Completes (.pollForPlatformEventMessage k) s fun t => t = s.fresh)

/-- The stages' order, budgets and failures; identity, keys, pairing and link training. A stage's command acts in its
own stage alone; beyond the stage's budget the stage fails with TIMEOUT and every acting hub enters FAILED_BRINGUP.
Stage 0 makes bad units lame, and an agent that reports another build, whose AG_BUILD is then its report, and starts the
alive cell; the key port
takes the six items in turn, refuses a late, short, long or failing one, and stage 1 derives the keys; stage 2
follows the table of the pairing; a link's attempts use 4, then 2, then 1 lanes, and stage 3 ends once every link has
trained or is down. -/
def Obligations.TheCallSheetUpToTheDieLinks : Prop :=
  ∀ s : State, s.rstL = false →
    (∀ (us : Nat) (l m : List Nat) (x y : Bool) (w v : List W32) (z : Int) (f g : List (Nat × Nat)) (q : List (Nat × Nat × Nat)),
      ∀ p ∈ [(0, Instr.stage0Identity us l m q x y), (1, .stage1Keys us), (2, .stage2Pairing us x y), (3, .stage3DieLinks us),
          (4, .stage4Harness us w v), (6, .stage6LameList us), (7, .stage7Housekeeping us x z f), (8, .stage8KnownAnswer us f g l),
          (10, .stage10Ready us)],
        (s.stage ≠ some p.1 → Completes p.2 s fun t => t = s.fresh)
        ∧ (s.stage = some p.1 → s.stageBudget p.1 < us * 1000 → (p.1 = 3 → s.build.dies ≠ 1) → Completes p.2 s fun t =>
            t.stage = none ∧ (t.stages.get {} p.1).status = 4 ∧ (t.stages.get {} p.1).cause = 1
            ∧ s.stageFrom + s.stageBudget p.1 ≤ t.now ∧ ∀ h, s.hubUp h = true → (t.hub h).st = .failedBringup))
    ∧ (∀ n : Nat, s.stage = some n → n ≠ 9 → Completes .stageBudgetExpiry s fun t =>
        t.stage = none ∧ (t.stages.get {} n).status = 4 ∧ (t.stages.get {} n).cause = 1 ∧ s.stageFrom + s.stageBudget n ≤ t.now
        ∧ (s.cmd.code = 1 → t.cmd.code = 0) ∧ ∀ h, s.hubUp h = true → (t.hub h).st = .failedBringup)
    ∧ (s.stage = none ∨ s.stage = some 9 → Completes .stageBudgetExpiry s fun t => t = s.fresh)
    ∧ (∀ (us : Nat) (ba bc : List Nat) (q : List (Nat × Nat × Nat)) (a b : Bool), s.stage = some 0 → us ≤ 40000 →
        Completes (.stage0Identity us ba bc q a b) s fun t =>
          t.stage = some 1 ∧ t.hubA.selfTest = a ∧ t.hubB.selfTest = b ∧ t.alive.started = true ∧ s.stageFrom + us * 1000 ≤ t.now
          ∧ t.keyPort.req = true ∧ t.keyPort.item = 0 ∧ .keyReq 0 ∈ t.out
          ∧ (∀ i ∈ ba, i < s.build.agents → ∀ h, s.hubUp h = true → ((t.hub h).src i).lame = true)
          ∧ (∀ i n c : Nat, q = [(i, n, c)] → i < s.build.agents → n ≠ s.build.lanes ∨ c ≠ s.build.contexts →
              (t.agent i).oddBuild = some (BitVec.ofNat 32 (n % 256 * 256 + c % 32)) ∧ ∀ h, s.hubUp h = true → ((t.hub h).src i).lame = true)
          ∧ (q = [] → ∀ i, (t.agent i).oddBuild = (s.agent i).oddBuild)
          ∧ (∀ c ∈ bc, c < s.build.clusters → ∀ h, s.hubUp h = true → ((t.hub h).src (4096 + c)).lame = true))
    ∧ (s.stage = some 1 → s.keyPort.req = true →
        (∀ d : W64, s.keyPort.beats.length + 8 < 8 * keyBeats s.keyPort.item → Completes (.keyPortBeat d false) s fun t =>
          t = { s.fresh with keyPort := { s.keyPort with beats := s.keyPort.beats ++ bytesBE 8 d.toNat } })
        ∧ (∀ (d : W64) (e : Bool), (e = true ∧ s.keyPort.beats.length + 8 ≠ 8 * keyBeats s.keyPort.item)
            ∨ (e = false ∧ 8 * keyBeats s.keyPort.item ≤ s.keyPort.beats.length + 8) → Completes (.keyPortBeat d e) s fun t =>
              t.stage = none ∧ (t.stages.get {} 1).status = 4 ∧ (t.stages.get {} 1).cause = if s.keyPort.item = 0 then 5 else 4)
        ∧ (∀ d : W64, s.keyPort.item = 0 → s.keyPort.beats = [] →
            (gradeOk (BitVec.ofNat 32 (natBE ((bytesBE 8 d.toNat).drop 4))) = true → Completes (.keyPortBeat d true) s fun t =>
              t.keys = { s.keys with grade := BitVec.ofNat 32 (natBE ((bytesBE 8 d.toNat).drop 4)) }
              ∧ t.keyPort = { req := true, item := 1, done := 1, since := s.now } ∧ t.out = [.keyReq 1])
            ∧ (gradeOk (BitVec.ofNat 32 (natBE ((bytesBE 8 d.toNat).drop 4))) = false → Completes (.keyPortBeat d true) s fun t =>
              t.keys = s.keys ∧ t.stage = none ∧ (t.stages.get {} 1).cause = 5))
        ∧ (∀ d : W64, s.keyPort.item = 1 → s.keyPort.beats = [] →
            (d ≠ 0 → d ≠ BitVec.allOnes 64 → Completes (.keyPortBeat d true) s fun t =>
              t.keys = { s.keys with chipId := d } ∧ t.keyPort = { req := true, item := 2, done := 2, since := s.now }
              ∧ t.out = [.keyReq 2])
            ∧ (d = 0 ∨ d = BitVec.allOnes 64 → Completes (.keyPortBeat d true) s fun t =>
              t.keys = s.keys ∧ t.stage = none ∧ (t.stages.get {} 1).cause = 4))
        ∧ (∀ d : W64, 2 ≤ s.keyPort.item → s.keyPort.item ≤ 5 → s.keyPort.beats.length + 8 = 8 * keyBeats s.keyPort.item →
            (s.keyPort.item ≠ 3 ∨ s.keyPort.beats ++ bytesBE 8 d.toNat ≠ s.keys.checkRoot → Completes (.keyPortBeat d true) s fun t =>
              (s.keyPort.item = 2 → t.keys = { s.keys with checkRoot := s.keyPort.beats ++ bytesBE 8 d.toNat })
              ∧ (s.keyPort.item = 3 → t.keys = { s.keys with tagRoot := s.keyPort.beats ++ bytesBE 8 d.toNat })
              ∧ (s.keyPort.item = 4 → t.keys = { s.keys with signSeed := s.keyPort.beats ++ bytesBE 8 d.toNat })
              ∧ (s.keyPort.item = 5 → t.keys = { s.keys with harnessAuth := s.keyPort.beats ++ bytesBE 8 d.toNat }
                ∧ t.keyPort.req = false ∧ t.keyPort.done = 6 ∧ t.out = [])
              ∧ (s.keyPort.item < 5 → t.keyPort = { req := true, item := s.keyPort.item + 1, done := s.keyPort.item + 1, since := s.now }
                ∧ t.out = [.keyReq (s.keyPort.item + 1)]))
            ∧ (s.keyPort.item = 3 → s.keyPort.beats ++ bytesBE 8 d.toNat = s.keys.checkRoot → Completes (.keyPortBeat d true) s fun t =>
              t.keys = s.keys ∧ t.stage = none ∧ (t.stages.get {} 1).cause = 4))
        ∧ (Completes .keyPortBad s fun t => t.stage = none ∧ (t.stages.get {} 1).cause = if s.keyPort.item = 0 then 5 else 4)
        ∧ (Completes .keyItemTimeout s fun t => t.stage = none ∧ (t.stages.get {} 1).cause = (if s.keyPort.item = 0 then 5 else 4)
            ∧ s.keyPort.since + 1000000 ≤ t.now))
    ∧ (s.stage ≠ some 1 ∨ s.keyPort.req = false → ∀ (d : W64) (e : Bool), ∀ c ∈ [Instr.keyPortBeat d e, .keyPortBad, .keyItemTimeout],
        Completes c s fun t => t = s.fresh)
    ∧ (∀ us : Nat, s.stage = some 1 → us ≤ 7000 → s.keyPort.done = 6 → Completes (.stage1Keys us) s fun t => t.stage = some 2
        ∧ (t.stages.get {} 1).status = 2 ∧ (t.stages.get {} 1).good = 6
        ∧ t.keys.signKey = 1 + natBE (sha384 (s.keys.signSeed ++ [0x53#8, 0x49#8, 0x47#8, 0x4E#8])) % (ecN - 1)
        ∧ t.keys.addrKey = BitVec.ofNat 64 (natBE ((sha384 (s.keys.tagRoot ++ [0x02#8])).take 8))
        ∧ t.keys.kcv = BitVec.ofNat 32 (natBE ((sha384 (s.keys.tagRoot ++ [0x03#8])).take 4))
        ∧ ∀ i < 8, t.keys.regions.getD i 0 = 2 + natBE ((sha384 (s.keys.tagRoot ++ [0x01#8, BitVec.ofNat 8 i])).take 8) % (p31 - 2))
    ∧ (∀ us : Nat, s.stage = some 1 → us ≤ 7000 → s.keyPort.done ≠ 6 → Completes (.stage1Keys us) s fun t =>
        t.stage = some 1 ∧ t.keys = s.keys ∧ s.stageFrom + us * 1000 ≤ t.now)
    ∧ (∀ (us : Nat) (x y : Bool), s.stage = some 2 → us ≤ 10000 →
        (s.build.hubs = 1 → (x && s.hubA.selfTest) = true → Completes (.stage2Pairing us x y) s fun t =>
          t.stage = some 3 ∧ t.twin.leader = .a ∧ t.twin.serving = .a ∧ t.twin.paired = false ∧ t.twin.mode = 1)
        ∧ ((x && s.hubA.selfTest) = false → (s.build.hubs = 1 ∨ (y && s.hubB.selfTest) = false) → Completes (.stage2Pairing us x y) s fun t =>
          t.stage = none ∧ (t.stages.get {} 2).status = 4 ∧ (t.stages.get {} 2).cause = 6)
        ∧ (s.build.hubs = 2 → (x && s.hubA.selfTest) = true → (y && s.hubB.selfTest) = true →
            (∀ (i : Bool) (u : Byte), 0 < s.twin.lanes → s.xlink.down = false → s.twin.helloA.isSome = true → s.twin.helloB = some (i, u) →
              Completes (.stage2Pairing us x y) s fun t => t.stage = some 3 ∧ t.pairUp = true ∧ t.twin.mode = 0
                ∧ t.twin.leader = (if u = 1#8 then .b else .a) ∧ t.twin.serving = t.twin.leader)
            ∧ (s.twin.lanes = 0 ∨ s.xlink.down = true ∨ s.twin.helloB.isSome = true ∧ s.twin.helloA = none →
              Completes (.stage2Pairing us x y) s fun t => t.stage = some 3 ∧ t.twin.mode = 5 ∧ t.twin.leader = .a
                ∧ t.hubUp .a = true ∧ t.hubUp .b = false)
            ∧ (0 < s.twin.lanes → s.xlink.down = false → s.twin.helloA.isSome = true → s.twin.helloB = none →
              Completes (.stage2Pairing us x y) s fun t => t.stage = some 3 ∧ t.twin.mode = 5 ∧ t.twin.leader = .b
                ∧ t.hubUp .a = false ∧ t.hubUp .b = true))
        ∧ (s.build.hubs = 2 → (x && s.hubA.selfTest) = true → (y && s.hubB.selfTest) = false → Completes (.stage2Pairing us x y) s fun t =>
          t.stage = some 3 ∧ t.twin.mode = 5 ∧ t.twin.leader = .a ∧ t.hubUp .a = true ∧ t.hubUp .b = false)
        ∧ (s.build.hubs = 2 → (x && s.hubA.selfTest) = false → (y && s.hubB.selfTest) = true → Completes (.stage2Pairing us x y) s fun t =>
          t.stage = some 3 ∧ t.twin.mode = 5 ∧ t.twin.leader = .b ∧ t.hubUp .a = false ∧ t.hubUp .b = true))
    ∧ (∀ us : Nat, s.stage = some 3 → s.build.dies = 1 → Completes (.stage3DieLinks us) s fun t =>
        t.stage = some 4 ∧ (t.stages.get {} 3).status = 2 ∧ (t.stages.get {} 3).good = 0)
    ∧ (∀ us : Nat, s.stage = some 3 → s.build.dies ≠ 1 → us ≤ 30000 →
        (∃ i < 2 * s.build.dies, (s.linkEnd i).lanes = 0 ∧ (s.linkEnd i).down = false) → Completes (.stage3DieLinks us) s fun t =>
        t.stage = some 3 ∧ t.links = s.links ∧ t.stages = s.stages ∧ s.stageFrom + us * 1000 ≤ t.now)
    ∧ (∀ us : Nat, s.stage = some 3 → s.build.dies ≠ 1 → us ≤ 30000 → s.unreachable = [] →
        (∀ i < 2 * s.build.dies, (s.linkEnd i).lanes ≠ 0 ∨ (s.linkEnd i).down = true) → Completes (.stage3DieLinks us) s fun t =>
        t.stage = some 4 ∧ t.links = s.links
        ∧ ((∀ i < 2 * s.build.dies, (s.linkEnd i).lanes = 4) → (t.stages.get {} 3).status = 2)
        ∧ ((∃ i < 2 * s.build.dies, (s.linkEnd i).lanes ≠ 4) → (t.stages.get {} 3).status = 3 ∧ (t.stages.get {} 3).cause = 3))
    ∧ (∀ ok : Bool, s.build.hubs = 2 → (s.stage = some 2 ∧ s.twin.lanes = 0 ∧ s.xlink.down = false) ∨ s.xlink.retraining = true →
        Completes (.linkTrainAttemptEnd .cross ok) s fun t => t.hubA = s.hubA ∧ t.hubB = s.hubB
          ∧ (ok = true → t.xlink.tries = 0 ∧ t.xlink.retraining = false ∧ t.xlink.down = false
            ∧ (s.xlink.tries = 0 → t.twin.lanes = 4) ∧ (s.xlink.tries = 1 ∨ s.xlink.tries = 2 → t.twin.lanes = 2)
            ∧ (3 ≤ s.xlink.tries → t.twin.lanes = 1))
          ∧ (ok = false → s.xlink.tries < 6 → t.xlink.tries = s.xlink.tries + 1 ∧ t.twin = s.twin)
          ∧ (ok = false → 6 ≤ s.xlink.tries → t.twin.lanes = 0 ∧ t.xlink.down = true ∧ t.xlink.retraining = false))
    ∧ (∀ d : Nat, s.stage = some 3 → 1 < s.build.dies → d < s.build.dies → (s.linkEnd (2 * d + 1)).lanes = 0 →
        (s.linkEnd (2 * d + 1)).down = false →
        ((s.linkEnd (2 * d + 1)).tries = 0 → Completes (.linkTrainAttemptEnd (.die d) true) s fun t =>
          (t.linkEnd (2 * d + 1)).lanes = 4 ∧ (t.linkEnd (s.farEnd (2 * d + 1))).lanes = 4 ∧ t.hubA = s.hubA ∧ t.hubB = s.hubB)
        ∧ ((s.linkEnd (2 * d + 1)).tries < 6 → Completes (.linkTrainAttemptEnd (.die d) false) s fun t =>
          (t.linkEnd (2 * d + 1)).tries = (s.linkEnd (2 * d + 1)).tries + 1 ∧ (t.linkEnd (2 * d + 1)).lanes = 0
          ∧ t.hubA = s.hubA ∧ t.hubB = s.hubB)
        ∧ (6 ≤ (s.linkEnd (2 * d + 1)).tries → Completes (.linkTrainAttemptEnd (.die d) false) s fun t =>
          (t.linkEnd (2 * d + 1)).down = true ∧ (t.linkEnd (s.farEnd (2 * d + 1))).down = true
          ∧ ∀ h, s.hubUp h = true → ((t.hub h).src (4368 + (2 * d + 1))).lame = true
            ∧ ((t.hub h).src (4368 + s.farEnd (2 * d + 1))).lame = true))

/-- Harness, agent image, persisted record, housekeeping, known answers, discovery and READY; die links while running.
Stage 4 accepts the harness when no acting hub refuses it and fails as REJECTED or REJECTED_ONE otherwise; stage 5
sends every packet with its header, the last one padded with zeros, an agent takes one with a good header, and the leader
resends to each incomplete agent what its cluster lacks for three rounds and then makes the incomplete ones lame; stage 6
applies the most recent record; stage 7 starts the bus watch and reads the margins once; failing lanes are retired and failing units lame at stage 8; a planned port without a result is MISSING at the
window; READY begins epoch 0. A running link retrains when a lane loses lock or when more than LINK_ERR_MAX messages were resent on it within 1 ms, to no more lanes
than before. -/
def Obligations.TheCallSheetFromTheHarnessOn : Prop :=
  ∀ s : State, s.rstL = false →
    (∀ (us : Nat) (wa wb : List W32), s.stage = some 4 → us ≤ 60000 →
      let r : HubId → HarnessResult := fun h => checkHarness 0 (s.harnessEnv false) (match h with | .a => wa | .b => wb)
      ((∀ h, s.hubUp h = true → (r h).first = none) → Completes (.stage4Harness us wa wb) s fun t =>
        t.stage = some 5 ∧ t.harness.accepted = true ∧ t.harness.recs = (r s.twin.leader).recs
        ∧ t.harness.digest = (r s.twin.leader).digest ∧ (∀ h, (t.hub h).regs.bootLocked = true)
        ∧ (∀ h, s.hubUp h = true → (t.hub h).harnessSts = harnessStsOf true false (r h))
        ∧ (t.rec? 0x90 (fun _ => true) = none → t.mgmt = s.mgmt)
        ∧ ∀ m : Rec, t.rec? 0x90 (fun _ => true) = some m → t.mgmt.active = true ∧ t.mgmt.eid = BitVec.ofNat 8 (m.fld 1 15 8)
          ∧ t.mgmt.tid = BitVec.ofNat 8 (m.fld 1 23 16))
      ∧ (s.upHubs ≠ [] → (∀ h, s.hubUp h = true → (r h).first ≠ none) → Completes (.stage4Harness us wa wb) s fun t =>
        t.stage = none ∧ (t.stages.get {} 4).cause = 7 ∧ t.cmd.code = 4 ∧ t.harness = s.harness)
      ∧ ((∃ h, s.hubUp h = true ∧ (r h).first ≠ none) → (∃ h, s.hubUp h = true ∧ (r h).first = none) →
        Completes (.stage4Harness us wa wb) s fun t =>
          t.stage = none ∧ (t.stages.get {} 4).cause = 8 ∧ t.cmd.code = 6 ∧ t.harness = s.harness))
    ∧ (∀ n : Nat, s.stage = some 5 → s.image = none → 1 ≤ n → n ≤ 16384 → Completes (.stage5AgentImage n) s fun t =>
        t.image = some (n, 0) ∧ (∀ a ∈ s.allAgents, (t.agent a).image = 0)
        ∧ t.out = (List.range ((n + 255) / 256)).map
            (fun i => .image (imageHeader ((n + 255) / 256) i (s.imagePayload n i)) (s.imagePayload n i) none)
        ∧ (∀ i, (s.imagePayload n i).length = 256 ∧ ∀ k < 256, n ≤ 256 * i + k → (s.imagePayload n i)[k]? = some 0#8)
        ∧ t.hubA = s.hubA ∧ t.hubB = s.hubB)
    ∧ (∀ n : Nat, s.stage ≠ some 5 ∨ s.image ≠ none ∨ n = 0 ∨ 16384 < n → Completes (.stage5AgentImage n) s fun t => t = s.fresh)
    ∧ (∀ (a : Nat) (hd : W64) (pl : List Byte) (c k : Nat), s.image = some (c, k) →
        (s.stage = some 5 → s.agentOn a = true → imageGood (imagePackets c) hd pl = true → Completes (.imagePacket a hd pl) s fun t =>
          (t.agent a).image = (s.agent a).image ||| BitVec.ofNat 64 (2 ^ bits hd 47 40) ∧ (∀ b, b ≠ a → t.agent b = s.agent b)
          ∧ t.hubA = s.hubA ∧ t.hubB = s.hubB)
        ∧ (imageGood (imagePackets c) hd pl = false → Completes (.imagePacket a hd pl) s fun t => t = s.fresh))
    ∧ (∀ (c k : Nat) (q : List Nat), s.image = some (c, k) → s.stage = some 5 →
        s.stageFrom + 25000000 ≥ max s.now (s.now + if q = [] then 20000 else 100000) →
        ((∀ a ∈ s.allAgents, s.agentLame a = false → s.incomplete (imagePackets c) q a = false) → Completes (.imageCollect q) s fun t =>
          t.stage = some 6 ∧ (t.stages.get {} 5).status = 2 ∧ (t.stages.get {} 5).bad = 0)
        ∧ (∀ b ∈ s.allAgents, s.agentLame b = false → s.incomplete (imagePackets c) q b = true →
            (k ≠ 3 → Completes (.imageCollect q) s fun t => t.stage = some 5 ∧ t.image = some (c, k + 1)
              ∧ ∀ i < imagePackets c, s.build.clusterOf b ∈ q ∨ (∃ a ∈ s.allAgents, s.agentLame a = false
                    ∧ s.build.clusterOf a = s.build.clusterOf b ∧ (s.agent a).image.getLsbD i = false) →
                  .image (imageHeader (imagePackets c) i (s.imagePayload c i)) (s.imagePayload c i) (some b) ∈ t.out)
            ∧ (k = 3 → Completes (.imageCollect q) s fun t => t.stage = some 6 ∧ (t.stages.get {} 5).status = 3
              ∧ ∀ h, s.hubUp h = true → ((t.hub h).src b).lame = true)))
    ∧ (∀ q : List Nat, s.image = none ∨ s.stage ≠ some 5 → Completes (.imageCollect q) s fun t => t = s.fresh)
    ∧ (∀ us : Nat, s.stage = some 6 → us ≤ 10000 →
        (s.flash.answers = false → Completes (.stage6LameList us) s fun t =>
          t.stage = some 7 ∧ (t.stages.get {} 6).status = 3 ∧ (t.stages.get {} 6).cause = 10 ∧ t.hubA = s.hubA ∧ t.hubB = s.hubB)
        ∧ (s.flash.answers = true → s.flash.usable = none →
          Completes (.stage6LameList us) s fun t =>
            t.stage = some 7 ∧ (t.stages.get {} 6).status = 3 ∧ (t.stages.get {} 6).cause = 9 ∧ t.hubA = s.hubA ∧ t.hubB = s.hubB)
        ∧ (∀ (b : Bool) (p : Persist), s.flash.answers = true → s.flash.usable = some (b, p) →
          Completes (.stage6LameList us) s fun t => t.stage = some 7 ∧ t.flash = s.flash
            ∧ (∀ h, s.hubUp h = true → (t.hub h).tailA = p.tailA ∧ (t.hub h).tailB = p.tailB)
            ∧ ∀ x ∈ p.lame, (∀ e ∈ recsOf 0x04 s.recs, e.fld 1 12 0 ≠ x) → (s.ld.src x).lame = false →
                ∀ h, s.hubUp h = true → ((t.hub h).src x).lame = true))
    ∧ (∀ (us : Nat) (ok : Bool) (z : Int) (counts : List (Nat × Nat)), s.stage = some 7 → us ≤ 250000 →
        Completes (.stage7Housekeeping us ok z counts) s fun t =>
        (∀ h, s.hubUp h = true → (t.hub h).busWatch = true ∧ (t.hub h).oscOffset = if ok then z else 0)
        ∧ ∀ x ∈ counts, s.agentOn x.1 = true → (t.agent x.1).measured = true)
    ∧ (∀ (us : Nat) (l u : List (Nat × Nat)) (cs : List Nat), s.stage = some 8 → us ≤ 120000 →
        Completes (.stage8KnownAnswer us l u cs) s fun t =>
          t.stage = some 9
          ∧ (∀ x : Nat × Nat, l = [x] → s.agentOn x.1 = true → x.2 < s.build.lanes → s.agentLame x.1 = false → x.2 ∈ (t.agent x.1).retired)
          ∧ (l = [] → ∀ x ∈ u, s.agentOn x.1 = true → t.agentLame x.1 = true ∨ s.upHubs = [])
          ∧ (l = [] → ∀ c ∈ cs, (s.clusterRec c).isSome = true → ∀ h, s.hubUp h = true → ((t.hub h).src (4096 + c)).lame = true)
          ∧ (l = [] → u = [] → cs = [] → t.hubA = s.hubA ∧ t.hubB = s.hubB
              ∧ ∀ a ∈ s.allAgents, s.agentLame a = false → (t.agent a).lastPass = t.clock.count ∧ (t.agent a).lostAtPass = (s.agent a).ringLost))
    ∧ (s.stage = some 9 →
        (∀ us : Nat, s.portsResolved = true → Completes (.stage9Discovery us) s fun t => t.stage = some 10 ∧ t.ports = s.ports
          ∧ ((t.stages.get {} 9).status = 2 ∨ ((t.stages.get {} 9).status = 3 ∧ (t.stages.get {} 9).cause = 12)))
        ∧ (∀ us : Nat, s.portsResolved = false → us * 1000 < s.discWindow 2000 → Completes (.stage9Discovery us) s fun t =>
          t.stage = some 9 ∧ t.ports = s.ports ∧ s.stageFrom + us * 1000 ≤ t.now)
        ∧ (∀ us : Nat, s.portsResolved = false → s.discWindow 2000 ≤ us * 1000 → ∀ c ∈ [Instr.stage9Discovery us, .discWindowEnd],
          Completes c s fun t => s.stageFrom + s.discWindow 2000 ≤ t.now
            ∧ ∀ p ∈ s.plannedPorts, (s.port p).result = 0 → (t.port p).result = 3 ∧ (t.port p).admitted = false))
    ∧ (s.stage ≠ some 9 → ∀ us : Nat, ∀ c ∈ [Instr.stage9Discovery us, .discWindowEnd], Completes c s fun t => t = s.fresh)
    ∧ (∀ us : Nat, s.stage = some 10 → us ≤ 1000 →
        (s.agentsMin ≤ (s.allAgents.filter (fun a => !s.agentLame a)).length → Completes (.stage10Ready us) s fun t =>
          t.stage = none ∧ (t.stages.get {} 10).status = 2 ∧ t.readyAt = t.now ∧ t.epoch.started = true ∧ t.epoch.cur = 0
          ∧ (∀ h, s.hubUp h = true → (t.hub h).st = .ready)
          ∧ (∀ a ∈ s.allAgents, (t.agent a).keys = [{ epoch := 0, key := epochKeyOf s.keys.checkRoot 0 }] ∧ (t.agent a).regionKeys = true)
          ∧ (s.hubUp s.twin.leader = true → s.cmd.code = 1 → s.cmd.op = 1 → t.cmd.code = 0))
        ∧ ((s.allAgents.filter (fun a => !s.agentLame a)).length < s.agentsMin → Completes (.stage10Ready us) s fun t =>
          t.stage = none ∧ (t.stages.get {} 10).status = 4 ∧ (t.stages.get {} 10).cause = 11
          ∧ ∀ h, s.hubUp h = true → (t.hub h).st = .failedBringup))
    ∧ (∀ i : Nat,
        (s.build.dies ≠ 1 → i < 2 * s.build.dies → (s.linkEnd i).lanes ≠ 0 → (s.linkEnd i).down = false → (s.linkEnd i).retraining = false →
          ∀ c ∈ Instr.dieLinkLockLoss i :: (if s.linkErrMax < s.recentResends i then [.dieLinkResendLimit i] else []), Completes c s fun t =>
            (t.linkEnd i).retraining = true ∧ (t.linkEnd (s.farEnd i)).retraining = true
            ∧ (t.linkEnd i).tries = 0 ∧ t.hubA = s.hubA ∧ t.hubB = s.hubB)
        ∧ (s.recentResends i ≤ s.linkErrMax → Completes (.dieLinkResendLimit i) s fun t => t = s.fresh)
        ∧ (s.build.dies = 1 ∨ 2 * s.build.dies ≤ i ∨ (s.linkEnd i).lanes = 0 ∨ (s.linkEnd i).down = true ∨ (s.linkEnd i).retraining = true →
          ∀ c ∈ [Instr.dieLinkLockLoss i, .dieLinkResendLimit i], Completes c s fun t => t = s.fresh)
        ∧ (∀ w : Nat, s.build.dies ≠ 1 → i < 2 * s.build.dies →
            (s.linkEnd i).retraining = true ∨ (s.linkEnd (s.farEnd i)).retraining = true → Completes (.dieLinkRetrainDone i w) s fun t =>
            (t.linkEnd i).retraining = false ∧ (t.linkEnd i).lanes ≤ w ∧ ((t.linkEnd i).lanes = 0 ↔ (t.linkEnd i).down = true)
            ∧ ((s.linkEnd i).lanes ≠ 0 → (s.linkEnd (s.farEnd i)).lanes ≠ 0 → (t.linkEnd i).lanes ≤ (s.linkEnd i).lanes)
            ∧ (t.linkEnd i).lanes = (t.linkEnd (s.farEnd i)).lanes)
        ∧ (∀ w : Nat, s.build.dies = 1 ∨ 2 * s.build.dies ≤ i ∨ ((s.linkEnd i).retraining = false ∧ (s.linkEnd (s.farEnd i)).retraining = false) →
            Completes (.dieLinkRetrainDone i w) s fun t => t = s.fresh))

/-- TROT_DUE to SCAN_DONE, the pattern cache, and the wrap test with its record. A due trot-up starts with the stand-in
that may be lent, in idle mode where the harness names none, and is deferred otherwise; secrets are cleared before a
scan, of a trot-up and of a wrap group, and a scan waits for the grant; after an S4 none starts or ends. A scan passes
where the MISR of every checkpoint is the expected value. A missed bound abandons the trot-up, whose next one is due
at once. A fetched set is available where its digest fits, a bad block is fetched again, and the wrap test marks
failing units, dates passing ones, reruns a group whose block was bad and writes its record into the other copy. -/
def Obligations.TrotUpsPatternsAndTheWrapTest : Prop :=
  ∀ s : State, s.rstL = false →
    (∀ (a : Nat) (e : PadEntry), s.ld.pad? a = some e → e.state ≠ .testing → s.trotsRun a = true → s.clkReaches e.due = true →
      let u : State := if e.state = .watch then (s.fresh.advanceClk e.due).modPad a (fun x => { x with state := .due })
        else s.fresh.advanceClk e.due
      (u.firstDue e = false → Completes (.trotDue a) s fun t => t = u)
      ∧ (u.firstDue e = true → u.testReady = false ∨ (u.standins ≠ [] ∧ (∀ k ∈ s.test.kept, k.agent ≠ a) ∧ u.lendable a = none) →
          Completes (.trotDue a) s fun t => t.test.trots = s.test.trots ∧ t.agents = s.agents
            ∧ (∀ h i, s.hubUp h = true → (s.hub h).padSlot a = some i → ((t.hub h).paddock.get {} i).state = .deferred)
            ∧ ((∀ x ∈ s.test.deferredSince, x.1 ≠ a) → (a, t.now) ∈ t.test.deferredSince ∧ t.test.deferred = satInc s.test.deferred))
      ∧ (∀ o : Option Nat, u.firstDue e = true → u.testReady = true → (∀ k ∈ s.test.kept, k.agent ≠ a) →
          (u.standins = [] ∧ o = none) ∨ (u.standins ≠ [] ∧ o ≠ none ∧ u.lendable a = o) → Completes (.trotDue a) s fun t =>
          t.test.trots = s.test.trots ++ [{ agent := a, step := 1, standin := o, slot := s.freeSlot.getD 0, since := t.now }]
          ∧ (t.agent a).sc = (s.agent a).sc ++ [{ op := 2, data := (match o with | none => 0 | some b => BitVec.ofNat 96 (4096 + b)) }]
          ∧ (∀ h i, s.hubUp h = true → (s.hub h).padSlot a = some i → ((t.hub h).paddock.get {} i).state = .testing))
      ∧ (∀ k : Trot, u.firstDue e = true → u.testReady = true → s.test.kept.find? (fun k => decide (k.agent = a)) = some k → k.step ≠ 2 →
          s.trot? a = none → Completes (.trotDue a) s fun t => (t.agent a).secReq = true ∧ (t.agent a).keys = [] ∧ (t.agent a).zeroised = true
          ∧ .secReq (.tile a) ∈ t.out ∧ .secReq (.agent a) ∈ t.out))
    ∧ (∀ a : Nat, s.ld.pad? a = none ∨ s.trotsRun a = false ∨ (∃ e, s.ld.pad? a = some e ∧ (e.state = .testing ∨ s.clkReaches e.due = false)) →
        Completes (.trotDue a) s fun t => t = s.fresh)
    ∧ (∀ (a : Nat) (e : PadEntry) (d : Nat × Nat), s.ld.pad? a = some e → e.state = .deferred →
        s.test.deferredSince.find? (fun x => decide (x.1 = a)) = some d → s.trotsRun a = true → s.testReady = true →
        (∀ k ∈ s.test.kept, k.agent ≠ a) → Completes (.trotIdleAfterExpiry a) s fun t => d.2 + s.trotIdleAfter ≤ t.now
          ∧ t.test.trots = s.test.trots ++ [{ agent := a, step := 1, standin := none, slot := s.freeSlot.getD 0, since := t.now }]
          ∧ (t.agent a).sc = (s.agent a).sc ++ [{ op := 2, data := 0 }])
    ∧ (∀ a : Nat, s.trotsRun a = false ∨ s.testReady = false ∨ s.ld.pad? a = none → Completes (.trotIdleAfterExpiry a) s fun t => t = s.fresh)
    ∧ (∀ a : Nat, (s.agent a).secReq = true → s.test.groupAsked = false →
        (∀ x : Trot, s.trot? a = some x → x.step = 3 → (s.agent a).secClr = true → s.stopped = false → s.testClock = true →
          (s.test.tapGrant = true → Completes (.secretsCleared (.tile a)) s fun t => (t.agent a).tileClr = true
            ∧ (t.agent a).scanEnable = true ∧ t.out = [.scanEnable a true])
          ∧ (s.test.tapGrant = false → Completes (.secretsCleared (.tile a)) s fun t => (t.agent a).tileClr = true
              ∧ (t.agent a).scanEnable = (s.agent a).scanEnable ∧ ∃ y : Trot, t.trot? a = some y ∧ y.tapWait = true ∧ t.out = []))
        ∧ ((s.agent a).secClr = false ∨ s.stopped = true → Completes (.secretsCleared (.tile a)) s fun t =>
            (t.agent a).tileClr = true ∧ (t.agent a).scanEnable = (s.agent a).scanEnable ∧ t.test = s.test)
        ∧ ((s.agent a).zeroised = true → Completes (.secretsCleared (.agent a)) s fun t => (t.agent a).secClr = true)
        ∧ ((s.agent a).zeroised = false → Completes (.secretsCleared (.agent a)) s fun t => t = s.fresh))
    ∧ (∀ a : Nat, (s.agent a).secReq = false → ∀ r ∈ [Region.tile a, .agent a], Completes (.secretsCleared r) s fun t => t = s.fresh)
    ∧ (∀ c : Nat, ((s.conc c).secReq = true → s.test.groupAsked = false → Completes (.secretsCleared (.conc c)) s fun t =>
          (t.conc c).secClr = true ∧ t.test = s.test)
        ∧ ((s.conc c).secReq = false → Completes (.secretsCleared (.conc c)) s fun t => t = s.fresh))
    ∧ (∀ h : HubId, ((s.hub h).secReq = true → (s.hub h).zeroised = true → s.test.groupAsked = false →
          Completes (.secretsCleared (.hub h)) s fun t => (t.hub h).secClr = true ∧ t.test = s.test)
        ∧ ((s.hub h).secReq = false ∨ (s.hub h).zeroised = false → Completes (.secretsCleared (.hub h)) s fun t => t = s.fresh))
    ∧ (∀ a : Nat, s.test.groupAsked = true → s.test.groupScan = false → s.groupScanned = [a] → a < 4096 → s.trot? a = none →
        (s.agent a).secReq = true → (s.agent a).secClr = true → s.stopped = false → s.testClock = true →
        (s.test.tapGrant = true → Completes (.secretsCleared (.tile a)) s fun t => t.test.groupScan = true
          ∧ (t.agent a).scanEnable = true ∧ t.out = [.scanEnable a true])
        ∧ (s.test.tapGrant = false → Completes (.secretsCleared (.tile a)) s fun t => t.test.groupScan = false
            ∧ t.test.tapWait = true ∧ (t.agent a).scanEnable = (s.agent a).scanEnable ∧ t.out = []))
    ∧ (∀ (a : Nat) (x : Trot), s.trot? a = some x → x.step = 3 → x.tapWait = false → s.stopped = false → s.test.groupAsked = false →
        ((s.agent a).tileClr = false → Completes (.secretsTimeoutExpiry (.tile a)) s fun t => x.since + s.secretsTimeout ≤ t.now
          ∧ (t.agent a).scanEnable = false ∧ (t.agent a).secReq = false ∧ .scanEnable a false ∈ t.out)
        ∧ ((s.agent a).secClr = false → Completes (.secretsTimeoutExpiry (.agent a)) s fun t => x.since + s.secretsTimeout ≤ t.now
          ∧ (t.agent a).scanEnable = false ∧ (t.agent a).secReq = false ∧ .scanEnable a false ∈ t.out))
    ∧ (∀ a c : Nat, ((s.agent a).tileClr = true ∨ (s.trot? a = none ∧ s.test.groupAsked = false) →
          Completes (.secretsTimeoutExpiry (.tile a)) s fun t => t = s.fresh)
        ∧ Completes (.secretsTimeoutExpiry (.conc c)) s (fun t => t = s.fresh))
    ∧ (∀ h : HubId, s.test.groupAsked = true → s.test.groupScan = false → s.test.tapWait = false → s.stopped = false → s.testClock = true →
        s.groupScanned = [4352 + hubIdx h] → (s.hub h).secClr = false → Completes (.secretsTimeoutExpiry (.hub h)) s fun t =>
          s.test.groupSince + s.secretsTimeout ≤ t.now ∧ t.test.wrapNext = s.test.wrapNext + 1
          ∧ t.test.hubTested = s.test.hubTested)
    ∧ (∀ (a : Nat) (x : Trot), s.trot? a = some x → x.missed = false → s.stopped = false → x.step ∈ [1, 2, 8, 9, 10] → (s.ld.pad? a).isSome = true →
        Completes (.trotHostBoundMiss a) s fun t => t.trot? a = none ∧ t.test.abandoned = satInc s.test.abandoned
          ∧ (x.since + if x.step = 2 ∨ x.step = 8 then s.saveBound else s.swapIssue) ≤ t.now
          ∧ (∀ h i, s.hubUp h = true → (s.hub h).padSlot a = some i → ((t.hub h).paddock.get {} i).due = t.clk
              ∧ ((t.hub h).paddock.get {} i).state = .due)
          ∧ (2 ≤ x.step → ∃ k ∈ t.test.kept, k.agent = x.agent ∧ k.step = min x.step 3))
    ∧ (∀ a : Nat, s.trot? a = none ∨ s.stopped = true → Completes (.trotHostBoundMiss a) s fun t => t = s.fresh)
    ∧ (∀ once : Bool, s.test.groupAsked = false → Completes (.tapGrantRise once) s fun t => t.test.tapGrant = true ∧ t.test.tapOnce = once
        ∧ ((∀ x ∈ s.test.trots, x.tapWait = false) → t.test.trots = s.test.trots ∧ t.agents = s.agents ∧ t.out = [])
        ∧ ∀ (a : Nat) (x : Trot), s.trot? a = some x → x.tapWait = true → x.step = 3 → (s.agent a).secClr = true → (s.agent a).tileClr = true →
            s.stopped = false → s.testClock = true → (t.agent a).scanEnable = true ∧ .scanEnable a true ∈ t.out)
    ∧ (∀ (a : Nat) (once : Bool), s.test.groupAsked = true → s.test.groupScan = false → s.groupScanned = [a] → a < 4096 →
        s.unitClear a = true → s.test.trots = [] → s.stopped = false → s.testClock = true → Completes (.tapGrantRise once) s fun t => t.test.tapGrant = true
          ∧ t.test.groupScan = true ∧ (t.agent a).scanEnable = true ∧ t.out = [.scanEnable a true])
    ∧ (s.test.tapGrant = true → Completes .tapGrantWaitExpiry s fun t => t = s.fresh)
    ∧ (∀ x : Trot, s.test.tapGrant = false → s.test.trots.find? (fun y => y.tapWait) = some x → Completes .tapGrantWaitExpiry s fun t =>
        x.since + 10000000 ≤ t.now ∧ t.trot? x.agent = none ∧ t.test.abandoned = satInc s.test.abandoned)
    ∧ (s.test.tapGrant = false → (∀ x ∈ s.test.trots, x.tapWait = false) →
        (s.test.groupAsked = true → s.test.tapWait = true → s.stopped = false → Completes .tapGrantWaitExpiry s fun t =>
          s.test.groupSince + 10000000 ≤ t.now ∧ t.test.wrapNext = s.test.wrapNext + 1 ∧ t.test.groupsDone = s.test.groupsDone)
        ∧ (s.test.groupAsked = false ∨ s.test.tapWait = false ∨ s.stopped = true → Completes .tapGrantWaitExpiry s fun t => t = s.fresh))
    ∧ (∀ (a : Nat) (x : Trot) (l m : List Checkpoint), s.trot? a = some x → x.step = 4 → (s.agent a).scanEnable = true → s.stopped = false →
        s.testClock = true → (l.length = s.checkpoints .tile → m.length = s.checkpoints .agent → (∀ c ∈ l ++ m, checkpointMisr c = c.expected) →
          Completes (.scanDone a l m) s fun t => (t.agent a).scanEnable = false ∧ .scanEnable a false ∈ t.out
            ∧ ∃ y : Trot, t.trot? a = some y ∧ y.passed = some (s.clock.count, (s.agent a).ringLost)
              ∧ (s.saveBytes ≠ 0 → y.step = 8 ∧ (t.agent a).sc = (s.agent a).sc ++ [{ op := 4, data := BitVec.ofNat 96 (s.saveSlot x.slot) }])
              ∧ (s.saveBytes = 0 → (y.step = 9 ∨ y.step = 10) ∧ (t.agent a).keys = s.curKeys ∧ (t.agent a).regionKeys = true
                  ∧ (t.agent a).zeroised = false))
        ∧ ((∃ (i : Nat) (c : Checkpoint), i < s.checkpoints .tile ∧ l[i]? = some c ∧ checkpointMisr c ≠ c.expected) →
            Completes (.scanDone a l m) s fun t => t.test.failed = satInc s.test.failed
              ∧ (t.agent a).scanEnable = false ∧ (t.agent a).secReq = false ∧ .scanEnable a false ∈ t.out))
    ∧ (∀ (a : Nat) (l m : List Checkpoint), s.trot? a = none ∨ (s.agent a).scanEnable = false ∨ s.stopped = true ∨ s.testClock = false →
        Completes (.scanDone a l m) s fun t => t = s.fresh)
    ∧ (∀ (p : PatSet) (d : List Byte), s.ld.st.pastReady = true → s.imageOk = true → (s.flash.dir p).isSome = true → s.setFails p < 3 →
        (s.setGood p d = true → Completes (.patternSetFetched p d) s fun t => p ∈ t.test.sets ∧ (∀ q ∈ s.test.sets, q ∈ t.test.sets)
          ∧ t.hubA = s.hubA ∧ t.hubB = s.hubB ∧ t.out = [.cacheFill p 0 d])
        ∧ (s.setGood p d = false → Completes (.patternSetFetched p d) s fun t => p ∉ t.test.sets ∧ t.setFails p = s.setFails p + 1
            ∧ .cacheFill p 0 d ∈ t.out))
    ∧ (∀ (p : PatSet) (d : List Byte), s.ld.st.pastReady = false ∨ s.imageOk = false ∨ s.flash.dir p = none ∨ 3 ≤ s.setFails p →
        Completes (.patternSetFetched p d) s fun t => t = s.fresh)
    ∧ (∀ (b o : Nat) (p : PatSet) (l : List Nat) (g : Bool) (d : List Byte),
        (p ∉ s.test.sets → Completes (.cacheBlockBad b p o l g d) s fun t => t = s.fresh)
        ∧ (p ∈ s.test.sets → Completes (.cacheBlockBad b p o l g d) s fun t => .cacheFill p o ((d.drop o).take 4096) ∈ t.out
            ∧ (∀ (a : Nat) (x : Trot), a ∈ l → s.trot? a = some x → x.step = 4 → t.trot? a = none)
            ∧ (g = true → s.groupStreams p = true → t.test.rerun = true)
            ∧ (s.setGood p d = true → t.test.sets = s.test.sets)
            ∧ (s.setGood p d = false → p ∉ t.test.sets)))
    ∧ (s.ld.st.pastReady = true → s.test.eraseDone = false → s.flash.answers = true →
        Completes .persistEraseDone s fun t => t.test = { s.test with eraseDone := true } ∧ t.flash.recent = s.flash.recent
          ∧ (t.flash.copyA = none ∨ t.flash.copyB = none))
    ∧ (s.ld.st.pastReady = false ∨ s.test.eraseDone = true ∨ s.flash.answers = false →
        Completes .persistEraseDone s fun t => t = s.fresh)
    ∧ (∀ r : List (Nat × List Checkpoint × List Checkpoint), s.test.groupScan = true → s.stopped = false → s.testClock = true →
        (s.test.rerun = true → Completes (.wrapGroupDone r) s fun t => t = { s.fresh with test := { s.test with rerun := false } })
        ∧ (s.test.rerun = false → Completes (.wrapGroupDone r) s fun t => t.test.wrapNext = s.test.wrapNext + 1
          ∧ (s.test.wrapNext < s.wrapGroups.1 + s.wrapGroups.2.1 → t.test.groupsDone = s.test.groupsDone + 1)
          ∧ (∀ (p : Nat) (l : List Checkpoint × List Checkpoint), p ∈ s.groupScanned →
              (r.find? (fun x => decide (x.1 = p))).map (fun x => x.2) = some l →
              (s.unitFail p l ≠ none → p ∈ t.test.wrapLame)
              ∧ (s.unitFail p l = none → p < 4096 → (t.agent p).lastPass = s.clock.count))
          ∧ (4352 + hubIdx (twinHub s.twin.leader) ∈ s.groupScanned →
              t.test.hubTested = BitVec.ofNat 8 (hubIdx (twinHub s.twin.leader)))))
    ∧ (∀ r : List (Nat × List Checkpoint × List Checkpoint), s.test.groupScan = false ∨ s.stopped = true ∨ s.testClock = false →
        Completes (.wrapGroupDone r) s fun t => t = s.fresh)
    ∧ (∀ (d : List Byte) (v : Bool), s.test.wrapping = true → s.wrapTested = true → s.test.trots = [] → s.test.eraseDone = true →
        s.test.wrapDone = false → s.stopped = false → s.flash.answers = true → v = decide (d = s.persistNow.bytes) →
        Completes (.wrapRecordWritten d) s fun t =>
          t.test = { s.test with wrapDone := true, recordWritten := v } ∧ (∃ n, .flash n s.persistNow.bytes ∈ t.out)
          ∧ (s.cmd.code = 1 → s.cmd.op = 0xB → t.cmd.code = 0)
          ∧ (∀ p : Persist, s.flash.recent = some (false, p) → t.flash.copyA = some p
              ∧ (v = true → ∃ q, t.flash.copyB = some q ∧ q.sequence = p.sequence + 1 ∧ q.idRev = idRev) ∧ (v = false → t.flash.copyB = none))
          ∧ (∀ p : Persist, s.flash.recent = some (true, p) → t.flash.copyB = some p
              ∧ (v = true → ∃ q, t.flash.copyA = some q ∧ q.sequence = p.sequence + 1 ∧ q.idRev = idRev) ∧ (v = false → t.flash.copyA = none)))
    ∧ (∀ d : List Byte, s.test.wrapping = false ∨ s.wrapTested = false ∨ s.test.trots ≠ [] ∨ s.test.eraseDone = false ∨ s.test.wrapDone = true →
        Completes (.wrapRecordWritten d) s fun t => t = s.fresh)

/-- A message of no enabled source is counted in BAD_SOURCE and recorded nowhere else. Where a message's group is 7, its
index lies outside its group's range, or it names a part that the accepted harness does not enable, the hub that
takes it counts it in BAD_SOURCE (counter 1) and the state is otherwise as it was, but for the intake that the
message has left. -/
def Obligations.MessagesOfUnknownSourcesAreDiscarded : Prop :=
  ∀ (s : State) (h : HubId) (m : Msg),
    (let g : Nat := m.source.toNat / 8192
     let i : Nat := m.source.toNat % 8192
     g = 7
     ∨ (g = 0 ∧ 4096 ≤ i) ∨ (g = 1 ∧ 256 ≤ i) ∨ (g = 2 ∧ 16 ≤ i) ∨ (g = 3 ∧ 16 ≤ i) ∨ (g = 4 ∧ 512 ≤ i) ∨ (g = 5 ∧ 3264 ≤ i)
     ∨ (g = 6 ∧ 32 ≤ i)
     ∨ (g = 0 ∧ s.agentOn i = false) ∨ (g = 1 ∧ s.clusterRec i = none)
     ∨ (g = 2 ∧ i = 1 ∧ s.build.hubs ≠ 2) ∨ (g = 2 ∧ 2 ≤ i ∧ i < 8) ∨ (g = 2 ∧ 8 + s.build.dies ≤ i)
     ∨ (g = 3 ∧ (s.build.dies = 1 ∨ 2 * s.build.dies ≤ i)) ∨ (g = 4 ∧ s.chan? i = none)
     ∨ (g = 5 ∧ i < 64 ∧ s.engineRec i = none)
     ∨ (g = 5 ∧ 64 ≤ i ∧ s.rec? 0x41 (fun r => decide (r.fld 1 31 20 = i)) = none)
     ∨ (g = 6 ∧ (s.build.hubs ≠ 2 ∨ 3 ≤ i))) →
    (s.acceptMsg h m = s.modHub h (fun k => { k with ctr := k.ctr.mod 0 1 satInc }))
    ∧ ∀ (j : Nat) (e : QEntry), s.rstL = false → s.hubUp h = true → (s.hub h).intake.best (fun _ => true) = some (j, e) →
        (s.hub h).intake.mergedFirst e.msg = false → e.msg.source = m.source → Completes (.hubAcceptMessage h) s fun t =>
          ∃ q : Queue, t = s.fresh.modHub h (fun k => { k with intake := q, ctr := k.ctr.mod 0 1 satInc })

/-- The key of an epoch. The key of epoch e is the first 8 bytes, big-endian, of SHA-384 over the check root and e as 8
bytes big-endian; the third item of the key port is the check root; READY begins epoch 0 and gives every enabled
agent its key. -/
def Obligations.EpochKeysComeFromTheCheckRoot : Prop :=
  (∀ (s : State) (e : Nat), (s.keyOf e).epoch = e ∧ (s.keyOf e).key.toNat = natBE ((sha384 (s.keys.checkRoot ++ bytesBE 8 e)).take 8))
  ∧ (∀ (s : State) (d : W64), s.rstL = false → s.stage = some 1 → s.keyPort.req = true → s.keyPort.item = 2 →
      s.keyPort.beats.length = 24 → Completes (.keyPortBeat d true) s fun t =>
        t.keys.checkRoot = s.keyPort.beats ++ bytesBE 8 d.toNat ∧ t.keys.checkRoot.length = 32)
  ∧ (∀ (s : State) (us : Nat), s.rstL = false → s.stage = some 10 → us ≤ 1000 →
      s.agentsMin ≤ (s.allAgents.filter (fun a => !s.agentLame a)).length → Completes (.stage10Ready us) s fun t =>
        t.epoch.cur = 0 ∧ t.epoch.started = true ∧ (∀ h, s.hubUp h = true → (t.hub h).st = .ready)
        ∧ ∀ a ∈ s.allAgents, (t.agent a).keys = [s.keyOf 0])
end

