-- ==== Sys2Proof/Laws/Keeps.lean ====
section
/-! SUPPORT. `Keeps` is a preorder that every change of an unrelated part respects. -/

namespace Sys2Proof.Machine

open Sys2Proof

theorem Keeps.refl (s : State) : Keeps s s := ⟨rfl, rfl, rfl, Nat.le_refl _, id, id⟩

theorem Keeps.trans {s t u : State} (h : Keeps s t) (k : Keeps t u) : Keeps s u :=
  ⟨k.build.trans h.build, k.pending.trans h.pending, k.rstL.trans h.rstL, Nat.le_trans h.now k.now,
    fun x => k.stopA (h.stopA x), fun x => k.stopB (h.stopB x)⟩

/-- A state that agrees with another in what `Keeps` names. -/
theorem Keeps.upd {s t u : State} (h : Keeps s t) (hb : u.build = t.build) (hp : u.pending = t.pending)
    (hr : u.rstL = t.rstL) (hn : u.now = t.now) (ha : u.hubA.s4 = t.hubA.s4) (hh : u.hubB.s4 = t.hubB.s4) : Keeps s u :=
  ⟨hb.trans h.build, hp.trans h.pending, hr.trans h.rstL, by rw [hn]; exact h.now,
    fun x => ha.trans (h.stopA x), fun x => hh.trans (h.stopB x)⟩

/-- An intermediate state is kept first, and then the rest. -/
theorem Keeps.cut {s t : State} {P : Prop} (h : Keeps s t) (k : Keeps s t → P) : P := k h

/-- A state that takes over another's kept parts, whatever its other fields. -/
theorem Keeps.lit {s t : State}
    {out : List PortOut} {readyAt : Nat} {freeCtr : Nat} {leakAt : SMap Nat} {agents : SMap Agent} {concs : SMap Conc} {engines :
    SMap Engine} {links : SMap LinkEnd} {ways : SMap Bool} {twin : Twin} {xlink : XLink} {alive : Alive}
    {curbPort : CurbPort} {flash : Flash} {latch : SMap (Option W32)} {cmd : Cmd} {stage : Option Nat}
    {stageFrom : Nat} {stages : SMap StageRec} {image : Option (Nat × Nat)} {keyPort : KeyPort} {keys : Keys}
    {harness : Harness} {clock : StepClock} {epoch : Epoch} {jobs : SMap JobSt} {abortFifo : List AbortEntry}
    {tccOrphan : W32} {retakes : SMap Retake} {retakeLog : SMap (Option RetakeLog)} {logHead : W32} {decCnt :
    SMap W32} {retakesOrdered : W32} {retakeTimeouts : W32} {staleReleases : W32} {bands : Bands} {ports : SMap
    Port} {slices : SMap SliceHold} {inlog : Inlog} {replay : Replay} {streams : SMap SignStream} {sign :
    Sign} {restoreSkipped : W32} {test : TestEngine} {mgmt : Mgmt} {ind : Ind}
    (h : Keeps s t) :
    Keeps s
      (State.mk t.pending out t.now readyAt freeCtr t.build t.rstL t.hubA t.hubB leakAt agents concs engines links ways
      twin xlink alive curbPort flash latch cmd stage stageFrom stages image keyPort keys harness clock epoch
      jobs abortFifo tccOrphan retakes retakeLog logHead decCnt retakesOrdered retakeTimeouts staleReleases
      bands ports slices inlog replay streams sign restoreSkipped test mgmt ind) :=
  h.upd rfl rfl rfl rfl rfl rfl

end Sys2Proof.Machine
end

