-- ==== Sys2Proof/Laws/KeepsOps.lean ====
section
/-! SUPPORT. Every operation of Machine/Ops.lean keeps what `Keeps` names. -/

namespace Sys2Proof.Machine

open Sys2Proof

/-! The hub operations leave the chip stop of the hub alone. -/

theorem Hub.modSrc_s4 (h : Hub) (p : Nat) (f : Source → Source) : (h.modSrc p f).s4 = h.s4 := rfl
theorem Hub.count_s4 (h : Hub) (i : Nat) : (h.count i).s4 = h.s4 := rfl
theorem Hub.reelPut_s4 (h : Hub) (m : Msg) : (h.reelPut m).s4 = h.s4 := rfl
theorem Hub.reelWrite_s4 (h : Hub) (m : Msg) : (h.reelWrite m).s4 = h.s4 := by
  unfold Hub.reelWrite
  repeat' split
  all_goals rfl
theorem Hub.stick_s4 (h : Hub) (m : Msg) : (h.stick m).s4 = h.s4 := by
  unfold Hub.stick
  split <;> rfl
theorem Hub.holdDaily_s4 (h : Hub) (d : Daily) : (h.holdDaily d).s4 = h.s4 := by
  unfold Hub.holdDaily
  dsimp only
  repeat' split
  all_goals rfl

/-- Marking these as simplification rules closes the side goals of `modHub`. -/
theorem Hub.record_s4 (h : Hub) (m n : Msg) (e : h.s4 = true) : ((h.reelWrite m).stick n).s4 = true := by
  rw [Hub.stick_s4, Hub.reelWrite_s4]
  exact e
theorem Hub.holdDaily_stays (d : Daily) (h : Hub) (e : h.s4 = true) : (h.holdDaily d).s4 = true := by
  rw [Hub.holdDaily_s4]
  exact e

theorem State.advanceTo_keeps {s₀ : State} (s : State) (t : Nat) (hk : Keeps s₀ s) : Keeps s₀ (State.advanceTo s t) :=
  hk.trans (by unfold State.advanceTo; split <;> exact ⟨rfl, rfl, rfl, (by first | exact Nat.le_refl _ | exact Nat.le_of_not_le (by assumption)), id, id⟩)


theorem State.tick_keeps {s₀ : State} (s : State) (hk : Keeps s₀ s) : Keeps s₀ (State.tick s) :=
  hk.trans ⟨rfl, rfl, rfl, Nat.le_add_right _ _, id, id⟩


theorem State.advanceClk_keeps {s₀ : State} (s : State) (c : Nat) (hk : Keeps s₀ s)  :
    Keeps s₀ (State.advanceClk s c) := by
  unfold State.advanceClk
  try dsimp only
  repeat' (first
    | with_reducible assumption
    | with_reducible apply State.advanceTo_keeps
    | split
    | exact fun _ e => e
    | exact fun _ _ => rfl
    | intro _
    | with_reducible apply Keeps.lit)

theorem State.modHub_keeps {s₀ : State} (s : State) (h : HubId) (f : Hub → Hub) (hk : Keeps s₀ s)
    (hf : ∀ k, k.s4 = true → (f k).s4 = true) : Keeps s₀ (State.modHub s h f) := by
  cases h
  · exact hk.trans ⟨rfl, rfl, rfl, Nat.le_refl _, hf s.hubA, id⟩
  · exact hk.trans ⟨rfl, rfl, rfl, Nat.le_refl _, id, hf s.hubB⟩


theorem State.modHubs_keeps {s₀ : State} (s : State) (f : Hub → Hub) (hk : Keeps s₀ s)
    (hf : ∀ k, k.s4 = true → (f k).s4 = true) : Keeps s₀ (State.modHubs s f) :=
  hk.trans ⟨rfl, rfl, rfl, Nat.le_refl _, hf s.hubA, hf s.hubB⟩


theorem State.selfTests_keeps {s₀ : State} (s : State) (a b : Bool) (hk : Keeps s₀ s)  :
    Keeps s₀ (State.selfTests s a b) := by
  unfold State.selfTests
  try dsimp only
  repeat' (first
    | with_reducible assumption
    | with_reducible apply State.modHub_keeps
    | split
    | exact fun _ e => e
    | exact fun _ _ => rfl
    | intro _
    | with_reducible apply Keeps.lit)

theorem State.modAgent_keeps {s₀ : State} (s : State) (i : Nat) (f : Agent → Agent) (hk : Keeps s₀ s)  :
    Keeps s₀ (State.modAgent s i f) := by
  unfold State.modAgent
  try dsimp only
  repeat' (first
    | with_reducible assumption
    | split
    | exact fun _ e => e
    | exact fun _ _ => rfl
    | intro _
    | with_reducible apply Keeps.lit)

theorem State.modConc_keeps {s₀ : State} (s : State) (i : Nat) (f : Conc → Conc) (hk : Keeps s₀ s)  :
    Keeps s₀ (State.modConc s i f) := by
  unfold State.modConc
  try dsimp only
  repeat' (first
    | with_reducible assumption
    | split
    | exact fun _ e => e
    | exact fun _ _ => rfl
    | intro _
    | with_reducible apply Keeps.lit)

theorem State.modEngine_keeps {s₀ : State} (s : State) (i : Nat) (f : Engine → Engine) (hk : Keeps s₀ s)  :
    Keeps s₀ (State.modEngine s i f) := by
  unfold State.modEngine
  try dsimp only
  repeat' (first
    | with_reducible assumption
    | split
    | exact fun _ e => e
    | exact fun _ _ => rfl
    | intro _
    | with_reducible apply Keeps.lit)

theorem State.modLink_keeps {s₀ : State} (s : State) (i : Nat) (f : LinkEnd → LinkEnd) (hk : Keeps s₀ s)  :
    Keeps s₀ (State.modLink s i f) := by
  unfold State.modLink
  try dsimp only
  repeat' (first
    | with_reducible assumption
    | split
    | exact fun _ e => e
    | exact fun _ _ => rfl
    | intro _
    | with_reducible apply Keeps.lit)

theorem State.modJob_keeps {s₀ : State} (s : State) (j : Nat) (f : JobSt → JobSt) (hk : Keeps s₀ s)  :
    Keeps s₀ (State.modJob s j f) := by
  unfold State.modJob
  try dsimp only
  repeat' (first
    | with_reducible assumption
    | split
    | exact fun _ e => e
    | exact fun _ _ => rfl
    | intro _
    | with_reducible apply Keeps.lit)

theorem State.modRetake_keeps {s₀ : State} (s : State) (r : Nat) (f : Retake → Retake) (hk : Keeps s₀ s)  :
    Keeps s₀ (State.modRetake s r f) := by
  unfold State.modRetake
  try dsimp only
  repeat' (first
    | with_reducible assumption
    | split
    | exact fun _ e => e
    | exact fun _ _ => rfl
    | intro _
    | with_reducible apply Keeps.lit)

theorem State.modPort_keeps {s₀ : State} (s : State) (p : Nat) (f : Port → Port) (hk : Keeps s₀ s)  :
    Keeps s₀ (State.modPort s p f) := by
  unfold State.modPort
  try dsimp only
  repeat' (first
    | with_reducible assumption
    | split
    | exact fun _ e => e
    | exact fun _ _ => rfl
    | intro _
    | with_reducible apply Keeps.lit)

theorem State.present_keeps {s₀ : State} (s : State) (o : PortOut) (hk : Keeps s₀ s)  :
    Keeps s₀ (State.present s o) := by
  unfold State.present
  try dsimp only
  repeat' (first
    | with_reducible assumption
    | split
    | exact fun _ e => e
    | exact fun _ _ => rfl
    | intro _
    | with_reducible apply Keeps.lit)

theorem State.eachHub_keeps {s₀ : State} (s : State) (f : HubId → State → State) (hk : Keeps s₀ s)
    (hf : ∀ h t, Keeps s₀ t → Keeps s₀ (f h t)) : Keeps s₀ (State.eachHub s f) := by
  unfold State.eachHub
  generalize s.upHubs = l
  induction l generalizing s with
  | nil => exact hk
  | cons x l ih => exact ih _ (hf x s hk)


theorem State.each_keeps {α : Type} {s₀ : State} (s : State) (l : List α) (f : α → State → State) (hk : Keeps s₀ s)
    (hf : ∀ x t, Keeps s₀ t → Keeps s₀ (f x t)) : Keeps s₀ (State.each s l f) := by
  unfold State.each
  induction l generalizing s with
  | nil => exact hk
  | cons x l ih => exact ih _ (hf x s hk)


theorem State.setQueue_keeps {s₀ : State} (s : State) (u : NetUnit) (q : Queue) (hk : Keeps s₀ s)  :
    Keeps s₀ (State.setQueue s u q) := by
  unfold State.setQueue
  try dsimp only
  repeat' (first
    | with_reducible assumption
    | with_reducible apply State.modAgent_keeps
    | with_reducible apply State.modConc_keeps
    | with_reducible apply State.modEngine_keeps
    | with_reducible apply State.modLink_keeps
    | with_reducible apply State.modHub_keeps
    | split
    | exact fun _ e => e
    | exact fun _ _ => rfl
    | intro _
    | with_reducible apply Keeps.lit)

theorem State.emit_keeps {s₀ : State} (s : State) (u : NetUnit) (m : Msg) (hk : Keeps s₀ s)  :
    Keeps s₀ (State.emit s u m) := by
  unfold State.emit
  try dsimp only
  repeat' (first
    | with_reducible assumption
    | with_reducible apply State.setQueue_keeps
    | split
    | exact fun _ e => e
    | exact fun _ _ => rfl
    | intro _
    | with_reducible apply Keeps.lit)

theorem State.report_keeps {s₀ : State} (s : State) (a : Nat) (kind : Byte) (sev : BitVec 3) (addr : Addr) (job : Job) (hk : Keeps s₀ s)  :
    Keeps s₀ (State.report s a kind sev addr job) := by
  unfold State.report
  try dsimp only
  repeat' (first
    | with_reducible assumption
    | with_reducible apply State.emit_keeps
    | split
    | exact fun _ e => e
    | exact fun _ _ => rfl
    | intro _
    | with_reducible apply Keeps.lit)

theorem State.mgmtPush_keeps {s₀ : State} (s : State) (e : MgmtEvent) (hk : Keeps s₀ s)  :
    Keeps s₀ (State.mgmtPush s e) := by
  unfold State.mgmtPush
  try dsimp only
  repeat' (first
    | with_reducible assumption
    | split
    | exact fun _ e => e
    | exact fun _ _ => rfl
    | intro _
    | with_reducible apply Keeps.lit)

theorem State.setSt_keeps {s₀ : State} (s : State) (h : HubId) (x : HubSt) (hk : Keeps s₀ s)  :
    Keeps s₀ (State.setSt s h x) := by
  unfold State.setSt
  try dsimp only
  repeat' (first
    | with_reducible assumption
    | with_reducible apply State.modHub_keeps
    | with_reducible apply State.mgmtPush_keeps
    | split
    | exact fun _ e => e
    | exact fun _ _ => rfl
    | intro _
    | with_reducible apply Keeps.lit)

theorem State.syncState_keeps {s₀ : State} (s : State) (h : HubId) (hk : Keeps s₀ s)  :
    Keeps s₀ (State.syncState s h) := by
  unfold State.syncState
  try dsimp only
  repeat' (first
    | with_reducible assumption
    | with_reducible apply State.setSt_keeps
    | split
    | exact fun _ e => e
    | exact fun _ _ => rfl
    | intro _
    | with_reducible apply Keeps.lit)

theorem State.setMode_keeps {s₀ : State} (s : State) (m : Nat) (hk : Keeps s₀ s)  :
    Keeps s₀ (State.setMode s m) := by
  unfold State.setMode
  try dsimp only
  repeat' (first
    | with_reducible assumption
    | with_reducible apply State.mgmtPush_keeps
    | split
    | exact fun _ e => e
    | exact fun _ _ => rfl
    | intro _
    | with_reducible apply Keeps.lit)

theorem State.endCmd_keeps {s₀ : State} (s : State) (code : Nat) (hk : Keeps s₀ s)  :
    Keeps s₀ (State.endCmd s code) := by
  unfold State.endCmd
  try dsimp only
  repeat' (first
    | with_reducible assumption
    | with_reducible apply State.modHubs_keeps
    | split
    | exact fun _ e => e
    | exact fun _ _ => rfl
    | intro _
    | with_reducible apply Keeps.lit)

theorem State.endWrap_keeps {s₀ : State} (s : State) (hk : Keeps s₀ s)  :
    Keeps s₀ (State.endWrap s) := by
  unfold State.endWrap
  try dsimp only
  repeat' (first
    | with_reducible assumption
    | with_reducible apply State.eachHub_keeps
    | with_reducible apply State.setSt_keeps
    | with_reducible apply State.endCmd_keeps
    | split
    | exact fun _ e => e
    | exact fun _ _ => rfl
    | intro _
    | with_reducible apply Keeps.lit)

theorem State.endQuiesce_keeps {s₀ : State} (s : State) (hk : Keeps s₀ s)  :
    Keeps s₀ (State.endQuiesce s) := by
  unfold State.endQuiesce
  try dsimp only
  repeat' (first
    | with_reducible assumption
    | with_reducible apply State.eachHub_keeps
    | with_reducible apply State.setSt_keeps
    | with_reducible apply State.endCmd_keeps
    | split
    | exact fun _ e => e
    | exact fun _ _ => rfl
    | intro _
    | with_reducible apply Keeps.lit)

theorem State.snapshot_keeps {s₀ : State} (s : State) (h : HubId) (c : Nat) (hk : Keeps s₀ s)  :
    Keeps s₀ (State.snapshot s h c) := by
  unfold State.snapshot
  try dsimp only
  repeat' (first
    | with_reducible assumption
    | with_reducible apply State.modHub_keeps
    | split
    | exact fun _ e => e
    | exact fun _ _ => rfl
    | intro _
    | with_reducible apply Keeps.lit)

theorem State.severeSnapshot_keeps {s₀ : State} (s : State) (h : HubId) (m : Msg) (hk : Keeps s₀ s)  :
    Keeps s₀ (State.severeSnapshot s h m) := by
  unfold State.severeSnapshot
  try dsimp only
  repeat' (first
    | with_reducible assumption
    | with_reducible apply State.snapshot_keeps
    | split
    | exact fun _ e => e
    | exact fun _ _ => rfl
    | intro _
    | with_reducible apply Keeps.lit)

theorem State.record_keeps {s₀ : State} (s : State) (h : HubId) (m : Msg) (hk : Keeps s₀ s)  :
    Keeps s₀ (State.record s h m) := by
  unfold State.record
  repeat' (first
    | with_reducible assumption
    | with_reducible apply State.modHub_keeps
    | with_reducible apply State.severeSnapshot_keeps
    | (extract_lets +onlyGivenNames zz; refine Keeps.cut (s := s₀) (t := zz) ?_ ?_; dsimp only [zz]; clear zz; rotate_left; clear_value zz; revert zz; intro _ _)
    | (extract_lets +onlyGivenNames zz; clear_value zz; revert zz; intro _)
    | split
    | (intro k e; first | exact e | exact Hub.record_s4 k _ _ e)
    | exact fun _ _ => rfl
    | intro _
    | with_reducible apply Keeps.lit)

theorem State.stopEvents_keeps {s₀ : State} (s : State) (h : HubId) (seq : W32) (hk : Keeps s₀ s)  :
    Keeps s₀ (State.stopEvents s h seq) := by
  unfold State.stopEvents
  try dsimp only
  repeat' (first
    | with_reducible assumption
    | split
    | exact fun _ e => e
    | exact fun _ _ => rfl
    | intro _
    | with_reducible apply Keeps.lit)

theorem State.dropLostDailies_keeps {s₀ : State} (s : State) (h : HubId) (hk : Keeps s₀ s)  :
    Keeps s₀ (State.dropLostDailies s h) := by
  unfold State.dropLostDailies
  try dsimp only
  repeat' (first
    | with_reducible assumption
    | split
    | exact fun _ e => e
    | exact fun _ _ => rfl
    | intro _
    | with_reducible apply Keeps.lit)

theorem State.buildDaily_keeps {s₀ : State} (s t : State) (h : HubId) (m : Msg) (f : Nat) (hk : Keeps s₀ s)  :
    Keeps s₀ (State.buildDaily s t h m f) := by
  unfold State.buildDaily
  try dsimp only
  repeat' (first
    | with_reducible assumption
    | with_reducible apply State.snapshot_keeps
    | with_reducible apply State.modHub_keeps
    | with_reducible apply State.dropLostDailies_keeps
    | with_reducible apply State.mgmtPush_keeps
    | with_reducible apply State.stopEvents_keeps
    | split
    | (intro k e; first | exact e | exact Hub.holdDaily_stays _ k e)
    | exact fun _ _ => rfl
    | intro _
    | with_reducible apply Keeps.lit)

theorem State.modX_keeps {s₀ : State} (s : State) (h : HubId) (f : XSend → XSend) (hk : Keeps s₀ s)  :
    Keeps s₀ (State.modX s h f) := by
  unfold State.modX
  try dsimp only
  repeat' (first
    | with_reducible assumption
    | split
    | exact fun _ e => e
    | exact fun _ _ => rfl
    | intro _
    | with_reducible apply Keeps.lit)

theorem State.mirrorOut_keeps {s₀ : State} (s : State) (h : HubId) (m : Msg) (hk : Keeps s₀ s)  :
    Keeps s₀ (State.mirrorOut s h m) := by
  unfold State.mirrorOut
  try dsimp only
  repeat' (first
    | with_reducible assumption
    | with_reducible apply State.modX_keeps
    | split
    | exact fun _ e => e
    | exact fun _ _ => rfl
    | intro _
    | with_reducible apply Keeps.lit)

theorem State.mirrorWrite_keeps {s₀ : State} (s : State) (a : Nat) (data : W32) (hk : Keeps s₀ s)  :
    Keeps s₀ (State.mirrorWrite s a data) := by
  unfold State.mirrorWrite
  try dsimp only
  repeat' (first
    | with_reducible assumption
    | with_reducible apply State.modX_keeps
    | split
    | exact fun _ e => e
    | exact fun _ _ => rfl
    | intro _
    | with_reducible apply Keeps.lit)

theorem State.portDo_keeps {s₀ : State} (s : State) (f : State → State) (hk : Keeps s₀ s) (hf : ∀ t, Keeps s₀ t → Keeps s₀ (f t)) :
    Keeps s₀ (State.portDo s f) := by
  unfold State.portDo
  try dsimp only
  repeat' (first
    | with_reducible assumption
    | with_reducible apply hf
    | with_reducible apply State.present_keeps
    | split
    | exact fun _ e => e
    | exact fun _ _ => rfl
    | intro _
    | with_reducible apply Keeps.lit)

theorem State.hubMsg_keeps {s₀ : State} (s : State) (h : HubId) (src : BitVec 16) (kind : Byte) (sev : BitVec 3) (addr : Addr) (job : Job)
    (by_ : Option Msg := none) (hk : Keeps s₀ s)  :
    Keeps s₀ (State.hubMsg s h src kind sev addr job by_).2 := by
  unfold State.hubMsg
  try dsimp only
  repeat' (first
    | with_reducible assumption
    | with_reducible apply State.modHub_keeps
    | split
    | exact fun _ e => e
    | exact fun _ _ => rfl
    | intro _
    | with_reducible apply Keeps.lit)

theorem State.hubMsg_keepsOf {s₀ : State} {s : State} (h : HubId) (src : BitVec 16) (kind : Byte) (sev : BitVec 3) (addr : Addr) (job : Job)
    (by_ : Option Msg := none) {t : State} {rest}
    (heq : State.hubMsg s h src kind sev addr job by_ = (rest, t)) (hk : Keeps s₀ s) : Keeps s₀ t := by
  have key := State.hubMsg_keeps s h src kind sev addr job by_ hk
  rw [heq] at key
  exact key

theorem State.generate_keeps {s₀ : State} (s : State) (h : HubId) (m : Msg) (hk : Keeps s₀ s)  :
    Keeps s₀ (State.generate s h m) := by
  unfold State.generate
  try dsimp only
  repeat' (first
    | with_reducible assumption
    | with_reducible apply State.record_keeps
    | with_reducible apply State.mirrorOut_keeps
    | with_reducible apply State.buildDaily_keeps
    | split
    | exact fun _ e => e
    | exact fun _ _ => rfl
    | intro _
    | with_reducible apply Keeps.lit)

theorem State.generateIrq_keeps {s₀ : State} (s : State) (h : HubId) (m : Msg) (hk : Keeps s₀ s)  :
    Keeps s₀ (State.generateIrq s h m) := by
  unfold State.generateIrq
  try dsimp only
  repeat' (first
    | with_reducible assumption
    | with_reducible apply State.generate_keeps
    | with_reducible apply State.modHub_keeps
    | split
    | exact fun _ e => e
    | exact fun _ _ => rfl
    | intro _
    | with_reducible apply Keeps.lit)

theorem State.orderFences_keeps {s₀ : State} (s : State) (h : HubId) (l : List Nat) (hk : Keeps s₀ s)  :
    Keeps s₀ (State.orderFences s h l) := by
  unfold State.orderFences
  try dsimp only
  repeat' (first
    | with_reducible assumption
    | with_reducible apply State.modHub_keeps
    | split
    | exact fun _ e => e
    | exact fun _ _ => rfl
    | intro _
    | with_reducible apply Keeps.lit)

theorem State.endFences_keeps {s₀ : State} (s : State) (h : HubId) (l : List Nat) (hk : Keeps s₀ s)  :
    Keeps s₀ (State.endFences s h l) := by
  unfold State.endFences
  try dsimp only
  repeat' (first
    | with_reducible assumption
    | with_reducible apply State.modHub_keeps
    | split
    | exact fun _ e => e
    | exact fun _ _ => rfl
    | intro _
    | with_reducible apply Keeps.lit)

theorem State.furtherEvent_keeps {s₀ : State} (s : State) (h : HubId) (a : Nat) (hk : Keeps s₀ s)  :
    Keeps s₀ (State.furtherEvent s h a) := by
  unfold State.furtherEvent
  try dsimp only
  repeat' (first
    | with_reducible assumption
    | with_reducible apply State.modHub_keeps
    | split
    | exact fun _ e => e
    | exact fun _ _ => rfl
    | intro _
    | with_reducible apply Keeps.lit)

theorem State.syncPaddock_keeps {s₀ : State} (s : State) (a : Nat) (hk : Keeps s₀ s)  :
    Keeps s₀ (State.syncPaddock s a) := by
  unfold State.syncPaddock
  try dsimp only
  repeat' (first
    | with_reducible assumption
    | with_reducible apply State.modAgent_keeps
    | with_reducible apply State.present_keeps
    | split
    | exact fun _ e => e
    | exact fun _ _ => rfl
    | intro _
    | with_reducible apply Keeps.lit)

theorem State.removePad_keeps {s₀ : State} (s : State) (h : HubId) (a : Nat) (hk : Keeps s₀ s)  :
    Keeps s₀ (State.removePad s h a) := by
  unfold State.removePad
  try dsimp only
  repeat' (first
    | with_reducible assumption
    | with_reducible apply State.modHub_keeps
    | with_reducible apply State.syncPaddock_keeps
    | split
    | exact fun _ e => e
    | exact fun _ _ => rfl
    | intro _
    | with_reducible apply Keeps.lit)

theorem State.exitPad_keeps {s₀ : State} (s : State) (h : HubId) (a : Nat) (hk : Keeps s₀ s)  :
    Keeps s₀ (State.exitPad s h a) := by
  unfold State.exitPad
  try dsimp only
  repeat' (first
    | with_reducible assumption
    | with_reducible apply State.removePad_keeps
    | split
    | exact fun _ e => e
    | exact fun _ _ => rfl
    | intro _
    | with_reducible apply Keeps.lit)

theorem State.presentCmt_keeps {s₀ : State} (s : State) (a : Nat) (c : Cmt) (hk : Keeps s₀ s)  :
    Keeps s₀ (State.presentCmt s a c) := by
  unfold State.presentCmt
  try dsimp only
  repeat' (first
    | with_reducible assumption
    | with_reducible apply State.modAgent_keeps
    | with_reducible apply State.present_keeps
    | split
    | exact fun _ e => e
    | exact fun _ _ => rfl
    | intro _
    | with_reducible apply Keeps.lit)

theorem State.openInc_keeps {s₀ : State} (s : State) (a : Nat) (job : Job) (step : Option W64) (hk : Keeps s₀ s)  :
    Keeps s₀ (State.openInc s a job step) := by
  unfold State.openInc
  try dsimp only
  repeat' (first
    | with_reducible assumption
    | with_reducible apply State.modConc_keeps
    | split
    | exact fun _ e => e
    | exact fun _ _ => rfl
    | intro _
    | with_reducible apply Keeps.lit)

theorem State.openDec_keeps {s₀ : State} (s : State) (a : Nat) (job : Job) (step : Option W64) (hk : Keeps s₀ s)  :
    Keeps s₀ (State.openDec s a job step) := by
  unfold State.openDec
  try dsimp only
  repeat' (first
    | with_reducible assumption
    | with_reducible apply State.modConc_keeps
    | split
    | exact fun _ e => e
    | exact fun _ _ => rfl
    | intro _
    | with_reducible apply Keeps.lit)

theorem State.logRetake_keeps {s₀ : State} (s : State) (r : Retake) (dec : Nat) (blame : Nat → Nat) (hk : Keeps s₀ s)  :
    Keeps s₀ (State.logRetake s r dec blame) := by
  unfold State.logRetake
  try dsimp only
  repeat' (first
    | with_reducible assumption
    | with_reducible apply State.each_keeps
    | with_reducible apply State.modConc_keeps
    | with_reducible apply State.modAgent_keeps
    | split
    | exact fun _ e => e
    | exact fun _ _ => rfl
    | intro _
    | with_reducible apply Keeps.lit)

theorem State.settled_keeps {s₀ : State} (s : State) (r : Retake) (hk : Keeps s₀ s)  :
    Keeps s₀ (State.settled s r) := by
  unfold State.settled
  try dsimp only
  repeat' (first
    | with_reducible assumption
    | with_reducible apply State.openDec_keeps
    | split
    | exact fun _ e => e
    | exact fun _ _ => rfl
    | intro _
    | with_reducible apply Keeps.lit)

theorem State.closeRetake_keeps {s₀ : State} (s : State) (n : Nat) (dec : Nat) (blame : Nat → Nat) (hk : Keeps s₀ s)  :
    Keeps s₀ (State.closeRetake s n dec blame) := by
  unfold State.closeRetake
  try dsimp only
  repeat' (first
    | with_reducible assumption
    | with_reducible apply State.each_keeps
    | with_reducible apply State.modAgent_keeps
    | with_reducible apply State.settled_keeps
    | with_reducible apply State.logRetake_keeps
    | with_reducible apply State.endQuiesce_keeps
    | split
    | exact fun _ e => e
    | exact fun _ _ => rfl
    | intro _
    | with_reducible apply Keeps.lit)

theorem State.abortedEntry_keeps {s₀ : State} (s : State) (h : HubId) (r : Retake) (hk : Keeps s₀ s)  :
    Keeps s₀ (State.abortedEntry s h r) := by
  unfold State.abortedEntry
  try dsimp only
  repeat' (first
    | with_reducible assumption
    | with_reducible apply State.generate_keeps
    | with_reducible apply State.modHub_keeps
    | split
    | exact fun _ e => e
    | exact fun _ _ => rfl
    | intro _
    | with_reducible apply Keeps.lit)

theorem State.stopRetakes_keeps {s₀ : State} (s : State) (h : HubId) (hk : Keeps s₀ s)  :
    Keeps s₀ (State.stopRetakes s h) := by
  unfold State.stopRetakes
  try dsimp only
  repeat' (first
    | with_reducible assumption
    | with_reducible apply State.each_keeps
    | with_reducible apply State.modRetake_keeps
    | with_reducible apply State.closeRetake_keeps
    | with_reducible apply State.abortedEntry_keeps
    | split
    | exact fun _ e => e
    | exact fun _ _ => rfl
    | intro _
    | with_reducible apply Keeps.lit)

theorem State.abortRetakes_keeps {s₀ : State} (s : State) (j : Nat) (hk : Keeps s₀ s)  :
    Keeps s₀ (State.abortRetakes s j) := by
  unfold State.abortRetakes
  try dsimp only
  repeat' (first
    | with_reducible assumption
    | with_reducible apply State.each_keeps
    | with_reducible apply State.modRetake_keeps
    | with_reducible apply State.abortedEntry_keeps
    | split
    | exact fun _ e => e
    | exact fun _ _ => rfl
    | intro _
    | with_reducible apply Keeps.lit)

theorem State.sendBeacon_keeps {s₀ : State} (s : State) (p : Nat) (hk : Keeps s₀ s)  :
    Keeps s₀ (State.sendBeacon s p) := by
  unfold State.sendBeacon
  try dsimp only
  repeat' (first
    | with_reducible assumption
    | with_reducible apply State.modPort_keeps
    | with_reducible apply State.present_keeps
    | split
    | exact fun _ e => e
    | exact fun _ _ => rfl
    | intro _
    | with_reducible apply Keeps.lit)

theorem State.abortStreams_keeps {s₀ : State} (s : State) (j : Nat) (hk : Keeps s₀ s)  :
    Keeps s₀ (State.abortStreams s j) := by
  unfold State.abortStreams
  try dsimp only
  repeat' (first
    | with_reducible assumption
    | split
    | exact fun _ e => e
    | exact fun _ _ => rfl
    | intro _
    | with_reducible apply Keeps.lit)

theorem State.dropRefused_keeps {s₀ : State} (s : State) (j : Nat) (hk : Keeps s₀ s)  :
    Keeps s₀ (State.dropRefused s j) := by
  unfold State.dropRefused
  try dsimp only
  repeat' (first
    | with_reducible assumption
    | split
    | exact fun _ e => e
    | exact fun _ _ => rfl
    | intro _
    | with_reducible apply Keeps.lit)

theorem State.abortBeacons_keeps {s₀ : State} (s : State) (mask : BitVec 16) (step : W64) (hk : Keeps s₀ s)  :
    Keeps s₀ (State.abortBeacons s mask step) := by
  unfold State.abortBeacons
  try dsimp only
  repeat' (first
    | with_reducible assumption
    | with_reducible apply State.each_keeps
    | with_reducible apply State.sendBeacon_keeps
    | split
    | exact fun _ e => e
    | exact fun _ _ => rfl
    | intro _
    | with_reducible apply Keeps.lit)

theorem State.dropHeld_keeps {s₀ : State} (s : State) (j : Nat) (hk : Keeps s₀ s)  :
    Keeps s₀ (State.dropHeld s j) := by
  unfold State.dropHeld
  try dsimp only
  repeat' (first
    | with_reducible assumption
    | split
    | exact fun _ e => e
    | exact fun _ _ => rfl
    | intro _
    | with_reducible apply Keeps.lit)

theorem State.markAborted_keeps {s₀ : State} (s : State) (j : Nat) (hk : Keeps s₀ s)  :
    Keeps s₀ (State.markAborted s j) := by
  unfold State.markAborted
  try dsimp only
  repeat' (first
    | with_reducible assumption
    | with_reducible apply State.dropRefused_keeps
    | with_reducible apply State.modJob_keeps
    | with_reducible apply State.abortStreams_keeps
    | with_reducible apply State.abortRetakes_keeps
    | with_reducible apply State.dropHeld_keeps
    | with_reducible apply State.abortBeacons_keeps
    | with_reducible apply State.endQuiesce_keeps
    | split
    | exact fun _ e => e
    | exact fun _ _ => rfl
    | intro _
    | with_reducible apply Keeps.lit)

theorem State.fifoAbort_keeps {s₀ : State} (s : State) (j : Nat) (kind : Byte) (hk : Keeps s₀ s)  :
    Keeps s₀ (State.fifoAbort s j kind) := by
  unfold State.fifoAbort
  try dsimp only
  repeat' (first
    | with_reducible assumption
    | with_reducible apply State.modJob_keeps
    | split
    | exact fun _ e => e
    | exact fun _ _ => rfl
    | intro _
    | with_reducible apply Keeps.lit)

theorem State.raiseAbort_keeps {s₀ : State} (s : State) (h : HubId) (job : Job) (kind : Byte) (hk : Keeps s₀ s)  :
    Keeps s₀ (State.raiseAbort s h job kind) := by
  unfold State.raiseAbort
  try dsimp only
  repeat' (first
    | with_reducible assumption
    | with_reducible apply State.modHub_keeps
    | with_reducible apply State.markAborted_keeps
    | with_reducible apply State.modX_keeps
    | with_reducible apply State.fifoAbort_keeps
    | split
    | exact fun _ e => e
    | exact fun _ _ => rfl
    | intro _
    | with_reducible apply Keeps.lit)

theorem State.curbEntry_keeps {s₀ : State} (s : State) (h : HubId) (die level : Nat) (ovr : Bool) (by_ : Option Msg := none) (hk : Keeps s₀ s)  :
    Keeps s₀ (State.curbEntry s h die level ovr by_) := by
  unfold State.curbEntry
  try dsimp only
  repeat' (first
    | with_reducible assumption
    | with_reducible apply State.hubMsg_keeps
    | refine State.hubMsg_keepsOf (by assumption) ?_
    | with_reducible apply State.record_keeps
    | split
    | exact fun _ e => e
    | exact fun _ _ => rfl
    | intro _
    | with_reducible apply Keeps.lit)

theorem State.setCurb_keeps {s₀ : State} (s : State) (h : HubId) (die level : Nat) (ovr : Bool) (by_ : Option Msg := none) (hk : Keeps s₀ s)  :
    Keeps s₀ (State.setCurb s h die level ovr by_) := by
  unfold State.setCurb
  try dsimp only
  repeat' (first
    | with_reducible assumption
    | with_reducible apply State.modHub_keeps
    | with_reducible apply State.curbEntry_keeps
    | split
    | exact fun _ e => e
    | exact fun _ _ => rfl
    | intro _
    | with_reducible apply Keeps.lit)

theorem State.periodEntry_keeps {s₀ : State} (s : State) (h : HubId) (die : Nat) (by_ : Option Msg := none) (hk : Keeps s₀ s)  :
    Keeps s₀ (State.periodEntry s h die by_) := by
  unfold State.periodEntry
  try dsimp only
  repeat' (first
    | with_reducible assumption
    | with_reducible apply State.curbEntry_keeps
    | split
    | exact fun _ e => e
    | exact fun _ _ => rfl
    | intro _
    | with_reducible apply Keeps.lit)

theorem State.stopCurbs_keeps {s₀ : State} (s : State) (h : HubId) (by_ : Option Msg := none) (hk : Keeps s₀ s)  :
    Keeps s₀ (State.stopCurbs s h by_) := by
  unfold State.stopCurbs
  try dsimp only
  repeat' (first
    | with_reducible assumption
    | with_reducible apply State.each_keeps
    | with_reducible apply State.setCurb_keeps
    | with_reducible apply State.periodEntry_keeps
    | with_reducible apply State.modHub_keeps
    | split
    | exact fun _ e => e
    | exact fun _ _ => rfl
    | intro _
    | with_reducible apply Keeps.lit)

theorem State.failStage_keeps {s₀ : State} (s : State) (cause code good bad : Nat) (by_ : Option Msg := none) (hk : Keeps s₀ s)  :
    Keeps s₀ (State.failStage s cause code good bad by_) := by
  unfold State.failStage
  try dsimp only
  repeat' (first
    | with_reducible assumption
    | with_reducible apply State.eachHub_keeps
    | with_reducible apply State.setSt_keeps
    | with_reducible apply State.hubMsg_keeps
    | refine State.hubMsg_keepsOf (by assumption) ?_
    | with_reducible apply State.record_keeps
    | with_reducible apply State.endCmd_keeps
    | split
    | exact fun _ e => e
    | exact fun _ _ => rfl
    | intro _
    | with_reducible apply Keeps.lit)

theorem State.breakStage_keeps {s₀ : State} (s : State) (cause : Nat) (by_ : Option Msg := none) (hk : Keeps s₀ s)  :
    Keeps s₀ (State.breakStage s cause by_) := by
  unfold State.breakStage
  try dsimp only
  repeat' (first
    | with_reducible assumption
    | with_reducible apply State.failStage_keeps
    | split
    | exact fun _ e => e
    | exact fun _ _ => rfl
    | intro _
    | with_reducible apply Keeps.lit)

theorem State.dropProposals_keeps {s₀ : State} (s : State) (hk : Keeps s₀ s)  :
    Keeps s₀ (State.dropProposals s) := by
  unfold State.dropProposals
  try dsimp only
  repeat' (first
    | with_reducible assumption
    | with_reducible apply State.answer_keeps
    | split
    | exact fun _ e => e
    | exact fun _ _ => rfl
    | intro _
    | with_reducible apply Keeps.lit)

theorem State.stopScans_keeps {s₀ : State} (s : State) (hk : Keeps s₀ s)  :
    Keeps s₀ (State.stopScans s) := by
  unfold State.stopScans
  try dsimp only
  repeat' (first
    | with_reducible assumption
    | with_reducible apply State.each_keeps
    | with_reducible apply State.modAgent_keeps
    | with_reducible apply State.present_keeps
    | split
    | exact fun _ e => e
    | exact fun _ _ => rfl
    | intro _
    | with_reducible apply Keeps.lit)

theorem State.chipStop_keeps {s₀ : State} (s : State) (h : HubId) (by_ : Option Msg := none) (hk : Keeps s₀ s)  :
    Keeps s₀ (State.chipStop s h by_) := by
  unfold State.chipStop
  try dsimp only
  repeat' (first
    | with_reducible assumption
    | with_reducible apply State.modHub_keeps
    | with_reducible apply State.breakStage_keeps
    | with_reducible apply State.setSt_keeps
    | with_reducible apply State.stopCurbs_keeps
    | with_reducible apply State.stopRetakes_keeps
    | with_reducible apply State.dropProposals_keeps
    | with_reducible apply State.stopScans_keeps
    | with_reducible apply State.endCmd_keeps
    | split
    | exact fun _ e => e
    | exact fun _ _ => rfl
    | intro _
    | with_reducible apply Keeps.lit)

theorem State.endGrant_keeps {s₀ : State} (s : State) (hk : Keeps s₀ s)  :
    Keeps s₀ (State.endGrant s) := by
  unfold State.endGrant
  try dsimp only
  repeat' (first
    | with_reducible assumption
    | split
    | exact fun _ e => e
    | exact fun _ _ => rfl
    | intro _
    | with_reducible apply Keeps.lit)

theorem State.abandonTrot_keeps {s₀ : State} (s : State) (t : Trot) (hk : Keeps s₀ s)  :
    Keeps s₀ (State.abandonTrot s t) := by
  unfold State.abandonTrot
  try dsimp only
  repeat' (first
    | with_reducible assumption
    | with_reducible apply State.endGrant_keeps
    | with_reducible apply State.modAgent_keeps
    | with_reducible apply State.eachHub_keeps
    | with_reducible apply State.modHub_keeps
    | with_reducible apply State.endQuiesce_keeps
    | split
    | exact fun _ e => e
    | exact fun _ _ => rfl
    | intro _
    | with_reducible apply Keeps.lit)

theorem State.handDailies_keeps {s₀ : State} (s : State) (h w : HubId) (served : Bool) (hk : Keeps s₀ s)  :
    Keeps s₀ (State.handDailies s h w served) := by
  unfold State.handDailies
  try dsimp only
  repeat' (first
    | with_reducible assumption
    | with_reducible apply State.modHub_keeps
    | split
    | exact fun _ e => e
    | exact fun _ _ => rfl
    | intro _
    | with_reducible apply Keeps.lit)

theorem State.representOrders_keeps {s₀ : State} (s : State) (hk : Keeps s₀ s)  :
    Keeps s₀ (State.representOrders s) := by
  unfold State.representOrders
  try dsimp only
  repeat' (first
    | with_reducible assumption
    | with_reducible apply State.each_keeps
    | with_reducible apply State.present_keeps
    | split
    | exact fun _ e => e
    | exact fun _ _ => rfl
    | intro _
    | with_reducible apply Keeps.lit)

theorem State.detach_keeps {s₀ : State} (s : State) (h : HubId) (mode : Nat) (hk : Keeps s₀ s)  :
    Keeps s₀ (State.detach s h mode) := by
  unfold State.detach
  try dsimp only
  repeat' (first
    | with_reducible assumption
    | with_reducible apply State.answer_keeps
    | with_reducible apply State.handDailies_keeps
    | with_reducible apply State.setMode_keeps
    | with_reducible apply State.each_keeps
    | with_reducible apply State.fifoAbort_keeps
    | with_reducible apply State.modX_keeps
    | with_reducible apply State.abandonTrot_keeps
    | with_reducible apply State.representOrders_keeps
    | with_reducible apply State.endCmd_keeps
    | split
    | exact fun _ e => e
    | exact fun _ _ => rfl
    | intro _
    | with_reducible apply Keeps.lit)

theorem State.enterFault_keeps {s₀ : State} (s : State) (h : HubId) (p : Nat) (kind : Byte) (by_ : Option Msg := none) (hk : Keeps s₀ s)  :
    Keeps s₀ (State.enterFault s h p kind by_) := by
  unfold State.enterFault
  try dsimp only
  repeat' (first
    | with_reducible assumption
    | with_reducible apply State.modHub_keeps
    | with_reducible apply State.orderFences_keeps
    | with_reducible apply State.removePad_keeps
    | with_reducible apply State.syncState_keeps
    | with_reducible apply State.detach_keeps
    | with_reducible apply State.chipStop_keeps
    | split
    | exact fun _ e => e
    | exact fun _ _ => rfl
    | intro _
    | with_reducible apply Keeps.lit)

theorem State.lameEvent_keeps {s₀ : State} (s : State) (h : HubId) (hk : Keeps s₀ s)  :
    Keeps s₀ (State.lameEvent s h) := by
  unfold State.lameEvent
  try dsimp only
  repeat' (first
    | with_reducible assumption
    | with_reducible apply State.mgmtPush_keeps
    | split
    | exact fun _ e => e
    | exact fun _ _ => rfl
    | intro _
    | with_reducible apply Keeps.lit)

theorem State.makeLame_keeps {s₀ : State} (s : State) (h : HubId) (p : Nat) (by_ : Option Msg := none) (hk : Keeps s₀ s)  :
    Keeps s₀ (State.makeLame s h p by_) := by
  unfold State.makeLame
  try dsimp only
  repeat' (first
    | with_reducible assumption
    | with_reducible apply State.modHub_keeps
    | with_reducible apply State.orderFences_keeps
    | with_reducible apply State.removePad_keeps
    | with_reducible apply State.hubMsg_keeps
    | refine State.hubMsg_keepsOf (by assumption) ?_
    | with_reducible apply State.generateIrq_keeps
    | with_reducible apply State.lameEvent_keeps
    | with_reducible apply State.syncState_keeps
    | split
    | exact fun _ e => e
    | exact fun _ _ => rfl
    | intro _
    | with_reducible apply Keeps.lit)

theorem State.bucketStep_keeps {s₀ : State} (s : State) (h : HubId) (m : Msg) (hk : Keeps s₀ s)  :
    Keeps s₀ (State.bucketStep s h m) := by
  unfold State.bucketStep
  try dsimp only
  repeat' (first
    | with_reducible assumption
    | with_reducible apply State.modHub_keeps
    | with_reducible apply State.enterFault_keeps
    | with_reducible apply State.furtherEvent_keeps
    | with_reducible apply State.record_keeps
    | with_reducible apply State.mirrorOut_keeps
    | with_reducible apply State.buildDaily_keeps
    | split
    | exact fun _ e => e
    | exact fun _ _ => rfl
    | intro _
    | with_reducible apply Keeps.lit)

theorem State.place_keeps {s₀ : State} (s : State) (h : HubId) (a : Nat) (tile agentSus : Bool) (cause : Nat) (by_ : Msg) (hk : Keeps s₀ s)  :
    Keeps s₀ (State.place s h a tile agentSus cause by_) := by
  unfold State.place
  try dsimp only
  repeat' (first
    | with_reducible assumption
    | with_reducible apply State.modHub_keeps
    | with_reducible apply State.syncPaddock_keeps
    | with_reducible apply State.record_keeps
    | with_reducible apply State.mirrorOut_keeps
    | with_reducible apply State.enterFault_keeps
    | with_reducible apply State.buildDaily_keeps
    | split
    | exact fun _ e => e
    | exact fun _ _ => rfl
    | intro _
    | with_reducible apply Keeps.lit)

theorem State.react_keeps {s₀ : State} (s : State) (h : HubId) (m : Msg) (hk : Keeps s₀ s)  :
    Keeps s₀ (State.react s h m) := by
  unfold State.react
  try dsimp only
  repeat' (first
    | with_reducible assumption
    | with_reducible apply State.bucketStep_keeps
    | with_reducible apply State.chipStop_keeps
    | with_reducible apply State.raiseAbort_keeps
    | split
    | exact fun _ e => e
    | exact fun _ _ => rfl
    | intro _
    | with_reducible apply Keeps.lit)

theorem State.acceptRecord_keeps {s₀ : State} (s : State) (h : HubId) (m : Msg) (hk : Keeps s₀ s)  :
    Keeps s₀ (State.acceptRecord s h m) := by
  unfold State.acceptRecord
  try dsimp only
  repeat' (first
    | with_reducible assumption
    | with_reducible apply State.record_keeps
    | with_reducible apply State.modHub_keeps
    | split
    | exact fun _ e => e
    | exact fun _ _ => rfl
    | intro _
    | with_reducible apply Keeps.lit)

theorem State.hubEntry_keeps {s₀ : State} (s : State) (h : HubId) (m : Msg) (hk : Keeps s₀ s)  :
    Keeps s₀ (State.hubEntry s h m) := by
  unfold State.hubEntry
  try dsimp only
  repeat' (first
    | with_reducible assumption
    | with_reducible apply State.acceptRecord_keeps
    | with_reducible apply State.react_keeps
    | with_reducible apply State.buildDaily_keeps
    | split
    | exact fun _ e => e
    | exact fun _ _ => rfl
    | intro _
    | with_reducible apply Keeps.lit)

theorem State.note_keeps {s₀ : State} (s : State) (h : HubId) (src : BitVec 16) (kind : Byte) (sev : BitVec 3) (addr : Addr) (job : Job)
    (by_ : Option Msg := none) (hk : Keeps s₀ s)  :
    Keeps s₀ (State.note s h src kind sev addr job by_) := by
  unfold State.note
  try dsimp only
  repeat' (first
    | with_reducible assumption
    | with_reducible apply State.hubMsg_keeps
    | refine State.hubMsg_keepsOf (by assumption) ?_
    | with_reducible apply State.hubEntry_keeps
    | split
    | exact fun _ e => e
    | exact fun _ _ => rfl
    | intro _
    | with_reducible apply Keeps.lit)

theorem State.noteMirror_keeps {s₀ : State} (s : State) (h : HubId) (src : BitVec 16) (kind : Byte) (sev : BitVec 3) (addr : Addr) (job : Job) (hk : Keeps s₀ s)  :
    Keeps s₀ (State.noteMirror s h src kind sev addr job) := by
  unfold State.noteMirror
  try dsimp only
  repeat' (first
    | with_reducible assumption
    | with_reducible apply State.hubMsg_keeps
    | refine State.hubMsg_keepsOf (by assumption) ?_
    | with_reducible apply State.hubEntry_keeps
    | with_reducible apply State.mirrorOut_keeps
    | split
    | exact fun _ e => e
    | exact fun _ _ => rfl
    | intro _
    | with_reducible apply Keeps.lit)

theorem State.noteAll_keeps {s₀ : State} (s : State) (src : BitVec 16) (kind : Byte) (sev : BitVec 3) (addr : Addr) (job : Job) (hk : Keeps s₀ s)  :
    Keeps s₀ (State.noteAll s src kind sev addr job) := by
  unfold State.noteAll
  try dsimp only
  repeat' (first
    | with_reducible assumption
    | with_reducible apply State.eachHub_keeps
    | with_reducible apply State.note_keeps
    | split
    | exact fun _ e => e
    | exact fun _ _ => rfl
    | intro _
    | with_reducible apply Keeps.lit)

theorem State.refusal_keeps {s₀ : State} (s : State) (hk : Keeps s₀ s)  :
    Keeps s₀ (State.refusal s) := by
  unfold State.refusal
  try dsimp only
  repeat' (first
    | with_reducible assumption
    | with_reducible apply State.modHub_keeps
    | with_reducible apply State.note_keeps
    | split
    | exact fun _ e => e
    | exact fun _ _ => rfl
    | intro _
    | with_reducible apply Keeps.lit)

theorem State.propose_keeps {s₀ : State} (s : State) (x : RelaxAction) (hk : Keeps s₀ s)  :
    Keeps s₀ (State.propose s x) := by
  unfold State.propose
  try dsimp only
  repeat' (first
    | with_reducible assumption
    | split
    | exact fun _ e => e
    | exact fun _ _ => rfl
    | intro _
    | with_reducible apply Keeps.lit)

theorem State.keepRefusal_keeps {s₀ : State} (s : State) (x : RelaxAction) (hk : Keeps s₀ s)  :
    Keeps s₀ (State.keepRefusal s x) := by
  unfold State.keepRefusal
  try dsimp only
  repeat' (first
    | with_reducible assumption
    | split
    | exact fun _ e => e
    | exact fun _ _ => rfl
    | intro _
    | with_reducible apply Keeps.lit)

theorem State.relax_keeps {s₀ : State} (s : State) (x : RelaxAction) (act : State → State) (hk : Keeps s₀ s) (ha : ∀ t, Keeps s₀ t → Keeps s₀ (act t)) :
    Keeps s₀ (State.relax s x act) := by
  unfold State.relax
  try dsimp only
  repeat' (first
    | with_reducible assumption
    | with_reducible apply ha
    | with_reducible apply State.propose_keeps
    | split
    | exact fun _ e => e
    | exact fun _ _ => rfl
    | intro _
    | with_reducible apply Keeps.lit)

end Sys2Proof.Machine
end

