-- ==== Sys2Proof/Laws/KeepsRetake.lean ====
section
/-! SUPPORT. Every operation of Machine/Retake.lean keeps what `Keeps` names. -/

namespace Sys2Proof.Machine

open Sys2Proof

theorem State.scPush_keeps {s₀ : State} (s : State) (a : Nat) (op : ScOp) (hk : Keeps s₀ s)  :
    Keeps s₀ (State.scPush s a op) := by
  unfold State.scPush
  try dsimp only
  repeat' (first
    | with_reducible assumption
    | with_reducible apply State.modAgent_keeps
    | with_reducible apply State.present_keeps
    | split
    | exact fun _ e => e
    | exact fun _ _ => rfl
    | intro _
    | with_reducible apply Keeps.lit)

theorem State.scDrop_keeps {s₀ : State} (s : State) (a : Nat) (f : ScOp → Bool) (hk : Keeps s₀ s)  :
    Keeps s₀ (State.scDrop s a f) := by
  unfold State.scDrop
  try dsimp only
  repeat' (first
    | with_reducible assumption
    | with_reducible apply State.modAgent_keeps
    | split
    | exact fun _ e => e
    | exact fun _ _ => rfl
    | intro _
    | with_reducible apply Keeps.lit)

theorem State.requestRun_keeps {s₀ : State} (s : State) (n : Nat) (hk : Keeps s₀ s)  :
    Keeps s₀ (State.requestRun s n) := by
  unfold State.requestRun
  try dsimp only
  repeat' (first
    | with_reducible assumption
    | with_reducible apply State.modRetake_keeps
    | with_reducible apply State.scPush_keeps
    | with_reducible apply State.record_keeps
    | split
    | exact fun _ e => e
    | exact fun _ _ => rfl
    | intro _
    | with_reducible apply Keeps.lit)

theorem State.startWaiting_keeps {s₀ : State} (s : State) (hk : Keeps s₀ s)  :
    Keeps s₀ (State.startWaiting s) := by
  unfold State.startWaiting
  try dsimp only
  repeat' (first
    | with_reducible assumption
    | with_reducible apply State.each_keeps
    | with_reducible apply State.requestRun_keeps
    | split
    | exact fun _ e => e
    | exact fun _ _ => rfl
    | intro _
    | with_reducible apply Keeps.lit)

theorem State.decisionEntry_keeps {s₀ : State} (s : State) (r : Retake) (dec : Nat) (hk : Keeps s₀ s)  :
    Keeps s₀ (State.decisionEntry s r dec) := by
  unfold State.decisionEntry
  try dsimp only
  repeat' (first
    | with_reducible assumption
    | with_reducible apply State.hubEntry_keeps
    | with_reducible apply State.mirrorOut_keeps
    | split
    | exact fun _ e => e
    | exact fun _ _ => rfl
    | intro _
    | with_reducible apply Keeps.lit)

theorem State.placeBlamed_keeps {s₀ : State} (s : State) (r : Retake) (dec : Nat) (hk : Keeps s₀ s)  :
    Keeps s₀ (State.placeBlamed s r dec) := by
  unfold State.placeBlamed
  try dsimp only
  repeat' (first
    | with_reducible assumption
    | with_reducible apply State.each_keeps
    | with_reducible apply State.eachHub_keeps
    | with_reducible apply State.place_keeps
    | split
    | exact fun _ e => e
    | exact fun _ _ => rfl
    | intro _
    | with_reducible apply Keeps.lit)

theorem State.takeDecision_keeps {s₀ : State} (s : State) (n dec : Nat) (hk : Keeps s₀ s)  :
    Keeps s₀ (State.takeDecision s n dec) := by
  unfold State.takeDecision
  try dsimp only
  repeat' (first
    | with_reducible assumption
    | with_reducible apply State.modRetake_keeps
    | with_reducible apply State.placeBlamed_keeps
    | with_reducible apply State.decisionEntry_keeps
    | split
    | exact fun _ e => e
    | exact fun _ _ => rfl
    | intro _
    | with_reducible apply Keeps.lit)

theorem State.decideStep_keeps {s₀ : State} (s : State) (n : Nat) (more : Bool) (hk : Keeps s₀ s)  :
    Keeps s₀ (State.decideStep s n more) := by
  unfold State.decideStep
  try dsimp only
  repeat' (first
    | with_reducible assumption
    | with_reducible apply State.requestRun_keeps
    | with_reducible apply State.modRetake_keeps
    | with_reducible apply State.relax_keeps
    | with_reducible apply State.takeDecision_keeps
    | split
    | exact fun _ e => e
    | exact fun _ _ => rfl
    | intro _
    | with_reducible apply Keeps.lit)

theorem State.loseRun_keeps {s₀ : State} (s : State) (n agent : Nat) (excused : Bool) (hk : Keeps s₀ s)  :
    Keeps s₀ (State.loseRun s n agent excused) := by
  unfold State.loseRun
  try dsimp only
  repeat' (first
    | with_reducible assumption
    | with_reducible apply State.modRetake_keeps
    | split
    | exact fun _ e => e
    | exact fun _ _ => rfl
    | intro _
    | with_reducible apply Keeps.lit)

theorem State.declineRetake_keeps {s₀ : State} (s : State) (x : Account) (hk : Keeps s₀ s)  :
    Keeps s₀ (State.declineRetake s x) := by
  unfold State.declineRetake
  try dsimp only
  repeat' (first
    | with_reducible assumption
    | with_reducible apply State.presentCmt_keeps
    | with_reducible apply State.modConc_keeps
    | with_reducible apply State.modAgent_keeps
    | split
    | exact fun _ e => e
    | exact fun _ _ => rfl
    | intro _
    | with_reducible apply Keeps.lit)

theorem State.denyRetake_keeps {s₀ : State} (s : State) (h : HubId) (m : Msg) (r : Retake) (dec : Nat) (hk : Keeps s₀ s)  :
    Keeps s₀ (State.denyRetake s h m r dec) := by
  unfold State.denyRetake
  try dsimp only
  repeat' (first
    | with_reducible assumption
    | with_reducible apply State.logRetake_keeps
    | with_reducible apply State.decisionEntry_keeps
    | with_reducible apply State.raiseAbort_keeps
    | split
    | exact fun _ e => e
    | exact fun _ _ => rfl
    | intro _
    | with_reducible apply Keeps.lit)

theorem State.denyUnheld_keeps {s₀ : State} (s : State) (h : HubId) (m : Msg) (hk : Keeps s₀ s)  :
    Keeps s₀ (State.denyUnheld s h m) := by
  unfold State.denyUnheld
  try dsimp only
  repeat' (first
    | with_reducible assumption
    | with_reducible apply State.modConc_keeps
    | with_reducible apply State.denyRetake_keeps
    | with_reducible apply State.record_keeps
    | split
    | exact fun _ e => e
    | exact fun _ _ => rfl
    | intro _
    | with_reducible apply Keeps.lit)

theorem State.leadRetake_keeps {s₀ : State} (s : State) (h : HubId) (m : Msg) (hk : Keeps s₀ s)  :
    Keeps s₀ (State.leadRetake s h m) := by
  unfold State.leadRetake
  try dsimp only
  repeat' (first
    | with_reducible assumption
    | with_reducible apply State.denyUnheld_keeps
    | with_reducible apply State.record_keeps
    | with_reducible apply State.declineRetake_keeps
    | with_reducible apply State.denyRetake_keeps
    | with_reducible apply State.requestRun_keeps
    | split
    | exact fun _ e => e
    | exact fun _ _ => rfl
    | intro _
    | with_reducible apply Keeps.lit)

theorem State.openRetake_keeps {s₀ : State} (s : State) (h : HubId) (m : Msg) (hk : Keeps s₀ s)  :
    Keeps s₀ (State.openRetake s h m) := by
  unfold State.openRetake
  try dsimp only
  repeat' (first
    | with_reducible assumption
    | with_reducible apply State.modHub_keeps
    | with_reducible apply State.leadRetake_keeps
    | split
    | exact fun _ e => e
    | exact fun _ _ => rfl
    | intro _
    | with_reducible apply Keeps.lit)

theorem State.takeUpFails_keeps {s₀ : State} (s : State) (h : HubId) (hk : Keeps s₀ s)  :
    Keeps s₀ (State.takeUpFails s h) := by
  unfold State.takeUpFails
  try dsimp only
  repeat' (first
    | with_reducible assumption
    | with_reducible apply State.each_keeps
    | with_reducible apply State.leadRetake_keeps
    | with_reducible apply State.modHub_keeps
    | split
    | exact fun _ e => e
    | exact fun _ _ => rfl
    | intro _
    | with_reducible apply Keeps.lit)

theorem State.takeUpLead_keeps {s₀ : State} (s : State) (hk : Keeps s₀ s)  :
    Keeps s₀ (State.takeUpLead s) := by
  unfold State.takeUpLead
  try dsimp only
  repeat' (first
    | with_reducible assumption
    | with_reducible apply State.takeUpFails_keeps
    | split
    | exact fun _ e => e
    | exact fun _ _ => rfl
    | intro _
    | with_reducible apply Keeps.lit)

theorem State.retire_keeps {s₀ : State} (s : State) (hk : Keeps s₀ s)  :
    Keeps s₀ (State.retire s) := by
  unfold State.retire
  try dsimp only
  repeat' (first
    | with_reducible assumption
    | with_reducible apply State.detach_keeps
    | with_reducible apply State.note_keeps
    | with_reducible apply State.endCmd_keeps
    | split
    | exact fun _ e => e
    | exact fun _ _ => rfl
    | intro _
    | with_reducible apply Keeps.lit)

theorem State.endRetire_keeps {s₀ : State} (s : State) (hk : Keeps s₀ s)  :
    Keeps s₀ (State.endRetire s) := by
  unfold State.endRetire
  try dsimp only
  repeat' (first
    | with_reducible assumption
    | with_reducible apply State.retire_keeps
    | with_reducible apply State.takeUpLead_keeps
    | split
    | exact fun _ e => e
    | exact fun _ _ => rfl
    | intro _
    | with_reducible apply Keeps.lit)

theorem State.countTimeout_keeps {s₀ : State} (s : State) (hk : Keeps s₀ s)  :
    Keeps s₀ (State.countTimeout s) := by
  unfold State.countTimeout
  try dsimp only
  repeat' (first
    | with_reducible assumption
    | split
    | exact fun _ e => e
    | exact fun _ _ => rfl
    | intro _
    | with_reducible apply Keeps.lit)

end Sys2Proof.Machine
end

