-- ==== Sys2Proof/Laws/KeepsNetwork.lean ====
section
/-! SUPPORT. Every operation of Machine/Network.lean keeps what `Keeps` names. -/

namespace Sys2Proof.Machine

open Sys2Proof

theorem State.hopMessage_keeps {s₀ : State} (s : State) (u : NetUnit) (h : HubId) (hk : Keeps s₀ s)  :
    Keeps s₀ (State.hopMessage s u h) := by
  unfold State.hopMessage
  try dsimp only
  repeat' (first
    | with_reducible assumption
    | with_reducible apply State.setQueue_keeps
    | split
    | exact fun _ e => e
    | exact fun _ _ => rfl
    | intro _
    | with_reducible apply Keeps.lit)

theorem State.noteResend_keeps {s₀ : State} (s : State) (u v : NetUnit) (hk : Keeps s₀ s)  :
    Keeps s₀ (State.noteResend s u v) := by
  unfold State.noteResend
  try dsimp only
  repeat' (first
    | with_reducible assumption
    | with_reducible apply State.modLink_keeps
    | split
    | exact fun _ e => e
    | exact fun _ _ => rfl
    | intro _
    | with_reducible apply Keeps.lit)

theorem State.hopBad_keeps {s₀ : State} (s : State) (u : NetUnit) (h : HubId) (hk : Keeps s₀ s)  :
    Keeps s₀ (State.hopBad s u h) := by
  unfold State.hopBad
  try dsimp only
  repeat' (first
    | with_reducible assumption
    | with_reducible apply State.setQueue_keeps
    | with_reducible apply State.emit_keeps
    | with_reducible apply State.noteResend_keeps
    | split
    | exact fun _ e => e
    | exact fun _ _ => rfl
    | intro _
    | with_reducible apply Keeps.lit)

theorem State.recover_keeps {s₀ : State} (s : State) (h : HubId) (p : Nat) (hk : Keeps s₀ s)  :
    Keeps s₀ (State.recover s h p) := by
  unfold State.recover
  try dsimp only
  repeat' (first
    | with_reducible assumption
    | with_reducible apply State.modHub_keeps
    | with_reducible apply State.hubMsg_keeps
    | refine State.hubMsg_keepsOf (by assumption) ?_
    | with_reducible apply State.generateIrq_keeps
    | with_reducible apply State.endFences_keeps
    | with_reducible apply State.place_keeps
    | with_reducible apply State.modLink_keeps
    | with_reducible apply State.syncState_keeps
    | split
    | exact fun _ e => e
    | exact fun _ _ => rfl
    | intro _
    | with_reducible apply Keeps.lit)

theorem State.onQuiet_keeps {s₀ : State} (s : State) (h : HubId) (p : Nat) (hk : Keeps s₀ s)  :
    Keeps s₀ (State.onQuiet s h p) := by
  unfold State.onQuiet
  try dsimp only
  repeat' (first
    | with_reducible assumption
    | with_reducible apply State.modHub_keeps
    | with_reducible apply State.makeLame_keeps
    | with_reducible apply State.recover_keeps
    | split
    | exact fun _ e => e
    | exact fun _ _ => rfl
    | intro _
    | with_reducible apply Keeps.lit)

theorem State.placeOdd_keeps {s₀ : State} (s : State) (h : HubId) (a : Nat) (m : Msg) (hk : Keeps s₀ s)  :
    Keeps s₀ (State.placeOdd s h a m) := by
  unfold State.placeOdd
  try dsimp only
  repeat' (first
    | with_reducible assumption
    | with_reducible apply State.place_keeps
    | split
    | exact fun _ e => e
    | exact fun _ _ => rfl
    | intro _
    | with_reducible apply Keeps.lit)

theorem State.kindActions_keeps {s₀ : State} (s : State) (h : HubId) (m : Msg) (hk : Keeps s₀ s)  :
    Keeps s₀ (State.kindActions s h m) := by
  unfold State.kindActions
  try dsimp only
  repeat' (first
    | with_reducible assumption
    | with_reducible apply State.openRetake_keeps
    | with_reducible apply State.each_keeps
    | with_reducible apply State.placeOdd_keeps
    | with_reducible apply State.modHub_keeps
    | split
    | exact fun _ e => e
    | exact fun _ _ => rfl
    | intro _
    | with_reducible apply Keeps.lit)

theorem State.dropQueues_keeps {s₀ : State} (s : State) (d : Nat) (hk : Keeps s₀ s)  :
    Keeps s₀ (State.dropQueues s d) := by
  unfold State.dropQueues
  try dsimp only
  repeat' (first
    | with_reducible assumption
    | with_reducible apply State.each_keeps
    | with_reducible apply State.modAgent_keeps
    | with_reducible apply State.modConc_keeps
    | with_reducible apply State.modEngine_keeps
    | with_reducible apply State.modLink_keeps
    | split
    | exact fun _ e => e
    | exact fun _ _ => rfl
    | intro _
    | with_reducible apply Keeps.lit)

theorem State.lameAll_keeps {s₀ : State} (s : State) (h : HubId) (p : Nat) (by_ : Option Msg := none) (hk : Keeps s₀ s)  :
    Keeps s₀ (State.lameAll s h p by_) := by
  unfold State.lameAll
  try dsimp only
  repeat' (first
    | with_reducible assumption
    | with_reducible apply State.each_keeps
    | with_reducible apply State.makeLame_keeps
    | split
    | exact fun _ e => e
    | exact fun _ _ => rfl
    | intro _
    | with_reducible apply Keeps.lit)

theorem State.finding_keeps {s₀ : State} (s : State) (h : HubId) (src : BitVec 16) (kind : Byte) (sev : BitVec 3) (addr : Addr)
    (by_ : Option Msg := none) (hk : Keeps s₀ s)  :
    Keeps s₀ (State.finding s h src kind sev addr by_) := by
  unfold State.finding
  try dsimp only
  repeat' (first
    | with_reducible assumption
    | with_reducible apply State.hubMsg_keeps
    | refine State.hubMsg_keepsOf (by assumption) ?_
    | with_reducible apply State.acceptRecord_keeps
    | with_reducible apply State.buildDaily_keeps
    | split
    | exact fun _ e => e
    | exact fun _ _ => rfl
    | intro _
    | with_reducible apply Keeps.lit)

theorem State.loseDie_keeps {s₀ : State} (s : State) (h : HubId) (d : Nat) (by_ : Option Msg := none) (hk : Keeps s₀ s)  :
    Keeps s₀ (State.loseDie s h d by_) := by
  unfold State.loseDie
  try dsimp only
  repeat' (first
    | with_reducible assumption
    | with_reducible apply State.finding_keeps
    | with_reducible apply State.note_keeps
    | with_reducible apply State.lameAll_keeps
    | with_reducible apply State.dropQueues_keeps
    | split
    | exact fun _ e => e
    | exact fun _ _ => rfl
    | intro _
    | with_reducible apply Keeps.lit)

theorem State.judgeDies_keeps {s₀ : State} (s : State) (by_ : Option Msg := none) (hk : Keeps s₀ s)  :
    Keeps s₀ (State.judgeDies s by_) := by
  unfold State.judgeDies
  try dsimp only
  repeat' (first
    | with_reducible assumption
    | with_reducible apply State.eachHub_keeps
    | with_reducible apply State.each_keeps
    | with_reducible apply State.loseDie_keeps
    | split
    | exact fun _ e => e
    | exact fun _ _ => rfl
    | intro _
    | with_reducible apply Keeps.lit)

theorem State.acceptMsg_keeps {s₀ : State} (s : State) (h : HubId) (m : Msg) (hk : Keeps s₀ s)  :
    Keeps s₀ (State.acceptMsg s h m) := by
  unfold State.acceptMsg
  repeat' (first
    | with_reducible assumption
    | with_reducible apply State.modHub_keeps
    | with_reducible apply State.acceptRecord_keeps
    | with_reducible apply State.react_keeps
    | with_reducible apply State.judgeDies_keeps
    | with_reducible apply State.kindActions_keeps
    | with_reducible apply State.buildDaily_keeps
    | with_reducible apply State.takeUpLead_keeps
    | (extract_lets +onlyGivenNames zz; refine Keeps.cut (s := s₀) (t := zz) ?_ ?_; dsimp only [zz]; clear zz; rotate_left; clear_value zz; revert zz; intro _ _)
    | (extract_lets +onlyGivenNames zz; clear_value zz; revert zz; intro _)
    | split
    | (intro k e; first | exact e | exact Hub.record_s4 k _ _ e)
    | exact fun _ _ => rfl
    | intro _
    | with_reducible apply Keeps.lit)

theorem State.reelMark_keeps {s₀ : State} (s : State) (h : HubId) (hk : Keeps s₀ s)  :
    Keeps s₀ (State.reelMark s h) := by
  unfold State.reelMark
  try dsimp only
  repeat' (first
    | with_reducible assumption
    | with_reducible apply State.hubMsg_keeps
    | refine State.hubMsg_keepsOf (by assumption) ?_
    | with_reducible apply State.record_keeps
    | split
    | exact fun _ e => e
    | exact fun _ _ => rfl
    | intro _
    | with_reducible apply Keeps.lit)

theorem State.reconcileTake_keeps {s₀ : State} (s : State) (h : HubId) (a : Nat) (bitSet : Bool) (hk : Keeps s₀ s)  :
    Keeps s₀ (State.reconcileTake s h a bitSet) := by
  unfold State.reconcileTake
  try dsimp only
  repeat' (first
    | with_reducible assumption
    | with_reducible apply State.enterFault_keeps
    | with_reducible apply State.modHub_keeps
    | split
    | exact fun _ e => e
    | exact fun _ _ => rfl
    | intro _
    | with_reducible apply Keeps.lit)

theorem State.reconcileAgent_keeps {s₀ : State} (s : State) (h : HubId) (c i : Nat) (hk : Keeps s₀ s)  :
    Keeps s₀ (State.reconcileAgent s h c i) := by
  unfold State.reconcileAgent
  try dsimp only
  repeat' (first
    | with_reducible assumption
    | with_reducible apply State.modHub_keeps
    | with_reducible apply State.noteMirror_keeps
    | with_reducible apply State.reconcileTake_keeps
    | split
    | exact fun _ e => e
    | exact fun _ _ => rfl
    | intro _
    | with_reducible apply Keeps.lit)

end Sys2Proof.Machine
end

