-- ==== Sys2Proof/Laws/KeepsTest.lean ====
section
/-! SUPPORT. Every operation of Machine/Test.lean keeps what `Keeps` names. -/

namespace Sys2Proof.Machine

open Sys2Proof

theorem State.noteLead_keeps {s₀ : State} (s : State) (src : BitVec 16) (kind : Byte) (sev : BitVec 3) (addr : Addr) (job : Job) (hk : Keeps s₀ s)  :
    Keeps s₀ (State.noteLead s src kind sev addr job) := by
  unfold State.noteLead
  try dsimp only
  repeat' (first
    | with_reducible assumption
    | with_reducible apply State.hubMsg_keeps
    | refine State.hubMsg_keepsOf (by assumption) ?_
    | with_reducible apply State.hubEntry_keeps
    | with_reducible apply State.mirrorOut_keeps
    | split
    | exact fun _ e => e
    | exact fun _ _ => rfl
    | intro _
    | with_reducible apply Keeps.lit)

theorem State.modTrot_keeps {s₀ : State} (s : State) (a : Nat) (f : Trot → Trot) (hk : Keeps s₀ s)  :
    Keeps s₀ (State.modTrot s a f) := by
  unfold State.modTrot
  try dsimp only
  repeat' (first
    | with_reducible assumption
    | split
    | exact fun _ e => e
    | exact fun _ _ => rfl
    | intro _
    | with_reducible apply Keeps.lit)

theorem State.modPad_keeps {s₀ : State} (s : State) (a : Nat) (f : PadEntry → PadEntry) (hk : Keeps s₀ s)  :
    Keeps s₀ (State.modPad s a f) := by
  unfold State.modPad
  try dsimp only
  repeat' (first
    | with_reducible assumption
    | with_reducible apply State.eachHub_keeps
    | with_reducible apply State.modHub_keeps
    | split
    | exact fun _ e => e
    | exact fun _ _ => rfl
    | intro _
    | with_reducible apply Keeps.lit)

theorem State.clearSecrets_keeps {s₀ : State} (s : State) (a : Nat) (hk : Keeps s₀ s)  :
    Keeps s₀ (State.clearSecrets s a) := by
  unfold State.clearSecrets
  try dsimp only
  repeat' (first
    | with_reducible assumption
    | with_reducible apply State.modAgent_keeps
    | with_reducible apply State.present_keeps
    | split
    | exact fun _ e => e
    | exact fun _ _ => rfl
    | intro _
    | with_reducible apply Keeps.lit)

theorem State.askSecrets_keeps {s₀ : State} (s : State) (a : Nat) (hk : Keeps s₀ s)  :
    Keeps s₀ (State.askSecrets s a) := by
  unfold State.askSecrets
  try dsimp only
  repeat' (first
    | with_reducible assumption
    | with_reducible apply State.modTrot_keeps
    | with_reducible apply State.clearSecrets_keeps
    | split
    | exact fun _ e => e
    | exact fun _ _ => rfl
    | intro _
    | with_reducible apply Keeps.lit)

theorem State.askSave_keeps {s₀ : State} (s : State) (a slot : Nat) (hk : Keeps s₀ s)  :
    Keeps s₀ (State.askSave s a slot) := by
  unfold State.askSave
  try dsimp only
  repeat' (first
    | with_reducible assumption
    | with_reducible apply State.askSecrets_keeps
    | with_reducible apply State.modTrot_keeps
    | with_reducible apply State.scPush_keeps
    | split
    | exact fun _ e => e
    | exact fun _ _ => rfl
    | intro _
    | with_reducible apply Keeps.lit)

theorem State.startTrot_keeps {s₀ : State} (s : State) (a : Nat) (standin : Option Nat) (hk : Keeps s₀ s)  :
    Keeps s₀ (State.startTrot s a standin) := by
  unfold State.startTrot
  try dsimp only
  repeat' (first
    | with_reducible assumption
    | with_reducible apply State.modPad_keeps
    | with_reducible apply State.askSave_keeps
    | with_reducible apply State.askSecrets_keeps
    | with_reducible apply State.scPush_keeps
    | split
    | exact fun _ e => e
    | exact fun _ _ => rfl
    | intro _
    | with_reducible apply Keeps.lit)

theorem State.deferTrot_keeps {s₀ : State} (s : State) (a : Nat) (hk : Keeps s₀ s)  :
    Keeps s₀ (State.deferTrot s a) := by
  unfold State.deferTrot
  try dsimp only
  repeat' (first
    | with_reducible assumption
    | with_reducible apply State.modPad_keeps
    | split
    | exact fun _ e => e
    | exact fun _ _ => rfl
    | intro _
    | with_reducible apply Keeps.lit)

theorem State.tryScan_keeps {s₀ : State} (s : State) (a : Nat) (hk : Keeps s₀ s)  :
    Keeps s₀ (State.tryScan s a) := by
  unfold State.tryScan
  try dsimp only
  repeat' (first
    | with_reducible assumption
    | with_reducible apply State.modTrot_keeps
    | with_reducible apply State.modAgent_keeps
    | with_reducible apply State.present_keeps
    | split
    | exact fun _ e => e
    | exact fun _ _ => rfl
    | intro _
    | with_reducible apply Keeps.lit)

theorem State.swapBack_keeps {s₀ : State} (s : State) (a : Nat) (hk : Keeps s₀ s)  :
    Keeps s₀ (State.swapBack s a) := by
  unfold State.swapBack
  try dsimp only
  repeat' (first
    | with_reducible assumption
    | with_reducible apply State.modAgent_keeps
    | with_reducible apply State.modTrot_keeps
    | with_reducible apply State.scPush_keeps
    | split
    | exact fun _ e => e
    | exact fun _ _ => rfl
    | intro _
    | with_reducible apply Keeps.lit)

theorem State.afterScan_keeps {s₀ : State} (s : State) (a : Nat) (hk : Keeps s₀ s)  :
    Keeps s₀ (State.afterScan s a) := by
  unfold State.afterScan
  try dsimp only
  repeat' (first
    | with_reducible assumption
    | with_reducible apply State.modAgent_keeps
    | with_reducible apply State.present_keeps
    | with_reducible apply State.modTrot_keeps
    | with_reducible apply State.endGrant_keeps
    | with_reducible apply State.swapBack_keeps
    | with_reducible apply State.scPush_keeps
    | split
    | exact fun _ e => e
    | exact fun _ _ => rfl
    | intro _
    | with_reducible apply Keeps.lit)

theorem State.trotPass_keeps {s₀ : State} (s : State) (h : HubId) (a : Nat) (hk : Keeps s₀ s)  :
    Keeps s₀ (State.trotPass s h a) := by
  unfold State.trotPass
  try dsimp only
  repeat' (first
    | with_reducible assumption
    | with_reducible apply State.modHub_keeps
    | split
    | exact fun _ e => e
    | exact fun _ _ => rfl
    | intro _
    | with_reducible apply Keeps.lit)

theorem State.passTest_keeps {s₀ : State} (s : State) (a : Nat) (hk : Keeps s₀ s)  :
    Keeps s₀ (State.passTest s a) := by
  unfold State.passTest
  try dsimp only
  repeat' (first
    | with_reducible assumption
    | with_reducible apply State.modAgent_keeps
    | split
    | exact fun _ e => e
    | exact fun _ _ => rfl
    | intro _
    | with_reducible apply Keeps.lit)

theorem State.dueNow_keeps {s₀ : State} (s : State) (h : HubId) (a : Nat) (hk : Keeps s₀ s)  :
    Keeps s₀ (State.dueNow s h a) := by
  unfold State.dueNow
  try dsimp only
  repeat' (first
    | with_reducible assumption
    | with_reducible apply State.modHub_keeps
    | split
    | exact fun _ e => e
    | exact fun _ _ => rfl
    | intro _
    | with_reducible apply Keeps.lit)

theorem State.leavePad_keeps {s₀ : State} (s : State) (a : Nat) (hk : Keeps s₀ s)  :
    Keeps s₀ (State.leavePad s a) := by
  unfold State.leavePad
  try dsimp only
  repeat' (first
    | with_reducible assumption
    | with_reducible apply State.eachHub_keeps
    | with_reducible apply State.exitPad_keeps
    | with_reducible apply State.startWaiting_keeps
    | split
    | exact fun _ e => e
    | exact fun _ _ => rfl
    | intro _
    | with_reducible apply Keeps.lit)

theorem State.trotPassed_keeps {s₀ : State} (s : State) (a : Nat) (p : W64 × W32) (hk : Keeps s₀ s)  :
    Keeps s₀ (State.trotPassed s a p) := by
  unfold State.trotPassed
  try dsimp only
  repeat' (first
    | with_reducible assumption
    | with_reducible apply State.modAgent_keeps
    | with_reducible apply State.noteLead_keeps
    | with_reducible apply State.eachHub_keeps
    | with_reducible apply State.trotPass_keeps
    | with_reducible apply State.relax_keeps
    | with_reducible apply State.leavePad_keeps
    | split
    | exact fun _ e => e
    | exact fun _ _ => rfl
    | intro _
    | with_reducible apply Keeps.lit)

theorem State.askUnit_keeps {s₀ : State} (s : State) (p : Nat) (hk : Keeps s₀ s)  :
    Keeps s₀ (State.askUnit s p) := by
  unfold State.askUnit
  try dsimp only
  repeat' (first
    | with_reducible assumption
    | with_reducible apply State.clearSecrets_keeps
    | with_reducible apply State.modConc_keeps
    | with_reducible apply State.present_keeps
    | with_reducible apply State.modHub_keeps
    | split
    | exact fun _ e => e
    | exact fun _ _ => rfl
    | intro _
    | with_reducible apply Keeps.lit)

theorem State.endUnit_keeps {s₀ : State} (s : State) (p : Nat) (hk : Keeps s₀ s)  :
    Keeps s₀ (State.endUnit s p) := by
  unfold State.endUnit
  try dsimp only
  repeat' (first
    | with_reducible assumption
    | with_reducible apply State.modAgent_keeps
    | with_reducible apply State.present_keeps
    | with_reducible apply State.modConc_keeps
    | with_reducible apply State.modHub_keeps
    | split
    | exact fun _ e => e
    | exact fun _ _ => rfl
    | intro _
    | with_reducible apply Keeps.lit)

theorem State.askGroup_keeps {s₀ : State} (s : State) (hk : Keeps s₀ s)  :
    Keeps s₀ (State.askGroup s) := by
  unfold State.askGroup
  try dsimp only
  repeat' (first
    | with_reducible assumption
    | with_reducible apply State.each_keeps
    | with_reducible apply State.askUnit_keeps
    | split
    | exact fun _ e => e
    | exact fun _ _ => rfl
    | intro _
    | with_reducible apply Keeps.lit)

theorem State.endWrapGroup_keeps {s₀ : State} (s : State) (counts : Bool) (hk : Keeps s₀ s)  :
    Keeps s₀ (State.endWrapGroup s counts) := by
  unfold State.endWrapGroup
  try dsimp only
  repeat' (first
    | with_reducible assumption
    | with_reducible apply State.each_keeps
    | with_reducible apply State.endUnit_keeps
    | with_reducible apply State.endGrant_keeps
    | with_reducible apply State.askGroup_keeps
    | split
    | exact fun _ e => e
    | exact fun _ _ => rfl
    | intro _
    | with_reducible apply Keeps.lit)

theorem State.tryGroup_keeps {s₀ : State} (s : State) (hk : Keeps s₀ s)  :
    Keeps s₀ (State.tryGroup s) := by
  unfold State.tryGroup
  try dsimp only
  repeat' (first
    | with_reducible assumption
    | with_reducible apply State.endWrapGroup_keeps
    | with_reducible apply State.each_keeps
    | with_reducible apply State.modAgent_keeps
    | with_reducible apply State.present_keeps
    | split
    | exact fun _ e => e
    | exact fun _ _ => rfl
    | intro _
    | with_reducible apply Keeps.lit)

theorem State.secretsMissed_keeps {s₀ : State} (s : State) (a : Nat) (hk : Keeps s₀ s)  :
    Keeps s₀ (State.secretsMissed s a) := by
  unfold State.secretsMissed
  try dsimp only
  repeat' (first
    | with_reducible assumption
    | with_reducible apply State.advanceTo_keeps
    | with_reducible apply State.noteLead_keeps
    | with_reducible apply State.afterScan_keeps
    | split
    | exact fun _ e => e
    | exact fun _ _ => rfl
    | intro _
    | with_reducible apply Keeps.lit)

theorem State.unitMissed_keeps {s₀ : State} (s : State) (p : Nat) (hk : Keeps s₀ s)  :
    Keeps s₀ (State.unitMissed s p) := by
  unfold State.unitMissed
  try dsimp only
  repeat' (first
    | with_reducible assumption
    | with_reducible apply State.advanceTo_keeps
    | with_reducible apply State.noteLead_keeps
    | with_reducible apply State.endUnit_keeps
    | with_reducible apply State.tryGroup_keeps
    | split
    | exact fun _ e => e
    | exact fun _ _ => rfl
    | intro _
    | with_reducible apply Keeps.lit)

theorem State.endTrot_keeps {s₀ : State} (s : State) (a : Nat) (hk : Keeps s₀ s)  :
    Keeps s₀ (State.endTrot s a) := by
  unfold State.endTrot
  try dsimp only
  repeat' (first
    | with_reducible assumption
    | with_reducible apply State.eachHub_keeps
    | with_reducible apply State.endFences_keeps
    | with_reducible apply State.trotPassed_keeps
    | with_reducible apply State.dueNow_keeps
    | with_reducible apply State.startWaiting_keeps
    | with_reducible apply State.endQuiesce_keeps
    | with_reducible apply State.askGroup_keeps
    | split
    | exact fun _ e => e
    | exact fun _ _ => rfl
    | intro _
    | with_reducible apply Keeps.lit)

theorem State.scAcked_keeps {s₀ : State} (s : State) (a : Nat) (o : ScOp) (hk : Keeps s₀ s)  :
    Keeps s₀ (State.scAcked s a o) := by
  unfold State.scAcked
  try dsimp only
  repeat' (first
    | with_reducible assumption
    | with_reducible apply State.record_keeps
    | with_reducible apply State.modAgent_keeps
    | with_reducible apply State.modRetake_keeps
    | with_reducible apply State.eachHub_keeps
    | with_reducible apply State.orderFences_keeps
    | with_reducible apply State.askSave_keeps
    | with_reducible apply State.askSecrets_keeps
    | with_reducible apply State.swapBack_keeps
    | with_reducible apply State.endTrot_keeps
    | split
    | exact fun _ e => e
    | exact fun _ _ => rfl
    | intro _
    | with_reducible apply Keeps.lit)

theorem State.setFailed_keeps {s₀ : State} (s : State) (p : PatSet) (block : Nat) (hk : Keeps s₀ s)  :
    Keeps s₀ (State.setFailed s p block) := by
  unfold State.setFailed
  try dsimp only
  repeat' (first
    | with_reducible assumption
    | with_reducible apply State.noteLead_keeps
    | split
    | exact fun _ e => e
    | exact fun _ _ => rfl
    | intro _
    | with_reducible apply Keeps.lit)

theorem State.unitResult_keeps {s₀ : State} (s : State) (p : Nat) (l : List Checkpoint × List Checkpoint) (hk : Keeps s₀ s)  :
    Keeps s₀ (State.unitResult s p l) := by
  unfold State.unitResult
  try dsimp only
  repeat' (first
    | with_reducible assumption
    | with_reducible apply State.passTest_keeps
    | with_reducible apply State.noteLead_keeps
    | split
    | exact fun _ e => e
    | exact fun _ _ => rfl
    | intro _
    | with_reducible apply Keeps.lit)

end Sys2Proof.Machine
end

