-- ==== Sys2Proof/Laws/KeepsTile.lean ====
section
/-! SUPPORT. Every operation of Machine/Tile.lean keeps what `Keeps` names. -/

namespace Sys2Proof.Machine

open Sys2Proof

theorem State.deferCmt_keeps {s₀ : State} (s : State) (a : Nat) (y : GateRange) (hk : Keeps s₀ s)  :
    Keeps s₀ (State.deferCmt s a y).1 := by
  unfold State.deferCmt
  try dsimp only
  repeat' (first
    | with_reducible assumption
    | with_reducible apply State.modAgent_keeps
    | split
    | exact fun _ e => e
    | exact fun _ _ => rfl
    | intro _
    | with_reducible apply Keeps.lit)

theorem State.deferCmt_keepsOf {s₀ : State} {s : State} (a : Nat) (y : GateRange) {t : State} {rest}
    (heq : State.deferCmt s a y = (t, rest)) (hk : Keeps s₀ s) : Keeps s₀ t := by
  have key := State.deferCmt_keeps s a y hk
  rw [heq] at key
  exact key

theorem State.commitAction_keeps {s₀ : State} (s : State) (a : Nat) (gated : Bool) (step : Option W64) (job : Job) (base : Addr) (count : BitVec 16) (hk : Keeps s₀ s)  :
    Keeps s₀ (State.commitAction s a gated step job base count).1 := by
  unfold State.commitAction
  try dsimp only
  repeat' (first
    | with_reducible assumption
    | with_reducible apply State.presentCmt_keeps
    | with_reducible apply State.deferCmt_keeps
    | refine State.deferCmt_keepsOf (by assumption) ?_
    | split
    | exact fun _ e => e
    | exact fun _ _ => rfl
    | intro _
    | with_reducible apply Keeps.lit)

theorem State.commitAction_keepsOf {s₀ : State} {s : State} (a : Nat) (gated : Bool) (step : Option W64) (job : Job) (base : Addr) (count : BitVec 16) {t : State} {rest}
    (heq : State.commitAction s a gated step job base count = (t, rest)) (hk : Keeps s₀ s) : Keeps s₀ t := by
  have key := State.commitAction_keeps s a gated step job base count hk
  rw [heq] at key
  exact key

theorem State.poisonTask_keeps {s₀ : State} (s : State) (a : Nat) (d : BitVec 256) (hk : Keeps s₀ s)  :
    Keeps s₀ (State.poisonTask s a d) := by
  unfold State.poisonTask
  try dsimp only
  repeat' (first
    | with_reducible assumption
    | with_reducible apply State.presentCmt_keeps
    | split
    | exact fun _ e => e
    | exact fun _ _ => rfl
    | intro _
    | with_reducible apply Keeps.lit)

theorem State.paddockGap_keeps {s₀ : State} (s : State) (a : Nat) (hk : Keeps s₀ s)  :
    Keeps s₀ (State.paddockGap s a) := by
  unfold State.paddockGap
  try dsimp only
  repeat' (first
    | with_reducible assumption
    | with_reducible apply State.modAgent_keeps
    | with_reducible apply State.eachHub_keeps
    | with_reducible apply State.modHub_keeps
    | split
    | exact fun _ e => e
    | exact fun _ _ => rfl
    | intro _
    | with_reducible apply Keeps.lit)

theorem State.recordUncovered_keeps {s₀ : State} (s : State) (a : Nat) (d : BitVec 256) (o : Outcome) (reason : Nat) (hk : Keeps s₀ s)  :
    Keeps s₀ (State.recordUncovered s a d o reason) := by
  unfold State.recordUncovered
  try dsimp only
  repeat' (first
    | with_reducible assumption
    | with_reducible apply State.modAgent_keeps
    | with_reducible apply State.paddockGap_keeps
    | split
    | exact fun _ e => e
    | exact fun _ _ => rfl
    | intro _
    | with_reducible apply Keeps.lit)

theorem State.uncheckCtx_keeps {s₀ : State} (s : State) (a : Nat) (x : Ctx) (o : Outcome) (reason : Nat) (hk : Keeps s₀ s)  :
    Keeps s₀ (State.uncheckCtx s a x o reason) := by
  unfold State.uncheckCtx
  try dsimp only
  repeat' (first
    | with_reducible assumption
    | with_reducible apply State.modAgent_keeps
    | with_reducible apply State.recordUncovered_keeps
    | with_reducible apply State.loseRun_keeps
    | split
    | exact fun _ e => e
    | exact fun _ _ => rfl
    | intro _
    | with_reducible apply Keeps.lit)

theorem State.finishTask_keeps {s₀ : State} (s : State) (a : Nat) (u : Unchecked) (hk : Keeps s₀ s)  :
    Keeps s₀ (State.finishTask s a u) := by
  unfold State.finishTask
  try dsimp only
  repeat' (first
    | with_reducible assumption
    | with_reducible apply State.poisonTask_keeps
    | with_reducible apply State.report_keeps
    | with_reducible apply State.openDec_keeps
    | with_reducible apply State.commitAction_keeps
    | refine State.commitAction_keepsOf (by assumption) ?_
    | with_reducible apply State.modAgent_keeps
    | split
    | exact fun _ e => e
    | exact fun _ _ => rfl
    | intro _
    | with_reducible apply Keeps.lit)

theorem State.dropHanded_keeps {s₀ : State} (s : State) (a id : Nat) (hk : Keeps s₀ s)  :
    Keeps s₀ (State.dropHanded s a id) := by
  unfold State.dropHanded
  try dsimp only
  repeat' (first
    | with_reducible assumption
    | with_reducible apply State.modConc_keeps
    | split
    | exact fun _ e => e
    | exact fun _ _ => rfl
    | intro _
    | with_reducible apply Keeps.lit)

theorem State.dropAccount_keeps {s₀ : State} (s : State) (a : Nat) (x : Ctx) (hk : Keeps s₀ s)  :
    Keeps s₀ (State.dropAccount s a x) := by
  unfold State.dropAccount
  try dsimp only
  repeat' (first
    | with_reducible assumption
    | with_reducible apply State.modConc_keeps
    | split
    | exact fun _ e => e
    | exact fun _ _ => rfl
    | intro _
    | with_reducible apply Keeps.lit)

theorem State.failCtx_keeps {s₀ : State} (s : State) (a : Nat) (x : Ctx) (kind : Byte) (sev : BitVec 3) (hk : Keeps s₀ s)  :
    Keeps s₀ (State.failCtx s a x kind sev) := by
  unfold State.failCtx
  try dsimp only
  repeat' (first
    | with_reducible assumption
    | with_reducible apply State.dropHanded_keeps
    | with_reducible apply State.dropAccount_keeps
    | with_reducible apply State.modAgent_keeps
    | with_reducible apply State.poisonTask_keeps
    | with_reducible apply State.report_keeps
    | with_reducible apply State.loseRun_keeps
    | split
    | exact fun _ e => e
    | exact fun _ _ => rfl
    | intro _
    | with_reducible apply Keeps.lit)

theorem State.loseRunOf_keeps {s₀ : State} (s : State) (retake : Option Nat) (a : Nat) (hk : Keeps s₀ s)  :
    Keeps s₀ (State.loseRunOf s retake a) := by
  unfold State.loseRunOf
  try dsimp only
  repeat' (first
    | with_reducible assumption
    | with_reducible apply State.loseRun_keeps
    | split
    | exact fun _ e => e
    | exact fun _ _ => rfl
    | intro _
    | with_reducible apply Keeps.lit)

theorem State.uncheckBound_keeps {s₀ : State} (s : State) (a : Nat) (h : BitVec 5) (hk : Keeps s₀ s)  :
    Keeps s₀ (State.uncheckBound s a h) := by
  unfold State.uncheckBound
  try dsimp only
  repeat' (first
    | with_reducible assumption
    | with_reducible apply State.uncheckCtx_keeps
    | split
    | exact fun _ e => e
    | exact fun _ _ => rfl
    | intro _
    | with_reducible apply Keeps.lit)

theorem State.bindTwice_keeps {s₀ : State} (s : State) (a : Nat) (h : BitVec 5) (d : BitVec 256) (step : Option W64) (rt : Option (Nat × Bool)) (hk : Keeps s₀ s)  :
    Keeps s₀ (State.bindTwice s a h d step rt) := by
  unfold State.bindTwice
  try dsimp only
  repeat' (first
    | with_reducible assumption
    | with_reducible apply State.uncheckBound_keeps
    | with_reducible apply State.recordUncovered_keeps
    | with_reducible apply State.loseRunOf_keeps
    | with_reducible apply State.finishTask_keeps
    | with_reducible apply State.modAgent_keeps
    | split
    | exact fun _ e => e
    | exact fun _ _ => rfl
    | intro _
    | with_reducible apply Keeps.lit)

theorem State.uncheckNew_keeps {s₀ : State} (s : State) (a : Nat) (h : BitVec 5) (d : BitVec 256) (step : Option W64) (rt : Option (Nat × Bool))
    (o : Outcome) (reason : Nat) (hk : Keeps s₀ s)  :
    Keeps s₀ (State.uncheckNew s a h d step rt o reason) := by
  unfold State.uncheckNew
  try dsimp only
  repeat' (first
    | with_reducible assumption
    | with_reducible apply State.recordUncovered_keeps
    | with_reducible apply State.modAgent_keeps
    | with_reducible apply State.loseRunOf_keeps
    | split
    | exact fun _ e => e
    | exact fun _ _ => rfl
    | intro _
    | with_reducible apply Keeps.lit)

theorem State.fencedTask_keeps {s₀ : State} (s : State) (a : Nat) (h : BitVec 5) (d : BitVec 256) (bounded : Bool) (hk : Keeps s₀ s)  :
    Keeps s₀ (State.fencedTask s a h d bounded) := by
  unfold State.fencedTask
  try dsimp only
  repeat' (first
    | with_reducible assumption
    | with_reducible apply State.modAgent_keeps
    | with_reducible apply State.openInc_keeps
    | with_reducible apply State.failCtx_keeps
    | split
    | exact fun _ e => e
    | exact fun _ _ => rfl
    | intro _
    | with_reducible apply Keeps.lit)

theorem State.bindRetake_keeps {s₀ : State} (s : State) (a : Nat) (d : BitVec 256) (hk : Keeps s₀ s)  :
    Keeps s₀ (State.bindRetake s a d).1 := by
  unfold State.bindRetake
  try dsimp only
  repeat' (first
    | with_reducible assumption
    | with_reducible apply State.modAgent_keeps
    | with_reducible apply State.modRetake_keeps
    | with_reducible apply State.loseRun_keeps
    | split
    | exact fun _ e => e
    | exact fun _ _ => rfl
    | intro _
    | with_reducible apply Keeps.lit)

theorem State.bindRetake_keepsOf {s₀ : State} {s : State} (a : Nat) (d : BitVec 256) {t : State} {rest}
    (heq : State.bindRetake s a d = (t, rest)) (hk : Keeps s₀ s) : Keeps s₀ t := by
  have key := State.bindRetake_keeps s a d hk
  rw [heq] at key
  exact key

theorem State.takeDescriptor_keeps {s₀ : State} (s : State) (a : Nat) (h : BitVec 5) (d : BitVec 256) (cyc : Nat) (step : Option W64)
    (rt : Option (Nat × Bool)) (hk : Keeps s₀ s)  :
    Keeps s₀ (State.takeDescriptor s a h d cyc step rt) := by
  unfold State.takeDescriptor
  try dsimp only
  repeat' (first
    | with_reducible assumption
    | with_reducible apply State.uncheckNew_keeps
    | with_reducible apply State.modAgent_keeps
    | split
    | exact fun _ e => e
    | exact fun _ _ => rfl
    | intro _
    | with_reducible apply Keeps.lit)

theorem State.passEmpty_keeps {s₀ : State} (s : State) (a : Nat) (d : BitVec 256) (hk : Keeps s₀ s)  :
    Keeps s₀ (State.passEmpty s a d) := by
  unfold State.passEmpty
  try dsimp only
  repeat' (first
    | with_reducible assumption
    | with_reducible apply State.modAgent_keeps
    | with_reducible apply State.modConc_keeps
    | split
    | exact fun _ e => e
    | exact fun _ _ => rfl
    | intro _
    | with_reducible apply Keeps.lit)

theorem State.takeSlots_keeps {s₀ : State} (s : State) (a : Nat) (x : Ctx) (cyc : Nat) (hk : Keeps s₀ s)  :
    Keeps s₀ (State.takeSlots s a x cyc) := by
  unfold State.takeSlots
  try dsimp only
  repeat' (first
    | with_reducible assumption
    | with_reducible apply State.uncheckCtx_keeps
    | with_reducible apply State.modAgent_keeps
    | split
    | exact fun _ e => e
    | exact fun _ _ => rfl
    | intro _
    | with_reducible apply Keeps.lit)

theorem State.admitFirst_keeps {s₀ : State} (s : State) (a : Nat) (h : BitVec 5) (cyc : Nat) (hk : Keeps s₀ s)  :
    Keeps s₀ (State.admitFirst s a h cyc) := by
  unfold State.admitFirst
  try dsimp only
  repeat' (first
    | with_reducible assumption
    | with_reducible apply State.takeSlots_keeps
    | split
    | exact fun _ e => e
    | exact fun _ _ => rfl
    | intro _
    | with_reducible apply Keeps.lit)

theorem State.fillRun_keeps {s₀ : State} (s : State) (a : Nat) (x : Ctx) (n : Nat) (hk : Keeps s₀ s)  :
    Keeps s₀ (State.fillRun s a x n) := by
  unfold State.fillRun
  try dsimp only
  repeat' (first
    | with_reducible assumption
    | with_reducible apply State.loseRun_keeps
    | with_reducible apply State.modAgent_keeps
    | with_reducible apply State.modConc_keeps
    | split
    | exact fun _ e => e
    | exact fun _ _ => rfl
    | intro _
    | with_reducible apply Keeps.lit)

theorem State.endFill_keeps {s₀ : State} (s : State) (a : Nat) (x : Ctx) (differ : Bool) (hk : Keeps s₀ s)  :
    Keeps s₀ (State.endFill s a x differ) := by
  unfold State.endFill
  try dsimp only
  repeat' (first
    | with_reducible assumption
    | with_reducible apply State.modAgent_keeps
    | with_reducible apply State.report_keeps
    | with_reducible apply State.loseRunOf_keeps
    | with_reducible apply State.present_keeps
    | with_reducible apply State.fillRun_keeps
    | split
    | exact fun _ e => e
    | exact fun _ _ => rfl
    | intro _
    | with_reducible apply Keeps.lit)

theorem State.tapCtx_keeps {s₀ : State} (s : State) (a : Nat) (x : Ctx) (b : TapBeat) (hk : Keeps s₀ s)  :
    Keeps s₀ (State.tapCtx s a x b) := by
  unfold State.tapCtx
  try dsimp only
  repeat' (first
    | with_reducible assumption
    | with_reducible apply State.uncheckCtx_keeps
    | with_reducible apply State.modAgent_keeps
    | with_reducible apply State.endFill_keeps
    | split
    | exact fun _ e => e
    | exact fun _ _ => rfl
    | intro _
    | with_reducible apply Keeps.lit)

theorem State.tapBeat_keeps {s₀ : State} (s : State) (a : Nat) (b : TapBeat) (hk : Keeps s₀ s)  :
    Keeps s₀ (State.tapBeat s a b) := by
  unfold State.tapBeat
  try dsimp only
  repeat' (first
    | with_reducible assumption
    | with_reducible apply State.modAgent_keeps
    | with_reducible apply State.admitFirst_keeps
    | with_reducible apply State.tapCtx_keeps
    | split
    | exact fun _ e => e
    | exact fun _ _ => rfl
    | intro _
    | with_reducible apply Keeps.lit)

theorem State.rejectEntry_keeps {s₀ : State} (s : State) (a : Nat) (x : Ctx) (cyc : Nat) (hk : Keeps s₀ s)  :
    Keeps s₀ (State.rejectEntry s a x cyc) := by
  unfold State.rejectEntry
  try dsimp only
  repeat' (first
    | with_reducible assumption
    | with_reducible apply State.uncheckCtx_keeps
    | with_reducible apply State.modAgent_keeps
    | split
    | exact fun _ e => e
    | exact fun _ _ => rfl
    | intro _
    | with_reducible apply Keeps.lit)

theorem State.prjCtx_keeps {s₀ : State} (s : State) (a : Nat) (x : Ctx) (b : PrjBeat) (hk : Keeps s₀ s)  :
    Keeps s₀ (State.prjCtx s a x b) := by
  unfold State.prjCtx
  try dsimp only
  repeat' (first
    | with_reducible assumption
    | with_reducible apply State.rejectEntry_keeps
    | with_reducible apply State.modAgent_keeps
    | with_reducible apply State.uncheckCtx_keeps
    | split
    | exact fun _ e => e
    | exact fun _ _ => rfl
    | intro _
    | with_reducible apply Keeps.lit)

theorem State.abortPoison_keeps {s₀ : State} (s : State) (a : Nat) (x : Ctx) (hk : Keeps s₀ s)  :
    Keeps s₀ (State.abortPoison s a x) := by
  unfold State.abortPoison
  try dsimp only
  repeat' (first
    | with_reducible assumption
    | with_reducible apply State.poisonTask_keeps
    | with_reducible apply State.report_keeps
    | split
    | exact fun _ e => e
    | exact fun _ _ => rfl
    | intro _
    | with_reducible apply Keeps.lit)

theorem State.abortLast_keeps {s₀ : State} (s : State) (a : Nat) (x : Ctx) (hk : Keeps s₀ s)  :
    Keeps s₀ (State.abortLast s a x) := by
  unfold State.abortLast
  try dsimp only
  repeat' (first
    | with_reducible assumption
    | with_reducible apply State.modAgent_keeps
    | with_reducible apply State.abortPoison_keeps
    | with_reducible apply State.closeRetake_keeps
    | with_reducible apply State.startWaiting_keeps
    | split
    | exact fun _ e => e
    | exact fun _ _ => rfl
    | intro _
    | with_reducible apply Keeps.lit)

theorem State.lastC_keeps {s₀ : State} (s : State) (a : Nat) (h : BitVec 5) (cyc : Nat) (hk : Keeps s₀ s)  :
    Keeps s₀ (State.lastC s a h cyc) := by
  unfold State.lastC
  try dsimp only
  repeat' (first
    | with_reducible assumption
    | with_reducible apply State.uncheckCtx_keeps
    | with_reducible apply State.modAgent_keeps
    | with_reducible apply State.finishTask_keeps
    | with_reducible apply State.abortLast_keeps
    | split
    | exact fun _ e => e
    | exact fun _ _ => rfl
    | intro _
    | with_reducible apply Keeps.lit)

theorem State.failContexts_keeps {s₀ : State} (s : State) (a : Nat) (f : Ctx → Bool) (hk : Keeps s₀ s)  :
    Keeps s₀ (State.failContexts s a f) := by
  unfold State.failContexts
  try dsimp only
  repeat' (first
    | with_reducible assumption
    | with_reducible apply State.each_keeps
    | with_reducible apply State.failCtx_keeps
    | split
    | exact fun _ e => e
    | exact fun _ _ => rfl
    | intro _
    | with_reducible apply Keeps.lit)

end Sys2Proof.Machine
end

