-- ==== Sys2Proof/Laws/KeepsVector.lean ====
section
/-! SUPPORT. Every operation of Machine/Vector.lean keeps what `Keeps` names. -/

namespace Sys2Proof.Machine

open Sys2Proof

theorem State.groupRange_keeps {s₀ : State} (s : State) (a : Nat) (g : Group) (poison : Bool) (hk : Keeps s₀ s)  :
    Keeps s₀ (State.groupRange s a g poison) := by
  unfold State.groupRange
  try dsimp only
  repeat' (first
    | with_reducible assumption
    | with_reducible apply State.presentCmt_keeps
    | with_reducible apply State.commitAction_keeps
    | refine State.commitAction_keepsOf (by assumption) ?_
    | with_reducible apply State.modAgent_keeps
    | split
    | exact fun _ e => e
    | exact fun _ _ => rfl
    | intro _
    | with_reducible apply Keeps.lit)

theorem State.endUnjudged_keeps {s₀ : State} (s : State) (a : Nat) (g : Group) (hk : Keeps s₀ s)  :
    Keeps s₀ (State.endUnjudged s a g) := by
  unfold State.endUnjudged
  try dsimp only
  repeat' (first
    | with_reducible assumption
    | with_reducible apply State.settled_keeps
    | with_reducible apply State.openDec_keeps
    | with_reducible apply State.groupRange_keeps
    | with_reducible apply State.report_keeps
    | split
    | exact fun _ e => e
    | exact fun _ _ => rfl
    | intro _
    | with_reducible apply Keeps.lit)

theorem State.settleTests_keeps {s₀ : State} (s : State) (a : Nat) (g : Group) (hk : Keeps s₀ s)  :
    Keeps s₀ (State.settleTests s a g).1 := by
  unfold State.settleTests
  try dsimp only
  repeat' (first
    | with_reducible assumption
    | with_reducible apply State.modAgent_keeps
    | split
    | exact fun _ e => e
    | exact fun _ _ => rfl
    | intro _
    | with_reducible apply Keeps.lit)

theorem State.settleTests_keepsOf {s₀ : State} {s : State} (a : Nat) (g : Group) {t : State} {rest}
    (heq : State.settleTests s a g = (t, rest)) (hk : Keeps s₀ s) : Keeps s₀ t := by
  have key := State.settleTests_keeps s a g hk
  rw [heq] at key
  exact key

theorem State.groupReports_keeps {s₀ : State} (s : State) (a : Nat) (g : Group) (hk : Keeps s₀ s)  :
    Keeps s₀ (State.groupReports s a g) := by
  unfold State.groupReports
  try dsimp only
  repeat' (first
    | with_reducible assumption
    | with_reducible apply State.report_keeps
    | split
    | exact fun _ e => e
    | exact fun _ _ => rfl
    | intro _
    | with_reducible apply Keeps.lit)

theorem State.groupVerdict_keeps {s₀ : State} (s : State) (a : Nat) (g : Group) (hk : Keeps s₀ s)  :
    Keeps s₀ (State.groupVerdict s a g) := by
  unfold State.groupVerdict
  try dsimp only
  repeat' (first
    | with_reducible assumption
    | with_reducible apply State.settled_keeps
    | with_reducible apply State.groupRange_keeps
    | with_reducible apply State.modAgent_keeps
    | with_reducible apply State.openDec_keeps
    | split
    | exact fun _ e => e
    | exact fun _ _ => rfl
    | intro _
    | with_reducible apply Keeps.lit)

theorem State.endGroup_keeps {s₀ : State} (s : State) (a gid : Nat) (g : Group) (hk : Keeps s₀ s)  :
    Keeps s₀ (State.endGroup s a gid g) := by
  unfold State.endGroup
  try dsimp only
  repeat' (first
    | with_reducible assumption
    | with_reducible apply State.modAgent_keeps
    | with_reducible apply State.settleTests_keeps
    | refine State.settleTests_keepsOf (by assumption) ?_
    | with_reducible apply State.groupReports_keeps
    | with_reducible apply State.settled_keeps
    | with_reducible apply State.groupRange_keeps
    | with_reducible apply State.endUnjudged_keeps
    | split
    | exact fun _ e => e
    | exact fun _ _ => rfl
    | intro _
    | with_reducible apply Keeps.lit)

theorem State.fenceGroup_keeps {s₀ : State} (s : State) (a : Nat) (g : Group) (hk : Keeps s₀ s)  :
    Keeps s₀ (State.fenceGroup s a g) := by
  unfold State.fenceGroup
  try dsimp only
  repeat' (first
    | with_reducible assumption
    | with_reducible apply State.presentCmt_keeps
    | with_reducible apply State.report_keeps
    | split
    | exact fun _ e => e
    | exact fun _ _ => rfl
    | intro _
    | with_reducible apply Keeps.lit)

theorem State.numbersOdd_keeps {s₀ : State} (s : State) (c : Nat) (job : Job) (hk : Keeps s₀ s)  :
    Keeps s₀ (State.numbersOdd s c job) := by
  unfold State.numbersOdd
  try dsimp only
  repeat' (first
    | with_reducible assumption
    | with_reducible apply State.modConc_keeps
    | with_reducible apply State.emit_keeps
    | split
    | exact fun _ e => e
    | exact fun _ _ => rfl
    | intro _
    | with_reducible apply Keeps.lit)

end Sys2Proof.Machine
end

