-- ==== Sys2Proof/Laws/KeepsVerdict.lean ====
section
/-! SUPPORT. Every operation of Machine/Verdict.lean keeps what `Keeps` names. -/

namespace Sys2Proof.Machine

open Sys2Proof

theorem State.handOffEnded_keeps {s₀ : State} (s : State) (a : Nat) (x : Ctx) (hk : Keeps s₀ s)  :
    Keeps s₀ (State.handOffEnded s a x) := by
  unfold State.handOffEnded
  try dsimp only
  repeat' (first
    | with_reducible assumption
    | with_reducible apply State.modAgent_keeps
    | with_reducible apply State.modConc_keeps
    | with_reducible apply State.poisonTask_keeps
    | split
    | exact fun _ e => e
    | exact fun _ _ => rfl
    | intro _
    | with_reducible apply Keeps.lit)

theorem State.handOff_keeps {s₀ : State} (s : State) (a : Nat) (x : Ctx) (hk : Keeps s₀ s)  :
    Keeps s₀ (State.handOff s a x) := by
  unfold State.handOff
  try dsimp only
  repeat' (first
    | with_reducible assumption
    | with_reducible apply State.handOffEnded_keeps
    | with_reducible apply State.modAgent_keeps
    | with_reducible apply State.modConc_keeps
    | split
    | exact fun _ e => e
    | exact fun _ _ => rfl
    | intro _
    | with_reducible apply Keeps.lit)

theorem State.storeFull_keeps {s₀ : State} (s : State) (c a : Nat) (k : Account) (hk : Keeps s₀ s)  :
    Keeps s₀ (State.storeFull s c a k) := by
  unfold State.storeFull
  try dsimp only
  repeat' (first
    | with_reducible assumption
    | with_reducible apply State.loseRun_keeps
    | with_reducible apply State.modConc_keeps
    | split
    | exact fun _ e => e
    | exact fun _ _ => rfl
    | intro _
    | with_reducible apply Keeps.lit)

theorem State.engineVerdict_keeps {s₀ : State} (s : State) (c : Nat) (h : Handed) (hk : Keeps s₀ s)  :
    Keeps s₀ (State.engineVerdict s c h) := by
  unfold State.engineVerdict
  try dsimp only
  repeat' (first
    | with_reducible assumption
    | with_reducible apply State.storeFull_keeps
    | with_reducible apply State.modConc_keeps
    | with_reducible apply State.modAgent_keeps
    | split
    | exact fun _ e => e
    | exact fun _ _ => rfl
    | intro _
    | with_reducible apply Keeps.lit)

theorem State.countInconclusive_keeps {s₀ : State} (s : State) (a : Nat) (x : Ctx) (reason : Nat) (hk : Keeps s₀ s)  :
    Keeps s₀ (State.countInconclusive s a x reason) := by
  unfold State.countInconclusive
  try dsimp only
  repeat' (first
    | with_reducible assumption
    | with_reducible apply State.modAgent_keeps
    | with_reducible apply State.modConc_keeps
    | with_reducible apply State.report_keeps
    | split
    | exact fun _ e => e
    | exact fun _ _ => rfl
    | intro _
    | with_reducible apply Keeps.lit)

theorem State.countVerdict_keeps {s₀ : State} (s : State) (a : Nat) (x : Ctx) (lenient : Bool) (hk : Keeps s₀ s)  :
    Keeps s₀ (State.countVerdict s a x lenient) := by
  unfold State.countVerdict
  try dsimp only
  repeat' (first
    | with_reducible assumption
    | with_reducible apply State.modAgent_keeps
    | split
    | exact fun _ e => e
    | exact fun _ _ => rfl
    | intro _
    | with_reducible apply Keeps.lit)

theorem State.commitCtx_keeps {s₀ : State} (s : State) (a : Nat) (x : Ctx) (hk : Keeps s₀ s)  :
    Keeps s₀ (State.commitCtx s a x) := by
  unfold State.commitCtx
  try dsimp only
  repeat' (first
    | with_reducible assumption
    | with_reducible apply State.modAgent_keeps
    | with_reducible apply State.commitAction_keeps
    | refine State.commitAction_keepsOf (by assumption) ?_
    | split
    | exact fun _ e => e
    | exact fun _ _ => rfl
    | intro _
    | with_reducible apply Keeps.lit)

theorem State.poisonedVerdict_keeps {s₀ : State} (s : State) (a : Nat) (x : Ctx) (hk : Keeps s₀ s)  :
    Keeps s₀ (State.poisonedVerdict s a x) := by
  unfold State.poisonedVerdict
  try dsimp only
  repeat' (first
    | with_reducible assumption
    | with_reducible apply State.dropAccount_keeps
    | with_reducible apply State.modAgent_keeps
    | with_reducible apply State.poisonTask_keeps
    | with_reducible apply State.report_keeps
    | split
    | exact fun _ e => e
    | exact fun _ _ => rfl
    | intro _
    | with_reducible apply Keeps.lit)

theorem State.originalVerdict_keeps {s₀ : State} (s : State) (a : Nat) (x : Ctx) (v : VerdictMsg) (hk : Keeps s₀ s)  :
    Keeps s₀ (State.originalVerdict s a x v) := by
  unfold State.originalVerdict
  try dsimp only
  repeat' (first
    | with_reducible assumption
    | with_reducible apply State.countInconclusive_keeps
    | with_reducible apply State.countVerdict_keeps
    | with_reducible apply State.poisonedVerdict_keeps
    | with_reducible apply State.dropAccount_keeps
    | with_reducible apply State.openDec_keeps
    | with_reducible apply State.commitCtx_keeps
    | with_reducible apply State.modAgent_keeps
    | with_reducible apply State.report_keeps
    | with_reducible apply State.storeFull_keeps
    | with_reducible apply State.poisonTask_keeps
    | split
    | exact fun _ e => e
    | exact fun _ _ => rfl
    | intro _
    | with_reducible apply Keeps.lit)

theorem State.retakeVerdict_keeps {s₀ : State} (s : State) (a n : Nat) (x : Ctx) (hk : Keeps s₀ s)  :
    Keeps s₀ (State.retakeVerdict s a n x) := by
  unfold State.retakeVerdict
  try dsimp only
  repeat' (first
    | with_reducible assumption
    | with_reducible apply State.poisonedVerdict_keeps
    | with_reducible apply State.modAgent_keeps
    | split
    | exact fun _ e => e
    | exact fun _ _ => rfl
    | intro _
    | with_reducible apply Keeps.lit)

theorem State.fenceTask_keeps {s₀ : State} (s : State) (a : Nat) (h : Nat) (u : Unchecked) (hk : Keeps s₀ s)  :
    Keeps s₀ (State.fenceTask s a h u) := by
  unfold State.fenceTask
  try dsimp only
  repeat' (first
    | with_reducible assumption
    | with_reducible apply State.modAgent_keeps
    | with_reducible apply State.failCtx_keeps
    | split
    | exact fun _ e => e
    | exact fun _ _ => rfl
    | intro _
    | with_reducible apply Keeps.lit)

theorem State.fenceOpenGroup_keeps {s₀ : State} (s : State) (a key : Nat) (g : Group) (hk : Keeps s₀ s)  :
    Keeps s₀ (State.fenceOpenGroup s a key g) := by
  unfold State.fenceOpenGroup
  try dsimp only
  repeat' (first
    | with_reducible assumption
    | with_reducible apply State.settled_keeps
    | with_reducible apply State.fenceGroup_keeps
    | with_reducible apply State.openDec_keeps
    | with_reducible apply State.modAgent_keeps
    | split
    | exact fun _ e => e
    | exact fun _ _ => rfl
    | intro _
    | with_reducible apply Keeps.lit)

theorem State.fenceRetake_keeps {s₀ : State} (s : State) (a n : Nat) (x : Ctx) (hk : Keeps s₀ s)  :
    Keeps s₀ (State.fenceRetake s a n x) := by
  unfold State.fenceRetake
  try dsimp only
  repeat' (first
    | with_reducible assumption
    | with_reducible apply State.failCtx_keeps
    | with_reducible apply State.modRetake_keeps
    | split
    | exact fun _ e => e
    | exact fun _ _ => rfl
    | intro _
    | with_reducible apply Keeps.lit)

theorem State.fenceContexts_keeps {s₀ : State} (s : State) (a : Nat) (hk : Keeps s₀ s)  :
    Keeps s₀ (State.fenceContexts s a) := by
  unfold State.fenceContexts
  try dsimp only
  repeat' (first
    | with_reducible assumption
    | with_reducible apply State.each_keeps
    | with_reducible apply State.failCtx_keeps
    | with_reducible apply State.fenceRetake_keeps
    | split
    | exact fun _ e => e
    | exact fun _ _ => rfl
    | intro _
    | with_reducible apply Keeps.lit)

theorem State.fenceRequests_keeps {s₀ : State} (s : State) (a : Nat) (hk : Keeps s₀ s)  :
    Keeps s₀ (State.fenceRequests s a) := by
  unfold State.fenceRequests
  try dsimp only
  repeat' (first
    | with_reducible assumption
    | with_reducible apply State.modAgent_keeps
    | with_reducible apply State.loseRun_keeps
    | with_reducible apply State.scDrop_keeps
    | with_reducible apply State.each_keeps
    | with_reducible apply State.modRetake_keeps
    | with_reducible apply State.requestRun_keeps
    | split
    | exact fun _ e => e
    | exact fun _ _ => rfl
    | intro _
    | with_reducible apply Keeps.lit)

theorem State.lateGates_keeps {s₀ : State} (s : State) (a : Nat) (hk : Keeps s₀ s)  :
    Keeps s₀ (State.lateGates s a) := by
  unfold State.lateGates
  try dsimp only
  repeat' (first
    | with_reducible assumption
    | with_reducible apply State.modAgent_keeps
    | with_reducible apply State.each_keeps
    | with_reducible apply State.presentCmt_keeps
    | split
    | exact fun _ e => e
    | exact fun _ _ => rfl
    | intro _
    | with_reducible apply Keeps.lit)

theorem State.poisonOrdered_keeps {s₀ : State} (s : State) (agent record : Nat) (hk : Keeps s₀ s)  :
    Keeps s₀ (State.poisonOrdered s agent record) := by
  unfold State.poisonOrdered
  try dsimp only
  repeat' (first
    | with_reducible assumption
    | with_reducible apply State.record_keeps
    | with_reducible apply State.presentCmt_keeps
    | with_reducible apply State.modAgent_keeps
    | with_reducible apply State.closeRetake_keeps
    | with_reducible apply State.startWaiting_keeps
    | split
    | exact fun _ e => e
    | exact fun _ _ => rfl
    | intro _
    | with_reducible apply Keeps.lit)

theorem State.openGates_keeps {s₀ : State} (s : State) (a : Nat) (job : Job) (step : W64) (hk : Keeps s₀ s)  :
    Keeps s₀ (State.openGates s a job step) := by
  unfold State.openGates
  try dsimp only
  repeat' (first
    | with_reducible assumption
    | with_reducible apply State.modAgent_keeps
    | with_reducible apply State.each_keeps
    | with_reducible apply State.presentCmt_keeps
    | split
    | exact fun _ e => e
    | exact fun _ _ => rfl
    | intro _
    | with_reducible apply Keeps.lit)

theorem State.modEnvelopes_keeps {s₀ : State} (s : State) (job : Job) (f : Nat → Envelope → Envelope) (hk : Keeps s₀ s)  :
    Keeps s₀ (State.modEnvelopes s job f) := by
  unfold State.modEnvelopes
  try dsimp only
  repeat' (first
    | with_reducible assumption
    | with_reducible apply State.each_keeps
    | with_reducible apply State.modConc_keeps
    | split
    | exact fun _ e => e
    | exact fun _ _ => rfl
    | intro _
    | with_reducible apply Keeps.lit)

theorem State.abortAwaiting_keeps {s₀ : State} (s : State) (a : Nat) (x : Ctx) (hk : Keeps s₀ s)  :
    Keeps s₀ (State.abortAwaiting s a x) := by
  unfold State.abortAwaiting
  try dsimp only
  repeat' (first
    | with_reducible assumption
    | with_reducible apply State.modAgent_keeps
    | with_reducible apply State.poisonTask_keeps
    | with_reducible apply State.dropHanded_keeps
    | with_reducible apply State.dropAccount_keeps
    | with_reducible apply State.abortPoison_keeps
    | with_reducible apply State.closeRetake_keeps
    | with_reducible apply State.startWaiting_keeps
    | split
    | exact fun _ e => e
    | exact fun _ _ => rfl
    | intro _
    | with_reducible apply Keeps.lit)

theorem State.abortGroup_keeps {s₀ : State} (s : State) (a key : Nat) (g : Group) (hk : Keeps s₀ s)  :
    Keeps s₀ (State.abortGroup s a key g) := by
  unfold State.abortGroup
  try dsimp only
  repeat' (first
    | with_reducible assumption
    | with_reducible apply State.settled_keeps
    | with_reducible apply State.groupRange_keeps
    | with_reducible apply State.modAgent_keeps
    | split
    | exact fun _ e => e
    | exact fun _ _ => rfl
    | intro _
    | with_reducible apply Keeps.lit)

theorem State.abortAgent_keeps {s₀ : State} (s : State) (a : Nat) (job : Job) (hk : Keeps s₀ s)  :
    Keeps s₀ (State.abortAgent s a job) := by
  unfold State.abortAgent
  try dsimp only
  repeat' (first
    | with_reducible assumption
    | with_reducible apply State.modAgent_keeps
    | with_reducible apply State.each_keeps
    | with_reducible apply State.presentCmt_keeps
    | with_reducible apply State.abortAwaiting_keeps
    | with_reducible apply State.abortGroup_keeps
    | with_reducible apply State.markAborted_keeps
    | split
    | exact fun _ e => e
    | exact fun _ _ => rfl
    | intro _
    | with_reducible apply Keeps.lit)

theorem State.abortConc_keeps {s₀ : State} (s : State) (c : Nat) (job : Job) (hk : Keeps s₀ s)  :
    Keeps s₀ (State.abortConc s c job) := by
  unfold State.abortConc
  try dsimp only
  repeat' (first
    | with_reducible assumption
    | with_reducible apply State.each_keeps
    | with_reducible apply State.presentCmt_keeps
    | with_reducible apply State.modConc_keeps
    | split
    | exact fun _ e => e
    | exact fun _ _ => rfl
    | intro _
    | with_reducible apply Keeps.lit)

theorem State.clearExcursions_keeps {s₀ : State} (s : State) (job : Job) (hk : Keeps s₀ s)  :
    Keeps s₀ (State.clearExcursions s job) := by
  unfold State.clearExcursions
  try dsimp only
  repeat' (first
    | with_reducible assumption
    | with_reducible apply State.each_keeps
    | with_reducible apply State.modConc_keeps
    | split
    | exact fun _ e => e
    | exact fun _ _ => rfl
    | intro _
    | with_reducible apply Keeps.lit)

end Sys2Proof.Machine
end

