-- ==== Sys2Proof/Laws/KeepsSign.lean ====
section
/-! SUPPORT. Every operation of Machine/Sign.lean keeps what `Keeps` names. -/

namespace Sys2Proof.Machine

open Sys2Proof

theorem State.modStream_keeps {s₀ : State} (s : State) (n : Nat) (f : SignStream → SignStream) (hk : Keeps s₀ s)  :
    Keeps s₀ (State.modStream s n f) := by
  unfold State.modStream
  try dsimp only
  repeat' (first
    | with_reducible assumption
    | split
    | exact fun _ e => e
    | exact fun _ _ => rfl
    | intro _
    | with_reducible apply Keeps.lit)

theorem State.signHead_keeps {s₀ : State} (s : State) (n : Nat) (close : Bool) (hk : Keeps s₀ s)  :
    Keeps s₀ (State.signHead s n close) := by
  unfold State.signHead
  try dsimp only
  repeat' (first
    | with_reducible assumption
    | with_reducible apply State.modStream_keeps
    | with_reducible apply State.endCmd_keeps
    | split
    | exact fun _ e => e
    | exact fun _ _ => rfl
    | intro _
    | with_reducible apply Keeps.lit)

theorem State.finishSign_keeps {s₀ : State} (s : State) (n : Nat) (hk : Keeps s₀ s)  :
    Keeps s₀ (State.finishSign s n) := by
  unfold State.finishSign
  try dsimp only
  repeat' (first
    | with_reducible assumption
    | with_reducible apply State.signHead_keeps
    | split
    | exact fun _ e => e
    | exact fun _ _ => rfl
    | intro _
    | with_reducible apply Keeps.lit)

theorem State.reportTo_keeps {s₀ : State} (s : State) (n block : Nat) (tag : W32) (hk : Keeps s₀ s)  :
    Keeps s₀ (State.reportTo s n block tag) := by
  unfold State.reportTo
  try dsimp only
  repeat' (first
    | with_reducible assumption
    | with_reducible apply State.modStream_keeps
    | with_reducible apply State.finishSign_keeps
    | split
    | exact fun _ e => e
    | exact fun _ _ => rfl
    | intro _
    | with_reducible apply Keeps.lit)

theorem State.reportCommit_keeps {s₀ : State} (s : State) (block : Nat) (tag : W32) (hk : Keeps s₀ s)  :
    Keeps s₀ (State.reportCommit s block tag) := by
  unfold State.reportCommit
  try dsimp only
  repeat' (first
    | with_reducible assumption
    | with_reducible apply State.each_keeps
    | with_reducible apply State.reportTo_keeps
    | split
    | exact fun _ e => e
    | exact fun _ _ => rfl
    | intro _
    | with_reducible apply Keeps.lit)

theorem State.dropWaiting_keeps {s₀ : State} (s : State) (block : Nat) (hk : Keeps s₀ s)  :
    Keeps s₀ (State.dropWaiting s block) := by
  unfold State.dropWaiting
  try dsimp only
  repeat' (first
    | with_reducible assumption
    | with_reducible apply State.each_keeps
    | with_reducible apply State.modStream_keeps
    | with_reducible apply State.finishSign_keeps
    | split
    | exact fun _ e => e
    | exact fun _ _ => rfl
    | intro _
    | with_reducible apply Keeps.lit)

end Sys2Proof.Machine
end

