-- ==== Sys2Proof/Laws/KeepsTags.lean ====
section
/-! SUPPORT. Every operation of Machine/Tags.lean keeps what `Keeps` names. -/

namespace Sys2Proof.Machine

open Sys2Proof

theorem State.countTag_keeps {s₀ : State} (s : State) (e i : Nat) (hk : Keeps s₀ s)  :
    Keeps s₀ (State.countTag s e i) := by
  unfold State.countTag
  try dsimp only
  repeat' (first
    | with_reducible assumption
    | with_reducible apply State.modEngine_keeps
    | split
    | exact fun _ e => e
    | exact fun _ _ => rfl
    | intro _
    | with_reducible apply Keeps.lit)

theorem State.tagReport_keeps {s₀ : State} (s : State) (e : Nat) (kind : Byte) (addr : Nat) (job : Job) (hk : Keeps s₀ s)  :
    Keeps s₀ (State.tagReport s e kind addr job) := by
  unfold State.tagReport
  try dsimp only
  repeat' (first
    | with_reducible assumption
    | with_reducible apply State.emit_keeps
    | split
    | exact fun _ e => e
    | exact fun _ _ => rfl
    | intro _
    | with_reducible apply Keeps.lit)

theorem State.mismatch_keeps {s₀ : State} (s : State) (e addr : Nat) (job : Job) (hk : Keeps s₀ s)  :
    Keeps s₀ (State.mismatch s e addr job) := by
  unfold State.mismatch
  try dsimp only
  repeat' (first
    | with_reducible assumption
    | with_reducible apply State.countTag_keeps
    | with_reducible apply State.tagReport_keeps
    | split
    | exact fun _ e => e
    | exact fun _ _ => rfl
    | intro _
    | with_reducible apply Keeps.lit)

theorem State.setStream_keeps {s₀ : State} (s : State) (e id : Nat) (t : Option Stream) (hk : Keeps s₀ s)  :
    Keeps s₀ (State.setStream s e id t) := by
  unfold State.setStream
  try dsimp only
  repeat' (first
    | with_reducible assumption
    | with_reducible apply State.modEngine_keeps
    | split
    | exact fun _ e => e
    | exact fun _ _ => rfl
    | intro _
    | with_reducible apply Keeps.lit)

theorem State.reply_keeps {s₀ : State} (s : State) (e id code d : Nat) (hk : Keeps s₀ s)  :
    Keeps s₀ (State.reply s e id code d) := by
  unfold State.reply
  try dsimp only
  repeat' (first
    | with_reducible assumption
    | with_reducible apply State.present_keeps
    | split
    | exact fun _ e => e
    | exact fun _ _ => rfl
    | intro _
    | with_reducible apply Keeps.lit)

theorem State.endStream_keeps {s₀ : State} (s : State) (e id : Nat) (t : Option Stream) (hk : Keeps s₀ s)  :
    Keeps s₀ (State.endStream s e id t) := by
  unfold State.endStream
  try dsimp only
  repeat' (first
    | with_reducible assumption
    | with_reducible apply State.modEngine_keeps
    | with_reducible apply State.setStream_keeps
    | split
    | exact fun _ e => e
    | exact fun _ _ => rfl
    | intro _
    | with_reducible apply Keeps.lit)

theorem State.finalReply_keeps {s₀ : State} (s : State) (e id : Nat) (code d : Nat) (hk : Keeps s₀ s)  :
    Keeps s₀ (State.finalReply s e id code d) := by
  unfold State.finalReply
  try dsimp only
  repeat' (first
    | with_reducible assumption
    | with_reducible apply State.endStream_keeps
    | with_reducible apply State.reply_keeps
    | split
    | exact fun _ e => e
    | exact fun _ _ => rfl
    | intro _
    | with_reducible apply Keeps.lit)

theorem State.sideIssue_keeps {s₀ : State} (s : State) (e : Nat) (r : SideReq) (hk : Keeps s₀ s)  :
    Keeps s₀ (State.sideIssue s e r).1 := by
  unfold State.sideIssue
  try dsimp only
  repeat' (first
    | with_reducible assumption
    | with_reducible apply State.modEngine_keeps
    | with_reducible apply State.present_keeps
    | split
    | exact fun _ e => e
    | exact fun _ _ => rfl
    | intro _
    | with_reducible apply Keeps.lit)

theorem State.sideIssue_keepsOf {s₀ : State} {s : State} (e : Nat) (r : SideReq) {t : State} {rest}
    (heq : State.sideIssue s e r = (t, rest)) (hk : Keeps s₀ s) : Keeps s₀ t := by
  have key := State.sideIssue_keeps s e r hk
  rw [heq] at key
  exact key

theorem State.writeWord_keeps {s₀ : State} (s : State) (e block : Nat) (w : W32) (job : Job) (p : SidePurpose) (hk : Keeps s₀ s)  :
    Keeps s₀ (State.writeWord s e block w job p).1 := by
  unfold State.writeWord
  try dsimp only
  repeat' (first
    | with_reducible assumption
    | with_reducible apply State.sideIssue_keeps
    | refine State.sideIssue_keepsOf (by assumption) ?_
    | split
    | exact fun _ e => e
    | exact fun _ _ => rfl
    | intro _
    | with_reducible apply Keeps.lit)

theorem State.writeWord_keepsOf {s₀ : State} {s : State} (e block : Nat) (w : W32) (job : Job) (p : SidePurpose) {t : State} {rest}
    (heq : State.writeWord s e block w job p = (t, rest)) (hk : Keeps s₀ s) : Keeps s₀ t := by
  have key := State.writeWord_keeps s e block w job p hk
  rw [heq] at key
  exact key

theorem State.skipBlock_keeps {s₀ : State} (s : State) (e block : Nat) (hk : Keeps s₀ s)  :
    Keeps s₀ (State.skipBlock s e block) := by
  unfold State.skipBlock
  try dsimp only
  repeat' (first
    | with_reducible assumption
    | with_reducible apply State.modEngine_keeps
    | split
    | exact fun _ e => e
    | exact fun _ _ => rfl
    | intro _
    | with_reducible apply Keeps.lit)

theorem State.modOn_keeps {s₀ : State} (s : State) (e block : Nat) (f : Stream → Stream) (hk : Keeps s₀ s)  :
    Keeps s₀ (State.modOn s e block f) := by
  unfold State.modOn
  try dsimp only
  repeat' (first
    | with_reducible assumption
    | with_reducible apply State.modEngine_keeps
    | split
    | exact fun _ e => e
    | exact fun _ _ => rfl
    | intro _
    | with_reducible apply Keeps.lit)

theorem State.poisonBlock_keeps {s₀ : State} (s : State) (e block : Nat) (job : Job) (report : Bool) (hk : Keeps s₀ s)  :
    Keeps s₀ (State.poisonBlock s e block job report) := by
  unfold State.poisonBlock
  try dsimp only
  repeat' (first
    | with_reducible assumption
    | with_reducible apply State.report_keeps
    | with_reducible apply State.mismatch_keeps
    | with_reducible apply State.skipBlock_keeps
    | with_reducible apply State.writeWord_keeps
    | refine State.writeWord_keepsOf (by assumption) ?_
    | with_reducible apply State.modOn_keeps
    | with_reducible apply State.each_keeps
    | with_reducible apply State.countTag_keeps
    | with_reducible apply State.finalReply_keeps
    | with_reducible apply State.dropWaiting_keeps
    | split
    | exact fun _ e => e
    | exact fun _ _ => rfl
    | intro _
    | with_reducible apply Keeps.lit)

theorem State.writeTag_keeps {s₀ : State} (s : State) (e block : Nat) (w : W32) (job : Job) (p : SidePurpose) (hk : Keeps s₀ s)  :
    Keeps s₀ (State.writeTag s e block w job p).1 := by
  unfold State.writeTag
  try dsimp only
  repeat' (first
    | with_reducible assumption
    | with_reducible apply State.writeWord_keeps
    | refine State.writeWord_keepsOf (by assumption) ?_
    | with_reducible apply State.poisonBlock_keeps
    | split
    | exact fun _ e => e
    | exact fun _ _ => rfl
    | intro _
    | with_reducible apply Keeps.lit)

theorem State.writeTag_keepsOf {s₀ : State} {s : State} (e block : Nat) (w : W32) (job : Job) (p : SidePurpose) {t : State} {rest}
    (heq : State.writeTag s e block w job p = (t, rest)) (hk : Keeps s₀ s) : Keeps s₀ t := by
  have key := State.writeTag_keeps s e block w job p hk
  rw [heq] at key
  exact key

theorem State.verifyRead_keeps {s₀ : State} (s : State) (e id : Nat) (t : Stream) (w : W32) (rel : Bool) (hk : Keeps s₀ s)  :
    Keeps s₀ (State.verifyRead s e id t w rel) := by
  unfold State.verifyRead
  try dsimp only
  repeat' (first
    | with_reducible assumption
    | with_reducible apply State.countTag_keeps
    | with_reducible apply State.finalReply_keeps
    | with_reducible apply State.poisonBlock_keeps
    | split
    | exact fun _ e => e
    | exact fun _ _ => rfl
    | intro _
    | with_reducible apply Keeps.lit)

theorem State.judgeRead_keeps {s₀ : State} (s : State) (e id : Nat) (t : Stream) (w : W32) (bad : Bool) (hk : Keeps s₀ s)  :
    Keeps s₀ (State.judgeRead s e id t w bad) := by
  unfold State.judgeRead
  try dsimp only
  repeat' (first
    | with_reducible assumption
    | with_reducible apply State.finalReply_keeps
    | with_reducible apply State.poisonBlock_keeps
    | with_reducible apply State.countTag_keeps
    | with_reducible apply State.setStream_keeps
    | with_reducible apply State.reply_keeps
    | with_reducible apply State.verifyRead_keeps
    | split
    | exact fun _ e => e
    | exact fun _ _ => rfl
    | intro _
    | with_reducible apply Keeps.lit)

theorem State.readWord_keeps {s₀ : State} (s : State) (e id : Nat) (w : W32) (bad : Bool) (hk : Keeps s₀ s)  :
    Keeps s₀ (State.readWord s e id w bad) := by
  unfold State.readWord
  try dsimp only
  repeat' (first
    | with_reducible assumption
    | with_reducible apply State.setStream_keeps
    | with_reducible apply State.judgeRead_keeps
    | split
    | exact fun _ e => e
    | exact fun _ _ => rfl
    | intro _
    | with_reducible apply Keeps.lit)

theorem State.requestWord_keeps {s₀ : State} (s : State) (e id : Nat) (t : Stream) (hk : Keeps s₀ s)  :
    Keeps s₀ (State.requestWord s e id t) := by
  unfold State.requestWord
  try dsimp only
  repeat' (first
    | with_reducible assumption
    | with_reducible apply State.setStream_keeps
    | with_reducible apply State.readWord_keeps
    | with_reducible apply State.sideIssue_keeps
    | refine State.sideIssue_keepsOf (by assumption) ?_
    | split
    | exact fun _ e => e
    | exact fun _ _ => rfl
    | intro _
    | with_reducible apply Keeps.lit)

theorem State.releaseRead_keeps {s₀ : State} (s : State) (e id : Nat) (hk : Keeps s₀ s)  :
    Keeps s₀ (State.releaseRead s e id) := by
  unfold State.releaseRead
  try dsimp only
  repeat' (first
    | with_reducible assumption
    | with_reducible apply State.countTag_keeps
    | with_reducible apply State.finalReply_keeps
    | with_reducible apply State.verifyRead_keeps
    | split
    | exact fun _ e => e
    | exact fun _ _ => rfl
    | intro _
    | with_reducible apply Keeps.lit)

theorem State.releaseBlock_keeps {s₀ : State} (s : State) (e block : Nat) (hk : Keeps s₀ s)  :
    Keeps s₀ (State.releaseBlock s e block) := by
  unfold State.releaseBlock
  try dsimp only
  repeat' (first
    | with_reducible assumption
    | with_reducible apply State.each_keeps
    | with_reducible apply State.releaseRead_keeps
    | split
    | exact fun _ e => e
    | exact fun _ _ => rfl
    | intro _
    | with_reducible apply Keeps.lit)

theorem State.queueInlog_keeps {s₀ : State} (s : State) (t : Stream) (w : W32) (hk : Keeps s₀ s)  :
    Keeps s₀ (State.queueInlog s t w) := by
  unfold State.queueInlog
  try dsimp only
  repeat' (first
    | with_reducible assumption
    | with_reducible apply State.modJob_keeps
    | split
    | exact fun _ e => e
    | exact fun _ _ => rfl
    | intro _
    | with_reducible apply Keeps.lit)

theorem State.commitNow_keeps {s₀ : State} (s : State) (e block : Nat) (pending : Bool) (w : W32) (hk : Keeps s₀ s)  :
    Keeps s₀ (State.commitNow s e block pending w) := by
  unfold State.commitNow
  try dsimp only
  repeat' (first
    | with_reducible assumption
    | with_reducible apply State.reportCommit_keeps
    | with_reducible apply State.countTag_keeps
    | with_reducible apply State.dropWaiting_keeps
    | split
    | exact fun _ e => e
    | exact fun _ _ => rfl
    | intro _
    | with_reducible apply Keeps.lit)

theorem State.overtaken_keeps {s₀ : State} (s : State) (e block : Nat) (hk : Keeps s₀ s)  :
    Keeps s₀ (State.overtaken s e block) := by
  unfold State.overtaken
  try dsimp only
  repeat' (first
    | with_reducible assumption
    | with_reducible apply State.commitNow_keeps
    | with_reducible apply State.dropWaiting_keeps
    | split
    | exact fun _ e => e
    | exact fun _ _ => rfl
    | intro _
    | with_reducible apply Keeps.lit)

theorem State.storeTag_keeps {s₀ : State} (s : State) (e : Nat) (t : Stream) (hk : Keeps s₀ s)  :
    Keeps s₀ (State.storeTag s e t) := by
  unfold State.storeTag
  try dsimp only
  repeat' (first
    | with_reducible assumption
    | with_reducible apply State.modOn_keeps
    | with_reducible apply State.overtaken_keeps
    | with_reducible apply State.skipBlock_keeps
    | with_reducible apply State.writeTag_keeps
    | refine State.writeTag_keepsOf (by assumption) ?_
    | with_reducible apply State.commitNow_keeps
    | with_reducible apply State.releaseBlock_keeps
    | with_reducible apply State.queueInlog_keeps
    | split
    | exact fun _ e => e
    | exact fun _ _ => rfl
    | intro _
    | with_reducible apply Keeps.lit)

theorem State.storePoison_keeps {s₀ : State} (s : State) (e : Nat) (t : Stream) (report : Bool) (hk : Keeps s₀ s)  :
    Keeps s₀ (State.storePoison s e t report) := by
  unfold State.storePoison
  try dsimp only
  repeat' (first
    | with_reducible assumption
    | with_reducible apply State.poisonBlock_keeps
    | with_reducible apply State.report_keeps
    | with_reducible apply State.countTag_keeps
    | split
    | exact fun _ e => e
    | exact fun _ _ => rfl
    | intro _
    | with_reducible apply Keeps.lit)

theorem State.closeWrite_keeps {s₀ : State} (s : State) (e id : Nat) (t : Stream) (hk : Keeps s₀ s)  :
    Keeps s₀ (State.closeWrite s e id t) := by
  unfold State.closeWrite
  try dsimp only
  repeat' (first
    | with_reducible assumption
    | with_reducible apply State.storePoison_keeps
    | with_reducible apply State.finalReply_keeps
    | with_reducible apply State.storeTag_keeps
    | split
    | exact fun _ e => e
    | exact fun _ _ => rfl
    | intro _
    | with_reducible apply Keeps.lit)

theorem State.finishPart_keeps {s₀ : State} (s : State) (e id : Nat) (t : Stream) (w : W32) (bad : Bool) (hk : Keeps s₀ s)  :
    Keeps s₀ (State.finishPart s e id t w bad) := by
  unfold State.finishPart
  try dsimp only
  repeat' (first
    | with_reducible assumption
    | with_reducible apply State.storePoison_keeps
    | with_reducible apply State.finalReply_keeps
    | with_reducible apply State.countTag_keeps
    | with_reducible apply State.commitNow_keeps
    | with_reducible apply State.skipBlock_keeps
    | with_reducible apply State.writeTag_keeps
    | refine State.writeTag_keepsOf (by assumption) ?_
    | with_reducible apply State.modOn_keeps
    | with_reducible apply State.releaseBlock_keeps
    | split
    | exact fun _ e => e
    | exact fun _ _ => rfl
    | intro _
    | with_reducible apply Keeps.lit)

theorem State.closePart_keeps {s₀ : State} (s : State) (e id : Nat) (t : Stream) (hk : Keeps s₀ s)  :
    Keeps s₀ (State.closePart s e id t) := by
  unfold State.closePart
  try dsimp only
  repeat' (first
    | with_reducible assumption
    | with_reducible apply State.storePoison_keeps
    | with_reducible apply State.finalReply_keeps
    | with_reducible apply State.setStream_keeps
    | with_reducible apply State.finishPart_keeps
    | with_reducible apply State.sideIssue_keeps
    | refine State.sideIssue_keepsOf (by assumption) ?_
    | split
    | exact fun _ e => e
    | exact fun _ _ => rfl
    | intro _
    | with_reducible apply Keeps.lit)

theorem State.refuseWrite_keeps {s₀ : State} (s : State) (e id : Nat) (t : Stream) (addr : Nat) (hk : Keeps s₀ s)  :
    Keeps s₀ (State.refuseWrite s e id t addr) := by
  unfold State.refuseWrite
  try dsimp only
  repeat' (first
    | with_reducible assumption
    | with_reducible apply State.countTag_keeps
    | with_reducible apply State.tagReport_keeps
    | with_reducible apply State.finalReply_keeps
    | split
    | exact fun _ e => e
    | exact fun _ _ => rfl
    | intro _
    | with_reducible apply Keeps.lit)

theorem State.reuseStream_keeps {s₀ : State} (s : State) (e id : Nat) (old t : Stream) (hk : Keeps s₀ s)  :
    Keeps s₀ (State.reuseStream s e id old t) := by
  unfold State.reuseStream
  try dsimp only
  repeat' (first
    | with_reducible assumption
    | with_reducible apply State.finalReply_keeps
    | with_reducible apply State.poisonBlock_keeps
    | with_reducible apply State.endStream_keeps
    | split
    | exact fun _ e => e
    | exact fun _ _ => rfl
    | intro _
    | with_reducible apply Keeps.lit)

theorem State.sampleReads_keeps {s₀ : State} (s : State) (e block : Nat) (hk : Keeps s₀ s)  :
    Keeps s₀ (State.sampleReads s e block) := by
  unfold State.sampleReads
  try dsimp only
  repeat' (first
    | with_reducible assumption
    | with_reducible apply State.each_keeps
    | with_reducible apply State.requestWord_keeps
    | split
    | exact fun _ e => e
    | exact fun _ _ => rfl
    | intro _
    | with_reducible apply Keeps.lit)

theorem State.openWrite_keeps {s₀ : State} (s : State) (e id : Nat) (t : Stream) (hk : Keeps s₀ s)  :
    Keeps s₀ (State.openWrite s e id t) := by
  unfold State.openWrite
  try dsimp only
  repeat' (first
    | with_reducible assumption
    | with_reducible apply State.setStream_keeps
    | with_reducible apply State.refuseWrite_keeps
    | with_reducible apply State.sampleReads_keeps
    | with_reducible apply State.each_keeps
    | with_reducible apply State.poisonBlock_keeps
    | split
    | exact fun _ e => e
    | exact fun _ _ => rfl
    | intro _
    | with_reducible apply Keeps.lit)

theorem State.openRead_keeps {s₀ : State} (s : State) (e id : Nat) (t : Stream) (hk : Keeps s₀ s)  :
    Keeps s₀ (State.openRead s e id t) := by
  unfold State.openRead
  try dsimp only
  repeat' (first
    | with_reducible assumption
    | with_reducible apply State.countTag_keeps
    | with_reducible apply State.finalReply_keeps
    | with_reducible apply State.setStream_keeps
    | with_reducible apply State.requestWord_keeps
    | split
    | exact fun _ e => e
    | exact fun _ _ => rfl
    | intro _
    | with_reducible apply Keeps.lit)

theorem State.memOp_keeps {s₀ : State} (s : State) (e : Nat) (stream : BitVec 7) (addr : Addr) (job : Job) (f : Stream → Stream) (hk : Keeps s₀ s)  :
    Keeps s₀ (State.memOp s e stream addr job f) := by
  unfold State.memOp
  try dsimp only
  repeat' (first
    | with_reducible assumption
    | with_reducible apply State.reuseStream_keeps
    | with_reducible apply State.openRead_keeps
    | with_reducible apply State.openWrite_keeps
    | split
    | exact fun _ e => e
    | exact fun _ _ => rfl
    | intro _
    | with_reducible apply Keeps.lit)

theorem State.untaggedBeat_keeps {s₀ : State} (s : State) (e id : Nat) (t : Stream) (b : TgBeat) (hk : Keeps s₀ s)  :
    Keeps s₀ (State.untaggedBeat s e id t b) := by
  unfold State.untaggedBeat
  try dsimp only
  repeat' (first
    | with_reducible assumption
    | with_reducible apply State.refuseWrite_keeps
    | with_reducible apply State.finalReply_keeps
    | with_reducible apply State.setStream_keeps
    | split
    | exact fun _ e => e
    | exact fun _ _ => rfl
    | intro _
    | with_reducible apply Keeps.lit)

theorem State.taggedBeat_keeps {s₀ : State} (s : State) (e id : Nat) (t : Stream) (b : TgBeat) (hk : Keeps s₀ s)  :
    Keeps s₀ (State.taggedBeat s e id t b) := by
  unfold State.taggedBeat
  try dsimp only
  repeat' (first
    | with_reducible assumption
    | with_reducible apply State.setStream_keeps
    | with_reducible apply State.requestWord_keeps
    | with_reducible apply State.judgeRead_keeps
    | with_reducible apply State.closePart_keeps
    | with_reducible apply State.closeWrite_keeps
    | split
    | exact fun _ e => e
    | exact fun _ _ => rfl
    | intro _
    | with_reducible apply Keeps.lit)

theorem State.modCommit_keeps {s₀ : State} (s : State) (e key : Nat) (f : CommitEntry → CommitEntry) (hk : Keeps s₀ s)  :
    Keeps s₀ (State.modCommit s e key f) := by
  unfold State.modCommit
  try dsimp only
  repeat' (first
    | with_reducible assumption
    | with_reducible apply State.modEngine_keeps
    | split
    | exact fun _ e => e
    | exact fun _ _ => rfl
    | intro _
    | with_reducible apply Keeps.lit)

theorem State.commitWord_keeps {s₀ : State} (s : State) (e : Nat) (c : CommitEntry) (block : Nat) (w : W32) (bad : Bool) (hk : Keeps s₀ s)  :
    Keeps s₀ (State.commitWord s e c block w bad).1 := by
  unfold State.commitWord
  try dsimp only
  repeat' (first
    | with_reducible assumption
    | with_reducible apply State.poisonBlock_keeps
    | with_reducible apply State.writeTag_keeps
    | refine State.writeTag_keepsOf (by assumption) ?_
    | with_reducible apply State.reportCommit_keeps
    | with_reducible apply State.countTag_keeps
    | with_reducible apply State.dropWaiting_keeps
    | split
    | exact fun _ e => e
    | exact fun _ _ => rfl
    | intro _
    | with_reducible apply Keeps.lit)

theorem State.commitWord_keepsOf {s₀ : State} {s : State} (e : Nat) (c : CommitEntry) (block : Nat) (w : W32) (bad : Bool) {t : State} {rest}
    (heq : State.commitWord s e c block w bad = (t, rest)) (hk : Keeps s₀ s) : Keeps s₀ t := by
  have key := State.commitWord_keeps s e c block w bad hk
  rw [heq] at key
  exact key

theorem State.commitGo_keeps {s₀ : State} (e key n : Nat) (s : State) (hk : Keeps s₀ s) :
    Keeps s₀ (State.commitGo e key n s) := by
  induction n generalizing s with
  | zero => exact hk
  | succ n ih =>
    unfold State.commitGo
    try dsimp only
    repeat' (first
      | with_reducible assumption
      | with_reducible apply ih
      | with_reducible apply State.modCommit_keeps
      | with_reducible apply State.commitWord_keeps
      | with_reducible apply State.poisonBlock_keeps
      | with_reducible apply State.sideIssue_keeps
      | with_reducible apply State.freeCommit_keeps
      | with_reducible apply State.modEngine_keeps
      | split
      | exact fun _ e => e)


theorem State.commitNext_keeps {s₀ : State} (s : State) (e key : Nat) (hk : Keeps s₀ s)  :
    Keeps s₀ (State.commitNext s e key) := by
  unfold State.commitNext
  try dsimp only
  repeat' (first
    | with_reducible assumption
    | with_reducible apply State.commitGo_keeps
    | split
    | exact fun _ e => e
    | exact fun _ _ => rfl
    | intro _
    | with_reducible apply Keeps.lit)

theorem State.commitBlock_keeps {s₀ : State} (s : State) (e key block i : Nat) (hk : Keeps s₀ s)  :
    Keeps s₀ (State.commitBlock s e key block i) := by
  unfold State.commitBlock
  try dsimp only
  repeat' (first
    | with_reducible assumption
    | with_reducible apply State.each_keeps
    | with_reducible apply State.setStream_keeps
    | with_reducible apply State.modCommit_keeps
    | with_reducible apply State.releaseBlock_keeps
    | with_reducible apply State.modEngine_keeps
    | split
    | exact fun _ e => e
    | exact fun _ _ => rfl
    | intro _
    | with_reducible apply Keeps.lit)

theorem State.commitEffect_keeps {s₀ : State} (s : State) (e : Nat) (c : CommitEntry) (hk : Keeps s₀ s)  :
    Keeps s₀ (State.commitEffect s e c) := by
  unfold State.commitEffect
  try dsimp only
  repeat' (first
    | with_reducible assumption
    | with_reducible apply State.modEngine_keeps
    | with_reducible apply State.each_keeps
    | with_reducible apply State.commitBlock_keeps
    | with_reducible apply State.commitNext_keeps
    | split
    | exact fun _ e => e
    | exact fun _ _ => rfl
    | intro _
    | with_reducible apply Keeps.lit)

theorem State.takeCommit_keeps {s₀ : State} (s : State) (e : Nat) (c : CommitEntry) (hk : Keeps s₀ s)  :
    Keeps s₀ (State.takeCommit s e c) := by
  unfold State.takeCommit
  try dsimp only
  repeat' (first
    | with_reducible assumption
    | with_reducible apply State.commitEffect_keeps
    | with_reducible apply State.countTag_keeps
    | with_reducible apply State.modEngine_keeps
    | split
    | exact fun _ e => e
    | exact fun _ _ => rfl
    | intro _
    | with_reducible apply Keeps.lit)

theorem State.poisonRange_keeps {s₀ : State} (s : State) (e a count : Nat) (job : Job) (hk : Keeps s₀ s)  :
    Keeps s₀ (State.poisonRange s e a count job) := by
  unfold State.poisonRange
  try dsimp only
  repeat' (first
    | with_reducible assumption
    | with_reducible apply State.each_keeps
    | with_reducible apply State.poisonBlock_keeps
    | with_reducible apply State.modOn_keeps
    | split
    | exact fun _ e => e
    | exact fun _ _ => rfl
    | intro _
    | with_reducible apply Keeps.lit)

theorem State.commitPast_keeps {s₀ : State} (s : State) (e key : Nat) (hk : Keeps s₀ s)  :
    Keeps s₀ (State.commitPast s e key) := by
  unfold State.commitPast
  try dsimp only
  repeat' (first
    | with_reducible assumption
    | with_reducible apply State.modCommit_keeps
    | with_reducible apply State.commitNext_keeps
    | split
    | exact fun _ e => e
    | exact fun _ _ => rfl
    | intro _
    | with_reducible apply Keeps.lit)

theorem State.commitRead_keeps {s₀ : State} (s : State) (e key block : Nat) (w : W32) (bad : Bool) (hk : Keeps s₀ s)  :
    Keeps s₀ (State.commitRead s e key block w bad) := by
  unfold State.commitRead
  try dsimp only
  repeat' (first
    | with_reducible assumption
    | with_reducible apply State.commitPast_keeps
    | with_reducible apply State.commitWord_keeps
    | refine State.commitWord_keepsOf (by assumption) ?_
    | split
    | exact fun _ e => e
    | exact fun _ _ => rfl
    | intro _
    | with_reducible apply Keeps.lit)

theorem State.sideDone_keeps {s₀ : State} (s : State) (e : Nat) (r : SideReq) (w : W32) (bad late : Bool) (hk : Keeps s₀ s)  :
    Keeps s₀ (State.sideDone s e r w bad late) := by
  unfold State.sideDone
  try dsimp only
  repeat' (first
    | with_reducible assumption
    | with_reducible apply State.readWord_keeps
    | with_reducible apply State.finishPart_keeps
    | with_reducible apply State.poisonBlock_keeps
    | with_reducible apply State.commitRead_keeps
    | with_reducible apply State.commitPast_keeps
    | split
    | exact fun _ e => e
    | exact fun _ _ => rfl
    | intro _
    | with_reducible apply Keeps.lit)

theorem State.issueWaiting_keeps {s₀ : State} (s : State) (e : Nat) (hk : Keeps s₀ s)  :
    Keeps s₀ (State.issueWaiting s e) := by
  unfold State.issueWaiting
  try dsimp only
  repeat' (first
    | with_reducible assumption
    | with_reducible apply State.modEngine_keeps
    | with_reducible apply State.sideIssue_keeps
    | refine State.sideIssue_keepsOf (by assumption) ?_
    | split
    | exact fun _ e => e
    | exact fun _ _ => rfl
    | intro _
    | with_reducible apply Keeps.lit)

theorem State.destUse_keeps {s₀ : State} (s : State) (e : Nat) (g : Option Region124) (src : Option Nat) (bad : Bool) (u : SrcUse) (hk : Keeps s₀ s)  :
    Keeps s₀ (State.destUse s e g src bad u) := by
  unfold State.destUse
  try dsimp only
  repeat' (first
    | with_reducible assumption
    | with_reducible apply State.countTag_keeps
    | with_reducible apply State.modEngine_keeps
    | with_reducible apply State.present_keeps
    | split
    | exact fun _ e => e
    | exact fun _ _ => rfl
    | intro _
    | with_reducible apply Keeps.lit)

theorem State.packetUse_keeps {s₀ : State} (s : State) (e : Nat) (g : Option Region124) (src : Option Nat) (bad : Bool) (u : SrcUse) (hk : Keeps s₀ s)  :
    Keeps s₀ (State.packetUse s e g src bad u) := by
  unfold State.packetUse
  try dsimp only
  repeat' (first
    | with_reducible assumption
    | with_reducible apply State.modEngine_keeps
    | split
    | exact fun _ e => e
    | exact fun _ _ => rfl
    | intro _
    | with_reducible apply Keeps.lit)

theorem State.addRows_keeps {s₀ : State} (s : State) (e : Nat) (job : Job) (round : BitVec 16) (n : Nat) (hk : Keeps s₀ s)  :
    Keeps s₀ (State.addRows s e job round n) := by
  unfold State.addRows
  try dsimp only
  repeat' (first
    | with_reducible assumption
    | with_reducible apply State.modConc_keeps
    | split
    | exact fun _ e => e
    | exact fun _ _ => rfl
    | intro _
    | with_reducible apply Keeps.lit)

theorem State.poisonOwned_keeps {s₀ : State} (s : State) (l : List Addr) (job : Job) (hk : Keeps s₀ s)  :
    Keeps s₀ (State.poisonOwned s l job) := by
  unfold State.poisonOwned
  try dsimp only
  repeat' (first
    | with_reducible assumption
    | with_reducible apply State.each_keeps
    | with_reducible apply State.poisonBlock_keeps
    | split
    | exact fun _ e => e
    | exact fun _ _ => rfl
    | intro _
    | with_reducible apply Keeps.lit)

theorem State.closeSender_keeps {s₀ : State} (s : State) (e : Nat) (job : Job) (round : BitVec 16) (hk : Keeps s₀ s)  :
    Keeps s₀ (State.closeSender s e job round) := by
  unfold State.closeSender
  try dsimp only
  repeat' (first
    | with_reducible assumption
    | with_reducible apply State.modConc_keeps
    | with_reducible apply State.emit_keeps
    | split
    | exact fun _ e => e
    | exact fun _ _ => rfl
    | intro _
    | with_reducible apply Keeps.lit)

theorem State.ledgerWrite_keeps {s₀ : State} (s : State) (block d : Nat) (job : Job) (hk : Keeps s₀ s)  :
    Keeps s₀ (State.ledgerWrite s block d job) := by
  unfold State.ledgerWrite
  try dsimp only
  repeat' (first
    | with_reducible assumption
    | with_reducible apply State.countTag_keeps
    | with_reducible apply State.tagReport_keeps
    | with_reducible apply State.storeTag_keeps
    | split
    | exact fun _ e => e
    | exact fun _ _ => rfl
    | intro _
    | with_reducible apply Keeps.lit)

theorem State.closeReceiver_keeps {s₀ : State} (s : State) (e : Nat) (job : Job) (round : BitVec 16) (hk : Keeps s₀ s)  :
    Keeps s₀ (State.closeReceiver s e job round) := by
  unfold State.closeReceiver
  try dsimp only
  repeat' (first
    | with_reducible assumption
    | with_reducible apply State.modEngine_keeps
    | with_reducible apply State.tagReport_keeps
    | with_reducible apply State.poisonOwned_keeps
    | with_reducible apply State.each_keeps
    | with_reducible apply State.takeCommit_keeps
    | split
    | exact fun _ e => e
    | exact fun _ _ => rfl
    | intro _
    | with_reducible apply Keeps.lit)

theorem State.modRound_keeps {s₀ : State} (s : State) (e : Nat) (job : Job) (round : BitVec 16) (f : RecvRound → RecvRound) (hk : Keeps s₀ s)  :
    Keeps s₀ (State.modRound s e job round f) := by
  unfold State.modRound
  try dsimp only
  repeat' (first
    | with_reducible assumption
    | with_reducible apply State.modEngine_keeps
    | split
    | exact fun _ e => e
    | exact fun _ _ => rfl
    | intro _
    | with_reducible apply Keeps.lit)

theorem State.packetFails_keeps {s₀ : State} (s : State) (e : Nat) (p : DispatchPacket) (kind : Option Byte) (blocks : List Addr) (hk : Keeps s₀ s)  :
    Keeps s₀ (State.packetFails s e p kind blocks) := by
  unfold State.packetFails
  try dsimp only
  repeat' (first
    | with_reducible assumption
    | with_reducible apply State.mismatch_keeps
    | with_reducible apply State.tagReport_keeps
    | with_reducible apply State.modRound_keeps
    | with_reducible apply State.poisonOwned_keeps
    | split
    | exact fun _ e => e
    | exact fun _ _ => rfl
    | intro _
    | with_reducible apply Keeps.lit)

theorem State.layPacket_keeps {s₀ : State} (s : State) (p : DispatchPacket) (poisoned : List Addr) (laid : List (Nat × Nat × Nat)) (hk : Keeps s₀ s)  :
    Keeps s₀ (State.layPacket s p poisoned laid) := by
  unfold State.layPacket
  try dsimp only
  repeat' (first
    | with_reducible assumption
    | with_reducible apply State.each_keeps
    | with_reducible apply State.ledgerWrite_keeps
    | split
    | exact fun _ e => e
    | exact fun _ _ => rfl
    | intro _
    | with_reducible apply Keeps.lit)

end Sys2Proof.Machine
end

