-- ==== Sys2Proof/Laws/KeepsSteps.lean ====
section
/-! SUPPORT. Every operation of Machine/Steps.lean keeps what `Keeps` names. -/

namespace Sys2Proof.Machine

open Sys2Proof

theorem State.loseSync_keeps {s₀ : State} (s : State) (hk : Keeps s₀ s)  :
    Keeps s₀ (State.loseSync s) := by
  unfold State.loseSync
  try dsimp only
  repeat' (first
    | with_reducible assumption
    | split
    | exact fun _ e => e
    | exact fun _ _ => rfl
    | intro _
    | with_reducible apply Keeps.lit)

theorem State.refuseWord_keeps {s₀ : State} (s : State) (hk : Keeps s₀ s)  :
    Keeps s₀ (State.refuseWord s) := by
  unfold State.refuseWord
  try dsimp only
  repeat' (first
    | with_reducible assumption
    | split
    | exact fun _ e => e
    | exact fun _ _ => rfl
    | intro _
    | with_reducible apply Keeps.lit)

theorem State.clearChoices_keeps {s₀ : State} (s : State) (job : Job) (hk : Keeps s₀ s)  :
    Keeps s₀ (State.clearChoices s job) := by
  unfold State.clearChoices
  try dsimp only
  repeat' (first
    | with_reducible assumption
    | with_reducible apply State.each_keeps
    | with_reducible apply State.modAgent_keeps
    | split
    | exact fun _ e => e
    | exact fun _ _ => rfl
    | intro _
    | with_reducible apply Keeps.lit)

theorem State.slateMismatch_keeps {s₀ : State} (s : State) (n p reason : Nat) (step peerStep : W64) (hk : Keeps s₀ s)  :
    Keeps s₀ (State.slateMismatch s n p reason step peerStep) := by
  unfold State.slateMismatch
  try dsimp only
  repeat' (first
    | with_reducible assumption
    | with_reducible apply State.modJob_keeps
    | with_reducible apply State.mismatch_keeps
    | with_reducible apply State.eachHub_keeps
    | with_reducible apply State.note_keeps
    | split
    | exact fun _ e => e
    | exact fun _ _ => rfl
    | intro _
    | with_reducible apply Keeps.lit)

theorem State.onBeacon_keeps {s₀ : State} (s : State) (n p : Nat) (slate step : W64) (hk : Keeps s₀ s)  :
    Keeps s₀ (State.onBeacon s n p slate step) := by
  unfold State.onBeacon
  try dsimp only
  repeat' (first
    | with_reducible assumption
    | with_reducible apply State.slateMismatch_keeps
    | with_reducible apply State.modJob_keeps
    | with_reducible apply State.modPort_keeps
    | split
    | exact fun _ e => e
    | exact fun _ _ => rfl
    | intro _
    | with_reducible apply Keeps.lit)

theorem State.judgeSlate_keeps {s₀ : State} (s : State) (p : Nat) (slate step : W64) (hk : Keeps s₀ s)  :
    Keeps s₀ (State.judgeSlate s p slate step) := by
  unfold State.judgeSlate
  try dsimp only
  repeat' (first
    | with_reducible assumption
    | with_reducible apply State.each_keeps
    | with_reducible apply State.onBeacon_keeps
    | split
    | exact fun _ e => e
    | exact fun _ _ => rfl
    | intro _
    | with_reducible apply Keeps.lit)

theorem State.pulseUnits_keeps {s₀ : State} (s : State) (job : Job) (step : W64) (hk : Keeps s₀ s)  :
    Keeps s₀ (State.pulseUnits s job step) := by
  unfold State.pulseUnits
  try dsimp only
  repeat' (first
    | with_reducible assumption
    | with_reducible apply State.each_keeps
    | with_reducible apply State.modAgent_keeps
    | with_reducible apply State.modConc_keeps
    | with_reducible apply State.modEnvelopes_keeps
    | split
    | exact fun _ e => e
    | exact fun _ _ => rfl
    | intro _
    | with_reducible apply Keeps.lit)

theorem State.judgeHeld_keeps {s₀ : State} (s : State) (n p : Nat) (hk : Keeps s₀ s)  :
    Keeps s₀ (State.judgeHeld s n p) := by
  unfold State.judgeHeld
  try dsimp only
  repeat' (first
    | with_reducible assumption
    | with_reducible apply State.onBeacon_keeps
    | split
    | exact fun _ e => e
    | exact fun _ _ => rfl
    | intro _
    | with_reducible apply Keeps.lit)

theorem State.launchPulse_keeps {s₀ : State} (s : State) (n : Nat) (count : W64) (mask : BitVec 16) (hk : Keeps s₀ s)  :
    Keeps s₀ (State.launchPulse s n count mask) := by
  unfold State.launchPulse
  try dsimp only
  repeat' (first
    | with_reducible assumption
    | with_reducible apply State.modJob_keeps
    | with_reducible apply State.pulseUnits_keeps
    | with_reducible apply State.present_keeps
    | with_reducible apply State.each_keeps
    | with_reducible apply State.sendBeacon_keeps
    | with_reducible apply State.judgeHeld_keeps
    | with_reducible apply State.dropHeld_keeps
    | split
    | exact fun _ e => e
    | exact fun _ _ => rfl
    | intro _
    | with_reducible apply Keeps.lit)

theorem State.stepElements_keeps {s₀ : State} (s : State) (n : Nat) (o : OpenStep) (hk : Keeps s₀ s)  :
    Keeps s₀ (State.stepElements s n o) := by
  unfold State.stepElements
  try dsimp only
  repeat' (first
    | with_reducible assumption
    | with_reducible apply State.each_keeps
    | with_reducible apply State.modStream_keeps
    | with_reducible apply State.finishSign_keeps
    | split
    | exact fun _ e => e
    | exact fun _ _ => rfl
    | intro _
    | with_reducible apply Keeps.lit)

theorem State.diverge_keeps {s₀ : State} (s : State) (step : W64) (live rec_ : List InlogEntry) (byTcc : Bool) (hk : Keeps s₀ s)  :
    Keeps s₀ (State.diverge s step live rec_ byTcc) := by
  unfold State.diverge
  try dsimp only
  repeat' (first
    | with_reducible assumption
    | with_reducible apply State.modHubs_keeps
    | split
    | exact fun _ e => e
    | exact fun _ _ => rfl
    | intro _
    | with_reducible apply Keeps.lit)

theorem State.replayStep_keeps {s₀ : State} (s : State) (n : Nat) (o : OpenStep) (before after : W64) (hk : Keeps s₀ s)  :
    Keeps s₀ (State.replayStep s n o before after) := by
  unfold State.replayStep
  try dsimp only
  repeat' (first
    | with_reducible assumption
    | with_reducible apply State.diverge_keeps
    | split
    | exact fun _ e => e
    | exact fun _ _ => rfl
    | intro _
    | with_reducible apply Keeps.lit)

theorem State.openGateAct_keeps {s₀ : State} (s : State) (n : Nat) (o : OpenStep) (hk : Keeps s₀ s)  :
    Keeps s₀ (State.openGateAct s n o) := by
  unfold State.openGateAct
  try dsimp only
  repeat' (first
    | with_reducible assumption
    | with_reducible apply State.modJob_keeps
    | with_reducible apply State.stepElements_keeps
    | with_reducible apply State.replayStep_keeps
    | with_reducible apply State.endQuiesce_keeps
    | split
    | exact fun _ e => e
    | exact fun _ _ => rfl
    | intro _
    | with_reducible apply Keeps.lit)

end Sys2Proof.Machine
end

