-- ==== Sys2Proof/Laws/KeepsStages.lean ====
section
/-! SUPPORT. Every operation of Machine/Stages.lean keeps what `Keeps` names. -/

namespace Sys2Proof.Machine

open Sys2Proof

theorem State.beginStage_keeps {s₀ : State} (s : State) (n : Nat) (hk : Keeps s₀ s)  :
    Keeps s₀ (State.beginStage s n) := by
  unfold State.beginStage
  try dsimp only
  repeat' (first
    | with_reducible assumption
    | with_reducible apply State.present_keeps
    | split
    | exact fun _ e => e
    | exact fun _ _ => rfl
    | intro _
    | with_reducible apply Keeps.lit)

theorem State.passStage_keeps {s₀ : State} (s : State) (cause good bad : Nat) (hk : Keeps s₀ s)  :
    Keeps s₀ (State.passStage s cause good bad) := by
  unfold State.passStage
  try dsimp only
  repeat' (first
    | with_reducible assumption
    | with_reducible apply State.beginStage_keeps
    | split
    | exact fun _ e => e
    | exact fun _ _ => rfl
    | intro _
    | with_reducible apply Keeps.lit)

theorem State.endStage_keeps {s₀ : State} (s : State) (r : StageEnd) (hk : Keeps s₀ s) :
    Keeps s₀ (State.endStage s r) := by
  cases r
  · exact State.passStage_keeps s _ _ _ hk
  · exact State.failStage_keeps s _ _ _ _ none hk
  · exact hk


theorem State.runStage_keeps {s₀ : State} (s : State) (n us : Nat) (work : State → State × StageEnd) (hk : Keeps s₀ s) (hw : ∀ t, Keeps s₀ t → Keeps s₀ (work t).1) :
    Keeps s₀ (State.runStage s n us work) := by
  unfold State.runStage
  try dsimp only
  repeat' (first
    | with_reducible assumption
    | with_reducible apply hw
    | with_reducible apply State.advanceTo_keeps
    | with_reducible apply State.breakStage_keeps
    | with_reducible apply State.endStage_keeps
    | split
    | exact fun _ e => e
    | exact fun _ _ => rfl
    | intro _
    | with_reducible apply Keeps.lit)

end Sys2Proof.Machine
end

