-- ==== Sys2Proof/Laws/KeepsBeacons.lean ====
section
/-! SUPPORT. Every operation of Machine/Beacons.lean keeps what `Keeps` names. -/

namespace Sys2Proof.Machine

open Sys2Proof

theorem State.recordPort_keeps {s₀ : State} (s : State) (p result entry : Nat) (hk : Keeps s₀ s)  :
    Keeps s₀ (State.recordPort s p result entry) := by
  unfold State.recordPort
  try dsimp only
  repeat' (first
    | with_reducible assumption
    | with_reducible apply State.eachHub_keeps
    | with_reducible apply State.note_keeps
    | split
    | exact fun _ e => e
    | exact fun _ _ => rfl
    | intro _
    | with_reducible apply Keeps.lit)

theorem State.setResult_keeps {s₀ : State} (s : State) (p result : Nat) (e : Option Rec) (admitted : Bool) (hk : Keeps s₀ s)  :
    Keeps s₀ (State.setResult s p result e admitted) := by
  unfold State.setResult
  try dsimp only
  repeat' (first
    | with_reducible assumption
    | with_reducible apply State.modPort_keeps
    | with_reducible apply State.recordPort_keeps
    | split
    | exact fun _ e => e
    | exact fun _ _ => rfl
    | intro _
    | with_reducible apply Keeps.lit)

theorem State.resolvePort_keeps {s₀ : State} (s : State) (p : Nat) (b : Beacon) (hk : Keeps s₀ s)  :
    Keeps s₀ (State.resolvePort s p b) := by
  unfold State.resolvePort
  try dsimp only
  repeat' (first
    | with_reducible assumption
    | with_reducible apply State.modPort_keeps
    | with_reducible apply State.relax_keeps
    | with_reducible apply State.admitPort_keeps
    | with_reducible apply State.setResult_keeps
    | split
    | exact fun _ e => e
    | exact fun _ _ => rfl
    | intro _
    | with_reducible apply Keeps.lit)

theorem State.admitPort_keeps {s₀ : State} (s : State) (p : Nat) (hk : Keeps s₀ s)  :
    Keeps s₀ (State.admitPort s p) := by
  unfold State.admitPort
  try dsimp only
  repeat' (first
    | with_reducible assumption
    | with_reducible apply State.setResult_keeps
    | split
    | exact fun _ e => e
    | exact fun _ _ => rfl
    | intro _
    | with_reducible apply Keeps.lit)

theorem State.goodBeacon_keeps {s₀ : State} (s : State) (p : Nat) (frame : List Byte) (b : Beacon) (hk : Keeps s₀ s)  :
    Keeps s₀ (State.goodBeacon s p frame b) := by
  unfold State.goodBeacon
  try dsimp only
  repeat' (first
    | with_reducible assumption
    | with_reducible apply State.modPort_keeps
    | with_reducible apply State.resolvePort_keeps
    | with_reducible apply State.judgeSlate_keeps
    | split
    | exact fun _ e => e
    | exact fun _ _ => rfl
    | intro _
    | with_reducible apply Keeps.lit)

theorem State.endDiscovery_keeps {s₀ : State} (s : State) (hk : Keeps s₀ s)  :
    Keeps s₀ (State.endDiscovery s) := by
  unfold State.endDiscovery
  try dsimp only
  repeat' (first
    | with_reducible assumption
    | with_reducible apply State.endStage_keeps
    | split
    | exact fun _ e => e
    | exact fun _ _ => rfl
    | intro _
    | with_reducible apply Keeps.lit)

theorem State.windowEnd_keeps {s₀ : State} (s : State) (hk : Keeps s₀ s)  :
    Keeps s₀ (State.windowEnd s) := by
  unfold State.windowEnd
  try dsimp only
  repeat' (first
    | with_reducible assumption
    | with_reducible apply State.advanceTo_keeps
    | with_reducible apply State.each_keeps
    | with_reducible apply State.setResult_keeps
    | with_reducible apply State.endStage_keeps
    | split
    | exact fun _ e => e
    | exact fun _ _ => rfl
    | intro _
    | with_reducible apply Keeps.lit)

end Sys2Proof.Machine
end

