-- ==== Sys2Proof/Laws/KeepsHousekeeping.lean ====
section
/-! SUPPORT. Every operation of Machine/Housekeeping.lean keeps what `Keeps` names. -/

namespace Sys2Proof.Machine

open Sys2Proof

theorem State.modChan_keeps {s₀ : State} (s : State) (h : HubId) (c : Nat) (f : Channel → Channel) (hk : Keeps s₀ s)  :
    Keeps s₀ (State.modChan s h c f) := by
  unfold State.modChan
  try dsimp only
  repeat' (first
    | with_reducible assumption
    | with_reducible apply State.modHub_keeps
    | split
    | exact fun _ e => e
    | exact fun _ _ => rfl
    | intro _
    | with_reducible apply Keeps.lit)

theorem State.sensorState_keeps {s₀ : State} (s : State) (id : Nat) (st : Nat) (value : Int) (hk : Keeps s₀ s)  :
    Keeps s₀ (State.sensorState s id st value) := by
  unfold State.sensorState
  try dsimp only
  repeat' (first
    | with_reducible assumption
    | with_reducible apply State.mgmtPush_keeps
    | split
    | exact fun _ e => e
    | exact fun _ _ => rfl
    | intro _
    | with_reducible apply Keeps.lit)

theorem State.takeSample_keeps {s₀ : State} (s : State) (h : HubId) (r : Rec) (hk : Keeps s₀ s)  :
    Keeps s₀ (State.takeSample s h r) := by
  unfold State.takeSample
  try dsimp only
  repeat' (first
    | with_reducible assumption
    | with_reducible apply State.modChan_keeps
    | with_reducible apply State.note_keeps
    | split
    | exact fun _ e => e
    | exact fun _ _ => rfl
    | intro _
    | with_reducible apply Keeps.lit)

theorem State.judgeLimits_keeps {s₀ : State} (s : State) (h : HubId) (r : Rec) (hk : Keeps s₀ s)  :
    Keeps s₀ (State.judgeLimits s h r) := by
  unfold State.judgeLimits
  try dsimp only
  repeat' (first
    | with_reducible assumption
    | with_reducible apply State.note_keeps
    | split
    | exact fun _ e => e
    | exact fun _ _ => rfl
    | intro _
    | with_reducible apply Keeps.lit)

theorem State.modThermal_keeps {s₀ : State} (s : State) (h : HubId) (d : Nat) (f : DieThermal → DieThermal) (hk : Keeps s₀ s)  :
    Keeps s₀ (State.modThermal s h d f) := by
  unfold State.modThermal
  try dsimp only
  repeat' (first
    | with_reducible assumption
    | with_reducible apply State.modHub_keeps
    | split
    | exact fun _ e => e
    | exact fun _ _ => rfl
    | intro _
    | with_reducible apply Keeps.lit)

theorem State.setReq_keeps {s₀ : State} (s : State) (h : HubId) (d r : Nat) (hk : Keeps s₀ s)  :
    Keeps s₀ (State.setReq s h d r) := by
  unfold State.setReq
  try dsimp only
  repeat' (first
    | with_reducible assumption
    | with_reducible apply State.modThermal_keeps
    | with_reducible apply State.modHub_keeps
    | split
    | exact fun _ e => e
    | exact fun _ _ => rfl
    | intro _
    | with_reducible apply Keeps.lit)

theorem State.curbTo_keeps {s₀ : State} (s : State) (h : HubId) (d level : Nat) (hk : Keeps s₀ s)  :
    Keeps s₀ (State.curbTo s h d level) := by
  unfold State.curbTo
  try dsimp only
  repeat' (first
    | with_reducible assumption
    | with_reducible apply State.setCurb_keeps
    | split
    | exact fun _ e => e
    | exact fun _ _ => rfl
    | intro _
    | with_reducible apply Keeps.lit)

theorem State.proposeRelease_keeps {s₀ : State} (s : State) (h : HubId) (d : Nat) (hk : Keeps s₀ s)  :
    Keeps s₀ (State.proposeRelease s h d) := by
  unfold State.proposeRelease
  try dsimp only
  repeat' (first
    | with_reducible assumption
    | with_reducible apply State.relax_keeps
    | with_reducible apply State.curbTo_keeps
    | split
    | exact fun _ e => e
    | exact fun _ _ => rfl
    | intro _
    | with_reducible apply Keeps.lit)

theorem State.takeRelease_keeps {s₀ : State} (s : State) (d : Nat) (hk : Keeps s₀ s)  :
    Keeps s₀ (State.takeRelease s d) := by
  unfold State.takeRelease
  try dsimp only
  repeat' (first
    | with_reducible assumption
    | with_reducible apply State.eachHub_keeps
    | with_reducible apply State.curbTo_keeps
    | split
    | exact fun _ e => e
    | exact fun _ _ => rfl
    | intro _
    | with_reducible apply Keeps.lit)

theorem State.releaseAgain_keeps {s₀ : State} (s : State) (h : HubId) (d : Nat) (hk : Keeps s₀ s)  :
    Keeps s₀ (State.releaseAgain s h d) := by
  unfold State.releaseAgain
  try dsimp only
  repeat' (first
    | with_reducible assumption
    | with_reducible apply State.proposeRelease_keeps
    | split
    | exact fun _ e => e
    | exact fun _ _ => rfl
    | intro _
    | with_reducible apply Keeps.lit)

theorem State.enterAsk_keeps {s₀ : State} (s : State) (h : HubId) (d : Nat) (x : Int) (hk : Keeps s₀ s)  :
    Keeps s₀ (State.enterAsk s h d x) := by
  unfold State.enterAsk
  try dsimp only
  repeat' (first
    | with_reducible assumption
    | with_reducible apply State.modThermal_keeps
    | with_reducible apply State.note_keeps
    | split
    | exact fun _ e => e
    | exact fun _ _ => rfl
    | intro _
    | with_reducible apply Keeps.lit)

theorem State.roundStep_keeps {s₀ : State} (s : State) (h : HubId) (d : Nat) (x : Int) (hk : Keeps s₀ s)  :
    Keeps s₀ (State.roundStep s h d x) := by
  unfold State.roundStep
  try dsimp only
  repeat' (first
    | with_reducible assumption
    | with_reducible apply State.enterAsk_keeps
    | with_reducible apply State.hubMsg_keeps
    | refine State.hubMsg_keepsOf (by assumption) ?_
    | with_reducible apply State.hubEntry_keeps
    | with_reducible apply State.setReq_keeps
    | with_reducible apply State.curbTo_keeps
    | with_reducible apply State.modThermal_keeps
    | with_reducible apply State.releaseAgain_keeps
    | with_reducible apply State.proposeRelease_keeps
    | split
    | exact fun _ e => e
    | exact fun _ _ => rfl
    | intro _
    | with_reducible apply Keeps.lit)

theorem State.failsafe_keeps {s₀ : State} (s : State) (h : HubId) (d : Nat) (hk : Keeps s₀ s)  :
    Keeps s₀ (State.failsafe s h d) := by
  unfold State.failsafe
  try dsimp only
  repeat' (first
    | with_reducible assumption
    | with_reducible apply State.setCurb_keeps
    | with_reducible apply State.modThermal_keeps
    | split
    | exact fun _ e => e
    | exact fun _ _ => rfl
    | intro _
    | with_reducible apply Keeps.lit)

theorem State.moveCurb_keeps {s₀ : State} (s : State) (h : HubId) (d : Nat) (hk : Keeps s₀ s)  :
    Keeps s₀ (State.moveCurb s h d) := by
  unfold State.moveCurb
  try dsimp only
  repeat' (first
    | with_reducible assumption
    | with_reducible apply State.curbTo_keeps
    | split
    | exact fun _ e => e
    | exact fun _ _ => rfl
    | intro _
    | with_reducible apply Keeps.lit)

theorem State.thermalEvent_keeps {s₀ : State} (s : State) (h : HubId) (d : Nat) (hk : Keeps s₀ s)  :
    Keeps s₀ (State.thermalEvent s h d) := by
  unfold State.thermalEvent
  try dsimp only
  repeat' (first
    | with_reducible assumption
    | with_reducible apply State.sensorState_keeps
    | split
    | exact fun _ e => e
    | exact fun _ _ => rfl
    | intro _
    | with_reducible apply Keeps.lit)

theorem State.thermalStep_keeps {s₀ : State} (s : State) (h : HubId) (d : Nat) (hk : Keeps s₀ s)  :
    Keeps s₀ (State.thermalStep s h d) := by
  unfold State.thermalStep
  try dsimp only
  repeat' (first
    | with_reducible assumption
    | with_reducible apply State.moveCurb_keeps
    | with_reducible apply State.failsafe_keeps
    | with_reducible apply State.roundStep_keeps
    | with_reducible apply State.thermalEvent_keeps
    | split
    | exact fun _ e => e
    | exact fun _ _ => rfl
    | intro _
    | with_reducible apply Keeps.lit)

theorem State.broadcast_keeps {s₀ : State} (s : State) (h : HubId) (d : Nat) (hk : Keeps s₀ s)  :
    Keeps s₀ (State.broadcast s h d) := by
  unfold State.broadcast
  try dsimp only
  repeat' (first
    | with_reducible assumption
    | with_reducible apply State.modThermal_keeps
    | split
    | exact fun _ e => e
    | exact fun _ _ => rfl
    | intro _
    | with_reducible apply Keeps.lit)

theorem State.setTrim_keeps {s₀ : State} (s : State) (h : HubId) (hk : Keeps s₀ s)  :
    Keeps s₀ (State.setTrim s h) := by
  unfold State.setTrim
  try dsimp only
  repeat' (first
    | with_reducible assumption
    | with_reducible apply State.modHub_keeps
    | split
    | exact fun _ e => e
    | exact fun _ _ => rfl
    | intro _
    | with_reducible apply Keeps.lit)

theorem State.hkRound_keeps {s₀ : State} (s : State) (h : HubId) (hk : Keeps s₀ s)  :
    Keeps s₀ (State.hkRound s h) := by
  unfold State.hkRound
  try dsimp only
  repeat' (first
    | with_reducible assumption
    | with_reducible apply State.each_keeps
    | with_reducible apply State.takeSample_keeps
    | with_reducible apply State.broadcast_keeps
    | with_reducible apply State.setTrim_keeps
    | with_reducible apply State.judgeLimits_keeps
    | with_reducible apply State.thermalEvent_keeps
    | with_reducible apply State.thermalStep_keeps
    | with_reducible apply State.periodEntry_keeps
    | with_reducible apply State.modHub_keeps
    | split
    | exact fun _ e => e
    | exact fun _ _ => rfl
    | intro _
    | with_reducible apply Keeps.lit)

theorem State.settleBand_keeps {s₀ : State} (s : State) (hk : Keeps s₀ s)  :
    Keeps s₀ (State.settleBand s) := by
  unfold State.settleBand
  try dsimp only
  repeat' (first
    | with_reducible assumption
    | split
    | exact fun _ e => e
    | exact fun _ _ => rfl
    | intro _
    | with_reducible apply Keeps.lit)

theorem State.busStep_keeps {s₀ : State} (s : State) (h : HubId) (c : Nat) (hk : Keeps s₀ s)  :
    Keeps s₀ (State.busStep s h c) := by
  unfold State.busStep
  try dsimp only
  repeat' (first
    | with_reducible assumption
    | with_reducible apply State.modChan_keeps
    | with_reducible apply State.note_keeps
    | with_reducible apply State.snapshot_keeps
    | split
    | exact fun _ e => e
    | exact fun _ _ => rfl
    | intro _
    | with_reducible apply Keeps.lit)

theorem State.busSensor_keeps {s₀ : State} (s : State) (c : Nat) (hk : Keeps s₀ s)  :
    Keeps s₀ (State.busSensor s c) := by
  unfold State.busSensor
  try dsimp only
  repeat' (first
    | with_reducible assumption
    | with_reducible apply State.sensorState_keeps
    | split
    | exact fun _ e => e
    | exact fun _ _ => rfl
    | intro _
    | with_reducible apply Keeps.lit)

theorem State.takeMargin_keeps {s₀ : State} (s : State) (c a count : Nat) (hk : Keeps s₀ s)  :
    Keeps s₀ (State.takeMargin s c a count) := by
  unfold State.takeMargin
  try dsimp only
  repeat' (first
    | with_reducible assumption
    | with_reducible apply State.modAgent_keeps
    | with_reducible apply State.emit_keeps
    | split
    | exact fun _ e => e
    | exact fun _ _ => rfl
    | intro _
    | with_reducible apply Keeps.lit)

theorem State.takeMargins_keeps {s₀ : State} (s : State) (cluster : Nat) (counts : List (Nat × Nat)) (hk : Keeps s₀ s)  :
    Keeps s₀ (State.takeMargins s cluster counts) := by
  unfold State.takeMargins
  try dsimp only
  repeat' (first
    | with_reducible assumption
    | with_reducible apply State.each_keeps
    | with_reducible apply State.takeMargin_keeps
    | with_reducible apply State.sensorState_keeps
    | split
    | exact fun _ e => e
    | exact fun _ _ => rfl
    | intro _
    | with_reducible apply Keeps.lit)

end Sys2Proof.Machine
end

