-- ==== Sys2Proof/Laws/KeepsLinks.lean ====
section
/-! SUPPORT. Every operation of Machine/Links.lean keeps what `Keeps` names. -/

namespace Sys2Proof.Machine

open Sys2Proof

theorem State.moveQueue_keeps {s₀ : State} (s : State) (i : Nat) (hk : Keeps s₀ s)  :
    Keeps s₀ (State.moveQueue s i) := by
  unfold State.moveQueue
  try dsimp only
  repeat' (first
    | with_reducible assumption
    | with_reducible apply State.each_keeps
    | with_reducible apply State.modLink_keeps
    | split
    | exact fun _ e => e
    | exact fun _ _ => rfl
    | intro _
    | with_reducible apply Keeps.lit)

theorem State.startRetrain_keeps {s₀ : State} (s : State) (i : Nat) (hk : Keeps s₀ s)  :
    Keeps s₀ (State.startRetrain s i) := by
  unfold State.startRetrain
  try dsimp only
  repeat' (first
    | with_reducible assumption
    | with_reducible apply State.modLink_keeps
    | with_reducible apply State.moveQueue_keeps
    | split
    | exact fun _ e => e
    | exact fun _ _ => rfl
    | intro _
    | with_reducible apply Keeps.lit)

theorem State.reportTrained_keeps {s₀ : State} (s : State) (i old new : Nat) (hk : Keeps s₀ s)  :
    Keeps s₀ (State.reportTrained s i old new) := by
  unfold State.reportTrained
  try dsimp only
  repeat' (first
    | with_reducible assumption
    | with_reducible apply State.emit_keeps
    | split
    | exact fun _ e => e
    | exact fun _ _ => rfl
    | intro _
    | with_reducible apply Keeps.lit)

end Sys2Proof.Machine
end

