-- ==== Sys2Proof/Laws/KeepsRegMap.lean ====
section
/-! SUPPORT. Every operation of Machine/RegMap.lean keeps what `Keeps` names. -/

namespace Sys2Proof.Machine

open Sys2Proof

theorem State.latchWord_keeps {s₀ : State} (s : State) (a : Nat) (hk : Keeps s₀ s)  :
    Keeps s₀ (State.latchWord s a) := by
  unfold State.latchWord
  try dsimp only
  repeat' (first
    | with_reducible assumption
    | split
    | exact fun _ e => e
    | exact fun _ _ => rfl
    | intro _
    | with_reducible apply Keeps.lit)

end Sys2Proof.Machine
end

