-- ==== Sys2Proof/Laws/KeepsRegisters.lean ====
section
/-! SUPPORT. Every operation of Machine/Registers.lean keeps what `Keeps` names. -/

namespace Sys2Proof.Machine

open Sys2Proof

theorem State.atServing_keeps {s₀ : State} (s : State) (f : HubId → State → State) (hk : Keeps s₀ s) (hf : ∀ h t, Keeps s₀ t → Keeps s₀ (f h t)) :
    Keeps s₀ (State.atServing s f) := by
  unfold State.atServing
  try dsimp only
  repeat' (first
    | with_reducible assumption
    | with_reducible apply hf
    | with_reducible apply State.eachHub_keeps
    | split
    | exact fun _ e => e
    | exact fun _ _ => rfl
    | intro _
    | with_reducible apply Keeps.lit)

theorem State.regWriteServing_keeps {s₀ : State} (s : State) (a : Nat) (data : W32) (f : Hub → Hub) (hk : Keeps s₀ s) (hf : ∀ k, k.s4 = true → (f k).s4 = true) :
    Keeps s₀ (State.regWriteServing s a data f) := by
  unfold State.regWriteServing
  try dsimp only
  repeat' (first
    | with_reducible assumption
    | with_reducible apply State.atServing_keeps
    | with_reducible apply State.modHub_keeps
    | with_reducible apply State.mirrorWrite_keeps
    | split
    | exact fun _ e => e
    | exact fun _ _ => rfl
    | intro _
    | with_reducible apply Keeps.lit)

theorem State.releaseJob_keeps {s₀ : State} (s : State) (job : Job) (hk : Keeps s₀ s)  :
    Keeps s₀ (State.releaseJob s job) := by
  unfold State.releaseJob
  try dsimp only
  repeat' (first
    | with_reducible assumption
    | with_reducible apply State.each_keeps
    | with_reducible apply State.abortAgent_keeps
    | with_reducible apply State.abortConc_keeps
    | with_reducible apply State.poisonOrdered_keeps
    | with_reducible apply State.modEnvelopes_keeps
    | with_reducible apply State.clearExcursions_keeps
    | with_reducible apply State.modHubs_keeps
    | with_reducible apply State.modJob_keeps
    | split
    | exact fun _ e => e
    | exact fun _ _ => rfl
    | intro _
    | with_reducible apply Keeps.lit)

theorem State.forceAt_keeps {s₀ : State} (s : State) (h : HubId) (emitUnit : Bool) (p : Nat) (hk : Keeps s₀ s)  :
    Keeps s₀ (State.forceAt s h emitUnit p) := by
  unfold State.forceAt
  try dsimp only
  repeat' (first
    | with_reducible assumption
    | with_reducible apply State.modHub_keeps
    | with_reducible apply State.emit_keeps
    | split
    | exact fun _ e => e
    | exact fun _ _ => rfl
    | intro _
    | with_reducible apply Keeps.lit)

theorem State.forceWord_keeps {s₀ : State} (s : State) (h : HubId) (emitUnit : Bool) (w : Nat) (data : W32) (hk : Keeps s₀ s)  :
    Keeps s₀ (State.forceWord s h emitUnit w data) := by
  unfold State.forceWord
  try dsimp only
  repeat' (first
    | with_reducible assumption
    | with_reducible apply State.each_keeps
    | with_reducible apply State.forceAt_keeps
    | with_reducible apply State.modHub_keeps
    | split
    | exact fun _ e => e
    | exact fun _ _ => rfl
    | intro _
    | with_reducible apply Keeps.lit)

theorem State.applyWrite_keeps {s₀ : State} (s : State) (h : HubId) (a : Nat) (data : W32) (hk : Keeps s₀ s)  :
    Keeps s₀ (State.applyWrite s h a data) := by
  unfold State.applyWrite
  try dsimp only
  repeat' (first
    | with_reducible assumption
    | with_reducible apply State.modHub_keeps
    | with_reducible apply State.forceWord_keeps
    | split
    | exact fun _ e => e
    | exact fun _ _ => rfl
    | intro _
    | with_reducible apply Keeps.lit)

end Sys2Proof.Machine
end

