-- ==== Sys2Proof/Laws/KeepsIndirect.lean ====
section
/-! SUPPORT. Every operation of Machine/Indirect.lean keeps what `Keeps` names. -/

namespace Sys2Proof.Machine

open Sys2Proof

theorem State.clearUnit_keeps {s₀ : State} (s : State) (u : IndUnit) (hk : Keeps s₀ s)  :
    Keeps s₀ (State.clearUnit s u) := by
  unfold State.clearUnit
  try dsimp only
  repeat' (first
    | with_reducible assumption
    | with_reducible apply State.modAgent_keeps
    | with_reducible apply State.modConc_keeps
    | with_reducible apply State.each_keeps
    | with_reducible apply State.modEngine_keeps
    | with_reducible apply State.modLink_keeps
    | split
    | exact fun _ e => e
    | exact fun _ _ => rfl
    | intro _
    | with_reducible apply Keeps.lit)

theorem State.indAdvance_keeps {s₀ : State} (s : State) (hk : Keeps s₀ s)  :
    Keeps s₀ (State.indAdvance s) := by
  unfold State.indAdvance
  try dsimp only
  repeat' (first
    | with_reducible assumption
    | with_reducible apply State.modHubs_keeps
    | split
    | exact fun _ e => e
    | exact fun _ _ => rfl
    | intro _
    | with_reducible apply Keeps.lit)

theorem State.indPost_keeps {s₀ : State} (s : State) (w : W32) (hk : Keeps s₀ s)  :
    Keeps s₀ (State.indPost s w) := by
  unfold State.indPost
  try dsimp only
  repeat' (first
    | with_reducible assumption
    | with_reducible apply State.clearUnit_keeps
    | split
    | exact fun _ e => e
    | exact fun _ _ => rfl
    | intro _
    | with_reducible apply Keeps.lit)

theorem State.indSettle_keeps {s₀ : State} (s : State) (hk : Keeps s₀ s)  :
    Keeps s₀ (State.indSettle s) := by
  unfold State.indSettle
  try dsimp only
  repeat' (first
    | with_reducible assumption
    | with_reducible apply State.indPost_keeps
    | with_reducible apply State.indAdvance_keeps
    | split
    | exact fun _ e => e
    | exact fun _ _ => rfl
    | intro _
    | with_reducible apply Keeps.lit)

theorem State.indFetched_keeps {s₀ : State} (s : State) (hk : Keeps s₀ s)  :
    Keeps s₀ (State.indFetched s) := by
  unfold State.indFetched
  try dsimp only
  repeat' (first
    | with_reducible assumption
    | split
    | exact fun _ e => e
    | exact fun _ _ => rfl
    | intro _
    | with_reducible apply Keeps.lit)

theorem State.indComplete_keeps {s₀ : State} (s : State) (hk : Keeps s₀ s)  :
    Keeps s₀ (State.indComplete s) := by
  unfold State.indComplete
  try dsimp only
  repeat' (first
    | with_reducible assumption
    | with_reducible apply State.indSettle_keeps
    | with_reducible apply State.indFetched_keeps
    | split
    | exact fun _ e => e
    | exact fun _ _ => rfl
    | intro _
    | with_reducible apply Keeps.lit)

theorem State.indFetch_keeps {s₀ : State} (s : State) (hk : Keeps s₀ s)  :
    Keeps s₀ (State.indFetch s) := by
  unfold State.indFetch
  try dsimp only
  repeat' (first
    | with_reducible assumption
    | split
    | exact fun _ e => e
    | exact fun _ _ => rfl
    | intro _
    | with_reducible apply Keeps.lit)

end Sys2Proof.Machine
end

