-- ==== Sys2Proof/Laws/KeepsTwin.lean ====
section
/-! SUPPORT. Every operation of Machine/Twin.lean keeps what `Keeps` names. -/

namespace Sys2Proof.Machine

open Sys2Proof

theorem State.sendFrame_keeps {s₀ : State} (s : State) (w : HubId) (t : FrameType) (content : List Nat) (hk : Keeps s₀ s)  :
    Keeps s₀ (State.sendFrame s w t content) := by
  unfold State.sendFrame
  try dsimp only
  repeat' (first
    | with_reducible assumption
    | with_reducible apply State.modX_keeps
    | with_reducible apply State.present_keeps
    | split
    | exact fun _ e => e
    | exact fun _ _ => rfl
    | intro _
    | with_reducible apply Keeps.lit)

theorem State.pump_keeps {s₀ : State} (s : State) (w : HubId) (hk : Keeps s₀ s)  :
    Keeps s₀ (State.pump s w) := by
  unfold State.pump
  try dsimp only
  repeat' (first
    | with_reducible assumption
    | with_reducible apply State.modX_keeps
    | with_reducible apply State.sendFrame_keeps
    | with_reducible apply State.each_keeps
    | split
    | exact fun _ e => e
    | exact fun _ _ => rfl
    | intro _
    | with_reducible apply Keeps.lit)

theorem State.queueFrame_keeps {s₀ : State} (s : State) (w : HubId) (t : FrameType) (content : List Nat) (hk : Keeps s₀ s)  :
    Keeps s₀ (State.queueFrame s w t content) := by
  unfold State.queueFrame
  try dsimp only
  repeat' (first
    | with_reducible assumption
    | with_reducible apply State.modX_keeps
    | with_reducible apply State.pump_keeps
    | split
    | exact fun _ e => e
    | exact fun _ _ => rfl
    | intro _
    | with_reducible apply Keeps.lit)

theorem State.reportTest_keeps {s₀ : State} (s : State) (w : HubId) (pass : Bool) (hk : Keeps s₀ s)  :
    Keeps s₀ (State.reportTest s w pass) := by
  unfold State.reportTest
  try dsimp only
  repeat' (first
    | with_reducible assumption
    | with_reducible apply State.queueFrame_keeps
    | split
    | exact fun _ e => e
    | exact fun _ _ => rfl
    | intro _
    | with_reducible apply Keeps.lit)

theorem State.showCmd_keeps {s₀ : State} (s : State) (hk : Keeps s₀ s)  :
    Keeps s₀ (State.showCmd s) := by
  unfold State.showCmd
  try dsimp only
  repeat' (first
    | with_reducible assumption
    | split
    | exact fun _ e => e
    | exact fun _ _ => rfl
    | intro _
    | with_reducible apply Keeps.lit)

theorem State.sendDigest_keeps {s₀ : State} (s : State) (w : HubId) (value : W64) (hk : Keeps s₀ s)  :
    Keeps s₀ (State.sendDigest s w value) := by
  unfold State.sendDigest
  try dsimp only
  repeat' (first
    | with_reducible assumption
    | with_reducible apply State.modX_keeps
    | with_reducible apply State.pump_keeps
    | split
    | exact fun _ e => e
    | exact fun _ _ => rfl
    | intro _
    | with_reducible apply Keeps.lit)

theorem State.mergeFault_keeps {s₀ : State} (s : State) (h : HubId) (p : Nat) (hk : Keeps s₀ s)  :
    Keeps s₀ (State.mergeFault s h p) := by
  unfold State.mergeFault
  try dsimp only
  repeat' (first
    | with_reducible assumption
    | with_reducible apply State.modHub_keeps
    | with_reducible apply State.orderFences_keeps
    | with_reducible apply State.removePad_keeps
    | with_reducible apply State.syncState_keeps
    | split
    | exact fun _ e => e
    | exact fun _ _ => rfl
    | intro _
    | with_reducible apply Keeps.lit)

theorem State.mergeLame_keeps {s₀ : State} (s : State) (h : HubId) (p : Nat) (recovery : Nat) (hk : Keeps s₀ s)  :
    Keeps s₀ (State.mergeLame s h p recovery) := by
  unfold State.mergeLame
  try dsimp only
  repeat' (first
    | with_reducible assumption
    | with_reducible apply State.modHub_keeps
    | with_reducible apply State.orderFences_keeps
    | with_reducible apply State.removePad_keeps
    | with_reducible apply State.lameEvent_keeps
    | with_reducible apply State.syncState_keeps
    | split
    | exact fun _ e => e
    | exact fun _ _ => rfl
    | intro _
    | with_reducible apply Keeps.lit)

theorem State.mergePad_keeps {s₀ : State} (s : State) (h : HubId) (e : PadEntry) (hk : Keeps s₀ s)  :
    Keeps s₀ (State.mergePad s h e) := by
  unfold State.mergePad
  try dsimp only
  repeat' (first
    | with_reducible assumption
    | with_reducible apply State.modHub_keeps
    | with_reducible apply State.syncPaddock_keeps
    | split
    | exact fun _ e => e
    | exact fun _ _ => rfl
    | intro _
    | with_reducible apply Keeps.lit)

theorem State.mergeSection_keeps {s₀ : State} (s : State) (h : HubId) (c : DigestSection) (hk : Keeps s₀ s)  :
    Keeps s₀ (State.mergeSection s h c) := by
  unfold State.mergeSection
  try dsimp only
  repeat' (first
    | with_reducible assumption
    | with_reducible apply State.chipStop_keeps
    | with_reducible apply State.setSt_keeps
    | with_reducible apply State.each_keeps
    | with_reducible apply State.mergeFault_keeps
    | with_reducible apply State.mergeLame_keeps
    | with_reducible apply State.orderFences_keeps
    | with_reducible apply State.mergePad_keeps
    | with_reducible apply State.modHub_keeps
    | with_reducible apply State.setCurb_keeps
    | split
    | exact fun _ e => e
    | exact fun _ _ => rfl
    | intro _
    | with_reducible apply Keeps.lit)

theorem State.takeRecovery_keeps {s₀ : State} (s : State) (h : HubId) (p recovery : Nat) (m : Msg) (hk : Keeps s₀ s)  :
    Keeps s₀ (State.takeRecovery s h p recovery m) := by
  unfold State.takeRecovery
  try dsimp only
  repeat' (first
    | with_reducible assumption
    | with_reducible apply State.modHub_keeps
    | with_reducible apply State.endFences_keeps
    | with_reducible apply State.place_keeps
    | with_reducible apply State.syncState_keeps
    | split
    | exact fun _ e => e
    | exact fun _ _ => rfl
    | intro _
    | with_reducible apply Keeps.lit)

theorem State.mirrorRecovery_keeps {s₀ : State} (s : State) (h : HubId) (p : Nat) (m : Msg) (hk : Keeps s₀ s)  :
    Keeps s₀ (State.mirrorRecovery s h p m) := by
  unfold State.mirrorRecovery
  try dsimp only
  repeat' (first
    | with_reducible assumption
    | with_reducible apply State.takeRecovery_keeps
    | split
    | exact fun _ e => e
    | exact fun _ _ => rfl
    | intro _
    | with_reducible apply Keeps.lit)

theorem State.applyMirror_keeps {s₀ : State} (s : State) (h : HubId) (m : Msg) (hk : Keeps s₀ s)  :
    Keeps s₀ (State.applyMirror s h m) := by
  unfold State.applyMirror
  try dsimp only
  repeat' (first
    | with_reducible assumption
    | with_reducible apply State.record_keeps
    | with_reducible apply State.mirrorRecovery_keeps
    | with_reducible apply State.mergeLame_keeps
    | with_reducible apply State.reconcileTake_keeps
    | with_reducible apply State.chipStop_keeps
    | with_reducible apply State.enterFault_keeps
    | with_reducible apply State.modHub_keeps
    | split
    | exact fun _ e => e
    | exact fun _ _ => rfl
    | intro _
    | with_reducible apply Keeps.lit)

theorem State.claim_keeps {s₀ : State} (s : State) (h : HubId) (hk : Keeps s₀ s)  :
    Keeps s₀ (State.claim s h) := by
  unfold State.claim
  try dsimp only
  repeat' (first
    | with_reducible assumption
    | split
    | exact fun _ e => e
    | exact fun _ _ => rfl
    | intro _
    | with_reducible apply Keeps.lit)

theorem State.rerunStage_keeps {s₀ : State} (s : State) (hk : Keeps s₀ s)  :
    Keeps s₀ (State.rerunStage s) := by
  unfold State.rerunStage
  try dsimp only
  repeat' (first
    | with_reducible assumption
    | split
    | exact fun _ e => e
    | exact fun _ _ => rfl
    | intro _
    | with_reducible apply Keeps.lit)

end Sys2Proof.Machine
end

