-- ==== Sys2Proof/Laws/KeepsBringUp.lean ====
section
/-! SUPPORT. Every operation of Machine/BringUp.lean keeps what `Keeps` names. -/

namespace Sys2Proof.Machine

open Sys2Proof

theorem State.lameEach_keeps {s₀ : State} (s : State) (l : List Nat) (hk : Keeps s₀ s)  :
    Keeps s₀ (State.lameEach s l) := by
  unfold State.lameEach
  try dsimp only
  repeat' (first
    | with_reducible assumption
    | with_reducible apply State.each_keeps
    | with_reducible apply State.eachHub_keeps
    | with_reducible apply State.lameAll_keeps
    | split
    | exact fun _ e => e
    | exact fun _ _ => rfl
    | intro _
    | with_reducible apply Keeps.lit)

theorem State.oddReport_keeps {s₀ : State} (s : State) (x : Nat × Nat × Nat) (hk : Keeps s₀ s)  :
    Keeps s₀ (State.oddReport s x) := by
  unfold State.oddReport
  try dsimp only
  repeat' (first
    | with_reducible assumption
    | with_reducible apply State.modAgent_keeps
    | split
    | exact fun _ e => e
    | exact fun _ _ => rfl
    | intro _
    | with_reducible apply Keeps.lit)

theorem State.refuseItem_keeps {s₀ : State} (s : State) (hk : Keeps s₀ s)  :
    Keeps s₀ (State.refuseItem s) := by
  unfold State.refuseItem
  try dsimp only
  repeat' (first
    | with_reducible assumption
    | with_reducible apply State.failStage_keeps
    | split
    | exact fun _ e => e
    | exact fun _ _ => rfl
    | intro _
    | with_reducible apply Keeps.lit)

theorem State.place2_keeps {s₀ : State} (s : State) (leader : HubId) (both : Bool) (mode : Nat) (hk : Keeps s₀ s)  :
    Keeps s₀ (State.place2 s leader both mode) := by
  unfold State.place2
  try dsimp only
  repeat' (first
    | with_reducible assumption
    | with_reducible apply State.setMode_keeps
    | split
    | exact fun _ e => e
    | exact fun _ _ => rfl
    | intro _
    | with_reducible apply Keeps.lit)

theorem State.selfTestFault_keeps {s₀ : State} (s : State) (h other : HubId) (hk : Keeps s₀ s)  :
    Keeps s₀ (State.selfTestFault s h other) := by
  unfold State.selfTestFault
  try dsimp only
  repeat' (first
    | with_reducible assumption
    | with_reducible apply State.modHub_keeps
    | split
    | exact fun _ e => e
    | exact fun _ _ => rfl
    | intro _
    | with_reducible apply Keeps.lit)

theorem State.trainDie_keeps {s₀ : State} (s : State) (i : Nat) (ok : Bool) (hk : Keeps s₀ s)  :
    Keeps s₀ (State.trainDie s i ok) := by
  unfold State.trainDie
  try dsimp only
  repeat' (first
    | with_reducible assumption
    | with_reducible apply State.modLink_keeps
    | with_reducible apply State.each_keeps
    | with_reducible apply State.eachHub_keeps
    | with_reducible apply State.note_keeps
    | with_reducible apply State.finding_keeps
    | with_reducible apply State.lameAll_keeps
    | split
    | exact fun _ e => e
    | exact fun _ _ => rfl
    | intro _
    | with_reducible apply Keeps.lit)

theorem State.recordCheck_keeps {s₀ : State} (s : State) (h : HubId) (accepted hot : Bool) (r : HarnessResult) (hk : Keeps s₀ s)  :
    Keeps s₀ (State.recordCheck s h accepted hot r) := by
  unfold State.recordCheck
  try dsimp only
  repeat' (first
    | with_reducible assumption
    | with_reducible apply State.modHub_keeps
    | split
    | exact fun _ e => e
    | exact fun _ _ => rfl
    | intro _
    | with_reducible apply Keeps.lit)

theorem State.wakeMgmt_keeps {s₀ : State} (s : State) (hk : Keeps s₀ s)  :
    Keeps s₀ (State.wakeMgmt s) := by
  unfold State.wakeMgmt
  try dsimp only
  repeat' (first
    | with_reducible assumption
    | with_reducible apply State.present_keeps
    | split
    | exact fun _ e => e
    | exact fun _ _ => rfl
    | intro _
    | with_reducible apply Keeps.lit)

theorem State.acceptHarness_keeps {s₀ : State} (s : State) (r : HarnessResult) (hk : Keeps s₀ s)  :
    Keeps s₀ (State.acceptHarness s r) := by
  unfold State.acceptHarness
  try dsimp only
  repeat' (first
    | with_reducible assumption
    | with_reducible apply State.modHubs_keeps
    | with_reducible apply State.each_keeps
    | with_reducible apply State.modConc_keeps
    | with_reducible apply State.eachHub_keeps
    | with_reducible apply State.orderFences_keeps
    | with_reducible apply State.wakeMgmt_keeps
    | split
    | exact fun _ e => e
    | exact fun _ _ => rfl
    | intro _
    | with_reducible apply Keeps.lit)

theorem State.sendPacket_keeps {s₀ : State} (s : State) (len i : Nat) (dest : Option Nat) (hk : Keeps s₀ s)  :
    Keeps s₀ (State.sendPacket s len i dest) := by
  unfold State.sendPacket
  try dsimp only
  repeat' (first
    | with_reducible assumption
    | with_reducible apply State.present_keeps
    | split
    | exact fun _ e => e
    | exact fun _ _ => rfl
    | intro _
    | with_reducible apply Keeps.lit)

theorem Hub.takeRecovery_s4 (k : Hub) (rel : List Nat) (l : List (Nat × Nat)) : (k.takeRecovery rel l).s4 = k.s4 := by
  unfold Hub.takeRecovery
  induction l generalizing k with
  | nil => rfl
  | cons x l ih =>
    rw [List.foldl_cons, ih]
    split <;> rfl

/-- As a side goal of `modHub`. -/
theorem Hub.takeRecovery_stays (k : Hub) (rel : List Nat) (l : List (Nat × Nat)) (e : k.s4 = true) :
    (k.takeRecovery rel l).s4 = true := by
  rw [Hub.takeRecovery_s4]
  exact e

theorem State.applyPersist_keeps {s₀ : State} (s : State) (p : Persist) (hk : Keeps s₀ s)  :
    Keeps s₀ (State.applyPersist s p).1 := by
  unfold State.applyPersist
  try dsimp only
  repeat' (first
    | with_reducible assumption
    | with_reducible apply State.eachHub_keeps
    | with_reducible apply State.modHub_keeps
    | with_reducible apply State.takeRecovery_keeps
    | with_reducible apply State.lameEach_keeps
    | with_reducible apply State.each_keeps
    | with_reducible apply State.syncPaddock_keeps
    | split
    | (intro k e; first | exact e | exact Hub.takeRecovery_stays k _ _ e)
    | exact fun _ _ => rfl
    | intro _
    | with_reducible apply Keeps.lit)

theorem State.applyPersist_keepsOf {s₀ : State} {s : State} (p : Persist) {t : State} {rest}
    (heq : State.applyPersist s p = (t, rest)) (hk : Keeps s₀ s) : Keeps s₀ t := by
  have key := State.applyPersist_keeps s p hk
  rw [heq] at key
  exact key

theorem State.twoRounds_keeps {s₀ : State} (s : State) (h : HubId) (hk : Keeps s₀ s)  :
    Keeps s₀ (State.twoRounds s h) := by
  unfold State.twoRounds
  try dsimp only
  repeat' (first
    | with_reducible assumption
    | with_reducible apply State.hkRound_keeps
    | with_reducible apply State.each_keeps
    | with_reducible apply State.modChan_keeps
    | split
    | exact fun _ e => e
    | exact fun _ _ => rfl
    | intro _
    | with_reducible apply Keeps.lit)

theorem State.laneFails_keeps {s₀ : State} (s : State) (a l : Nat) (hk : Keeps s₀ s)  :
    Keeps s₀ (State.laneFails s a l) := by
  unfold State.laneFails
  try dsimp only
  repeat' (first
    | with_reducible assumption
    | with_reducible apply State.modAgent_keeps
    | with_reducible apply State.eachHub_keeps
    | with_reducible apply State.finding_keeps
    | with_reducible apply State.lameEach_keeps
    | with_reducible apply State.report_keeps
    | split
    | exact fun _ e => e
    | exact fun _ _ => rfl
    | intro _
    | with_reducible apply Keeps.lit)

theorem State.unitFails_keeps {s₀ : State} (s : State) (a u : Nat) (hk : Keeps s₀ s)  :
    Keeps s₀ (State.unitFails s a u) := by
  unfold State.unitFails
  try dsimp only
  repeat' (first
    | with_reducible assumption
    | with_reducible apply State.eachHub_keeps
    | with_reducible apply State.finding_keeps
    | with_reducible apply State.lameEach_keeps
    | split
    | exact fun _ e => e
    | exact fun _ _ => rfl
    | intro _
    | with_reducible apply Keeps.lit)

theorem State.enterReady_keeps {s₀ : State} (s : State) (hk : Keeps s₀ s)  :
    Keeps s₀ (State.enterReady s) := by
  unfold State.enterReady
  try dsimp only
  repeat' (first
    | with_reducible assumption
    | with_reducible apply State.eachHub_keeps
    | with_reducible apply State.modHub_keeps
    | with_reducible apply State.setSt_keeps
    | with_reducible apply State.each_keeps
    | with_reducible apply State.modAgent_keeps
    | with_reducible apply State.reelMark_keeps
    | split
    | exact fun _ e => e
    | exact fun _ _ => rfl
    | intro _
    | with_reducible apply Keeps.lit)

end Sys2Proof.Machine
end

