-- ==== Sys2Proof/Laws/KeepsManagement.lean ====
section
/-! SUPPORT. Every operation of Machine/Management.lean keeps what `Keeps` names. -/

namespace Sys2Proof.Machine

open Sys2Proof

theorem State.modMgmt_keeps {s₀ : State} (s : State) (f : Mgmt → Mgmt) (hk : Keeps s₀ s)  :
    Keeps s₀ (State.modMgmt s f) := by
  unfold State.modMgmt
  try dsimp only
  repeat' (first
    | with_reducible assumption
    | split
    | exact fun _ e => e
    | exact fun _ _ => rfl
    | intro _
    | with_reducible apply Keeps.lit)

theorem State.mgmtReply_keeps {s₀ : State} (s : State) (r : MgmtReply) (hk : Keeps s₀ s)  :
    Keeps s₀ (State.mgmtReply s r) := by
  unfold State.mgmtReply
  try dsimp only
  repeat' (first
    | with_reducible assumption
    | with_reducible apply State.present_keeps
    | split
    | exact fun _ e => e
    | exact fun _ _ => rfl
    | intro _
    | with_reducible apply Keeps.lit)

theorem State.answer_keeps {s₀ : State} (s : State) (r : State → MgmtReply) (f : Mgmt → Mgmt) (hk : Keeps s₀ s)  :
    Keeps s₀ (State.answer s r f) := by
  unfold State.answer
  try dsimp only
  repeat' (first
    | with_reducible assumption
    | with_reducible apply State.modMgmt_keeps
    | with_reducible apply State.mgmtReply_keeps
    | split
    | exact fun _ e => e
    | exact fun _ _ => rfl
    | intro _
    | with_reducible apply Keeps.lit)

theorem State.pdrEvent_keeps {s₀ : State} (s : State) (l : List (BitVec 16)) (hk : Keeps s₀ s)  :
    Keeps s₀ (State.pdrEvent s l) := by
  unfold State.pdrEvent
  try dsimp only
  repeat' (first
    | with_reducible assumption
    | with_reducible apply State.mgmtPush_keeps
    | split
    | exact fun _ e => e
    | exact fun _ _ => rfl
    | intro _
    | with_reducible apply Keeps.lit)

theorem State.releaseDaily_keeps {s₀ : State} (s : State) (e : MgmtEvent) (hk : Keeps s₀ s)  :
    Keeps s₀ (State.releaseDaily s e) := by
  unfold State.releaseDaily
  try dsimp only
  repeat' (first
    | with_reducible assumption
    | with_reducible apply State.modHubs_keeps
    | with_reducible apply State.modHub_keeps
    | split
    | exact fun _ e => e
    | exact fun _ _ => rfl
    | intro _
    | with_reducible apply Keeps.lit)

theorem State.markSending_keeps {s₀ : State} (s : State) (e : MgmtEvent) (hk : Keeps s₀ s)  :
    Keeps s₀ (State.markSending s e) := by
  unfold State.markSending
  try dsimp only
  repeat' (first
    | with_reducible assumption
    | with_reducible apply State.modHub_keeps
    | split
    | exact fun _ e => e
    | exact fun _ _ => rfl
    | intro _
    | with_reducible apply Keeps.lit)

theorem State.holdPolled_keeps {s₀ : State} (s : State) (e : MgmtEvent) (hk : Keeps s₀ s)  :
    Keeps s₀ (State.holdPolled s e) := by
  unfold State.holdPolled
  try dsimp only
  repeat' (first
    | with_reducible assumption
    | with_reducible apply State.modMgmt_keeps
    | split
    | exact fun _ e => e
    | exact fun _ _ => rfl
    | intro _
    | with_reducible apply Keeps.lit)

theorem State.interrupt_keeps {s₀ : State} (s : State) (hk : Keeps s₀ s)  :
    Keeps s₀ (State.interrupt s) := by
  unfold State.interrupt
  try dsimp only
  repeat' (first
    | with_reducible assumption
    | with_reducible apply State.present_keeps
    | split
    | exact fun _ e => e
    | exact fun _ _ => rfl
    | intro _
    | with_reducible apply Keeps.lit)

theorem State.sendEvent_keeps {s₀ : State} (s : State) (announced : Bool) (e : MgmtEvent) (hk : Keeps s₀ s)  :
    Keeps s₀ (State.sendEvent s announced e) := by
  unfold State.sendEvent
  try dsimp only
  repeat' (first
    | with_reducible assumption
    | with_reducible apply State.present_keeps
    | split
    | exact fun _ e => e
    | exact fun _ _ => rfl
    | intro _
    | with_reducible apply Keeps.lit)

theorem State.releasePolled_keeps {s₀ : State} (s : State) (e : MgmtEvent) (hk : Keeps s₀ s)  :
    Keeps s₀ (State.releasePolled s e) := by
  unfold State.releasePolled
  try dsimp only
  repeat' (first
    | with_reducible assumption
    | with_reducible apply State.modMgmt_keeps
    | with_reducible apply State.releaseDaily_keeps
    | split
    | exact fun _ e => e
    | exact fun _ _ => rfl
    | intro _
    | with_reducible apply Keeps.lit)

end Sys2Proof.Machine
end

