-- ==== Sys2Proof/Laws/KeepsCommands.lean ====
section
/-! SUPPORT. Every operation of Machine/Commands.lean keeps what `Keeps` names. -/

namespace Sys2Proof.Machine

open Sys2Proof

theorem State.overrunCmd_keeps {s₀ : State} (s : State) (hk : Keeps s₀ s)  :
    Keeps s₀ (State.overrunCmd s) := by
  unfold State.overrunCmd
  try dsimp only
  repeat' (first
    | with_reducible assumption
    | with_reducible apply State.refuseWord_keeps
    | split
    | exact fun _ e => e
    | exact fun _ _ => rfl
    | intro _
    | with_reducible apply Keeps.lit)

theorem State.acceptCmd_keeps {s₀ : State} (s : State) (op : Nat) (tag : Byte) (hk : Keeps s₀ s)  :
    Keeps s₀ (State.acceptCmd s op tag) := by
  unfold State.acceptCmd
  try dsimp only
  repeat' (first
    | with_reducible assumption
    | with_reducible apply State.mirrorWrite_keeps
    | split
    | exact fun _ e => e
    | exact fun _ _ => rfl
    | intro _
    | with_reducible apply Keeps.lit)

theorem State.refuseLoad_keeps {s₀ : State} (s : State) (hk : Keeps s₀ s)  :
    Keeps s₀ (State.refuseLoad s) := by
  unfold State.refuseLoad
  try dsimp only
  repeat' (first
    | with_reducible assumption
    | with_reducible apply State.refuseWord_keeps
    | with_reducible apply State.modHubs_keeps
    | split
    | exact fun _ e => e
    | exact fun _ _ => rfl
    | intro _
    | with_reducible apply Keeps.lit)

theorem State.issue_keeps {s₀ : State} (s : State) (op : Nat) (tag : Byte) (states : List HubSt) (masks : W32 × W32 × W32 × W32)
    (argOk : State → Bool) (act : State → State) (hk : Keeps s₀ s) (ha : ∀ t, Keeps s₀ t → Keeps s₀ (act t)) :
    Keeps s₀ (State.issue s op tag states masks argOk act) := by
  unfold State.issue
  try dsimp only
  repeat' (first
    | with_reducible assumption
    | with_reducible apply ha
    | with_reducible apply State.refuseLoad_keeps
    | with_reducible apply State.overrunCmd_keeps
    | with_reducible apply State.acceptCmd_keeps
    | with_reducible apply State.refuseWord_keeps
    | with_reducible apply State.endCmd_keeps
    | split
    | exact fun _ e => e
    | exact fun _ _ => rfl
    | intro _
    | with_reducible apply Keeps.lit)

theorem State.consented_keeps {s₀ : State} (s : State) (x : CmdAct) (act : State → State) (hk : Keeps s₀ s) (ha : ∀ t, Keeps s₀ t → Keeps s₀ (act t)) :
    Keeps s₀ (State.consented s x act) := by
  unfold State.consented
  try dsimp only
  repeat' (first
    | with_reducible assumption
    | with_reducible apply ha
    | with_reducible apply State.answer_keeps
    | split
    | exact fun _ e => e
    | exact fun _ _ => rfl
    | intro _
    | with_reducible apply Keeps.lit)

theorem State.startAct_keeps {s₀ : State} (s : State) (hk : Keeps s₀ s)  :
    Keeps s₀ (State.startAct s) := by
  unfold State.startAct
  try dsimp only
  repeat' (first
    | with_reducible assumption
    | with_reducible apply State.eachHub_keeps
    | with_reducible apply State.setSt_keeps
    | with_reducible apply State.beginStage_keeps
    | split
    | exact fun _ e => e
    | exact fun _ _ => rfl
    | intro _
    | with_reducible apply Keeps.lit)

theorem State.loadHarnessAct_keeps {s₀ : State} (s : State) (hk : Keeps s₀ s)  :
    Keeps s₀ (State.loadHarnessAct s) := by
  unfold State.loadHarnessAct
  try dsimp only
  repeat' (first
    | with_reducible assumption
    | with_reducible apply State.endCmd_keeps
    | split
    | exact fun _ e => e
    | exact fun _ _ => rfl
    | intro _
    | with_reducible apply Keeps.lit)

theorem State.runAct_keeps {s₀ : State} (s : State) (hk : Keeps s₀ s)  :
    Keeps s₀ (State.runAct s) := by
  unfold State.runAct
  try dsimp only
  repeat' (first
    | with_reducible assumption
    | with_reducible apply State.eachHub_keeps
    | with_reducible apply State.setSt_keeps
    | with_reducible apply State.endCmd_keeps
    | split
    | exact fun _ e => e
    | exact fun _ _ => rfl
    | intro _
    | with_reducible apply Keeps.lit)

theorem State.saveAct_keeps {s₀ : State} (s : State) (hk : Keeps s₀ s)  :
    Keeps s₀ (State.saveAct s) := by
  unfold State.saveAct
  try dsimp only
  repeat' (first
    | with_reducible assumption
    | with_reducible apply State.refuseWord_keeps
    | with_reducible apply State.endCmd_keeps
    | with_reducible apply State.present_keeps
    | with_reducible apply State.eachHub_keeps
    | with_reducible apply State.setSt_keeps
    | split
    | exact fun _ e => e
    | exact fun _ _ => rfl
    | intro _
    | with_reducible apply Keeps.lit)

theorem State.loadSlate_keeps {s₀ : State} (s : State) (x : SavedSlate) (hk : Keeps s₀ s)  :
    Keeps s₀ (State.loadSlate s x) := by
  unfold State.loadSlate
  try dsimp only
  repeat' (first
    | with_reducible assumption
    | with_reducible apply State.modHubs_keeps
    | with_reducible apply State.clearChoices_keeps
    | with_reducible apply State.dropHeld_keeps
    | with_reducible apply State.modJob_keeps
    | split
    | exact fun _ e => e
    | exact fun _ _ => rfl
    | intro _
    | with_reducible apply Keeps.lit)

theorem State.loadEnvelope_keeps {s₀ : State} (s : State) (x : SavedEnvelope) (hk : Keeps s₀ s)  :
    Keeps s₀ (State.loadEnvelope s x) := by
  unfold State.loadEnvelope
  try dsimp only
  repeat' (first
    | with_reducible assumption
    | with_reducible apply State.modConc_keeps
    | split
    | exact fun _ e => e
    | exact fun _ _ => rfl
    | intro _
    | with_reducible apply Keeps.lit)

theorem State.loadUnits_keeps {s₀ : State} (s : State) (i : SaveImage) (hk : Keeps s₀ s)  :
    Keeps s₀ (State.loadUnits s i) := by
  unfold State.loadUnits
  repeat' (first
    | with_reducible assumption
    | with_reducible apply State.eachHub_keeps
    | with_reducible apply State.modHub_keeps
    | with_reducible apply State.each_keeps
    | with_reducible apply State.syncPaddock_keeps
    | (extract_lets +onlyGivenNames zz; refine Keeps.cut (s := s₀) (t := zz) ?_ ?_; dsimp only [zz]; clear zz; rotate_left; clear_value zz; revert zz; intro _ _)
    | (extract_lets +onlyGivenNames zz; clear_value zz; revert zz; intro _)
    | split
    | exact fun _ e => e
    | exact fun _ _ => rfl
    | intro _
    | with_reducible apply Keeps.lit)

theorem State.loadImage_keeps {s₀ : State} (s : State) (i : SaveImage) (hk : Keeps s₀ s)  :
    Keeps s₀ (State.loadImage s i) := by
  unfold State.loadImage
  try dsimp only
  repeat' (first
    | with_reducible assumption
    | with_reducible apply State.each_keeps
    | with_reducible apply State.loadSlate_keeps
    | with_reducible apply State.loadEnvelope_keeps
    | with_reducible apply State.modConc_keeps
    | with_reducible apply State.modStream_keeps
    | with_reducible apply State.loadUnits_keeps
    | split
    | exact fun _ e => e
    | exact fun _ _ => rfl
    | intro _
    | with_reducible apply Keeps.lit)

theorem State.restoreAct_keeps {s₀ : State} (s : State) (image : SaveImage) (hk : Keeps s₀ s)  :
    Keeps s₀ (State.restoreAct s image) := by
  unfold State.restoreAct
  try dsimp only
  repeat' (first
    | with_reducible assumption
    | with_reducible apply State.loadImage_keeps
    | with_reducible apply State.eachHub_keeps
    | with_reducible apply State.setSt_keeps
    | with_reducible apply State.endCmd_keeps
    | split
    | exact fun _ e => e
    | exact fun _ _ => rfl
    | intro _
    | with_reducible apply Keeps.lit)

theorem State.placeByDriver_keeps {s₀ : State} (s : State) (h : HubId) (a : Nat) (hk : Keeps s₀ s)  :
    Keeps s₀ (State.placeByDriver s h a) := by
  unfold State.placeByDriver
  try dsimp only
  repeat' (first
    | with_reducible assumption
    | with_reducible apply State.place_keeps
    | with_reducible apply State.modHub_keeps
    | split
    | exact fun _ e => e
    | exact fun _ _ => rfl
    | intro _
    | with_reducible apply Keeps.lit)

theorem State.clearFollower_keeps {s₀ : State} (s : State) (h : HubId) (p : Nat) (hk : Keeps s₀ s)  :
    Keeps s₀ (State.clearFollower s h p) := by
  unfold State.clearFollower
  try dsimp only
  repeat' (first
    | with_reducible assumption
    | with_reducible apply State.modHub_keeps
    | with_reducible apply State.takeRecovery_keeps
    | split
    | exact fun _ e => e
    | exact fun _ _ => rfl
    | intro _
    | with_reducible apply Keeps.lit)

theorem State.clearSourceAct_keeps {s₀ : State} (s : State) (hk : Keeps s₀ s)  :
    Keeps s₀ (State.clearSourceAct s) := by
  unfold State.clearSourceAct
  try dsimp only
  repeat' (first
    | with_reducible assumption
    | with_reducible apply State.onQuiet_keeps
    | with_reducible apply State.modHub_keeps
    | with_reducible apply State.clearFollower_keeps
    | with_reducible apply State.startWaiting_keeps
    | with_reducible apply State.endCmd_keeps
    | split
    | exact fun _ e => e
    | exact fun _ _ => rfl
    | intro _
    | with_reducible apply Keeps.lit)

theorem State.setBandAct_keeps {s₀ : State} (s : State) (sel lo hi : W32) (hk : Keeps s₀ s)  :
    Keeps s₀ (State.setBandAct s sel lo hi) := by
  unfold State.setBandAct
  try dsimp only
  repeat' (first
    | with_reducible assumption
    | with_reducible apply State.endCmd_keeps
    | split
    | exact fun _ e => e
    | exact fun _ _ => rfl
    | intro _
    | with_reducible apply Keeps.lit)

theorem State.finishMerge_keeps {s₀ : State} (s : State) (h : HubId) (hk : Keeps s₀ s)  :
    Keeps s₀ (State.finishMerge s h) := by
  unfold State.finishMerge
  try dsimp only
  repeat' (first
    | with_reducible assumption
    | with_reducible apply State.each_keeps
    | with_reducible apply State.mergeSection_keeps
    | with_reducible apply State.modHub_keeps
    | split
    | exact fun _ e => e
    | exact fun _ _ => rfl
    | intro _
    | with_reducible apply Keeps.lit)

theorem State.signResult_keeps {s₀ : State} (s : State) (tag : Byte) (sub : Nat) (argOk : State → Bool) (x : CmdAct) (act : State → State) (hk : Keeps s₀ s) (ha : ∀ t, Keeps s₀ t → Keeps s₀ (act t)) :
    Keeps s₀ (State.signResult s tag sub argOk x act) := by
  unfold State.signResult
  try dsimp only
  repeat' (first
    | with_reducible assumption
    | with_reducible apply ha
    | with_reducible apply State.portDo_keeps
    | with_reducible apply State.issue_keeps
    | with_reducible apply State.consented_keeps
    | split
    | exact fun _ e => e
    | exact fun _ _ => rfl
    | intro _
    | with_reducible apply Keeps.lit)

theorem State.signBegin_keeps {s₀ : State} (s : State) (hk : Keeps s₀ s)  :
    Keeps s₀ (State.signBegin s) := by
  unfold State.signBegin
  try dsimp only
  repeat' (first
    | with_reducible assumption
    | split
    | exact fun _ e => e
    | exact fun _ _ => rfl
    | intro _
    | with_reducible apply Keeps.lit)

theorem State.signOpenAct_keeps {s₀ : State} (s : State) (weights : List (List W32)) (hk : Keeps s₀ s)  :
    Keeps s₀ (State.signOpenAct s weights) := by
  unfold State.signOpenAct
  try dsimp only
  repeat' (first
    | with_reducible assumption
    | with_reducible apply State.signBegin_keeps
    | with_reducible apply State.modStream_keeps
    | with_reducible apply State.endCmd_keeps
    | split
    | exact fun _ e => e
    | exact fun _ _ => rfl
    | intro _
    | with_reducible apply Keeps.lit)

theorem State.signAct_keeps {s₀ : State} (s : State) (hk : Keeps s₀ s)  :
    Keeps s₀ (State.signAct s) := by
  unfold State.signAct
  try dsimp only
  repeat' (first
    | with_reducible assumption
    | with_reducible apply State.signBegin_keeps
    | with_reducible apply State.finishSign_keeps
    | split
    | exact fun _ e => e
    | exact fun _ _ => rfl
    | intro _
    | with_reducible apply Keeps.lit)

theorem State.launchAct_keeps {s₀ : State} (s : State) (hk : Keeps s₀ s)  :
    Keeps s₀ (State.launchAct s) := by
  unfold State.launchAct
  try dsimp only
  repeat' (first
    | with_reducible assumption
    | with_reducible apply State.modJob_keeps
    | with_reducible apply State.endCmd_keeps
    | split
    | exact fun _ e => e
    | exact fun _ _ => rfl
    | intro _
    | with_reducible apply Keeps.lit)

theorem State.withHot_keeps {s₀ : State} (s : State) (recs : List Rec) (seq : W32) (hk : Keeps s₀ s)  :
    Keeps s₀ (State.withHot s recs seq) := by
  unfold State.withHot
  try dsimp only
  repeat' (first
    | with_reducible assumption
    | split
    | exact fun _ e => e
    | exact fun _ _ => rfl
    | intro _
    | with_reducible apply Keeps.lit)

theorem State.hotAct_keeps {s₀ : State} (s : State) (wordsA wordsB : List W32) (hk : Keeps s₀ s)  :
    Keeps s₀ (State.hotAct s wordsA wordsB) := by
  unfold State.hotAct
  try dsimp only
  repeat' (first
    | with_reducible assumption
    | with_reducible apply State.recordCheck_keeps
    | with_reducible apply State.endCmd_keeps
    | with_reducible apply State.withHot_keeps
    | with_reducible apply State.pdrEvent_keeps
    | split
    | exact fun _ e => e
    | exact fun _ _ => rfl
    | intro _
    | with_reducible apply Keeps.lit)

theorem State.replayAct_keeps {s₀ : State} (s : State) (recorded : List InlogEntry) (hk : Keeps s₀ s)  :
    Keeps s₀ (State.replayAct s recorded) := by
  unfold State.replayAct
  try dsimp only
  repeat' (first
    | with_reducible assumption
    | with_reducible apply State.endCmd_keeps
    | split
    | exact fun _ e => e
    | exact fun _ _ => rfl
    | intro _
    | with_reducible apply Keeps.lit)

theorem State.reservedOp_keeps {s₀ : State} (s : State) (data : W32) (hk : Keeps s₀ s)  :
    Keeps s₀ (State.reservedOp s data) := by
  unfold State.reservedOp
  try dsimp only
  repeat' (first
    | with_reducible assumption
    | with_reducible apply State.overrunCmd_keeps
    | with_reducible apply State.acceptCmd_keeps
    | with_reducible apply State.endCmd_keeps
    | split
    | exact fun _ e => e
    | exact fun _ _ => rfl
    | intro _
    | with_reducible apply Keeps.lit)

end Sys2Proof.Machine
end

