-- ==== Sys2Proof/Laws/KeepsConsent.lean ====
section
/-! SUPPORT. Every operation of Machine/Consent.lean keeps what `Keeps` names. -/

namespace Sys2Proof.Machine

open Sys2Proof

theorem State.commandAct_keeps {s₀ : State} (s : State) (hk : Keeps s₀ s)  :
    Keeps s₀ (State.commandAct s) := by
  unfold State.commandAct
  try dsimp only
  repeat' (first
    | with_reducible assumption
    | with_reducible apply State.startAct_keeps
    | with_reducible apply State.loadHarnessAct_keeps
    | with_reducible apply State.runAct_keeps
    | with_reducible apply State.saveAct_keeps
    | with_reducible apply State.restoreAct_keeps
    | with_reducible apply State.clearSourceAct_keeps
    | with_reducible apply State.setBandAct_keeps
    | with_reducible apply State.signOpenAct_keeps
    | with_reducible apply State.signAct_keeps
    | with_reducible apply State.launchAct_keeps
    | with_reducible apply State.hotAct_keeps
    | with_reducible apply State.replayAct_keeps
    | split
    | exact fun _ e => e
    | exact fun _ _ => rfl
    | intro _
    | with_reducible apply Keeps.lit)

theorem State.takeAction_keeps {s₀ : State} (s : State) (x : RelaxAction) (hk : Keeps s₀ s)  :
    Keeps s₀ (State.takeAction s x) := by
  unfold State.takeAction
  try dsimp only
  repeat' (first
    | with_reducible assumption
    | with_reducible apply State.onQuiet_keeps
    | with_reducible apply State.startWaiting_keeps
    | with_reducible apply State.openGateAct_keeps
    | with_reducible apply State.takeDecision_keeps
    | with_reducible apply State.leavePad_keeps
    | with_reducible apply State.takeRelease_keeps
    | with_reducible apply State.admitPort_keeps
    | with_reducible apply State.commandAct_keeps
    | split
    | exact fun _ e => e
    | exact fun _ _ => rfl
    | intro _
    | with_reducible apply Keeps.lit)

theorem State.clearProposal_keeps {s₀ : State} (s : State) (x : RelaxAction) (hk : Keeps s₀ s)  :
    Keeps s₀ (State.clearProposal s x) := by
  unfold State.clearProposal
  try dsimp only
  repeat' (first
    | with_reducible assumption
    | with_reducible apply State.answer_keeps
    | split
    | exact fun _ e => e
    | exact fun _ _ => rfl
    | intro _
    | with_reducible apply Keeps.lit)

theorem State.refuseAction_keeps {s₀ : State} (s : State) (x : RelaxAction) (hk : Keeps s₀ s)  :
    Keeps s₀ (State.refuseAction s x) := by
  unfold State.refuseAction
  try dsimp only
  repeat' (first
    | with_reducible assumption
    | with_reducible apply State.takeDecision_keeps
    | with_reducible apply State.endCmd_keeps
    | with_reducible apply State.admitPort_keeps
    | with_reducible apply State.keepRefusal_keeps
    | split
    | exact fun _ e => e
    | exact fun _ _ => rfl
    | intro _
    | with_reducible apply Keeps.lit)

end Sys2Proof.Machine
end

