-- ==== Sys2Proof/Laws/ExecKeepsTile.lean ====
section
/-! SUPPORT. Every command of a family keeps what `Keeps` names: Retake, Network, Test, Tile, Vector, Verdict. -/

namespace Sys2Proof.Machine

open Sys2Proof

/-- What every effect keeps, the command keeps. -/
theorem live_keeps {s t : State} {f : State → State} (h : live s f = .next t)
    (hf : ∀ u, Keeps s u → Keeps s (f u)) : Keeps s t := by
  unfold live at h
  split at h
  · cases h; exact Keeps.refl s
  · cases h; exact hf _ ((Keeps.refl s).upd rfl rfl rfl rfl rfl rfl)

theorem liveIf_keeps {s t : State} {bad : Bool} {rule : Nat} {f : State → State} (h : liveIf s bad rule f = .next t)
    (hf : ∀ u, Keeps s u → Keeps s (f u)) : Keeps s t := by
  unfold liveIf at h
  split at h
  · cases h; exact Keeps.refl s
  · split at h
    · cases h
    · exact live_keeps h hf

theorem execAccountFetch_keeps {s₀ t : State} (record : Nat) (h : execAccountFetch record s₀ = .next t) : Keeps s₀ t := by
  unfold execAccountFetch at h
  refine live_keeps h ?_
  intro u hk
  try dsimp only
  repeat' (first
    | with_reducible assumption
    | with_reducible apply State.record_keeps
    | with_reducible apply State.decideStep_keeps
    | with_reducible apply State.modRetake_keeps
    | split
    | exact fun _ e => e
    | exact fun _ _ => rfl
    | intro _
    | with_reducible apply Keeps.lit)

theorem execRetakeIssueTimeout_keeps {s₀ t : State} (record : Nat) (h : execRetakeIssueTimeout record s₀ = .next t) : Keeps s₀ t := by
  unfold execRetakeIssueTimeout at h
  refine live_keeps h ?_
  intro u hk
  try dsimp only
  repeat' (first
    | with_reducible assumption
    | with_reducible apply State.record_keeps
    | with_reducible apply State.advanceTo_keeps
    | with_reducible apply State.countTimeout_keeps
    | with_reducible apply State.scDrop_keeps
    | with_reducible apply State.modAgent_keeps
    | with_reducible apply State.loseRun_keeps
    | with_reducible apply State.noteAll_keeps
    | with_reducible apply State.decideStep_keeps
    | with_reducible apply State.endRetire_keeps
    | split
    | exact fun _ e => e
    | exact fun _ _ => rfl
    | intro _
    | with_reducible apply Keeps.lit)

theorem execRetakeWaitExpiry_keeps {s₀ t : State} (record : Nat) (h : execRetakeWaitExpiry record s₀ = .next t) : Keeps s₀ t := by
  unfold execRetakeWaitExpiry at h
  refine live_keeps h ?_
  intro u hk
  try dsimp only
  repeat' (first
    | with_reducible assumption
    | with_reducible apply State.record_keeps
    | with_reducible apply State.advanceTo_keeps
    | with_reducible apply State.requestRun_keeps
    | with_reducible apply State.decideStep_keeps
    | split
    | exact fun _ e => e
    | exact fun _ _ => rfl
    | intro _
    | with_reducible apply Keeps.lit)

theorem execRetakeRunTimeout_keeps {s₀ t : State} (record : Nat) (h : execRetakeRunTimeout record s₀ = .next t) : Keeps s₀ t := by
  unfold execRetakeRunTimeout at h
  refine live_keeps h ?_
  intro u hk
  try dsimp only
  repeat' (first
    | with_reducible assumption
    | with_reducible apply State.record_keeps
    | with_reducible apply State.advanceTo_keeps
    | with_reducible apply State.countTimeout_keeps
    | with_reducible apply State.modAgent_keeps
    | with_reducible apply State.loseRun_keeps
    | with_reducible apply State.decideStep_keeps
    | split
    | exact fun _ e => e
    | exact fun _ _ => rfl
    | intro _
    | with_reducible apply Keeps.lit)

theorem execMessageOrigin_keeps {s₀ t : State} (unit : NetUnit) (src : BitVec 16) (kind : Byte) (sev : BitVec 3) (addr : Addr) (job : Job) (h : execMessageOrigin unit src kind sev addr job s₀ = .next t) : Keeps s₀ t := by
  unfold execMessageOrigin at h
  refine live_keeps h ?_
  intro u hk
  try dsimp only
  repeat' (first
    | with_reducible assumption
    | with_reducible apply State.emit_keeps
    | split
    | exact fun _ e => e
    | exact fun _ _ => rfl
    | intro _
    | with_reducible apply Keeps.lit)

theorem execMessageHop_keeps {s₀ t : State} (unit : NetUnit) (dest : HubId) (h : execMessageHop unit dest s₀ = .next t) : Keeps s₀ t := by
  unfold execMessageHop at h
  refine live_keeps h ?_
  intro u hk
  try dsimp only
  repeat' (first
    | with_reducible assumption
    | with_reducible apply State.hopMessage_keeps
    | split
    | exact fun _ e => e
    | exact fun _ _ => rfl
    | intro _
    | with_reducible apply Keeps.lit)

theorem execHopBadCrc_keeps {s₀ t : State} (unit : NetUnit) (dest : HubId) (h : execHopBadCrc unit dest s₀ = .next t) : Keeps s₀ t := by
  unfold execHopBadCrc at h
  refine live_keeps h ?_
  intro u hk
  try dsimp only
  repeat' (first
    | with_reducible assumption
    | with_reducible apply State.hopBad_keeps
    | split
    | exact fun _ e => e
    | exact fun _ _ => rfl
    | intro _
    | with_reducible apply Keeps.lit)

theorem execMergedS2Send_keeps {s₀ t : State} (unit : NetUnit) (h : execMergedS2Send unit s₀ = .next t) : Keeps s₀ t := by
  unfold execMergedS2Send at h
  refine live_keeps h ?_
  intro u hk
  try dsimp only
  repeat' (first
    | with_reducible assumption
    | with_reducible apply State.setQueue_keeps
    | split
    | exact fun _ e => e
    | exact fun _ _ => rfl
    | intro _
    | with_reducible apply Keeps.lit)

theorem execHubAcceptMessage_keeps {s₀ t : State} (hub : HubId) (h : execHubAcceptMessage hub s₀ = .next t) : Keeps s₀ t := by
  unfold execHubAcceptMessage at h
  refine live_keeps h ?_
  intro u hk
  try dsimp only
  repeat' (first
    | with_reducible assumption
    | with_reducible apply State.setQueue_keeps
    | with_reducible apply State.acceptMsg_keeps
    | split
    | exact fun _ e => e
    | exact fun _ _ => rfl
    | intro _
    | with_reducible apply Keeps.lit)

theorem execLeakTick_keeps {s₀ t : State} (group : Nat) (h : execLeakTick group s₀ = .next t) : Keeps s₀ t := by
  unfold execLeakTick at h
  refine live_keeps h ?_
  intro u hk
  try dsimp only
  repeat' (first
    | with_reducible assumption
    | with_reducible apply State.advanceTo_keeps
    | with_reducible apply State.modHubs_keeps
    | split
    | exact fun _ e => e
    | exact fun _ _ => rfl
    | intro _
    | with_reducible apply Keeps.lit)

theorem execQuietEnd_keeps {s₀ t : State} (pos : Nat) (h : execQuietEnd pos s₀ = .next t) : Keeps s₀ t := by
  unfold execQuietEnd at h
  refine live_keeps h ?_
  intro u hk
  try dsimp only
  repeat' (first
    | with_reducible assumption
    | with_reducible apply State.advanceTo_keeps
    | with_reducible apply State.onQuiet_keeps
    | with_reducible apply State.relax_keeps
    | with_reducible apply State.startWaiting_keeps
    | split
    | exact fun _ e => e
    | exact fun _ _ => rfl
    | intro _
    | with_reducible apply Keeps.lit)

theorem execReelMark_keeps {s₀ t : State}  (h : execReelMark  s₀ = .next t) : Keeps s₀ t := by
  unfold execReelMark at h
  refine live_keeps h ?_
  intro u hk
  try dsimp only
  repeat' (first
    | with_reducible assumption
    | with_reducible apply State.advanceTo_keeps
    | with_reducible apply State.eachHub_keeps
    | with_reducible apply State.reelMark_keeps
    | split
    | exact fun _ e => e
    | exact fun _ _ => rfl
    | intro _
    | with_reducible apply Keeps.lit)

theorem execReconcileMaskSend_keeps {s₀ t : State} (cluster : Nat) (h : execReconcileMaskSend cluster s₀ = .next t) : Keeps s₀ t := by
  unfold execReconcileMaskSend at h
  refine live_keeps h ?_
  intro u hk
  try dsimp only
  repeat' (first
    | with_reducible assumption
    | with_reducible apply State.modConc_keeps
    | split
    | exact fun _ e => e
    | exact fun _ _ => rfl
    | intro _
    | with_reducible apply Keeps.lit)

theorem execReconcileCompare_keeps {s₀ t : State} (hub : HubId) (cluster : Nat) (h : execReconcileCompare hub cluster s₀ = .next t) : Keeps s₀ t := by
  unfold execReconcileCompare at h
  refine live_keeps h ?_
  intro u hk
  try dsimp only
  repeat' (first
    | with_reducible assumption
    | with_reducible apply State.each_keeps
    | with_reducible apply State.reconcileAgent_keeps
    | split
    | exact fun _ e => e
    | exact fun _ _ => rfl
    | intro _
    | with_reducible apply Keeps.lit)

theorem execTrotDue_keeps {s₀ t : State} (agent : Nat) (h : execTrotDue agent s₀ = .next t) : Keeps s₀ t := by
  unfold execTrotDue at h
  refine live_keeps h ?_
  intro u hk
  try dsimp only
  repeat' (first
    | with_reducible assumption
    | with_reducible apply State.advanceClk_keeps
    | with_reducible apply State.modPad_keeps
    | with_reducible apply State.deferTrot_keeps
    | with_reducible apply State.startTrot_keeps
    | split
    | exact fun _ e => e
    | exact fun _ _ => rfl
    | intro _
    | with_reducible apply Keeps.lit)

theorem execTrotIdleAfterExpiry_keeps {s₀ t : State} (agent : Nat) (h : execTrotIdleAfterExpiry agent s₀ = .next t) : Keeps s₀ t := by
  unfold execTrotIdleAfterExpiry at h
  refine live_keeps h ?_
  intro u hk
  try dsimp only
  repeat' (first
    | with_reducible assumption
    | with_reducible apply State.advanceTo_keeps
    | with_reducible apply State.startTrot_keeps
    | split
    | exact fun _ e => e
    | exact fun _ _ => rfl
    | intro _
    | with_reducible apply Keeps.lit)

theorem execScanDone_keeps {s₀ t : State} (agent : Nat) (tileSet agentSet : List Checkpoint) (h : execScanDone agent tileSet agentSet s₀ = .next t) : Keeps s₀ t := by
  unfold execScanDone at h
  refine live_keeps h ?_
  intro u hk
  try dsimp only
  repeat' (first
    | with_reducible assumption
    | with_reducible apply State.modTrot_keeps
    | with_reducible apply State.afterScan_keeps
    | with_reducible apply State.noteLead_keeps
    | split
    | exact fun _ e => e
    | exact fun _ _ => rfl
    | intro _
    | with_reducible apply Keeps.lit)

theorem execSecretsCleared_keeps {s₀ t : State} (region : Region) (h : execSecretsCleared region s₀ = .next t) : Keeps s₀ t := by
  unfold execSecretsCleared at h
  refine live_keeps h ?_
  intro u hk
  try dsimp only
  repeat' (first
    | with_reducible assumption
    | with_reducible apply State.modAgent_keeps
    | with_reducible apply State.tryScan_keeps
    | with_reducible apply State.tryGroup_keeps
    | with_reducible apply State.modConc_keeps
    | with_reducible apply State.modHub_keeps
    | split
    | exact fun _ e => e
    | exact fun _ _ => rfl
    | intro _
    | with_reducible apply Keeps.lit)

theorem execSecretsTimeoutExpiry_keeps {s₀ t : State} (region : Region) (h : execSecretsTimeoutExpiry region s₀ = .next t) : Keeps s₀ t := by
  unfold execSecretsTimeoutExpiry at h
  refine live_keeps h ?_
  intro u hk
  try dsimp only
  repeat' (first
    | with_reducible assumption
    | with_reducible apply State.secretsMissed_keeps
    | with_reducible apply State.unitMissed_keeps
    | split
    | exact fun _ e => e
    | exact fun _ _ => rfl
    | intro _
    | with_reducible apply Keeps.lit)

theorem execTrotHostBoundMiss_keeps {s₀ t : State} (agent : Nat) (h : execTrotHostBoundMiss agent s₀ = .next t) : Keeps s₀ t := by
  unfold execTrotHostBoundMiss at h
  refine live_keeps h ?_
  intro u hk
  repeat' (first
    | with_reducible assumption
    | with_reducible apply State.advanceTo_keeps
    | with_reducible apply State.scDrop_keeps
    | with_reducible apply State.abandonTrot_keeps
    | with_reducible apply State.askGroup_keeps
    | with_reducible apply State.modTrot_keeps
    | (extract_lets +onlyGivenNames zz; refine Keeps.cut (s := s₀) (t := zz) ?_ ?_; dsimp only [zz]; clear zz; rotate_left; clear_value zz; revert zz; intro _ _)
    | (extract_lets +onlyGivenNames zz; clear_value zz; revert zz; intro _)
    | split
    | exact fun _ e => e
    | exact fun _ _ => rfl
    | intro _
    | with_reducible apply Keeps.lit)

theorem execTapGrantRise_keeps {s₀ t : State} (once : Bool) (h : execTapGrantRise once s₀ = .next t) : Keeps s₀ t := by
  unfold execTapGrantRise at h
  refine live_keeps h ?_
  intro u hk
  try dsimp only
  repeat' (first
    | with_reducible assumption
    | with_reducible apply State.each_keeps
    | with_reducible apply State.tryScan_keeps
    | with_reducible apply State.tryGroup_keeps
    | split
    | exact fun _ e => e
    | exact fun _ _ => rfl
    | intro _
    | with_reducible apply Keeps.lit)

theorem execTapGrantWaitExpiry_keeps {s₀ t : State}  (h : execTapGrantWaitExpiry  s₀ = .next t) : Keeps s₀ t := by
  unfold execTapGrantWaitExpiry at h
  refine live_keeps h ?_
  intro u hk
  try dsimp only
  repeat' (first
    | with_reducible assumption
    | with_reducible apply State.advanceTo_keeps
    | with_reducible apply State.abandonTrot_keeps
    | with_reducible apply State.askGroup_keeps
    | with_reducible apply State.endWrapGroup_keeps
    | split
    | exact fun _ e => e
    | exact fun _ _ => rfl
    | intro _
    | with_reducible apply Keeps.lit)

theorem execScAck_keeps {s₀ t : State} (agent : Nat) (h : execScAck agent s₀ = .next t) : Keeps s₀ t := by
  unfold execScAck at h
  refine live_keeps h ?_
  intro u hk
  try dsimp only
  repeat' (first
    | with_reducible assumption
    | with_reducible apply State.modAgent_keeps
    | with_reducible apply State.scAcked_keeps
    | with_reducible apply State.endRetire_keeps
    | split
    | exact fun _ e => e
    | exact fun _ _ => rfl
    | intro _
    | with_reducible apply Keeps.lit)

theorem execScAckFall_keeps {s₀ t : State} (agent : Nat) (h : execScAckFall agent s₀ = .next t) : Keeps s₀ t := by
  unfold execScAckFall at h
  refine live_keeps h ?_
  intro u hk
  try dsimp only
  repeat' (first
    | with_reducible assumption
    | with_reducible apply State.modAgent_keeps
    | with_reducible apply State.present_keeps
    | split
    | exact fun _ e => e
    | exact fun _ _ => rfl
    | intro _
    | with_reducible apply Keeps.lit)

theorem execPatternSetFetched_keeps {s₀ t : State} (set : PatSet) (data : List Byte) (h : execPatternSetFetched set data s₀ = .next t) : Keeps s₀ t := by
  unfold execPatternSetFetched at h
  refine live_keeps h ?_
  intro u hk
  try dsimp only
  repeat' (first
    | with_reducible assumption
    | with_reducible apply State.present_keeps
    | with_reducible apply State.setFailed_keeps
    | split
    | exact fun _ e => e
    | exact fun _ _ => rfl
    | intro _
    | with_reducible apply Keeps.lit)

theorem execCacheBlockBad_keeps {s₀ t : State} (block : Nat) (set : PatSet) (at_ : Nat) (streaming : List Nat) (group : Bool) (reread : List Byte) (h : execCacheBlockBad block set at_ streaming group reread s₀ = .next t) : Keeps s₀ t := by
  unfold execCacheBlockBad at h
  refine live_keeps h ?_
  intro u hk
  try dsimp only
  repeat' (first
    | with_reducible assumption
    | with_reducible apply State.noteLead_keeps
    | with_reducible apply State.present_keeps
    | with_reducible apply State.setFailed_keeps
    | with_reducible apply State.each_keeps
    | with_reducible apply State.abandonTrot_keeps
    | with_reducible apply State.askGroup_keeps
    | split
    | exact fun _ e => e
    | exact fun _ _ => rfl
    | intro _
    | with_reducible apply Keeps.lit)

theorem execWrapGroupDone_keeps {s₀ t : State} (results : List (Nat × List Checkpoint × List Checkpoint)) (h : execWrapGroupDone results s₀ = .next t) : Keeps s₀ t := by
  unfold execWrapGroupDone at h
  refine live_keeps h ?_
  intro u hk
  try dsimp only
  repeat' (first
    | with_reducible assumption
    | with_reducible apply State.each_keeps
    | with_reducible apply State.unitResult_keeps
    | with_reducible apply State.endWrapGroup_keeps
    | split
    | exact fun _ e => e
    | exact fun _ _ => rfl
    | intro _
    | with_reducible apply Keeps.lit)

theorem execWrapRecordWritten_keeps {s₀ t : State} (readBack : List Byte) (h : execWrapRecordWritten readBack s₀ = .next t) : Keeps s₀ t := by
  unfold execWrapRecordWritten at h
  refine live_keeps h ?_
  intro u hk
  try dsimp only
  repeat' (first
    | with_reducible assumption
    | with_reducible apply State.present_keeps
    | with_reducible apply State.endWrap_keeps
    | split
    | exact fun _ e => e
    | exact fun _ _ => rfl
    | intro _
    | with_reducible apply Keeps.lit)

theorem execPersistEraseDone_keeps {s₀ t : State}  (h : execPersistEraseDone  s₀ = .next t) : Keeps s₀ t := by
  unfold execPersistEraseDone at h
  refine live_keeps h ?_
  intro u hk
  try dsimp only
  repeat' (first
    | with_reducible assumption
    | split
    | exact fun _ e => e
    | exact fun _ _ => rfl
    | intro _
    | with_reducible apply Keeps.lit)

theorem execTdDescriptor_keeps {s₀ t : State} (agent : Nat) (handle : BitVec 5) (data : BitVec 256) (cyc : Nat) (h : execTdDescriptor agent handle data cyc s₀ = .next t) : Keeps s₀ t := by
  unfold execTdDescriptor at h
  refine live_keeps h ?_
  intro u hk
  try dsimp only
  repeat' (first
    | with_reducible assumption
    | with_reducible apply State.passEmpty_keeps
    | with_reducible apply State.fencedTask_keeps
    | with_reducible apply State.bindRetake_keeps
    | refine State.bindRetake_keepsOf (by assumption) ?_
    | with_reducible apply State.uncheckBound_keeps
    | with_reducible apply State.loseRunOf_keeps
    | with_reducible apply State.openInc_keeps
    | with_reducible apply State.bindTwice_keeps
    | with_reducible apply State.takeDescriptor_keeps
    | split
    | exact fun _ e => e
    | exact fun _ _ => rfl
    | intro _
    | with_reducible apply Keeps.lit)

theorem execTapElementBeat_keeps {s₀ t : State} (agent : Nat) (beat : TapBeat) (h : execTapElementBeat agent beat s₀ = .next t) : Keeps s₀ t := by
  unfold execTapElementBeat at h
  refine liveIf_keeps h ?_
  intro u hk
  try dsimp only
  repeat' (first
    | with_reducible assumption
    | with_reducible apply State.tapBeat_keeps
    | split
    | exact fun _ e => e
    | exact fun _ _ => rfl
    | intro _
    | with_reducible apply Keeps.lit)

theorem execPrjBeat_keeps {s₀ t : State} (agent : Nat) (beat : PrjBeat) (h : execPrjBeat agent beat s₀ = .next t) : Keeps s₀ t := by
  unfold execPrjBeat at h
  refine liveIf_keeps h ?_
  intro u hk
  try dsimp only
  repeat' (first
    | with_reducible assumption
    | with_reducible apply State.modAgent_keeps
    | with_reducible apply State.admitFirst_keeps
    | with_reducible apply State.prjCtx_keeps
    | split
    | exact fun _ e => e
    | exact fun _ _ => rfl
    | intro _
    | with_reducible apply Keeps.lit)

theorem execAuditBeat_keeps {s₀ t : State} (agent : Nat) (tap : Tap) (handle : BitVec 5) (addr : Addr) (d : BitVec 31) (poison : Bool) (cyc : Nat) (h : execAuditBeat agent tap handle addr d poison cyc s₀ = .next t) : Keeps s₀ t := by
  unfold execAuditBeat at h
  refine live_keeps h ?_
  intro u hk
  try dsimp only
  repeat' (first
    | with_reducible assumption
    | with_reducible apply State.modAgent_keeps
    | split
    | exact fun _ e => e
    | exact fun _ _ => rfl
    | intro _
    | with_reducible apply Keeps.lit)

theorem execCLast_keeps {s₀ t : State} (agent : Nat) (beat : TapBeat) (h : execCLast agent beat s₀ = .next t) : Keeps s₀ t := by
  unfold execCLast at h
  refine liveIf_keeps h ?_
  intro u hk
  try dsimp only
  repeat' (first
    | with_reducible assumption
    | with_reducible apply State.modAgent_keeps
    | with_reducible apply State.tapBeat_keeps
    | with_reducible apply State.lastC_keeps
    | with_reducible apply State.startWaiting_keeps
    | split
    | exact fun _ e => e
    | exact fun _ _ => rfl
    | intro _
    | with_reducible apply Keeps.lit)

theorem execLaneSelfCheck_keeps {s₀ t : State} (agent : Nat) (unit : KatUnit) (ok : Bool) (cyc : Nat) (h : execLaneSelfCheck agent unit ok cyc s₀ = .next t) : Keeps s₀ t := by
  unfold execLaneSelfCheck at h
  refine live_keeps h ?_
  intro u hk
  try dsimp only
  repeat' (first
    | with_reducible assumption
    | with_reducible apply State.modAgent_keeps
    | with_reducible apply State.report_keeps
    | with_reducible apply State.failContexts_keeps
    | split
    | exact fun _ e => e
    | exact fun _ _ => rfl
    | intro _
    | with_reducible apply Keeps.lit)

theorem execVhHeader_keeps {s₀ t : State} (agent : Nat) (gid : BitVec 3) (data : BitVec 110) (h : execVhHeader agent gid data s₀ = .next t) : Keeps s₀ t := by
  unfold execVhHeader at h
  refine live_keeps h ?_
  intro u hk
  try dsimp only
  repeat' (first
    | with_reducible assumption
    | with_reducible apply State.endGroup_keeps
    | with_reducible apply State.settled_keeps
    | with_reducible apply State.modAgent_keeps
    | with_reducible apply State.fenceGroup_keeps
    | with_reducible apply State.openInc_keeps
    | split
    | exact fun _ e => e
    | exact fun _ _ => rfl
    | intro _
    | with_reducible apply Keeps.lit)

theorem execVeBeat_keeps {s₀ t : State} (agent : Nat) (beat : VeBeat) (h : execVeBeat agent beat s₀ = .next t) : Keeps s₀ t := by
  unfold execVeBeat at h
  refine liveIf_keeps h ?_
  intro u hk
  try dsimp only
  repeat' (first
    | with_reducible assumption
    | with_reducible apply State.modAgent_keeps
    | with_reducible apply State.endGroup_keeps
    | split
    | exact fun _ e => e
    | exact fun _ _ => rfl
    | intro _
    | with_reducible apply Keeps.lit)

theorem execVectorGroupVerdict_keeps {s₀ t : State} (agent : Nat) (gid : BitVec 3) (h : execVectorGroupVerdict agent gid s₀ = .next t) : Keeps s₀ t := by
  unfold execVectorGroupVerdict at h
  refine live_keeps h ?_
  intro u hk
  try dsimp only
  repeat' (first
    | with_reducible assumption
    | with_reducible apply State.modAgent_keeps
    | with_reducible apply State.groupVerdict_keeps
    | split
    | exact fun _ e => e
    | exact fun _ _ => rfl
    | intro _
    | with_reducible apply Keeps.lit)

theorem execSummaryJudge_keeps {s₀ t : State} (cluster agent : Nat) (h : execSummaryJudge cluster agent s₀ = .next t) : Keeps s₀ t := by
  unfold execSummaryJudge at h
  refine live_keeps h ?_
  intro u hk
  try dsimp only
  repeat' (first
    | with_reducible assumption
    | with_reducible apply State.modAgent_keeps
    | with_reducible apply State.modConc_keeps
    | with_reducible apply State.numbersOdd_keeps
    | with_reducible apply State.openDec_keeps
    | split
    | exact fun _ e => e
    | exact fun _ _ => rfl
    | intro _
    | with_reducible apply Keeps.lit)

theorem execHandoffSlice_keeps {s₀ t : State} (cluster agent : Nat) (h : execHandoffSlice cluster agent s₀ = .next t) : Keeps s₀ t := by
  unfold execHandoffSlice at h
  refine live_keeps h ?_
  intro u hk
  try dsimp only
  repeat' (first
    | with_reducible assumption
    | with_reducible apply State.each_keeps
    | with_reducible apply State.handOff_keeps
    | with_reducible apply State.modConc_keeps
    | split
    | exact fun _ e => e
    | exact fun _ _ => rfl
    | intro _
    | with_reducible apply Keeps.lit)

theorem execVerdict_keeps {s₀ t : State} (cluster : Nat) (h : execVerdict cluster s₀ = .next t) : Keeps s₀ t := by
  unfold execVerdict at h
  refine live_keeps h ?_
  intro u hk
  try dsimp only
  repeat' (first
    | with_reducible assumption
    | with_reducible apply State.modConc_keeps
    | with_reducible apply State.engineVerdict_keeps
    | split
    | exact fun _ e => e
    | exact fun _ _ => rfl
    | intro _
    | with_reducible apply Keeps.lit)

theorem execVerdictAtAgent_keeps {s₀ t : State} (agent : Nat) (h : execVerdictAtAgent agent s₀ = .next t) : Keeps s₀ t := by
  unfold execVerdictAtAgent at h
  refine live_keeps h ?_
  intro u hk
  try dsimp only
  repeat' (first
    | with_reducible assumption
    | with_reducible apply State.modAgent_keeps
    | with_reducible apply State.originalVerdict_keeps
    | with_reducible apply State.retakeVerdict_keeps
    | with_reducible apply State.startWaiting_keeps
    | split
    | exact fun _ e => e
    | exact fun _ _ => rfl
    | intro _
    | with_reducible apply Keeps.lit)

theorem execCmtAccept_keeps {s₀ t : State} (agent cycles : Nat) (h : execCmtAccept agent cycles s₀ = .next t) : Keeps s₀ t := by
  unfold execCmtAccept at h
  refine live_keeps h ?_
  intro u hk
  try dsimp only
  repeat' (first
    | with_reducible assumption
    | with_reducible apply State.modAgent_keeps
    | with_reducible apply State.present_keeps
    | split
    | exact fun _ e => e
    | exact fun _ _ => rfl
    | intro _
    | with_reducible apply Keeps.lit)

theorem execFenceOrder_keeps {s₀ t : State} (agent : Nat) (h : execFenceOrder agent s₀ = .next t) : Keeps s₀ t := by
  unfold execFenceOrder at h
  refine live_keeps h ?_
  intro u hk
  try dsimp only
  repeat' (first
    | with_reducible assumption
    | with_reducible apply State.modAgent_keeps
    | with_reducible apply State.present_keeps
    | with_reducible apply State.fenceContexts_keeps
    | with_reducible apply State.each_keeps
    | with_reducible apply State.fenceTask_keeps
    | with_reducible apply State.fenceOpenGroup_keeps
    | with_reducible apply State.fenceRequests_keeps
    | split
    | exact fun _ e => e
    | exact fun _ _ => rfl
    | intro _
    | with_reducible apply Keeps.lit)

theorem execFenceAckRise_keeps {s₀ t : State} (agent : Nat) (h : execFenceAckRise agent s₀ = .next t) : Keeps s₀ t := by
  unfold execFenceAckRise at h
  refine live_keeps h ?_
  intro u hk
  try dsimp only
  repeat' (first
    | with_reducible assumption
    | with_reducible apply State.modAgent_keeps
    | split
    | exact fun _ e => e
    | exact fun _ _ => rfl
    | intro _
    | with_reducible apply Keeps.lit)

theorem execFenceEnd_keeps {s₀ t : State} (agent : Nat) (h : execFenceEnd agent s₀ = .next t) : Keeps s₀ t := by
  unfold execFenceEnd at h
  refine live_keeps h ?_
  intro u hk
  try dsimp only
  repeat' (first
    | with_reducible assumption
    | with_reducible apply State.modAgent_keeps
    | with_reducible apply State.lateGates_keeps
    | with_reducible apply State.startWaiting_keeps
    | with_reducible apply State.present_keeps
    | split
    | exact fun _ e => e
    | exact fun _ _ => rfl
    | intro _
    | with_reducible apply Keeps.lit)

theorem execFenceAckFall_keeps {s₀ t : State} (agent : Nat) (h : execFenceAckFall agent s₀ = .next t) : Keeps s₀ t := by
  unfold execFenceAckFall at h
  refine live_keeps h ?_
  intro u hk
  try dsimp only
  repeat' (first
    | with_reducible assumption
    | with_reducible apply State.modAgent_keeps
    | with_reducible apply State.present_keeps
    | split
    | exact fun _ e => e
    | exact fun _ _ => rfl
    | intro _
    | with_reducible apply Keeps.lit)

theorem execFenceTimeout_keeps {s₀ t : State} (agent : Nat) (h : execFenceTimeout agent s₀ = .next t) : Keeps s₀ t := by
  unfold execFenceTimeout at h
  refine live_keeps h ?_
  intro u hk
  try dsimp only
  repeat' (first
    | with_reducible assumption
    | with_reducible apply State.advanceTo_keeps
    | with_reducible apply State.modAgent_keeps
    | with_reducible apply State.noteAll_keeps
    | split
    | exact fun _ e => e
    | exact fun _ _ => rfl
    | intro _
    | with_reducible apply Keeps.lit)

theorem execSettleOrder_keeps {s₀ t : State} (agent record : Nat) (h : execSettleOrder agent record s₀ = .next t) : Keeps s₀ t := by
  unfold execSettleOrder at h
  refine live_keeps h ?_
  intro u hk
  try dsimp only
  repeat' (first
    | with_reducible assumption
    | with_reducible apply State.record_keeps
    | with_reducible apply State.commitCtx_keeps
    | with_reducible apply State.closeRetake_keeps
    | with_reducible apply State.startWaiting_keeps
    | with_reducible apply State.endRetire_keeps
    | split
    | exact fun _ e => e
    | exact fun _ _ => rfl
    | intro _
    | with_reducible apply Keeps.lit)

theorem execPoisonOrder_keeps {s₀ t : State} (agent record : Nat) (h : execPoisonOrder agent record s₀ = .next t) : Keeps s₀ t := by
  unfold execPoisonOrder at h
  refine live_keeps h ?_
  intro u hk
  try dsimp only
  repeat' (first
    | with_reducible assumption
    | with_reducible apply State.poisonOrdered_keeps
    | with_reducible apply State.record_keeps
    | with_reducible apply State.endRetire_keeps
    | split
    | exact fun _ e => e
    | exact fun _ _ => rfl
    | intro _
    | with_reducible apply Keeps.lit)

theorem execGateOpen_keeps {s₀ t : State} (job : Job) (step : W64) (h : execGateOpen job step s₀ = .next t) : Keeps s₀ t := by
  unfold execGateOpen at h
  refine live_keeps h ?_
  intro u hk
  try dsimp only
  repeat' (first
    | with_reducible assumption
    | with_reducible apply State.modJob_keeps
    | with_reducible apply State.each_keeps
    | with_reducible apply State.openGates_keeps
    | with_reducible apply State.modEnvelopes_keeps
    | with_reducible apply State.endRetire_keeps
    | split
    | exact fun _ e => e
    | exact fun _ _ => rfl
    | intro _
    | with_reducible apply Keeps.lit)

theorem execJobAbortActions_keeps {s₀ t : State} (job : Job) (h : execJobAbortActions job s₀ = .next t) : Keeps s₀ t := by
  unfold execJobAbortActions at h
  refine live_keeps h ?_
  intro u hk
  try dsimp only
  repeat' (first
    | with_reducible assumption
    | with_reducible apply State.each_keeps
    | with_reducible apply State.abortAgent_keeps
    | with_reducible apply State.abortConc_keeps
    | with_reducible apply State.modEnvelopes_keeps
    | with_reducible apply State.clearExcursions_keeps
    | with_reducible apply State.endRetire_keeps
    | split
    | exact fun _ e => e
    | exact fun _ _ => rfl
    | intro _
    | with_reducible apply Keeps.lit)

theorem execEpochAnnounce_keeps {s₀ t : State}  (h : execEpochAnnounce  s₀ = .next t) : Keeps s₀ t := by
  unfold execEpochAnnounce at h
  refine live_keeps h ?_
  intro u hk
  repeat' (first
    | with_reducible assumption
    | with_reducible apply State.advanceTo_keeps
    | with_reducible apply State.modHubs_keeps
    | with_reducible apply State.each_keeps
    | with_reducible apply State.modAgent_keeps
    | (extract_lets +onlyGivenNames zz; refine Keeps.cut (s := s₀) (t := zz) ?_ ?_; dsimp only [zz]; clear zz; rotate_left; clear_value zz; revert zz; intro _ _)
    | (extract_lets +onlyGivenNames zz; clear_value zz; revert zz; intro _)
    | split
    | exact fun _ e => e
    | exact fun _ _ => rfl
    | intro _
    | with_reducible apply Keeps.lit)

theorem execEpochActivation_keeps {s₀ t : State}  (h : execEpochActivation  s₀ = .next t) : Keeps s₀ t := by
  unfold execEpochActivation at h
  refine live_keeps h ?_
  intro u hk
  try dsimp only
  repeat' (first
    | with_reducible assumption
    | with_reducible apply State.advanceClk_keeps
    | with_reducible apply State.each_keeps
    | with_reducible apply State.modAgent_keeps
    | split
    | exact fun _ e => e
    | exact fun _ _ => rfl
    | intro _
    | with_reducible apply Keeps.lit)

theorem execScrubAccess_keeps {s₀ t : State} (unit : NetUnit) (macroNo : Byte) (word data : W32) (check : BitVec 7) (taskData : Bool)
    (contexts : List Nat) (h : execScrubAccess unit macroNo word data check taskData contexts s₀ = .next t) : Keeps s₀ t := by
  unfold execScrubAccess at h
  refine live_keeps h ?_
  intro u hk
  try dsimp only
  repeat' (first
    | with_reducible assumption
    | with_reducible apply State.emit_keeps
    | with_reducible apply State.failContexts_keeps
    | split
    | exact fun _ e => e
    | exact fun _ _ => rfl
    | intro _
    | with_reducible apply Keeps.lit)

end Sys2Proof.Machine
end

