-- ==== Sys2Proof/Laws/ExecKeepsCommands.lean ====
section
/-! SUPPORT. Every command of a family keeps what `Keeps` names: Commands, Consent, Management, Ops. -/

namespace Sys2Proof.Machine

open Sys2Proof

theorem execEntdaa_keeps {s₀ t : State} (addr : BitVec 7) (h : execEntdaa addr s₀ = .next t) : Keeps s₀ t := by
  unfold execEntdaa at h
  refine live_keeps h ?_
  intro u hk
  try dsimp only
  repeat' (first
    | with_reducible assumption
    | with_reducible apply State.modMgmt_keeps
    | with_reducible apply State.present_keeps
    | split
    | exact fun _ e => e
    | exact fun _ _ => rfl
    | intro _
    | with_reducible apply Keeps.lit)

theorem execSetdasa_keeps {s₀ t : State} (addr : BitVec 7) (h : execSetdasa addr s₀ = .next t) : Keeps s₀ t := by
  unfold execSetdasa at h
  refine live_keeps h ?_
  intro u hk
  try dsimp only
  repeat' (first
    | with_reducible assumption
    | with_reducible apply State.modMgmt_keeps
    | with_reducible apply State.present_keeps
    | split
    | exact fun _ e => e
    | exact fun _ _ => rfl
    | intro _
    | with_reducible apply Keeps.lit)

theorem execRstdaa_keeps {s₀ t : State}  (h : execRstdaa  s₀ = .next t) : Keeps s₀ t := by
  unfold execRstdaa at h
  refine live_keeps h ?_
  intro u hk
  try dsimp only
  repeat' (first
    | with_reducible assumption
    | with_reducible apply State.modMgmt_keeps
    | with_reducible apply State.present_keeps
    | split
    | exact fun _ e => e
    | exact fun _ _ => rfl
    | intro _
    | with_reducible apply Keeps.lit)

theorem execEnec_keeps {s₀ t : State} (events : Byte) (h : execEnec events s₀ = .next t) : Keeps s₀ t := by
  unfold execEnec at h
  refine live_keeps h ?_
  intro u hk
  try dsimp only
  repeat' (first
    | with_reducible assumption
    | with_reducible apply State.modMgmt_keeps
    | split
    | exact fun _ e => e
    | exact fun _ _ => rfl
    | intro _
    | with_reducible apply Keeps.lit)

theorem execDisec_keeps {s₀ t : State} (events : Byte) (h : execDisec events s₀ = .next t) : Keeps s₀ t := by
  unfold execDisec at h
  refine live_keeps h ?_
  intro u hk
  try dsimp only
  repeat' (first
    | with_reducible assumption
    | with_reducible apply State.modMgmt_keeps
    | split
    | exact fun _ e => e
    | exact fun _ _ => rfl
    | intro _
    | with_reducible apply Keeps.lit)

theorem execGetpid_keeps {s₀ t : State}  (h : execGetpid  s₀ = .next t) : Keeps s₀ t := by
  unfold execGetpid at h
  refine live_keeps h ?_
  intro u hk
  try dsimp only
  repeat' (first
    | with_reducible assumption
    | with_reducible apply State.answer_keeps
    | split
    | exact fun _ e => e
    | exact fun _ _ => rfl
    | intro _
    | with_reducible apply Keeps.lit)

theorem execGetbcr_keeps {s₀ t : State}  (h : execGetbcr  s₀ = .next t) : Keeps s₀ t := by
  unfold execGetbcr at h
  refine live_keeps h ?_
  intro u hk
  try dsimp only
  repeat' (first
    | with_reducible assumption
    | with_reducible apply State.answer_keeps
    | split
    | exact fun _ e => e
    | exact fun _ _ => rfl
    | intro _
    | with_reducible apply Keeps.lit)

theorem execGetdcr_keeps {s₀ t : State}  (h : execGetdcr  s₀ = .next t) : Keeps s₀ t := by
  unfold execGetdcr at h
  refine live_keeps h ?_
  intro u hk
  try dsimp only
  repeat' (first
    | with_reducible assumption
    | with_reducible apply State.answer_keeps
    | split
    | exact fun _ e => e
    | exact fun _ _ => rfl
    | intro _
    | with_reducible apply Keeps.lit)

theorem execGetstatus_keeps {s₀ t : State}  (h : execGetstatus  s₀ = .next t) : Keeps s₀ t := by
  unfold execGetstatus at h
  refine live_keeps h ?_
  intro u hk
  try dsimp only
  repeat' (first
    | with_reducible assumption
    | with_reducible apply State.present_keeps
    | split
    | exact fun _ e => e
    | exact fun _ _ => rfl
    | intro _
    | with_reducible apply Keeps.lit)

theorem execGetmrl_keeps {s₀ t : State}  (h : execGetmrl  s₀ = .next t) : Keeps s₀ t := by
  unfold execGetmrl at h
  refine live_keeps h ?_
  intro u hk
  try dsimp only
  repeat' (first
    | with_reducible assumption
    | with_reducible apply State.answer_keeps
    | split
    | exact fun _ e => e
    | exact fun _ _ => rfl
    | intro _
    | with_reducible apply Keeps.lit)

theorem execGetmwl_keeps {s₀ t : State}  (h : execGetmwl  s₀ = .next t) : Keeps s₀ t := by
  unfold execGetmwl at h
  refine live_keeps h ?_
  intro u hk
  try dsimp only
  repeat' (first
    | with_reducible assumption
    | with_reducible apply State.answer_keeps
    | split
    | exact fun _ e => e
    | exact fun _ _ => rfl
    | intro _
    | with_reducible apply Keeps.lit)

theorem execSetmrl_keeps {s₀ t : State} (n : BitVec 16) (h : execSetmrl n s₀ = .next t) : Keeps s₀ t := by
  unfold execSetmrl at h
  refine live_keeps h ?_
  intro u hk
  try dsimp only
  repeat' (first
    | with_reducible assumption
    | with_reducible apply State.answer_keeps
    | split
    | exact fun _ e => e
    | exact fun _ _ => rfl
    | intro _
    | with_reducible apply Keeps.lit)

theorem execSetmwl_keeps {s₀ t : State} (n : BitVec 16) (h : execSetmwl n s₀ = .next t) : Keeps s₀ t := by
  unfold execSetmwl at h
  refine live_keeps h ?_
  intro u hk
  try dsimp only
  repeat' (first
    | with_reducible assumption
    | with_reducible apply State.answer_keeps
    | split
    | exact fun _ e => e
    | exact fun _ _ => rfl
    | intro _
    | with_reducible apply Keeps.lit)

theorem execMctpDiscard_keeps {s₀ t : State}  (h : execMctpDiscard  s₀ = .next t) : Keeps s₀ t := by
  unfold execMctpDiscard at h
  refine live_keeps h ?_
  intro u hk
  try dsimp only
  repeat' (first
    | with_reducible assumption
    | with_reducible apply State.modHub_keeps
    | split
    | exact fun _ e => e
    | exact fun _ _ => rfl
    | intro _
    | with_reducible apply Keeps.lit)

theorem execSetEndpointId_keeps {s₀ t : State} (eid : Byte) (h : execSetEndpointId eid s₀ = .next t) : Keeps s₀ t := by
  unfold execSetEndpointId at h
  refine live_keeps h ?_
  intro u hk
  try dsimp only
  repeat' (first
    | with_reducible assumption
    | with_reducible apply State.answer_keeps
    | split
    | exact fun _ e => e
    | exact fun _ _ => rfl
    | intro _
    | with_reducible apply Keeps.lit)

theorem execGetEndpointId_keeps {s₀ t : State}  (h : execGetEndpointId  s₀ = .next t) : Keeps s₀ t := by
  unfold execGetEndpointId at h
  refine live_keeps h ?_
  intro u hk
  try dsimp only
  repeat' (first
    | with_reducible assumption
    | with_reducible apply State.answer_keeps
    | split
    | exact fun _ e => e
    | exact fun _ _ => rfl
    | intro _
    | with_reducible apply Keeps.lit)

theorem execGetEndpointUuid_keeps {s₀ t : State}  (h : execGetEndpointUuid  s₀ = .next t) : Keeps s₀ t := by
  unfold execGetEndpointUuid at h
  refine live_keeps h ?_
  intro u hk
  try dsimp only
  repeat' (first
    | with_reducible assumption
    | with_reducible apply State.answer_keeps
    | split
    | exact fun _ e => e
    | exact fun _ _ => rfl
    | intro _
    | with_reducible apply Keeps.lit)

theorem execGetMctpVersionSupport_keeps {s₀ t : State} (type : Byte) (h : execGetMctpVersionSupport type s₀ = .next t) : Keeps s₀ t := by
  unfold execGetMctpVersionSupport at h
  refine live_keeps h ?_
  intro u hk
  try dsimp only
  repeat' (first
    | with_reducible assumption
    | with_reducible apply State.answer_keeps
    | split
    | exact fun _ e => e
    | exact fun _ _ => rfl
    | intro _
    | with_reducible apply Keeps.lit)

theorem execGetMessageTypeSupport_keeps {s₀ t : State}  (h : execGetMessageTypeSupport  s₀ = .next t) : Keeps s₀ t := by
  unfold execGetMessageTypeSupport at h
  refine live_keeps h ?_
  intro u hk
  try dsimp only
  repeat' (first
    | with_reducible assumption
    | with_reducible apply State.answer_keeps
    | split
    | exact fun _ e => e
    | exact fun _ _ => rfl
    | intro _
    | with_reducible apply Keeps.lit)

theorem execErrorUnsupportedCmd_keeps {s₀ t : State} (code : Byte) (h : execErrorUnsupportedCmd code s₀ = .next t) : Keeps s₀ t := by
  unfold execErrorUnsupportedCmd at h
  refine live_keeps h ?_
  intro u hk
  try dsimp only
  repeat' (first
    | with_reducible assumption
    | with_reducible apply State.answer_keeps
    | split
    | exact fun _ e => e
    | exact fun _ _ => rfl
    | intro _
    | with_reducible apply Keeps.lit)

theorem execSetTid_keeps {s₀ t : State} (tid : Byte) (h : execSetTid tid s₀ = .next t) : Keeps s₀ t := by
  unfold execSetTid at h
  refine live_keeps h ?_
  intro u hk
  try dsimp only
  repeat' (first
    | with_reducible assumption
    | with_reducible apply State.answer_keeps
    | split
    | exact fun _ e => e
    | exact fun _ _ => rfl
    | intro _
    | with_reducible apply Keeps.lit)

theorem execGetTid_keeps {s₀ t : State}  (h : execGetTid  s₀ = .next t) : Keeps s₀ t := by
  unfold execGetTid at h
  refine live_keeps h ?_
  intro u hk
  try dsimp only
  repeat' (first
    | with_reducible assumption
    | with_reducible apply State.answer_keeps
    | split
    | exact fun _ e => e
    | exact fun _ _ => rfl
    | intro _
    | with_reducible apply Keeps.lit)

theorem execGetPldmVersion_keeps {s₀ t : State} (type : Byte) (h : execGetPldmVersion type s₀ = .next t) : Keeps s₀ t := by
  unfold execGetPldmVersion at h
  refine live_keeps h ?_
  intro u hk
  try dsimp only
  repeat' (first
    | with_reducible assumption
    | with_reducible apply State.answer_keeps
    | split
    | exact fun _ e => e
    | exact fun _ _ => rfl
    | intro _
    | with_reducible apply Keeps.lit)

theorem execGetPldmTypes_keeps {s₀ t : State}  (h : execGetPldmTypes  s₀ = .next t) : Keeps s₀ t := by
  unfold execGetPldmTypes at h
  refine live_keeps h ?_
  intro u hk
  try dsimp only
  repeat' (first
    | with_reducible assumption
    | with_reducible apply State.answer_keeps
    | split
    | exact fun _ e => e
    | exact fun _ _ => rfl
    | intro _
    | with_reducible apply Keeps.lit)

theorem execGetPldmCommands_keeps {s₀ t : State} (type : Byte) (h : execGetPldmCommands type s₀ = .next t) : Keeps s₀ t := by
  unfold execGetPldmCommands at h
  refine live_keeps h ?_
  intro u hk
  try dsimp only
  repeat' (first
    | with_reducible assumption
    | with_reducible apply State.answer_keeps
    | split
    | exact fun _ e => e
    | exact fun _ _ => rfl
    | intro _
    | with_reducible apply Keeps.lit)

theorem execErrorUnsupportedPldmCmd_keeps {s₀ t : State} (type code : Byte) (h : execErrorUnsupportedPldmCmd type code s₀ = .next t) : Keeps s₀ t := by
  unfold execErrorUnsupportedPldmCmd at h
  refine live_keeps h ?_
  intro u hk
  try dsimp only
  repeat' (first
    | with_reducible assumption
    | with_reducible apply State.answer_keeps
    | split
    | exact fun _ e => e
    | exact fun _ _ => rfl
    | intro _
    | with_reducible apply Keeps.lit)

theorem execSetEventReceiver_keeps {s₀ t : State} (mode : EventMode) (eid : Byte) (heartbeat : Nat) (h : execSetEventReceiver mode eid heartbeat s₀ = .next t) : Keeps s₀ t := by
  unfold execSetEventReceiver at h
  refine live_keeps h ?_
  intro u hk
  try dsimp only
  repeat' (first
    | with_reducible assumption
    | with_reducible apply State.answer_keeps
    | split
    | exact fun _ e => e
    | exact fun _ _ => rfl
    | intro _
    | with_reducible apply Keeps.lit)

theorem execGetEventReceiver_keeps {s₀ t : State}  (h : execGetEventReceiver  s₀ = .next t) : Keeps s₀ t := by
  unfold execGetEventReceiver at h
  refine live_keeps h ?_
  intro u hk
  try dsimp only
  repeat' (first
    | with_reducible assumption
    | with_reducible apply State.answer_keeps
    | split
    | exact fun _ e => e
    | exact fun _ _ => rfl
    | intro _
    | with_reducible apply Keeps.lit)

theorem execEventMessageSupported_keeps {s₀ t : State}  (h : execEventMessageSupported  s₀ = .next t) : Keeps s₀ t := by
  unfold execEventMessageSupported at h
  refine live_keeps h ?_
  intro u hk
  try dsimp only
  repeat' (first
    | with_reducible assumption
    | with_reducible apply State.answer_keeps
    | split
    | exact fun _ e => e
    | exact fun _ _ => rfl
    | intro _
    | with_reducible apply Keeps.lit)

theorem execEventMessageBufferSize_keeps {s₀ t : State} (n : Nat) (h : execEventMessageBufferSize n s₀ = .next t) : Keeps s₀ t := by
  unfold execEventMessageBufferSize at h
  refine live_keeps h ?_
  intro u hk
  try dsimp only
  repeat' (first
    | with_reducible assumption
    | with_reducible apply State.answer_keeps
    | split
    | exact fun _ e => e
    | exact fun _ _ => rfl
    | intro _
    | with_reducible apply Keeps.lit)

theorem execGetSensorReading_keeps {s₀ t : State} (id : BitVec 16) (h : execGetSensorReading id s₀ = .next t) : Keeps s₀ t := by
  unfold execGetSensorReading at h
  refine live_keeps h ?_
  intro u hk
  try dsimp only
  repeat' (first
    | with_reducible assumption
    | with_reducible apply State.answer_keeps
    | split
    | exact fun _ e => e
    | exact fun _ _ => rfl
    | intro _
    | with_reducible apply Keeps.lit)

theorem execGetStateSensorReadings_keeps {s₀ t : State} (id : BitVec 16) (h : execGetStateSensorReadings id s₀ = .next t) : Keeps s₀ t := by
  unfold execGetStateSensorReadings at h
  refine live_keeps h ?_
  intro u hk
  try dsimp only
  repeat' (first
    | with_reducible assumption
    | with_reducible apply State.answer_keeps
    | split
    | exact fun _ e => e
    | exact fun _ _ => rfl
    | intro _
    | with_reducible apply Keeps.lit)

theorem execGetPdrRepositoryInfo_keeps {s₀ t : State}  (h : execGetPdrRepositoryInfo  s₀ = .next t) : Keeps s₀ t := by
  unfold execGetPdrRepositoryInfo at h
  refine live_keeps h ?_
  intro u hk
  try dsimp only
  repeat' (first
    | with_reducible assumption
    | with_reducible apply State.answer_keeps
    | split
    | exact fun _ e => e
    | exact fun _ _ => rfl
    | intro _
    | with_reducible apply Keeps.lit)

theorem execGetPdr_keeps {s₀ t : State} (index : Nat) (h : execGetPdr index s₀ = .next t) : Keeps s₀ t := by
  unfold execGetPdr at h
  refine live_keeps h ?_
  intro u hk
  try dsimp only
  repeat' (first
    | with_reducible assumption
    | with_reducible apply State.answer_keeps
    | split
    | exact fun _ e => e
    | exact fun _ _ => rfl
    | intro _
    | with_reducible apply Keeps.lit)

theorem execEventSend_keeps {s₀ t : State}  (h : execEventSend  s₀ = .next t) : Keeps s₀ t := by
  unfold execEventSend at h
  refine live_keeps h ?_
  intro u hk
  try dsimp only
  repeat' (first
    | with_reducible assumption
    | with_reducible apply State.modMgmt_keeps
    | with_reducible apply State.holdPolled_keeps
    | with_reducible apply State.markSending_keeps
    | with_reducible apply State.interrupt_keeps
    | with_reducible apply State.sendEvent_keeps
    | split
    | exact fun _ e => e
    | exact fun _ _ => rfl
    | intro _
    | with_reducible apply Keeps.lit)

theorem execEventAcknowledged_keeps {s₀ t : State}  (h : execEventAcknowledged  s₀ = .next t) : Keeps s₀ t := by
  unfold execEventAcknowledged at h
  refine live_keeps h ?_
  intro u hk
  try dsimp only
  repeat' (first
    | with_reducible assumption
    | with_reducible apply State.modMgmt_keeps
    | with_reducible apply State.releaseDaily_keeps
    | split
    | exact fun _ e => e
    | exact fun _ _ => rfl
    | intro _
    | with_reducible apply Keeps.lit)

theorem execEventResendTimeout_keeps {s₀ t : State}  (h : execEventResendTimeout  s₀ = .next t) : Keeps s₀ t := by
  unfold execEventResendTimeout at h
  refine live_keeps h ?_
  intro u hk
  try dsimp only
  repeat' (first
    | with_reducible assumption
    | with_reducible apply State.advanceTo_keeps
    | with_reducible apply State.modMgmt_keeps
    | with_reducible apply State.interrupt_keeps
    | with_reducible apply State.sendEvent_keeps
    | with_reducible apply State.holdPolled_keeps
    | split
    | exact fun _ e => e
    | exact fun _ _ => rfl
    | intro _
    | with_reducible apply Keeps.lit)

theorem execHeartbeatTimer_keeps {s₀ t : State}  (h : execHeartbeatTimer  s₀ = .next t) : Keeps s₀ t := by
  unfold execHeartbeatTimer at h
  refine live_keeps h ?_
  intro u hk
  try dsimp only
  repeat' (first
    | with_reducible assumption
    | with_reducible apply State.advanceTo_keeps
    | with_reducible apply State.modMgmt_keeps
    | with_reducible apply State.mgmtPush_keeps
    | split
    | exact fun _ e => e
    | exact fun _ _ => rfl
    | intro _
    | with_reducible apply Keeps.lit)

theorem execPollForPlatformEventMessage_keeps {s₀ t : State} (offset : Nat) (h : execPollForPlatformEventMessage offset s₀ = .next t) : Keeps s₀ t := by
  unfold execPollForPlatformEventMessage at h
  refine live_keeps h ?_
  intro u hk
  try dsimp only
  repeat' (first
    | with_reducible assumption
    | with_reducible apply State.mgmtReply_keeps
    | with_reducible apply State.releasePolled_keeps
    | with_reducible apply State.modMgmt_keeps
    | with_reducible apply State.markSending_keeps
    | split
    | exact fun _ e => e
    | exact fun _ _ => rfl
    | intro _
    | with_reducible apply Keeps.lit)

theorem execStart_keeps {s₀ t : State} (tag : Byte) (h : execStart tag s₀ = .next t) : Keeps s₀ t := by
  unfold execStart at h
  refine live_keeps h ?_
  intro u hk
  try dsimp only
  repeat' (first
    | with_reducible assumption
    | with_reducible apply State.portDo_keeps
    | with_reducible apply State.issue_keeps
    | with_reducible apply State.consented_keeps
    | with_reducible apply State.startAct_keeps
    | split
    | exact fun _ e => e
    | exact fun _ _ => rfl
    | intro _
    | with_reducible apply Keeps.lit)

theorem execLoadHarness_keeps {s₀ t : State} (tag : Byte) (h : execLoadHarness tag s₀ = .next t) : Keeps s₀ t := by
  unfold execLoadHarness at h
  refine live_keeps h ?_
  intro u hk
  try dsimp only
  repeat' (first
    | with_reducible assumption
    | with_reducible apply State.portDo_keeps
    | with_reducible apply State.issue_keeps
    | with_reducible apply State.consented_keeps
    | with_reducible apply State.loadHarnessAct_keeps
    | split
    | exact fun _ e => e
    | exact fun _ _ => rfl
    | intro _
    | with_reducible apply Keeps.lit)

theorem execRun_keeps {s₀ t : State} (tag : Byte) (h : execRun tag s₀ = .next t) : Keeps s₀ t := by
  unfold execRun at h
  refine live_keeps h ?_
  intro u hk
  try dsimp only
  repeat' (first
    | with_reducible assumption
    | with_reducible apply State.portDo_keeps
    | with_reducible apply State.issue_keeps
    | with_reducible apply State.consented_keeps
    | with_reducible apply State.runAct_keeps
    | split
    | exact fun _ e => e
    | exact fun _ _ => rfl
    | intro _
    | with_reducible apply Keeps.lit)

theorem execQuiesce_keeps {s₀ t : State} (tag : Byte) (h : execQuiesce tag s₀ = .next t) : Keeps s₀ t := by
  unfold execQuiesce at h
  refine live_keeps h ?_
  intro u hk
  try dsimp only
  repeat' (first
    | with_reducible assumption
    | with_reducible apply State.portDo_keeps
    | with_reducible apply State.issue_keeps
    | with_reducible apply State.endQuiesce_keeps
    | split
    | exact fun _ e => e
    | exact fun _ _ => rfl
    | intro _
    | with_reducible apply Keeps.lit)

theorem execSave_keeps {s₀ t : State} (tag : Byte) (h : execSave tag s₀ = .next t) : Keeps s₀ t := by
  unfold execSave at h
  refine live_keeps h ?_
  intro u hk
  try dsimp only
  repeat' (first
    | with_reducible assumption
    | with_reducible apply State.portDo_keeps
    | with_reducible apply State.issue_keeps
    | with_reducible apply State.refuseWord_keeps
    | with_reducible apply State.endCmd_keeps
    | with_reducible apply State.consented_keeps
    | with_reducible apply State.saveAct_keeps
    | split
    | exact fun _ e => e
    | exact fun _ _ => rfl
    | intro _
    | with_reducible apply Keeps.lit)

theorem execRestore_keeps {s₀ t : State} (tag : Byte) (image : SaveImage) (h : execRestore tag image s₀ = .next t) : Keeps s₀ t := by
  unfold execRestore at h
  refine live_keeps h ?_
  intro u hk
  try dsimp only
  repeat' (first
    | with_reducible assumption
    | with_reducible apply State.portDo_keeps
    | with_reducible apply State.issue_keeps
    | with_reducible apply State.consented_keeps
    | with_reducible apply State.restoreAct_keeps
    | split
    | exact fun _ e => e
    | exact fun _ _ => rfl
    | intro _
    | with_reducible apply Keeps.lit)

theorem execTrotUp_keeps {s₀ t : State} (tag : Byte) (h : execTrotUp tag s₀ = .next t) : Keeps s₀ t := by
  unfold execTrotUp at h
  refine live_keeps h ?_
  intro u hk
  try dsimp only
  repeat' (first
    | with_reducible assumption
    | with_reducible apply State.portDo_keeps
    | with_reducible apply State.issue_keeps
    | with_reducible apply State.eachHub_keeps
    | with_reducible apply State.placeByDriver_keeps
    | with_reducible apply State.endCmd_keeps
    | split
    | exact fun _ e => e
    | exact fun _ _ => rfl
    | intro _
    | with_reducible apply Keeps.lit)

theorem execClearSource_keeps {s₀ t : State} (tag : Byte) (h : execClearSource tag s₀ = .next t) : Keeps s₀ t := by
  unfold execClearSource at h
  refine live_keeps h ?_
  intro u hk
  try dsimp only
  repeat' (first
    | with_reducible assumption
    | with_reducible apply State.portDo_keeps
    | with_reducible apply State.issue_keeps
    | with_reducible apply State.consented_keeps
    | with_reducible apply State.clearSourceAct_keeps
    | split
    | exact fun _ e => e
    | exact fun _ _ => rfl
    | intro _
    | with_reducible apply Keeps.lit)

theorem execSetBand_keeps {s₀ t : State} (tag : Byte) (h : execSetBand tag s₀ = .next t) : Keeps s₀ t := by
  unfold execSetBand at h
  refine live_keeps h ?_
  intro u hk
  try dsimp only
  repeat' (first
    | with_reducible assumption
    | with_reducible apply State.portDo_keeps
    | with_reducible apply State.issue_keeps
    | with_reducible apply State.consented_keeps
    | with_reducible apply State.setBandAct_keeps
    | split
    | exact fun _ e => e
    | exact fun _ _ => rfl
    | intro _
    | with_reducible apply Keeps.lit)

theorem execRetireTwin_keeps {s₀ t : State} (tag : Byte) (h : execRetireTwin tag s₀ = .next t) : Keeps s₀ t := by
  unfold execRetireTwin at h
  refine live_keeps h ?_
  intro u hk
  try dsimp only
  repeat' (first
    | with_reducible assumption
    | with_reducible apply State.portDo_keeps
    | with_reducible apply State.issue_keeps
    | with_reducible apply State.finishMerge_keeps
    | with_reducible apply State.endRetire_keeps
    | split
    | exact fun _ e => e
    | exact fun _ _ => rfl
    | intro _
    | with_reducible apply Keeps.lit)

theorem execWrap_keeps {s₀ t : State} (tag : Byte) (h : execWrap tag s₀ = .next t) : Keeps s₀ t := by
  unfold execWrap at h
  refine live_keeps h ?_
  intro u hk
  try dsimp only
  repeat' (first
    | with_reducible assumption
    | with_reducible apply State.portDo_keeps
    | with_reducible apply State.issue_keeps
    | with_reducible apply State.endWrap_keeps
    | with_reducible apply State.askGroup_keeps
    | split
    | exact fun _ e => e
    | exact fun _ _ => rfl
    | intro _
    | with_reducible apply Keeps.lit)

theorem execSignResultOpen_keeps {s₀ t : State} (tag : Byte) (weights : List (List W32)) (h : execSignResultOpen tag weights s₀ = .next t) : Keeps s₀ t := by
  unfold execSignResultOpen at h
  refine live_keeps h ?_
  intro u hk
  try dsimp only
  repeat' (first
    | with_reducible assumption
    | with_reducible apply State.signResult_keeps
    | with_reducible apply State.signOpenAct_keeps
    | split
    | exact fun _ e => e
    | exact fun _ _ => rfl
    | intro _
    | with_reducible apply Keeps.lit)

theorem execSignResultSign_keeps {s₀ t : State} (tag : Byte) (h : execSignResultSign tag s₀ = .next t) : Keeps s₀ t := by
  unfold execSignResultSign at h
  refine live_keeps h ?_
  intro u hk
  try dsimp only
  repeat' (first
    | with_reducible assumption
    | with_reducible apply State.signResult_keeps
    | with_reducible apply State.signAct_keeps
    | split
    | exact fun _ e => e
    | exact fun _ _ => rfl
    | intro _
    | with_reducible apply Keeps.lit)

theorem execSignResultClose_keeps {s₀ t : State} (tag : Byte) (h : execSignResultClose tag s₀ = .next t) : Keeps s₀ t := by
  unfold execSignResultClose at h
  refine live_keeps h ?_
  intro u hk
  try dsimp only
  repeat' (first
    | with_reducible assumption
    | with_reducible apply State.signResult_keeps
    | with_reducible apply State.signAct_keeps
    | split
    | exact fun _ e => e
    | exact fun _ _ => rfl
    | intro _
    | with_reducible apply Keeps.lit)

theorem execLaunchAt_keeps {s₀ t : State} (tag : Byte) (h : execLaunchAt tag s₀ = .next t) : Keeps s₀ t := by
  unfold execLaunchAt at h
  refine live_keeps h ?_
  intro u hk
  try dsimp only
  repeat' (first
    | with_reducible assumption
    | with_reducible apply State.portDo_keeps
    | with_reducible apply State.issue_keeps
    | with_reducible apply State.consented_keeps
    | with_reducible apply State.launchAct_keeps
    | split
    | exact fun _ e => e
    | exact fun _ _ => rfl
    | intro _
    | with_reducible apply Keeps.lit)

theorem execHotUpdate_keeps {s₀ t : State} (tag : Byte) (wordsA wordsB : List W32) (h : execHotUpdate tag wordsA wordsB s₀ = .next t) : Keeps s₀ t := by
  unfold execHotUpdate at h
  refine live_keeps h ?_
  intro u hk
  try dsimp only
  repeat' (first
    | with_reducible assumption
    | with_reducible apply State.portDo_keeps
    | with_reducible apply State.issue_keeps
    | with_reducible apply State.eachHub_keeps
    | with_reducible apply State.recordCheck_keeps
    | with_reducible apply State.consented_keeps
    | with_reducible apply State.hotAct_keeps
    | with_reducible apply State.endCmd_keeps
    | with_reducible apply State.refusal_keeps
    | split
    | exact fun _ e => e
    | exact fun _ _ => rfl
    | intro _
    | with_reducible apply Keeps.lit)

theorem execReplay_keeps {s₀ t : State} (tag : Byte) (recorded : List InlogEntry) (h : execReplay tag recorded s₀ = .next t) : Keeps s₀ t := by
  unfold execReplay at h
  refine live_keeps h ?_
  intro u hk
  try dsimp only
  repeat' (first
    | with_reducible assumption
    | with_reducible apply State.portDo_keeps
    | with_reducible apply State.issue_keeps
    | with_reducible apply State.consented_keeps
    | with_reducible apply State.replayAct_keeps
    | split
    | exact fun _ e => e
    | exact fun _ _ => rfl
    | intro _
    | with_reducible apply Keeps.lit)

theorem execCommandTimeout_keeps {s₀ t : State}  (h : execCommandTimeout  s₀ = .next t) : Keeps s₀ t := by
  unfold execCommandTimeout at h
  refine live_keeps h ?_
  intro u hk
  try dsimp only
  repeat' (first
    | with_reducible assumption
    | with_reducible apply State.advanceTo_keeps
    | with_reducible apply State.endCmd_keeps
    | split
    | exact fun _ e => e
    | exact fun _ _ => rfl
    | intro _
    | with_reducible apply Keeps.lit)

theorem execRegisterWrite_keeps {s₀ t : State} (addr : BitVec 16) (data : W32) (h : execRegisterWrite addr data s₀ = .next t) : Keeps s₀ t := by
  unfold execRegisterWrite at h
  refine live_keeps h ?_
  intro u hk
  try dsimp only
  repeat' (first
    | with_reducible assumption
    | with_reducible apply State.portDo_keeps
    | with_reducible apply State.reservedOp_keeps
    | with_reducible apply State.regWriteServing_keeps
    | split
    | exact fun _ e => e
    | exact fun _ _ => rfl
    | intro _
    | with_reducible apply Keeps.lit)

theorem execPropose_keeps {s₀ t : State} (action : RelaxAction) (own : Option Nat) (h : execPropose action own s₀ = .next t) : Keeps s₀ t := by
  unfold execPropose at h
  refine live_keeps h ?_
  intro u hk
  try dsimp only
  repeat' (first
    | with_reducible assumption
    | with_reducible apply State.answer_keeps
    | with_reducible apply State.sendFrame_keeps
    | with_reducible apply State.propose_keeps
    | with_reducible apply State.pump_keeps
    | with_reducible apply State.clearProposal_keeps
    | with_reducible apply State.takeAction_keeps
    | split
    | exact fun _ e => e
    | exact fun _ _ => rfl
    | intro _
    | with_reducible apply Keeps.lit)

theorem execConsent_keeps {s₀ t : State}  (h : execConsent  s₀ = .next t) : Keeps s₀ t := by
  unfold execConsent at h
  refine live_keeps h ?_
  intro u hk
  try dsimp only
  repeat' (first
    | with_reducible assumption
    | with_reducible apply State.answer_keeps
    | with_reducible apply State.clearProposal_keeps
    | with_reducible apply State.takeAction_keeps
    | split
    | exact fun _ e => e
    | exact fun _ _ => rfl
    | intro _
    | with_reducible apply Keeps.lit)

theorem execRefuse_keeps {s₀ t : State}  (h : execRefuse  s₀ = .next t) : Keeps s₀ t := by
  unfold execRefuse at h
  refine live_keeps h ?_
  intro u hk
  try dsimp only
  repeat' (first
    | with_reducible assumption
    | with_reducible apply State.answer_keeps
    | with_reducible apply State.clearProposal_keeps
    | with_reducible apply State.refusal_keeps
    | with_reducible apply State.refuseAction_keeps
    | split
    | exact fun _ e => e
    | exact fun _ _ => rfl
    | intro _
    | with_reducible apply Keeps.lit)

end Sys2Proof.Machine
end

