-- ==== Sys2Proof/Laws/ExecKeepsHubs.lean ====
section
/-! SUPPORT. Every command of a family keeps what `Keeps` names: Registers, Indirect, Twin, HarnessCheck, BringUp, Stages, Sign. -/

namespace Sys2Proof.Machine

open Sys2Proof

theorem execStageBudgetExpiry_keeps {s₀ t : State}  (h : execStageBudgetExpiry  s₀ = .next t) : Keeps s₀ t := by
  unfold execStageBudgetExpiry at h
  refine live_keeps h ?_
  intro u hk
  try dsimp only
  repeat' (first
    | with_reducible assumption
    | with_reducible apply State.advanceTo_keeps
    | with_reducible apply State.breakStage_keeps
    | split
    | exact fun _ e => e
    | exact fun _ _ => rfl
    | intro _
    | with_reducible apply Keeps.lit)

theorem execRegAccessLatch_keeps {s₀ t : State} (addr : BitVec 16) (h : execRegAccessLatch addr s₀ = .next t) : Keeps s₀ t := by
  unfold execRegAccessLatch at h
  refine live_keeps h ?_
  intro u hk
  try dsimp only
  repeat' (first
    | with_reducible assumption
    | with_reducible apply State.latchWord_keeps
    | with_reducible apply State.present_keeps
    | split
    | exact fun _ e => e
    | exact fun _ _ => rfl
    | intro _
    | with_reducible apply Keeps.lit)

theorem execStickyClear_keeps {s₀ t : State} (w : Byte) (data : W32) (h : execStickyClear w data s₀ = .next t) : Keeps s₀ t := by
  unfold execStickyClear at h
  refine live_keeps h ?_
  intro u hk
  try dsimp only
  repeat' (first
    | with_reducible assumption
    | with_reducible apply State.portDo_keeps
    | with_reducible apply State.regWriteServing_keeps
    | split
    | exact fun _ e => e
    | exact fun _ _ => rfl
    | intro _
    | with_reducible apply Keeps.lit)

theorem execIrqStsClear_keeps {s₀ t : State} (data : W32) (h : execIrqStsClear data s₀ = .next t) : Keeps s₀ t := by
  unfold execIrqStsClear at h
  refine live_keeps h ?_
  intro u hk
  try dsimp only
  repeat' (first
    | with_reducible assumption
    | with_reducible apply State.portDo_keeps
    | with_reducible apply State.regWriteServing_keeps
    | split
    | exact fun _ e => e
    | exact fun _ _ => rfl
    | intro _
    | with_reducible apply Keeps.lit)

theorem execThrEvtClear_keeps {s₀ t : State} (data : W32) (h : execThrEvtClear data s₀ = .next t) : Keeps s₀ t := by
  unfold execThrEvtClear at h
  refine live_keeps h ?_
  intro u hk
  try dsimp only
  repeat' (first
    | with_reducible assumption
    | with_reducible apply State.portDo_keeps
    | with_reducible apply State.regWriteServing_keeps
    | split
    | exact fun _ e => e
    | exact fun _ _ => rfl
    | intro _
    | with_reducible apply Keeps.lit)

theorem execOverrunClear_keeps {s₀ t : State} (data : W32) (h : execOverrunClear data s₀ = .next t) : Keeps s₀ t := by
  unfold execOverrunClear at h
  refine live_keeps h ?_
  intro u hk
  try dsimp only
  repeat' (first
    | with_reducible assumption
    | with_reducible apply State.portDo_keeps
    | with_reducible apply State.mirrorWrite_keeps
    | split
    | exact fun _ e => e
    | exact fun _ _ => rfl
    | intro _
    | with_reducible apply Keeps.lit)

theorem execAbortFifoPop_keeps {s₀ t : State} (data : W32) (h : execAbortFifoPop data s₀ = .next t) : Keeps s₀ t := by
  unfold execAbortFifoPop at h
  refine live_keeps h ?_
  intro u hk
  try dsimp only
  repeat' (first
    | with_reducible assumption
    | with_reducible apply State.portDo_keeps
    | with_reducible apply State.releaseJob_keeps
    | with_reducible apply State.mirrorWrite_keeps
    | split
    | exact fun _ e => e
    | exact fun _ _ => rfl
    | intro _
    | with_reducible apply Keeps.lit)

theorem execForceWrite_keeps {s₀ t : State} (w : Byte) (data : W32) (h : execForceWrite w data s₀ = .next t) : Keeps s₀ t := by
  unfold execForceWrite at h
  refine live_keeps h ?_
  intro u hk
  try dsimp only
  repeat' (first
    | with_reducible assumption
    | with_reducible apply State.portDo_keeps
    | with_reducible apply State.atServing_keeps
    | with_reducible apply State.forceWord_keeps
    | with_reducible apply State.mirrorWrite_keeps
    | split
    | exact fun _ e => e
    | exact fun _ _ => rfl
    | intro _
    | with_reducible apply Keeps.lit)

theorem execInjectionTimeout_keeps {s₀ t : State} (pos : Nat) (h : execInjectionTimeout pos s₀ = .next t) : Keeps s₀ t := by
  unfold execInjectionTimeout at h
  refine live_keeps h ?_
  intro u hk
  try dsimp only
  repeat' (first
    | with_reducible assumption
    | with_reducible apply State.eachHub_keeps
    | with_reducible apply State.advanceTo_keeps
    | with_reducible apply State.modHub_keeps
    | split
    | exact fun _ e => e
    | exact fun _ _ => rfl
    | intro _
    | with_reducible apply Keeps.lit)

theorem execReelDataRead_keeps {s₀ t : State} (i : BitVec 2) (h : execReelDataRead i s₀ = .next t) : Keeps s₀ t := by
  unfold execReelDataRead at h
  refine live_keeps h ?_
  intro u hk
  try dsimp only
  repeat' (first
    | with_reducible assumption
    | with_reducible apply State.latchWord_keeps
    | with_reducible apply State.present_keeps
    | with_reducible apply State.modHubs_keeps
    | split
    | exact fun _ e => e
    | exact fun _ _ => rfl
    | intro _
    | with_reducible apply Keeps.lit)

theorem execIndSelect_keeps {s₀ t : State} (isAddr : Bool) (data : W32) (h : execIndSelect isAddr data s₀ = .next t) : Keeps s₀ t := by
  unfold execIndSelect at h
  refine live_keeps h ?_
  intro u hk
  try dsimp only
  repeat' (first
    | with_reducible assumption
    | with_reducible apply State.portDo_keeps
    | with_reducible apply State.indSettle_keeps
    | with_reducible apply State.regWriteServing_keeps
    | with_reducible apply State.indFetch_keeps
    | split
    | exact fun _ e => e
    | exact fun _ _ => rfl
    | intro _
    | with_reducible apply Keeps.lit)

theorem execIndFetchDone_keeps {s₀ t : State}  (h : execIndFetchDone  s₀ = .next t) : Keeps s₀ t := by
  unfold execIndFetchDone at h
  refine live_keeps h ?_
  intro u hk
  try dsimp only
  repeat' (first
    | with_reducible assumption
    | with_reducible apply State.indComplete_keeps
    | split
    | exact fun _ e => e
    | exact fun _ _ => rfl
    | intro _
    | with_reducible apply Keeps.lit)

theorem execIndDataRead_keeps {s₀ t : State}  (h : execIndDataRead  s₀ = .next t) : Keeps s₀ t := by
  unfold execIndDataRead at h
  refine live_keeps h ?_
  intro u hk
  try dsimp only
  repeat' (first
    | with_reducible assumption
    | with_reducible apply State.present_keeps
    | with_reducible apply State.indAdvance_keeps
    | with_reducible apply State.indFetch_keeps
    | split
    | exact fun _ e => e
    | exact fun _ _ => rfl
    | intro _
    | with_reducible apply Keeps.lit)

theorem execIndDataWrite_keeps {s₀ t : State} (data : W32) (h : execIndDataWrite data s₀ = .next t) : Keeps s₀ t := by
  unfold execIndDataWrite at h
  refine live_keeps h ?_
  intro u hk
  try dsimp only
  repeat' (first
    | with_reducible assumption
    | with_reducible apply State.portDo_keeps
    | with_reducible apply State.indComplete_keeps
    | with_reducible apply State.mirrorWrite_keeps
    | split
    | exact fun _ e => e
    | exact fun _ _ => rfl
    | intro _
    | with_reducible apply Keeps.lit)

theorem execHello_keeps {s₀ t : State} (hub : HubId) (selfTest : Bool) (h : execHello hub selfTest s₀ = .next t) : Keeps s₀ t := by
  unfold execHello at h
  refine live_keeps h ?_
  intro u hk
  try dsimp only
  repeat' (first
    | with_reducible assumption
    | with_reducible apply State.sendFrame_keeps
    | with_reducible apply State.modHub_keeps
    | split
    | exact fun _ e => e
    | exact fun _ _ => rfl
    | intro _
    | with_reducible apply Keeps.lit)

theorem execHeartSend_keeps {s₀ t : State} (hub : HubId) (h : execHeartSend hub s₀ = .next t) : Keeps s₀ t := by
  unfold execHeartSend at h
  refine live_keeps h ?_
  intro u hk
  try dsimp only
  repeat' (first
    | with_reducible assumption
    | with_reducible apply State.advanceTo_keeps
    | with_reducible apply State.sendFrame_keeps
    | split
    | exact fun _ e => e
    | exact fun _ _ => rfl
    | intro _
    | with_reducible apply Keeps.lit)

theorem execXlinkFrameReceive_keeps {s₀ t : State} (hub : HubId) (frame : BitVec 256) (h : execXlinkFrameReceive hub frame s₀ = .next t) : Keeps s₀ t := by
  unfold execXlinkFrameReceive at h
  refine live_keeps h ?_
  intro u hk
  try dsimp only
  repeat' (first
    | with_reducible assumption
    | with_reducible apply State.modX_keeps
    | with_reducible apply State.pump_keeps
    | with_reducible apply State.modHub_keeps
    | split
    | exact fun _ e => e
    | exact fun _ _ => rfl
    | intro _
    | with_reducible apply Keeps.lit)

theorem execXlinkResend_keeps {s₀ t : State} (hub : HubId) (h : execXlinkResend hub s₀ = .next t) : Keeps s₀ t := by
  unfold execXlinkResend at h
  refine live_keeps h ?_
  intro u hk
  try dsimp only
  repeat' (first
    | with_reducible assumption
    | with_reducible apply State.advanceTo_keeps
    | with_reducible apply State.modX_keeps
    | with_reducible apply State.each_keeps
    | with_reducible apply State.present_keeps
    | split
    | exact fun _ e => e
    | exact fun _ _ => rfl
    | intro _
    | with_reducible apply Keeps.lit)

theorem execCrossLinkRetrain_keeps {s₀ t : State}  (h : execCrossLinkRetrain  s₀ = .next t) : Keeps s₀ t := by
  unfold execCrossLinkRetrain at h
  refine live_keeps h ?_
  intro u hk
  try dsimp only
  repeat' (first
    | with_reducible assumption
    | split
    | exact fun _ e => e
    | exact fun _ _ => rfl
    | intro _
    | with_reducible apply Keeps.lit)

theorem execDigestCut_keeps {s₀ t : State}  (h : execDigestCut  s₀ = .next t) : Keeps s₀ t := by
  unfold execDigestCut at h
  refine live_keeps h ?_
  intro u hk
  try dsimp only
  repeat' (first
    | with_reducible assumption
    | with_reducible apply State.advanceClk_keeps
    | with_reducible apply State.showCmd_keeps
    | with_reducible apply State.sendDigest_keeps
    | with_reducible apply State.endRetire_keeps
    | split
    | exact fun _ e => e
    | exact fun _ _ => rfl
    | intro _
    | with_reducible apply Keeps.lit)

theorem execDigest_keeps {s₀ t : State} (hub : HubId) (seq : W32) (value : W64) (h : execDigest hub seq value s₀ = .next t) : Keeps s₀ t := by
  unfold execDigest at h
  refine live_keeps h ?_
  intro u hk
  try dsimp only
  repeat' (first
    | with_reducible assumption
    | with_reducible apply State.modHub_keeps
    | with_reducible apply State.queueFrame_keeps
    | with_reducible apply State.note_keeps
    | split
    | exact fun _ e => e
    | exact fun _ _ => rfl
    | intro _
    | with_reducible apply Keeps.lit)

theorem execSections_keeps {s₀ t : State} (hub : HubId) (h : execSections hub s₀ = .next t) : Keeps s₀ t := by
  unfold execSections at h
  refine live_keeps h ?_
  intro u hk
  try dsimp only
  repeat' (first
    | with_reducible assumption
    | with_reducible apply State.each_keeps
    | with_reducible apply State.queueFrame_keeps
    | split
    | exact fun _ e => e
    | exact fun _ _ => rfl
    | intro _
    | with_reducible apply Keeps.lit)

theorem execItems_keeps {s₀ t : State} (hub : HubId) (sec : DigestSection) (h : execItems hub sec s₀ = .next t) : Keeps s₀ t := by
  unfold execItems at h
  refine live_keeps h ?_
  intro u hk
  try dsimp only
  repeat' (first
    | with_reducible assumption
    | with_reducible apply State.mergeSection_keeps
    | split
    | exact fun _ e => e
    | exact fun _ _ => rfl
    | intro _
    | with_reducible apply Keeps.lit)

theorem execMirror_keeps {s₀ t : State} (hub : HubId) (h : execMirror hub s₀ = .next t) : Keeps s₀ t := by
  unfold execMirror at h
  refine live_keeps h ?_
  intro u hk
  try dsimp only
  repeat' (first
    | with_reducible assumption
    | with_reducible apply State.modX_keeps
    | with_reducible apply State.sendFrame_keeps
    | with_reducible apply State.applyMirror_keeps
    | with_reducible apply State.takeUpLead_keeps
    | with_reducible apply State.fifoAbort_keeps
    | with_reducible apply State.modHub_keeps
    | split
    | exact fun _ e => e
    | exact fun _ _ => rfl
    | intro _
    | with_reducible apply Keeps.lit)

theorem execRegWrite_keeps {s₀ t : State} (hub : HubId) (h : execRegWrite hub s₀ = .next t) : Keeps s₀ t := by
  unfold execRegWrite at h
  refine live_keeps h ?_
  intro u hk
  try dsimp only
  repeat' (first
    | with_reducible assumption
    | with_reducible apply State.modX_keeps
    | with_reducible apply State.sendFrame_keeps
    | with_reducible apply State.applyWrite_keeps
    | split
    | exact fun _ e => e
    | exact fun _ _ => rfl
    | intro _
    | with_reducible apply Keeps.lit)

theorem execTwinSilence_keeps {s₀ t : State} (hub : HubId) (h : execTwinSilence hub s₀ = .next t) : Keeps s₀ t := by
  unfold execTwinSilence at h
  refine live_keeps h ?_
  intro u hk
  try dsimp only
  repeat' (first
    | with_reducible assumption
    | with_reducible apply State.advanceTo_keeps
    | with_reducible apply State.claim_keeps
    | with_reducible apply State.note_keeps
    | split
    | exact fun _ e => e
    | exact fun _ _ => rfl
    | intro _
    | with_reducible apply Keeps.lit)

theorem execAliveClaimGrant_keeps {s₀ t : State}  (h : execAliveClaimGrant  s₀ = .next t) : Keeps s₀ t := by
  unfold execAliveClaimGrant at h
  refine live_keeps h ?_
  intro u hk
  try dsimp only
  repeat' (first
    | with_reducible assumption
    | with_reducible apply State.detach_keeps
    | with_reducible apply State.takeUpLead_keeps
    | with_reducible apply State.rerunStage_keeps
    | split
    | exact fun _ e => e
    | exact fun _ _ => rfl
    | intro _
    | with_reducible apply Keeps.lit)

theorem execTwinArbitration_keeps {s₀ t : State} (passA passB : Bool) (h : execTwinArbitration passA passB s₀ = .next t) : Keeps s₀ t := by
  unfold execTwinArbitration at h
  refine live_keeps h ?_
  intro u hk
  try dsimp only
  repeat' (first
    | with_reducible assumption
    | with_reducible apply State.selfTests_keeps
    | with_reducible apply State.reportTest_keeps
    | with_reducible apply State.detach_keeps
    | with_reducible apply State.takeUpLead_keeps
    | with_reducible apply State.eachHub_keeps
    | with_reducible apply State.note_keeps
    | split
    | exact fun _ e => e
    | exact fun _ _ => rfl
    | intro _
    | with_reducible apply Keeps.lit)

theorem execHubStrobe_keeps {s₀ t : State} (hub : HubId) (h : execHubStrobe hub s₀ = .next t) : Keeps s₀ t := by
  unfold execHubStrobe at h
  refine live_keeps h ?_
  intro u hk
  try dsimp only
  repeat' (first
    | with_reducible assumption
    | split
    | exact fun _ e => e
    | exact fun _ _ => rfl
    | intro _
    | with_reducible apply Keeps.lit)

theorem execAliveBoundary_keeps {s₀ t : State}  (h : execAliveBoundary  s₀ = .next t) : Keeps s₀ t := by
  unfold execAliveBoundary at h
  refine live_keeps h ?_
  intro u hk
  try dsimp only
  repeat' (first
    | with_reducible assumption
    | with_reducible apply State.advanceTo_keeps
    | with_reducible apply State.present_keeps
    | split
    | exact fun _ e => e
    | exact fun _ _ => rfl
    | intro _
    | with_reducible apply Keeps.lit)

theorem execStage0Identity_keeps {s₀ t : State} (us : Nat) (badAgents badConcs : List Nat) (reports : List (Nat × Nat × Nat)) (hubAOk hubBOk : Bool) (h : execStage0Identity us badAgents badConcs reports hubAOk hubBOk s₀ = .next t) : Keeps s₀ t := by
  unfold execStage0Identity at h
  refine live_keeps h ?_
  intro u hk
  try dsimp only
  repeat' (first
    | with_reducible assumption
    | with_reducible apply State.runStage_keeps
    | with_reducible apply State.each_keeps
    | with_reducible apply State.oddReport_keeps
    | with_reducible apply State.lameEach_keeps
    | with_reducible apply State.selfTests_keeps
    | split
    | exact fun _ e => e
    | exact fun _ _ => rfl
    | intro _
    | with_reducible apply Keeps.lit)

theorem execKeyPortBeat_keeps {s₀ t : State} (data : W64) (last : Bool) (h : execKeyPortBeat data last s₀ = .next t) : Keeps s₀ t := by
  unfold execKeyPortBeat at h
  refine live_keeps h ?_
  intro u hk
  try dsimp only
  repeat' (first
    | with_reducible assumption
    | with_reducible apply State.refuseItem_keeps
    | with_reducible apply State.present_keeps
    | split
    | exact fun _ e => e
    | exact fun _ _ => rfl
    | intro _
    | with_reducible apply Keeps.lit)

theorem execKeyPortBad_keeps {s₀ t : State}  (h : execKeyPortBad  s₀ = .next t) : Keeps s₀ t := by
  unfold execKeyPortBad at h
  refine live_keeps h ?_
  intro u hk
  try dsimp only
  repeat' (first
    | with_reducible assumption
    | with_reducible apply State.refuseItem_keeps
    | split
    | exact fun _ e => e
    | exact fun _ _ => rfl
    | intro _
    | with_reducible apply Keeps.lit)

theorem execKeyItemTimeout_keeps {s₀ t : State}  (h : execKeyItemTimeout  s₀ = .next t) : Keeps s₀ t := by
  unfold execKeyItemTimeout at h
  refine live_keeps h ?_
  intro u hk
  try dsimp only
  repeat' (first
    | with_reducible assumption
    | with_reducible apply State.advanceTo_keeps
    | with_reducible apply State.refuseItem_keeps
    | split
    | exact fun _ e => e
    | exact fun _ _ => rfl
    | intro _
    | with_reducible apply Keeps.lit)

theorem execStage1Keys_keeps {s₀ t : State} (us : Nat) (h : execStage1Keys us s₀ = .next t) : Keeps s₀ t := by
  unfold execStage1Keys at h
  refine live_keeps h ?_
  intro u hk
  try dsimp only
  repeat' (first
    | with_reducible assumption
    | with_reducible apply State.runStage_keeps
    | split
    | exact fun _ e => e
    | exact fun _ _ => rfl
    | intro _
    | with_reducible apply Keeps.lit)

theorem execStage2Pairing_keeps {s₀ t : State} (us : Nat) (passA passB : Bool) (h : execStage2Pairing us passA passB s₀ = .next t) : Keeps s₀ t := by
  unfold execStage2Pairing at h
  refine live_keeps h ?_
  intro u hk
  try dsimp only
  repeat' (first
    | with_reducible assumption
    | with_reducible apply State.runStage_keeps
    | with_reducible apply State.place2_keeps
    | with_reducible apply State.selfTestFault_keeps
    | split
    | exact fun _ e => e
    | exact fun _ _ => rfl
    | intro _
    | with_reducible apply Keeps.lit)

theorem execLinkTrainAttemptEnd_keeps {s₀ t : State} (l : TrainLink) (ok : Bool) (h : execLinkTrainAttemptEnd l ok s₀ = .next t) : Keeps s₀ t := by
  unfold execLinkTrainAttemptEnd at h
  refine live_keeps h ?_
  intro u hk
  try dsimp only
  repeat' (first
    | with_reducible assumption
    | with_reducible apply State.trainDie_keeps
    | split
    | exact fun _ e => e
    | exact fun _ _ => rfl
    | intro _
    | with_reducible apply Keeps.lit)

theorem execStage3DieLinks_keeps {s₀ t : State} (us : Nat) (h : execStage3DieLinks us s₀ = .next t) : Keeps s₀ t := by
  unfold execStage3DieLinks at h
  refine live_keeps h ?_
  intro u hk
  try dsimp only
  repeat' (first
    | with_reducible assumption
    | with_reducible apply State.runStage_keeps
    | with_reducible apply State.judgeDies_keeps
    | split
    | exact fun _ e => e
    | exact fun _ _ => rfl
    | intro _
    | with_reducible apply Keeps.lit)

theorem execStage4Harness_keeps {s₀ t : State} (us : Nat) (wordsA wordsB : List W32) (h : execStage4Harness us wordsA wordsB s₀ = .next t) : Keeps s₀ t := by
  unfold execStage4Harness at h
  refine live_keeps h ?_
  intro u hk
  try dsimp only
  repeat' (first
    | with_reducible assumption
    | with_reducible apply State.runStage_keeps
    | with_reducible apply State.eachHub_keeps
    | with_reducible apply State.recordCheck_keeps
    | with_reducible apply State.acceptHarness_keeps
    | split
    | exact fun _ e => e
    | exact fun _ _ => rfl
    | intro _
    | with_reducible apply Keeps.lit)

theorem execStage5AgentImage_keeps {s₀ t : State} (len : Nat) (h : execStage5AgentImage len s₀ = .next t) : Keeps s₀ t := by
  unfold execStage5AgentImage at h
  refine live_keeps h ?_
  intro u hk
  try dsimp only
  repeat' (first
    | with_reducible assumption
    | with_reducible apply State.each_keeps
    | with_reducible apply State.modAgent_keeps
    | with_reducible apply State.sendPacket_keeps
    | split
    | exact fun _ e => e
    | exact fun _ _ => rfl
    | intro _
    | with_reducible apply Keeps.lit)

theorem execImagePacket_keeps {s₀ t : State} (agent : Nat) (header : W64) (payload : List Byte) (h : execImagePacket agent header payload s₀ = .next t) : Keeps s₀ t := by
  unfold execImagePacket at h
  refine live_keeps h ?_
  intro u hk
  try dsimp only
  repeat' (first
    | with_reducible assumption
    | with_reducible apply State.modAgent_keeps
    | split
    | exact fun _ e => e
    | exact fun _ _ => rfl
    | intro _
    | with_reducible apply Keeps.lit)

theorem execImageCollect_keeps {s₀ t : State} (silent : List Nat) (h : execImageCollect silent s₀ = .next t) : Keeps s₀ t := by
  unfold execImageCollect at h
  refine live_keeps h ?_
  intro u hk
  try dsimp only
  repeat' (first
    | with_reducible assumption
    | with_reducible apply State.advanceTo_keeps
    | with_reducible apply State.breakStage_keeps
    | with_reducible apply State.lameEach_keeps
    | with_reducible apply State.endStage_keeps
    | with_reducible apply State.each_keeps
    | with_reducible apply State.sendPacket_keeps
    | split
    | exact fun _ e => e
    | exact fun _ _ => rfl
    | intro _
    | with_reducible apply Keeps.lit)

theorem execStage6LameList_keeps {s₀ t : State} (us : Nat) (h : execStage6LameList us s₀ = .next t) : Keeps s₀ t := by
  unfold execStage6LameList at h
  refine live_keeps h ?_
  intro u hk
  try dsimp only
  repeat' (first
    | with_reducible assumption
    | with_reducible apply State.runStage_keeps
    | with_reducible apply State.applyPersist_keeps
    | refine State.applyPersist_keepsOf (by assumption) ?_
    | split
    | exact fun _ e => e
    | exact fun _ _ => rfl
    | intro _
    | with_reducible apply Keeps.lit)

theorem execStage7Housekeeping_keeps {s₀ t : State} (us : Nat) (crystalOk : Bool) (offset : Int) (counts : List (Nat × Nat)) (h : execStage7Housekeeping us crystalOk offset counts s₀ = .next t) : Keeps s₀ t := by
  unfold execStage7Housekeeping at h
  refine live_keeps h ?_
  intro u hk
  try dsimp only
  repeat' (first
    | with_reducible assumption
    | with_reducible apply State.runStage_keeps
    | with_reducible apply State.eachHub_keeps
    | with_reducible apply State.modHub_keeps
    | with_reducible apply State.twoRounds_keeps
    | with_reducible apply State.each_keeps
    | with_reducible apply State.takeMargins_keeps
    | split
    | exact fun _ e => e
    | exact fun _ _ => rfl
    | intro _
    | with_reducible apply Keeps.lit)

theorem execStage8KnownAnswer_keeps {s₀ t : State} (us : Nat) (lanes units : List (Nat × Nat)) (concs : List Nat) (h : execStage8KnownAnswer us lanes units concs s₀ = .next t) : Keeps s₀ t := by
  unfold execStage8KnownAnswer at h
  refine live_keeps h ?_
  intro u hk
  try dsimp only
  repeat' (first
    | with_reducible assumption
    | with_reducible apply State.runStage_keeps
    | with_reducible apply State.each_keeps
    | with_reducible apply State.laneFails_keeps
    | with_reducible apply State.unitFails_keeps
    | with_reducible apply State.lameEach_keeps
    | with_reducible apply State.passTest_keeps
    | split
    | exact fun _ e => e
    | exact fun _ _ => rfl
    | intro _
    | with_reducible apply Keeps.lit)

theorem execStage10Ready_keeps {s₀ t : State} (us : Nat) (h : execStage10Ready us s₀ = .next t) : Keeps s₀ t := by
  unfold execStage10Ready at h
  refine live_keeps h ?_
  intro u hk
  try dsimp only
  repeat' (first
    | with_reducible assumption
    | with_reducible apply State.runStage_keeps
    | with_reducible apply State.enterReady_keeps
    | with_reducible apply State.endCmd_keeps
    | split
    | exact fun _ e => e
    | exact fun _ _ => rfl
    | intro _
    | with_reducible apply Keeps.lit)

end Sys2Proof.Machine
end

