-- ==== Sys2Proof/Laws/ExecKeepsTags.lean ====
section
/-! SUPPORT. Every command of a family keeps what `Keeps` names: Tags, Steps, Beacons, Housekeeping, Links. -/

namespace Sys2Proof.Machine

open Sys2Proof

theorem execWriteChecked_keeps {s₀ t : State} (engine : Nat) (stream : BitVec 7) (addr : Addr) (job : Job) (h : execWriteChecked engine stream addr job s₀ = .next t) : Keeps s₀ t := by
  unfold execWriteChecked at h
  refine live_keeps h ?_
  intro u hk
  try dsimp only
  repeat' (first
    | with_reducible assumption
    | with_reducible apply State.memOp_keeps
    | split
    | exact fun _ e => e
    | exact fun _ _ => rfl
    | intro _
    | with_reducible apply Keeps.lit)

theorem execWritePlain_keeps {s₀ t : State} (engine : Nat) (stream : BitVec 7) (addr : Addr) (job : Job) (h : execWritePlain engine stream addr job s₀ = .next t) : Keeps s₀ t := by
  unfold execWritePlain at h
  refine live_keeps h ?_
  intro u hk
  try dsimp only
  repeat' (first
    | with_reducible assumption
    | with_reducible apply State.memOp_keeps
    | split
    | exact fun _ e => e
    | exact fun _ _ => rfl
    | intro _
    | with_reducible apply Keeps.lit)

theorem execWriteExpect_keeps {s₀ t : State} (engine : Nat) (stream : BitVec 7) (addr : Addr) (job : Job) (d : BitVec 31) (h : execWriteExpect engine stream addr job d s₀ = .next t) : Keeps s₀ t := by
  unfold execWriteExpect at h
  refine live_keeps h ?_
  intro u hk
  try dsimp only
  repeat' (first
    | with_reducible assumption
    | with_reducible apply State.memOp_keeps
    | split
    | exact fun _ e => e
    | exact fun _ _ => rfl
    | intro _
    | with_reducible apply Keeps.lit)

theorem execWritePoison_keeps {s₀ t : State} (engine : Nat) (stream : BitVec 7) (addr : Addr) (job : Job) (h : execWritePoison engine stream addr job s₀ = .next t) : Keeps s₀ t := by
  unfold execWritePoison at h
  refine live_keeps h ?_
  intro u hk
  try dsimp only
  repeat' (first
    | with_reducible assumption
    | with_reducible apply State.memOp_keeps
    | split
    | exact fun _ e => e
    | exact fun _ _ => rfl
    | intro _
    | with_reducible apply Keeps.lit)

theorem execWriteExternal_keeps {s₀ t : State} (engine : Nat) (stream : BitVec 7) (addr : Addr) (job : Job) (h : execWriteExternal engine stream addr job s₀ = .next t) : Keeps s₀ t := by
  unfold execWriteExternal at h
  refine live_keeps h ?_
  intro u hk
  try dsimp only
  repeat' (first
    | with_reducible assumption
    | with_reducible apply State.memOp_keeps
    | split
    | exact fun _ e => e
    | exact fun _ _ => rfl
    | intro _
    | with_reducible apply Keeps.lit)

theorem execWritePartial_keeps {s₀ t : State} (engine : Nat) (stream : BitVec 7) (addr : Addr) (job : Job) (first last : BitVec 16) (h : execWritePartial engine stream addr job first last s₀ = .next t) : Keeps s₀ t := by
  unfold execWritePartial at h
  refine live_keeps h ?_
  intro u hk
  try dsimp only
  repeat' (first
    | with_reducible assumption
    | with_reducible apply State.memOp_keeps
    | split
    | exact fun _ e => e
    | exact fun _ _ => rfl
    | intro _
    | with_reducible apply Keeps.lit)

theorem execRead_keeps {s₀ t : State} (engine : Nat) (stream : BitVec 7) (addr : Addr) (job : Job) (whole : Bool) (h : execRead engine stream addr job whole s₀ = .next t) : Keeps s₀ t := by
  unfold execRead at h
  refine live_keeps h ?_
  intro u hk
  try dsimp only
  repeat' (first
    | with_reducible assumption
    | with_reducible apply State.memOp_keeps
    | split
    | exact fun _ e => e
    | exact fun _ _ => rfl
    | intro _
    | with_reducible apply Keeps.lit)

theorem execTgDataBeat_keeps {s₀ t : State} (engine : Nat) (beat : TgBeat) (h : execTgDataBeat engine beat s₀ = .next t) : Keeps s₀ t := by
  unfold execTgDataBeat at h
  refine live_keeps h ?_
  intro u hk
  try dsimp only
  repeat' (first
    | with_reducible assumption
    | with_reducible apply State.countTag_keeps
    | with_reducible apply State.untaggedBeat_keeps
    | with_reducible apply State.taggedBeat_keeps
    | split
    | exact fun _ e => e
    | exact fun _ _ => rfl
    | intro _
    | with_reducible apply Keeps.lit)

theorem execCommit_keeps {s₀ t : State} (engine : Nat) (addr : Addr) (count : BitVec 16) (job : Job) (h : execCommit engine addr count job s₀ = .next t) : Keeps s₀ t := by
  unfold execCommit at h
  refine live_keeps h ?_
  intro u hk
  try dsimp only
  repeat' (first
    | with_reducible assumption
    | with_reducible apply State.takeCommit_keeps
    | with_reducible apply State.present_keeps
    | split
    | exact fun _ e => e
    | exact fun _ _ => rfl
    | intro _
    | with_reducible apply Keeps.lit)

theorem execPoison_keeps {s₀ t : State} (engine : Nat) (addr : Addr) (count : BitVec 16) (job : Job) (h : execPoison engine addr count job s₀ = .next t) : Keeps s₀ t := by
  unfold execPoison at h
  refine live_keeps h ?_
  intro u hk
  try dsimp only
  repeat' (first
    | with_reducible assumption
    | with_reducible apply State.poisonRange_keeps
    | with_reducible apply State.present_keeps
    | split
    | exact fun _ e => e
    | exact fun _ _ => rfl
    | intro _
    | with_reducible apply Keeps.lit)

theorem execCommitBufferFree_keeps {s₀ t : State} (engine : Nat) (h : execCommitBufferFree engine s₀ = .next t) : Keeps s₀ t := by
  unfold execCommitBufferFree at h
  refine live_keeps h ?_
  intro u hk
  try dsimp only
  repeat' (first
    | with_reducible assumption
    | with_reducible apply State.modEngine_keeps
    | with_reducible apply State.each_keeps
    | with_reducible apply State.commitEffect_keeps
    | split
    | exact fun _ e => e
    | exact fun _ _ => rfl
    | intro _
    | with_reducible apply Keeps.lit)

theorem execSideAck_keeps {s₀ t : State} (engine : Nat) (id : BitVec 4) (rdata : W32) (ue : Bool) (h : execSideAck engine id rdata ue s₀ = .next t) : Keeps s₀ t := by
  unfold execSideAck at h
  refine live_keeps h ?_
  intro u hk
  try dsimp only
  repeat' (first
    | with_reducible assumption
    | with_reducible apply State.modEngine_keeps
    | with_reducible apply State.issueWaiting_keeps
    | with_reducible apply State.sideDone_keeps
    | split
    | exact fun _ e => e
    | exact fun _ _ => rfl
    | intro _
    | with_reducible apply Keeps.lit)

theorem execSidecarTimeout_keeps {s₀ t : State} (engine : Nat) (id : BitVec 4) (h : execSidecarTimeout engine id s₀ = .next t) : Keeps s₀ t := by
  unfold execSidecarTimeout at h
  refine live_keeps h ?_
  intro u hk
  try dsimp only
  repeat' (first
    | with_reducible assumption
    | with_reducible apply State.advanceTo_keeps
    | with_reducible apply State.modEngine_keeps
    | with_reducible apply State.sideDone_keeps
    | split
    | exact fun _ e => e
    | exact fun _ _ => rfl
    | intro _
    | with_reducible apply Keeps.lit)

theorem execTgSourceReply_keeps {s₀ t : State} (engine : Nat) (code : BitVec 4) (d : BitVec 31) (addr : Addr) (uses : List SrcUse) (h : execTgSourceReply engine code d addr uses s₀ = .next t) : Keeps s₀ t := by
  unfold execTgSourceReply at h
  refine live_keeps h ?_
  intro u hk
  try dsimp only
  repeat' (first
    | with_reducible assumption
    | with_reducible apply State.each_keeps
    | with_reducible apply State.packetUse_keeps
    | with_reducible apply State.destUse_keeps
    | split
    | exact fun _ e => e
    | exact fun _ _ => rfl
    | intro _
    | with_reducible apply Keeps.lit)

theorem execLinkPacketSend_keeps {s₀ t : State} (engine : Nat) (packet : LinkPacket) (ledger : Option (BitVec 128)) (h : execLinkPacketSend engine packet ledger s₀ = .next t) : Keeps s₀ t := by
  unfold execLinkPacketSend at h
  refine live_keeps h ?_
  intro u hk
  try dsimp only
  repeat' (first
    | with_reducible assumption
    | with_reducible apply State.addRows_keeps
    | with_reducible apply State.modEngine_keeps
    | with_reducible apply State.present_keeps
    | with_reducible apply State.mismatch_keeps
    | split
    | exact fun _ e => e
    | exact fun _ _ => rfl
    | intro _
    | with_reducible apply Keeps.lit)

theorem execLinkPacketReceive_keeps {s₀ t : State} (engine : Nat) (packet : LinkPacket) (tag : W32) (h : execLinkPacketReceive engine packet tag s₀ = .next t) : Keeps s₀ t := by
  unfold execLinkPacketReceive at h
  refine live_keeps h ?_
  intro u hk
  try dsimp only
  repeat' (first
    | with_reducible assumption
    | with_reducible apply State.each_keeps
    | with_reducible apply State.present_keeps
    | with_reducible apply State.mismatch_keeps
    | split
    | exact fun _ e => e
    | exact fun _ _ => rfl
    | intro _
    | with_reducible apply Keeps.lit)

theorem execLedgerOpen_keeps {s₀ t : State} (engine : Nat) (receiver : Bool) (addr : Addr) (count : BitVec 16) (job : Job) (round : BitVec 16) (value : W32) (h : execLedgerOpen engine receiver addr count job round value s₀ = .next t) : Keeps s₀ t := by
  unfold execLedgerOpen at h
  refine live_keeps h ?_
  intro u hk
  try dsimp only
  repeat' (first
    | with_reducible assumption
    | with_reducible apply State.modEngine_keeps
    | with_reducible apply State.modConc_keeps
    | with_reducible apply State.present_keeps
    | split
    | exact fun _ e => e
    | exact fun _ _ => rfl
    | intro _
    | with_reducible apply Keeps.lit)

theorem execLedgerClose_keeps {s₀ t : State} (engine : Nat) (receiver : Bool) (job : Job) (round : BitVec 16) (h : execLedgerClose engine receiver job round s₀ = .next t) : Keeps s₀ t := by
  unfold execLedgerClose at h
  refine live_keeps h ?_
  intro u hk
  try dsimp only
  repeat' (first
    | with_reducible assumption
    | with_reducible apply State.closeReceiver_keeps
    | with_reducible apply State.closeSender_keeps
    | with_reducible apply State.present_keeps
    | split
    | exact fun _ e => e
    | exact fun _ _ => rfl
    | intro _
    | with_reducible apply Keeps.lit)

theorem execLedgerPacket_keeps {s₀ t : State} (engine : Nat) (packet : DispatchPacket) (h : execLedgerPacket engine packet s₀ = .next t) : Keeps s₀ t := by
  unfold execLedgerPacket at h
  refine live_keeps h ?_
  intro u hk
  try dsimp only
  repeat' (first
    | with_reducible assumption
    | with_reducible apply State.modRound_keeps
    | with_reducible apply State.layPacket_keeps
    | with_reducible apply State.packetFails_keeps
    | split
    | exact fun _ e => e
    | exact fun _ _ => rfl
    | intro _
    | with_reducible apply Keeps.lit)

theorem execHostReport_keeps {s₀ t : State} (engine : Nat) (line : BitVec 4) (kind : Byte) (addr : Addr) (dests : List Addr) (h : execHostReport engine line kind addr dests s₀ = .next t) : Keeps s₀ t := by
  unfold execHostReport at h
  refine live_keeps h ?_
  intro u hk
  try dsimp only
  repeat' (first
    | with_reducible assumption
    | with_reducible apply State.eachHub_keeps
    | with_reducible apply State.modHub_keeps
    | with_reducible apply State.emit_keeps
    | with_reducible apply State.poisonOwned_keeps
    | with_reducible apply State.each_keeps
    | with_reducible apply State.present_keeps
    | split
    | exact fun _ e => e
    | exact fun _ _ => rfl
    | intro _
    | with_reducible apply Keeps.lit)

theorem execInlogEntryWrite_keeps {s₀ t : State}  (h : execInlogEntryWrite  s₀ = .next t) : Keeps s₀ t := by
  unfold execInlogEntryWrite at h
  refine live_keeps h ?_
  intro u hk
  try dsimp only
  repeat' (first
    | with_reducible assumption
    | with_reducible apply State.present_keeps
    | split
    | exact fun _ e => e
    | exact fun _ _ => rfl
    | intro _
    | with_reducible apply Keeps.lit)

theorem execStepSync_keeps {s₀ t : State} (time : W64) (h : execStepSync time s₀ = .next t) : Keeps s₀ t := by
  unfold execStepSync at h
  refine live_keeps h ?_
  intro u hk
  try dsimp only
  repeat' (first
    | with_reducible assumption
    | with_reducible apply State.eachHub_keeps
    | with_reducible apply State.note_keeps
    | split
    | exact fun _ e => e
    | exact fun _ _ => rfl
    | intro _
    | with_reducible apply Keeps.lit)

theorem execSyncMissing_keeps {s₀ t : State}  (h : execSyncMissing  s₀ = .next t) : Keeps s₀ t := by
  unfold execSyncMissing at h
  refine live_keeps h ?_
  intro u hk
  try dsimp only
  repeat' (first
    | with_reducible assumption
    | with_reducible apply State.advanceTo_keeps
    | with_reducible apply State.loseSync_keeps
    | with_reducible apply State.eachHub_keeps
    | with_reducible apply State.note_keeps
    | split
    | exact fun _ e => e
    | exact fun _ _ => rfl
    | intro _
    | with_reducible apply Keeps.lit)

theorem execSlateBegin_keeps {s₀ t : State} (data : W32) (h : execSlateBegin data s₀ = .next t) : Keeps s₀ t := by
  unfold execSlateBegin at h
  refine live_keeps h ?_
  intro u hk
  try dsimp only
  repeat' (first
    | with_reducible assumption
    | with_reducible apply State.portDo_keeps
    | with_reducible apply State.mirrorWrite_keeps
    | with_reducible apply State.clearChoices_keeps
    | with_reducible apply State.dropHeld_keeps
    | with_reducible apply State.modJob_keeps
    | with_reducible apply State.refuseWord_keeps
    | split
    | exact fun _ e => e
    | exact fun _ _ => rfl
    | intro _
    | with_reducible apply Keeps.lit)

theorem execSlateWaitExpiry_keeps {s₀ t : State} (job : Job) (step : W64) (port : Nat) (h : execSlateWaitExpiry job step port s₀ = .next t) : Keeps s₀ t := by
  unfold execSlateWaitExpiry at h
  refine live_keeps h ?_
  intro u hk
  try dsimp only
  repeat' (first
    | with_reducible assumption
    | with_reducible apply State.advanceClk_keeps
    | with_reducible apply State.slateMismatch_keeps
    | split
    | exact fun _ e => e
    | exact fun _ _ => rfl
    | intro _
    | with_reducible apply Keeps.lit)

theorem execLaunchCountReached_keeps {s₀ t : State} (job : Job) (h : execLaunchCountReached job s₀ = .next t) : Keeps s₀ t := by
  unfold execLaunchCountReached at h
  refine live_keeps h ?_
  intro u hk
  try dsimp only
  repeat' (first
    | with_reducible assumption
    | with_reducible apply State.advanceClk_keeps
    | with_reducible apply State.launchPulse_keeps
    | split
    | exact fun _ e => e
    | exact fun _ _ => rfl
    | intro _
    | with_reducible apply Keeps.lit)

theorem execChoiceStrobe_keeps {s₀ t : State} (agent : Nat) (job : Job) (h : execChoiceStrobe agent job s₀ = .next t) : Keeps s₀ t := by
  unfold execChoiceStrobe at h
  refine live_keeps h ?_
  intro u hk
  try dsimp only
  repeat' (first
    | with_reducible assumption
    | with_reducible apply State.modAgent_keeps
    | with_reducible apply State.modJob_keeps
    | split
    | exact fun _ e => e
    | exact fun _ _ => rfl
    | intro _
    | with_reducible apply Keeps.lit)

theorem execStepEnd_keeps {s₀ t : State} (data : W32) (h : execStepEnd data s₀ = .next t) : Keeps s₀ t := by
  unfold execStepEnd at h
  refine live_keeps h ?_
  intro u hk
  try dsimp only
  repeat' (first
    | with_reducible assumption
    | with_reducible apply State.portDo_keeps
    | with_reducible apply State.mirrorWrite_keeps
    | with_reducible apply State.modJob_keeps
    | with_reducible apply State.refuseWord_keeps
    | split
    | exact fun _ e => e
    | exact fun _ _ => rfl
    | intro _
    | with_reducible apply Keeps.lit)

theorem execConcStepAnswer_keeps {s₀ t : State} (cluster : Nat) (job : Job) (step : W64) (h : execConcStepAnswer cluster job step s₀ = .next t) : Keeps s₀ t := by
  unfold execConcStepAnswer at h
  refine live_keeps h ?_
  intro u hk
  try dsimp only
  repeat' (first
    | with_reducible assumption
    | with_reducible apply State.each_keeps
    | with_reducible apply State.modAgent_keeps
    | with_reducible apply State.modJob_keeps
    | split
    | exact fun _ e => e
    | exact fun _ _ => rfl
    | intro _
    | with_reducible apply Keeps.lit)

theorem execGateDecision_keeps {s₀ t : State} (job : Job) (h : execGateDecision job s₀ = .next t) : Keeps s₀ t := by
  unfold execGateDecision at h
  refine live_keeps h ?_
  intro u hk
  try dsimp only
  repeat' (first
    | with_reducible assumption
    | with_reducible apply State.relax_keeps
    | with_reducible apply State.openGateAct_keeps
    | split
    | exact fun _ e => e
    | exact fun _ _ => rfl
    | intro _
    | with_reducible apply Keeps.lit)

theorem execDiscWindowEnd_keeps {s₀ t : State}  (h : execDiscWindowEnd  s₀ = .next t) : Keeps s₀ t := by
  unfold execDiscWindowEnd at h
  refine live_keeps h ?_
  intro u hk
  try dsimp only
  repeat' (first
    | with_reducible assumption
    | with_reducible apply State.windowEnd_keeps
    | split
    | exact fun _ e => e
    | exact fun _ _ => rfl
    | intro _
    | with_reducible apply Keeps.lit)

theorem execStage9Discovery_keeps {s₀ t : State} (us : Nat) (h : execStage9Discovery us s₀ = .next t) : Keeps s₀ t := by
  unfold execStage9Discovery at h
  refine live_keeps h ?_
  intro u hk
  try dsimp only
  repeat' (first
    | with_reducible assumption
    | with_reducible apply State.windowEnd_keeps
    | with_reducible apply State.advanceTo_keeps
    | with_reducible apply State.endDiscovery_keeps
    | split
    | exact fun _ e => e
    | exact fun _ _ => rfl
    | intro _
    | with_reducible apply Keeps.lit)

theorem execBeaconSend_keeps {s₀ t : State} (port : Nat) (width : Byte) (h : execBeaconSend port width s₀ = .next t) : Keeps s₀ t := by
  unfold execBeaconSend at h
  refine live_keeps h ?_
  intro u hk
  try dsimp only
  repeat' (first
    | with_reducible assumption
    | with_reducible apply State.modPort_keeps
    | with_reducible apply State.advanceTo_keeps
    | with_reducible apply State.sendBeacon_keeps
    | split
    | exact fun _ e => e
    | exact fun _ _ => rfl
    | intro _
    | with_reducible apply Keeps.lit)

theorem execBeaconTxReady_keeps {s₀ t : State} (port : Nat) (h : execBeaconTxReady port s₀ = .next t) : Keeps s₀ t := by
  unfold execBeaconTxReady at h
  refine live_keeps h ?_
  intro u hk
  try dsimp only
  repeat' (first
    | with_reducible assumption
    | with_reducible apply State.modPort_keeps
    | with_reducible apply State.present_keeps
    | split
    | exact fun _ e => e
    | exact fun _ _ => rfl
    | intro _
    | with_reducible apply Keeps.lit)

theorem execBeaconReceive_keeps {s₀ t : State} (port : Nat) (frame : List Byte) (width : Byte) (h : execBeaconReceive port frame width s₀ = .next t) : Keeps s₀ t := by
  unfold execBeaconReceive at h
  refine live_keeps h ?_
  intro u hk
  try dsimp only
  repeat' (first
    | with_reducible assumption
    | with_reducible apply State.modPort_keeps
    | with_reducible apply State.eachHub_keeps
    | with_reducible apply State.note_keeps
    | with_reducible apply State.goodBeacon_keeps
    | with_reducible apply State.endDiscovery_keeps
    | split
    | exact fun _ e => e
    | exact fun _ _ => rfl
    | intro _
    | with_reducible apply Keeps.lit)

theorem execPortSilence_keeps {s₀ t : State} (port : Nat) (h : execPortSilence port s₀ = .next t) : Keeps s₀ t := by
  unfold execPortSilence at h
  refine live_keeps h ?_
  intro u hk
  try dsimp only
  repeat' (first
    | with_reducible assumption
    | with_reducible apply State.advanceTo_keeps
    | with_reducible apply State.modPort_keeps
    | with_reducible apply State.setResult_keeps
    | split
    | exact fun _ e => e
    | exact fun _ _ => rfl
    | intro _
    | with_reducible apply Keeps.lit)

theorem execSensorSample_keeps {s₀ t : State} (chan : BitVec 9) (data : BitVec 16) (h : execSensorSample chan data s₀ = .next t) : Keeps s₀ t := by
  unfold execSensorSample at h
  refine live_keeps h ?_
  intro u hk
  try dsimp only
  repeat' (first
    | with_reducible assumption
    | with_reducible apply State.eachHub_keeps
    | with_reducible apply State.modChan_keeps
    | split
    | exact fun _ e => e
    | exact fun _ _ => rfl
    | intro _
    | with_reducible apply Keeps.lit)

theorem execHkRound_keeps {s₀ t : State}  (h : execHkRound  s₀ = .next t) : Keeps s₀ t := by
  unfold execHkRound at h
  refine live_keeps h ?_
  intro u hk
  try dsimp only
  repeat' (first
    | with_reducible assumption
    | with_reducible apply State.advanceTo_keeps
    | with_reducible apply State.eachHub_keeps
    | with_reducible apply State.hkRound_keeps
    | with_reducible apply State.settleBand_keeps
    | with_reducible apply State.takeUpLead_keeps
    | split
    | exact fun _ e => e
    | exact fun _ _ => rfl
    | intro _
    | with_reducible apply Keeps.lit)

theorem execCurbCombine_keeps {s₀ t : State}  (h : execCurbCombine  s₀ = .next t) : Keeps s₀ t := by
  unfold execCurbCombine at h
  refine live_keeps h ?_
  intro u hk
  try dsimp only
  repeat' (first
    | with_reducible assumption
    | with_reducible apply State.present_keeps
    | with_reducible apply State.each_keeps
    | with_reducible apply State.mgmtPush_keeps
    | split
    | exact fun _ e => e
    | exact fun _ _ => rfl
    | intro _
    | with_reducible apply Keeps.lit)

theorem execBusSample_keeps {s₀ t : State} (chan : BitVec 9) (h : execBusSample chan s₀ = .next t) : Keeps s₀ t := by
  unfold execBusSample at h
  refine live_keeps h ?_
  intro u hk
  try dsimp only
  repeat' (first
    | with_reducible assumption
    | with_reducible apply State.advanceTo_keeps
    | with_reducible apply State.eachHub_keeps
    | with_reducible apply State.busStep_keeps
    | with_reducible apply State.busSensor_keeps
    | split
    | exact fun _ e => e
    | exact fun _ _ => rfl
    | intro _
    | with_reducible apply Keeps.lit)

theorem execMarginWindowDone_keeps {s₀ t : State} (cluster : Nat) (counts : List (Nat × Nat)) (h : execMarginWindowDone cluster counts s₀ = .next t) : Keeps s₀ t := by
  unfold execMarginWindowDone at h
  refine live_keeps h ?_
  intro u hk
  try dsimp only
  repeat' (first
    | with_reducible assumption
    | with_reducible apply State.takeMargins_keeps
    | split
    | exact fun _ e => e
    | exact fun _ _ => rfl
    | intro _
    | with_reducible apply Keeps.lit)

theorem execKclkCheckWindow_keeps {s₀ t : State} (hub : HubId) (count : Nat) (h : execKclkCheckWindow hub count s₀ = .next t) : Keeps s₀ t := by
  unfold execKclkCheckWindow at h
  refine live_keeps h ?_
  intro u hk
  try dsimp only
  repeat' (first
    | with_reducible assumption
    | with_reducible apply State.modHub_keeps
    | with_reducible apply State.note_keeps
    | split
    | exact fun _ e => e
    | exact fun _ _ => rfl
    | intro _
    | with_reducible apply Keeps.lit)

theorem execDieLinkLockLoss_keeps {s₀ t : State} (link : Nat) (h : execDieLinkLockLoss link s₀ = .next t) : Keeps s₀ t := by
  unfold execDieLinkLockLoss at h
  refine live_keeps h ?_
  intro u hk
  try dsimp only
  repeat' (first
    | with_reducible assumption
    | with_reducible apply State.startRetrain_keeps
    | split
    | exact fun _ e => e
    | exact fun _ _ => rfl
    | intro _
    | with_reducible apply Keeps.lit)

theorem execDieLinkResendLimit_keeps {s₀ t : State} (link : Nat) (h : execDieLinkResendLimit link s₀ = .next t) : Keeps s₀ t := by
  unfold execDieLinkResendLimit at h
  refine live_keeps h ?_
  intro u hk
  try dsimp only
  repeat' (first
    | with_reducible assumption
    | with_reducible apply State.startRetrain_keeps
    | split
    | exact fun _ e => e
    | exact fun _ _ => rfl
    | intro _
    | with_reducible apply Keeps.lit)

theorem execDieLinkRetrainDone_keeps {s₀ t : State} (link lanes : Nat) (h : execDieLinkRetrainDone link lanes s₀ = .next t) : Keeps s₀ t := by
  unfold execDieLinkRetrainDone at h
  refine live_keeps h ?_
  intro u hk
  try dsimp only
  repeat' (first
    | with_reducible assumption
    | with_reducible apply State.modLink_keeps
    | with_reducible apply State.reportTrained_keeps
    | with_reducible apply State.judgeDies_keeps
    | split
    | exact fun _ e => e
    | exact fun _ _ => rfl
    | intro _
    | with_reducible apply Keeps.lit)

end Sys2Proof.Machine
end

