-- ==== Sys2Proof/Laws/Touches.lean ====
section
/-! SUPPORT. Sets of parts as bit masks, and what a mask says of two states. -/

namespace Sys2Proof.Machine

open Sys2Proof

/-- The place of a hub part in a mask. -/
def HubPart.idx : HubPart → Nat
  | .st => 0
  | .srcs => 1
  | .lameSinceReady => 2
  | .s4 => 3
  | .fences => 4
  | .sticky => 5
  | .reel => 6
  | .reelHead => 7
  | .reelBase => 8
  | .reelWraps => 9
  | .reelStopped => 10
  | .afterS4 => 11
  | .tailA => 12
  | .tailB => 13
  | .ctr => 14
  | .intake => 15
  | .paddock => 16
  | .aborted => 17
  | .fails => 18
  | .regs => 19
  | .irq => 20
  | .thrEvt => 21
  | .thermal => 22
  | .chans => 23
  | .snaps => 24
  | .roundMs => 25
  | .roundAt => 26
  | .busWatch => 27
  | .fallback => 28
  | .badKclk => 29
  | .oscOffset => 30
  | .trim => 31
  | .reconcile => 32
  | .zeroised => 33
  | .secReq => 34
  | .secClr => 35
  | .selfTest => 36
  | .actionDisagree => 37
  | .digestMismatches => 38
  | .xlinkBadFrames => 39
  | .digestMiss => 40
  | .merging => 41
  | .dailies => 42
  | .dailiesBuilt => 43
  | .dailyBase => 44
  | .dailiesSent => 45
  | .dailiesDropped => 46
  | .dailyDropped => 47
  | .mctpDiscarded => 48
  | .harnessSts => 49
  | .harnessOver => 50
  | .odd => 51

/-- The place of a part in a mask. -/
def Part.idx : Part → Nat
  | .hub p => p.idx
  | .pending => 52
  | .out => 53
  | .now => 54
  | .readyAt => 55
  | .freeCtr => 56
  | .build => 57
  | .rstL => 58
  | .leakAt => 59
  | .agents => 60
  | .concs => 61
  | .engines => 62
  | .links => 63
  | .ways => 64
  | .twin => 65
  | .xlink => 66
  | .alive => 67
  | .curbPort => 68
  | .flash => 69
  | .latch => 70
  | .cmd => 71
  | .stage => 72
  | .stageFrom => 73
  | .stages => 74
  | .image => 75
  | .keyPort => 76
  | .keys => 77
  | .harness => 78
  | .clock => 79
  | .epoch => 80
  | .jobs => 81
  | .abortFifo => 82
  | .tccOrphan => 83
  | .retakes => 84
  | .retakeLog => 85
  | .logHead => 86
  | .decCnt => 87
  | .retakesOrdered => 88
  | .retakeTimeouts => 89
  | .staleReleases => 90
  | .bands => 91
  | .ports => 92
  | .slices => 93
  | .inlog => 94
  | .replay => 95
  | .streams => 96
  | .sign => 97
  | .restoreSkipped => 98
  | .test => 99
  | .mgmt => 100
  | .ind => 101

/-- The part at a place. -/
def Part.at? : Nat → Option Part
  | 0 => some (.hub .st)
  | 1 => some (.hub .srcs)
  | 2 => some (.hub .lameSinceReady)
  | 3 => some (.hub .s4)
  | 4 => some (.hub .fences)
  | 5 => some (.hub .sticky)
  | 6 => some (.hub .reel)
  | 7 => some (.hub .reelHead)
  | 8 => some (.hub .reelBase)
  | 9 => some (.hub .reelWraps)
  | 10 => some (.hub .reelStopped)
  | 11 => some (.hub .afterS4)
  | 12 => some (.hub .tailA)
  | 13 => some (.hub .tailB)
  | 14 => some (.hub .ctr)
  | 15 => some (.hub .intake)
  | 16 => some (.hub .paddock)
  | 17 => some (.hub .aborted)
  | 18 => some (.hub .fails)
  | 19 => some (.hub .regs)
  | 20 => some (.hub .irq)
  | 21 => some (.hub .thrEvt)
  | 22 => some (.hub .thermal)
  | 23 => some (.hub .chans)
  | 24 => some (.hub .snaps)
  | 25 => some (.hub .roundMs)
  | 26 => some (.hub .roundAt)
  | 27 => some (.hub .busWatch)
  | 28 => some (.hub .fallback)
  | 29 => some (.hub .badKclk)
  | 30 => some (.hub .oscOffset)
  | 31 => some (.hub .trim)
  | 32 => some (.hub .reconcile)
  | 33 => some (.hub .zeroised)
  | 34 => some (.hub .secReq)
  | 35 => some (.hub .secClr)
  | 36 => some (.hub .selfTest)
  | 37 => some (.hub .actionDisagree)
  | 38 => some (.hub .digestMismatches)
  | 39 => some (.hub .xlinkBadFrames)
  | 40 => some (.hub .digestMiss)
  | 41 => some (.hub .merging)
  | 42 => some (.hub .dailies)
  | 43 => some (.hub .dailiesBuilt)
  | 44 => some (.hub .dailyBase)
  | 45 => some (.hub .dailiesSent)
  | 46 => some (.hub .dailiesDropped)
  | 47 => some (.hub .dailyDropped)
  | 48 => some (.hub .mctpDiscarded)
  | 49 => some (.hub .harnessSts)
  | 50 => some (.hub .harnessOver)
  | 51 => some (.hub .odd)
  | 52 => some .pending
  | 53 => some .out
  | 54 => some .now
  | 55 => some .readyAt
  | 56 => some .freeCtr
  | 57 => some .build
  | 58 => some .rstL
  | 59 => some .leakAt
  | 60 => some .agents
  | 61 => some .concs
  | 62 => some .engines
  | 63 => some .links
  | 64 => some .ways
  | 65 => some .twin
  | 66 => some .xlink
  | 67 => some .alive
  | 68 => some .curbPort
  | 69 => some .flash
  | 70 => some .latch
  | 71 => some .cmd
  | 72 => some .stage
  | 73 => some .stageFrom
  | 74 => some .stages
  | 75 => some .image
  | 76 => some .keyPort
  | 77 => some .keys
  | 78 => some .harness
  | 79 => some .clock
  | 80 => some .epoch
  | 81 => some .jobs
  | 82 => some .abortFifo
  | 83 => some .tccOrphan
  | 84 => some .retakes
  | 85 => some .retakeLog
  | 86 => some .logHead
  | 87 => some .decCnt
  | 88 => some .retakesOrdered
  | 89 => some .retakeTimeouts
  | 90 => some .staleReleases
  | 91 => some .bands
  | 92 => some .ports
  | 93 => some .slices
  | 94 => some .inlog
  | 95 => some .replay
  | 96 => some .streams
  | 97 => some .sign
  | 98 => some .restoreSkipped
  | 99 => some .test
  | 100 => some .mgmt
  | 101 => some .ind
  | _ => none

theorem Part.at_idx (p : Part) : Part.at? p.idx = some p := by
  cases p with
  | hub q => cases q <;> rfl
  | _ => rfl

/-- Two hubs differ in no part outside a mask. -/
structure HubWithin (m : Nat) (h k : Hub) : Prop where
  same : ∀ p : HubPart, m.testBit p.idx = false → p.same h k

/-- Two states differ in no part outside a mask. -/
structure Within (m : Nat) (s t : State) : Prop where
  same : ∀ p : Part, m.testBit p.idx = false → p.same s t

theorem HubPart.same_refl (h : Hub) (p : HubPart) : p.same h h := by cases p <;> rfl

theorem HubPart.same_trans {h k l : Hub} {p : HubPart} (a : p.same h k) (b : p.same k l) : p.same h l := by
  cases p <;> exact Eq.trans b a

theorem Part.same_refl (s : State) (p : Part) : p.same s s := by
  cases p with
  | hub q => exact ⟨HubPart.same_refl _ _, HubPart.same_refl _ _⟩
  | _ => rfl

theorem Part.same_trans {s t u : State} {p : Part} (a : p.same s t) (b : p.same t u) : p.same s u := by
  cases p with
  | hub q => exact ⟨HubPart.same_trans a.1 b.1, HubPart.same_trans a.2 b.2⟩
  | _ => exact Eq.trans b a

theorem HubWithin.refl (m : Nat) (h : Hub) : HubWithin m h h := ⟨fun p _ => HubPart.same_refl h p⟩

theorem HubWithin.trans {m : Nat} {h k l : Hub} (a : HubWithin m h k) (b : HubWithin m k l) : HubWithin m h l :=
  ⟨fun p hp => HubPart.same_trans (a.same p hp) (b.same p hp)⟩

theorem Within.refl (m : Nat) (s : State) : Within m s s := ⟨fun p _ => Part.same_refl s p⟩

theorem Within.trans {m : Nat} {s t u : State} (a : Within m s t) (b : Within m t u) : Within m s u :=
  ⟨fun p hp => Part.same_trans (a.same p hp) (b.same p hp)⟩

/-- A state with other hubs that differ within the mask. -/
theorem Within.hubs {m : Nat} {s : State} {a b : Hub} (ha : HubWithin m s.hubA a) (hb : HubWithin m s.hubB b) :
    Within m s { s with hubA := a, hubB := b } := by
  refine ⟨fun p hp => ?_⟩
  cases p with
  | hub q => exact ⟨ha.same q hp, hb.same q hp⟩
  | _ => rfl

/-- An intermediate state first, and then the rest. -/
theorem Within.cut {m : Nat} {s t : State} {P : Prop} (h : Within m s t) (k : Within m s t → P) : P := k h

/-- A smaller mask lies in the mask. -/
theorem sub_mask {a b m : Nat} (h : a &&& m = a) (k : b &&& a = b) : b &&& m = b := by
  rw [← k, Nat.and_assoc, h]

/-- A part of a mask is no part outside a larger one. -/
theorem no_mask {a m i : Nat} (h : a &&& m = a) (k : a.testBit i = true) (hp : m.testBit i = false) : False := by
  have e : (a &&& m).testBit i = true := by rw [h]; exact k
  rw [Nat.testBit_and, hp, Bool.and_false] at e
  exact Bool.noConfusion e

/-- A record update whose fields differ within the mask. -/
theorem Within.lit {m : Nat} {s t : State}
    {out_ : List PortOut} {now_ : Nat} {readyAt_ : Nat} {freeCtr_ : Nat} {hubA_ : Hub} {hubB_ : Hub}
    {leakAt_ : SMap Nat} {agents_ : SMap Agent} {concs_ : SMap Conc} {engines_ : SMap Engine}
    {links_ : SMap LinkEnd} {ways_ : SMap Bool} {twin_ : Twin} {xlink_ : XLink} {alive_ : Alive}
    {curbPort_ : CurbPort} {flash_ : Flash} {latch_ : SMap (Option W32)} {cmd_ : Cmd} {stage_ : Option Nat}
    {stageFrom_ : Nat} {stages_ : SMap StageRec} {image_ : Option (Nat × Nat)} {keyPort_ : KeyPort}
    {keys_ : Keys} {harness_ : Harness} {clock_ : StepClock} {epoch_ : Epoch} {jobs_ : SMap JobSt}
    {abortFifo_ : List AbortEntry} {tccOrphan_ : W32} {retakes_ : SMap Retake}
    {retakeLog_ : SMap (Option RetakeLog)} {logHead_ : W32} {decCnt_ : SMap W32} {retakesOrdered_ : W32}
    {retakeTimeouts_ : W32} {staleReleases_ : W32} {bands_ : Bands} {ports_ : SMap Port}
    {slices_ : SMap SliceHold} {inlog_ : Inlog} {replay_ : Replay} {streams_ : SMap SignStream} {sign_ : Sign}
    {restoreSkipped_ : W32} {test_ : TestEngine} {mgmt_ : Mgmt} {ind_ : Ind}
    (h : Within m s t)
    (hs : ∀ p : Part, m.testBit p.idx = false → p.same t (State.mk
      t.pending out_ now_ readyAt_ freeCtr_ t.build t.rstL hubA_ hubB_ leakAt_ agents_ concs_ engines_ links_
      ways_ twin_ xlink_ alive_ curbPort_ flash_ latch_ cmd_ stage_ stageFrom_ stages_ image_ keyPort_ keys_
      harness_ clock_ epoch_ jobs_ abortFifo_ tccOrphan_ retakes_ retakeLog_ logHead_ decCnt_ retakesOrdered_
      retakeTimeouts_ staleReleases_ bands_ ports_ slices_ inlog_ replay_ streams_ sign_ restoreSkipped_ test_
      mgmt_ ind_)) :
    Within m s (State.mk
      t.pending out_ now_ readyAt_ freeCtr_ t.build t.rstL hubA_ hubB_ leakAt_ agents_ concs_ engines_ links_
      ways_ twin_ xlink_ alive_ curbPort_ flash_ latch_ cmd_ stage_ stageFrom_ stages_ image_ keyPort_ keys_
      harness_ clock_ epoch_ jobs_ abortFifo_ tccOrphan_ retakes_ retakeLog_ logHead_ decCnt_ retakesOrdered_
      retakeTimeouts_ staleReleases_ bands_ ports_ slices_ inlog_ replay_ streams_ sign_ restoreSkipped_ test_
      mgmt_ ind_) :=
  h.trans ⟨hs⟩

/-- The same of a hub. -/
theorem HubWithin.lit {m : Nat} {s t : Hub}
    {st_ : HubSt} {srcs_ : SMap Source} {lameSinceReady_ : Bool} {fences_ : List (Nat × Nat)}
    {sticky_ : SMap W32} {reel_ : SMap Msg} {reelHead_ : W32} {reelBase_ : W32} {reelWraps_ : W32}
    {reelStopped_ : W32} {afterS4_ : Option Nat} {tailA_ : SMap Msg} {tailB_ : SMap Msg} {ctr_ : SMap W32}
    {intake_ : Queue} {paddock_ : SMap PadEntry} {aborted_ : List Nat} {fails_ : List Msg} {regs_ : Regs}
    {irq_ : W32} {thrEvt_ : W32} {thermal_ : SMap DieThermal} {chans_ : SMap Channel} {snaps_ : List Snapshot}
    {roundMs_ : Nat} {roundAt_ : Nat} {busWatch_ : Bool} {fallback_ : Bool} {badKclk_ : Nat}
    {oscOffset_ : Int} {trim_ : Int} {reconcile_ : SMap Nat} {zeroised_ : Bool} {secReq_ : Bool}
    {secClr_ : Bool} {selfTest_ : Bool} {actionDisagree_ : W32} {digestMismatches_ : W32}
    {xlinkBadFrames_ : W32} {digestMiss_ : Nat} {merging_ : Bool} {dailies_ : List Daily}
    {dailiesBuilt_ : W32} {dailyBase_ : W32} {dailiesSent_ : W32} {dailiesDropped_ : W32}
    {dailyDropped_ : Bool} {mctpDiscarded_ : W32} {harnessSts_ : W32} {harnessOver_ : W32} {odd_ : Byte}
    (h : HubWithin m s t)
    (hs : ∀ p : HubPart, m.testBit p.idx = false → p.same t (Hub.mk
      st_ srcs_ lameSinceReady_ t.s4 fences_ sticky_ reel_ reelHead_ reelBase_ reelWraps_ reelStopped_
      afterS4_ tailA_ tailB_ ctr_ intake_ paddock_ aborted_ fails_ regs_ irq_ thrEvt_ thermal_ chans_ snaps_
      roundMs_ roundAt_ busWatch_ fallback_ badKclk_ oscOffset_ trim_ reconcile_ zeroised_ secReq_ secClr_
      selfTest_ actionDisagree_ digestMismatches_ xlinkBadFrames_ digestMiss_ merging_ dailies_ dailiesBuilt_
      dailyBase_ dailiesSent_ dailiesDropped_ dailyDropped_ mctpDiscarded_ harnessSts_ harnessOver_ odd_)) :
    HubWithin m s (Hub.mk
      st_ srcs_ lameSinceReady_ t.s4 fences_ sticky_ reel_ reelHead_ reelBase_ reelWraps_ reelStopped_
      afterS4_ tailA_ tailB_ ctr_ intake_ paddock_ aborted_ fails_ regs_ irq_ thrEvt_ thermal_ chans_ snaps_
      roundMs_ roundAt_ busWatch_ fallback_ badKclk_ oscOffset_ trim_ reconcile_ zeroised_ secReq_ secClr_
      selfTest_ actionDisagree_ digestMismatches_ xlinkBadFrames_ digestMiss_ merging_ dailies_ dailiesBuilt_
      dailyBase_ dailiesSent_ dailiesDropped_ dailyDropped_ mctpDiscarded_ harnessSts_ harnessOver_ odd_) :=
  h.trans ⟨hs⟩

/-- The mask of a list of parts. -/
def maskOf (l : List Part) : Nat := l.foldr (fun p a => 2 ^ p.idx ||| a) 0

theorem mem_of_mask {l : List Part} {p : Part} (h : (maskOf l).testBit p.idx = true) : p ∈ l := by
  induction l with
  | nil => simp [maskOf] at h
  | cons q l ih =>
    have e : maskOf (q :: l) = 2 ^ q.idx ||| maskOf l := rfl
    rw [e, Nat.testBit_or, Bool.or_eq_true] at h
    rcases h with h | h
    · rw [Nat.testBit_two_pow, decide_eq_true_eq] at h
      have e : some q = some p := by rw [← Part.at_idx q, h, Part.at_idx p]
      cases e
      exact List.mem_cons_self
    · exact List.mem_cons_of_mem _ (ih h)

/-- What a mask says, its list of parts says. -/
theorem Within.touches {m : Nat} {l : List Part} {s t : State} (h : Within m s t) (e : maskOf l = m) : Touches l s t := by
  intro p hp
  apply h.same
  cases c : m.testBit p.idx with
  | false => rfl
  | true => exact absurd (mem_of_mask (e ▸ c)) hp

end Sys2Proof.Machine
end

