-- ==== Sys2Proof/Laws/TouchesOps.lean ====
section
/-! SUPPORT. What every operation of Machine/Ops.lean may touch. -/

namespace Sys2Proof.Machine

open Sys2Proof

theorem State.advanceTo_touches {msk : Nat} {s₀ : State} (s : State) (t : Nat) (hmsk : 604462927821713096835072 &&& msk = 604462927821713096835072) (hk : Within msk s₀ s)  :
    Within msk s₀ (State.advanceTo s t) := by
  unfold State.advanceTo
  repeat' (first
    | with_reducible assumption
    | exact sub_mask hmsk rfl
    | (extract_lets +onlyGivenNames zz; refine Within.cut (s := s₀) (t := zz) (m := msk) ?_ ?_; dsimp only [zz]; clear zz; rotate_left; clear_value zz; revert zz; intro _ _)
    | (extract_lets +onlyGivenNames zz; clear_value zz; revert zz; intro _)
    | split
    | intro _
    | (refine Within.lit ?_ (by intro q hq; cases q <;> first | exact rfl | exact ⟨HubPart.same_refl _ _, HubPart.same_refl _ _⟩ | exact (no_mask hmsk rfl hq).elim)))

theorem State.tick_touches {msk : Nat} {s₀ : State} (s : State) (hmsk : 604462927821713096835072 &&& msk = 604462927821713096835072) (hk : Within msk s₀ s)  :
    Within msk s₀ (State.tick s) := by
  unfold State.tick
  repeat' (first
    | with_reducible assumption
    | exact sub_mask hmsk rfl
    | (extract_lets +onlyGivenNames zz; refine Within.cut (s := s₀) (t := zz) (m := msk) ?_ ?_; dsimp only [zz]; clear zz; rotate_left; clear_value zz; revert zz; intro _ _)
    | (extract_lets +onlyGivenNames zz; clear_value zz; revert zz; intro _)
    | split
    | intro _
    | (refine Within.lit ?_ (by intro q hq; cases q <;> first | exact rfl | exact ⟨HubPart.same_refl _ _, HubPart.same_refl _ _⟩ | exact (no_mask hmsk rfl hq).elim)))

theorem State.advanceClk_touches {msk : Nat} {s₀ : State} (s : State) (c : Nat) (hmsk : 604462927821713096835072 &&& msk = 604462927821713096835072) (hk : Within msk s₀ s)  :
    Within msk s₀ (State.advanceClk s c) := by
  unfold State.advanceClk
  try dsimp only
  repeat' (first
    | with_reducible assumption
    | exact sub_mask hmsk rfl
    | with_reducible apply State.advanceTo_touches
    | split
    | intro _
    | (refine Within.lit ?_ (by intro q hq; cases q <;> first | exact rfl | exact ⟨HubPart.same_refl _ _, HubPart.same_refl _ _⟩ | exact (no_mask hmsk rfl hq).elim)))

theorem State.modHub_touches {msk : Nat} {s₀ : State} (s : State) (h : HubId) (f : Hub → Hub) (hk : Within msk s₀ s)
    (hf : ∀ k, HubWithin msk k (f k)) : Within msk s₀ (State.modHub s h f) := by
  cases h
  · exact hk.trans (Within.hubs (hf s.hubA) (HubWithin.refl _ _))
  · exact hk.trans (Within.hubs (HubWithin.refl _ _) (hf s.hubB))

theorem State.modHubs_touches {msk : Nat} {s₀ : State} (s : State) (f : Hub → Hub) (hk : Within msk s₀ s)
    (hf : ∀ k, HubWithin msk k (f k)) : Within msk s₀ (State.modHubs s f) :=
  hk.trans (Within.hubs (hf s.hubA) (hf s.hubB))

theorem State.selfTests_touches {msk : Nat} {s₀ : State} (s : State) (a b : Bool) (hmsk : 68719476736 &&& msk = 68719476736) (hk : Within msk s₀ s)  :
    Within msk s₀ (State.selfTests s a b) := by
  unfold State.selfTests
  try dsimp only
  repeat' (first
    | with_reducible assumption
    | exact sub_mask hmsk rfl
    | with_reducible apply State.modHub_touches
    | with_reducible exact HubWithin.refl _ _
    | split
    | intro (_ : Hub)
    | (refine ⟨?_⟩; intro q hq; cases q <;> first | exact rfl | exact (no_mask hmsk rfl hq).elim)
    | (refine HubWithin.lit ?_ (by intro q hq; cases q <;> first | exact rfl | exact (no_mask hmsk rfl hq).elim))
    | intro _
    | (refine Within.lit ?_ (by intro q hq; cases q <;> first | exact rfl | exact ⟨HubPart.same_refl _ _, HubPart.same_refl _ _⟩ | exact (no_mask hmsk rfl hq).elim)))

theorem State.modAgent_touches {msk : Nat} {s₀ : State} (s : State) (i : Nat) (f : Agent → Agent) (hmsk : 1152921504606846976 &&& msk = 1152921504606846976) (hk : Within msk s₀ s)  :
    Within msk s₀ (State.modAgent s i f) := by
  unfold State.modAgent
  try dsimp only
  repeat' (first
    | with_reducible assumption
    | exact sub_mask hmsk rfl
    | split
    | intro _
    | (refine Within.lit ?_ (by intro q hq; cases q <;> first | exact rfl | exact ⟨HubPart.same_refl _ _, HubPart.same_refl _ _⟩ | exact (no_mask hmsk rfl hq).elim)))

theorem State.modConc_touches {msk : Nat} {s₀ : State} (s : State) (i : Nat) (f : Conc → Conc) (hmsk : 2305843009213693952 &&& msk = 2305843009213693952) (hk : Within msk s₀ s)  :
    Within msk s₀ (State.modConc s i f) := by
  unfold State.modConc
  try dsimp only
  repeat' (first
    | with_reducible assumption
    | exact sub_mask hmsk rfl
    | split
    | intro _
    | (refine Within.lit ?_ (by intro q hq; cases q <;> first | exact rfl | exact ⟨HubPart.same_refl _ _, HubPart.same_refl _ _⟩ | exact (no_mask hmsk rfl hq).elim)))

theorem State.modEngine_touches {msk : Nat} {s₀ : State} (s : State) (i : Nat) (f : Engine → Engine) (hmsk : 4611686018427387904 &&& msk = 4611686018427387904) (hk : Within msk s₀ s)  :
    Within msk s₀ (State.modEngine s i f) := by
  unfold State.modEngine
  try dsimp only
  repeat' (first
    | with_reducible assumption
    | exact sub_mask hmsk rfl
    | split
    | intro _
    | (refine Within.lit ?_ (by intro q hq; cases q <;> first | exact rfl | exact ⟨HubPart.same_refl _ _, HubPart.same_refl _ _⟩ | exact (no_mask hmsk rfl hq).elim)))

theorem State.modLink_touches {msk : Nat} {s₀ : State} (s : State) (i : Nat) (f : LinkEnd → LinkEnd) (hmsk : 9223372036854775808 &&& msk = 9223372036854775808) (hk : Within msk s₀ s)  :
    Within msk s₀ (State.modLink s i f) := by
  unfold State.modLink
  try dsimp only
  repeat' (first
    | with_reducible assumption
    | exact sub_mask hmsk rfl
    | split
    | intro _
    | (refine Within.lit ?_ (by intro q hq; cases q <;> first | exact rfl | exact ⟨HubPart.same_refl _ _, HubPart.same_refl _ _⟩ | exact (no_mask hmsk rfl hq).elim)))

theorem State.modJob_touches {msk : Nat} {s₀ : State} (s : State) (j : Nat) (f : JobSt → JobSt) (hmsk : 2417851639229258349412352 &&& msk = 2417851639229258349412352) (hk : Within msk s₀ s)  :
    Within msk s₀ (State.modJob s j f) := by
  unfold State.modJob
  try dsimp only
  repeat' (first
    | with_reducible assumption
    | exact sub_mask hmsk rfl
    | split
    | intro _
    | (refine Within.lit ?_ (by intro q hq; cases q <;> first | exact rfl | exact ⟨HubPart.same_refl _ _, HubPart.same_refl _ _⟩ | exact (no_mask hmsk rfl hq).elim)))

theorem State.modRetake_touches {msk : Nat} {s₀ : State} (s : State) (r : Nat) (f : Retake → Retake) (hmsk : 19342813113834066795298816 &&& msk = 19342813113834066795298816) (hk : Within msk s₀ s)  :
    Within msk s₀ (State.modRetake s r f) := by
  unfold State.modRetake
  try dsimp only
  repeat' (first
    | with_reducible assumption
    | exact sub_mask hmsk rfl
    | split
    | intro _
    | (refine Within.lit ?_ (by intro q hq; cases q <;> first | exact rfl | exact ⟨HubPart.same_refl _ _, HubPart.same_refl _ _⟩ | exact (no_mask hmsk rfl hq).elim)))

theorem State.modPort_touches {msk : Nat} {s₀ : State} (s : State) (p : Nat) (f : Port → Port) (hmsk : 4951760157141521099596496896 &&& msk = 4951760157141521099596496896) (hk : Within msk s₀ s)  :
    Within msk s₀ (State.modPort s p f) := by
  unfold State.modPort
  try dsimp only
  repeat' (first
    | with_reducible assumption
    | exact sub_mask hmsk rfl
    | split
    | intro _
    | (refine Within.lit ?_ (by intro q hq; cases q <;> first | exact rfl | exact ⟨HubPart.same_refl _ _, HubPart.same_refl _ _⟩ | exact (no_mask hmsk rfl hq).elim)))

theorem Hub.modSrc_touches {msk : Nat} {k₀ : Hub} (h : Hub) (p : Nat) (f : Source → Source) (hmsk : 2 &&& msk = 2) (hk : HubWithin msk k₀ h) :
    HubWithin msk k₀ (Hub.modSrc h p f) := by
  unfold Hub.modSrc
  try dsimp only
  repeat' (first
    | with_reducible assumption
    | exact sub_mask hmsk rfl
    | split
    | intro _
    | (refine HubWithin.trans (by assumption) ?_; refine ⟨?_⟩; intro q hq; cases q <;> first | exact rfl | exact (no_mask hmsk rfl hq).elim)
    | (refine HubWithin.lit ?_ (by intro q hq; cases q <;> first | exact rfl | exact (no_mask hmsk rfl hq).elim)))

theorem Hub.count_touches {msk : Nat} {k₀ : Hub} (h : Hub) (i : Nat) (hmsk : 16384 &&& msk = 16384) (hk : HubWithin msk k₀ h) :
    HubWithin msk k₀ (Hub.count h i) := by
  unfold Hub.count
  try dsimp only
  repeat' (first
    | with_reducible assumption
    | exact sub_mask hmsk rfl
    | split
    | intro _
    | (refine HubWithin.trans (by assumption) ?_; refine ⟨?_⟩; intro q hq; cases q <;> first | exact rfl | exact (no_mask hmsk rfl hq).elim)
    | (refine HubWithin.lit ?_ (by intro q hq; cases q <;> first | exact rfl | exact (no_mask hmsk rfl hq).elim)))

theorem State.present_touches {msk : Nat} {s₀ : State} (s : State) (o : PortOut) (hmsk : 9007199254740992 &&& msk = 9007199254740992) (hk : Within msk s₀ s)  :
    Within msk s₀ (State.present s o) := by
  unfold State.present
  try dsimp only
  repeat' (first
    | with_reducible assumption
    | exact sub_mask hmsk rfl
    | split
    | intro _
    | (refine Within.lit ?_ (by intro q hq; cases q <;> first | exact rfl | exact ⟨HubPart.same_refl _ _, HubPart.same_refl _ _⟩ | exact (no_mask hmsk rfl hq).elim)))

theorem State.eachHub_touches {msk : Nat} {s₀ : State} (s : State) (f : HubId → State → State) (hk : Within msk s₀ s)
    (hf : ∀ h t, Within msk s₀ t → Within msk s₀ (f h t)) : Within msk s₀ (State.eachHub s f) := by
  unfold State.eachHub
  generalize s.upHubs = l
  induction l generalizing s with
  | nil => exact hk
  | cons x l ih => exact ih _ (hf x s hk)

theorem State.each_touches {msk : Nat} {α : Type} {s₀ : State} (s : State) (l : List α) (f : α → State → State) (hk : Within msk s₀ s)
    (hf : ∀ x t, Within msk s₀ t → Within msk s₀ (f x t)) : Within msk s₀ (State.each s l f) := by
  unfold State.each
  induction l generalizing s with
  | nil => exact hk
  | cons x l ih => exact ih _ (hf x s hk)

theorem State.setQueue_touches {msk : Nat} {s₀ : State} (s : State) (u : NetUnit) (q : Queue) (hmsk : 17293822569102737408 &&& msk = 17293822569102737408) (hk : Within msk s₀ s)  :
    Within msk s₀ (State.setQueue s u q) := by
  unfold State.setQueue
  try dsimp only
  repeat' (first
    | with_reducible assumption
    | exact sub_mask hmsk rfl
    | with_reducible apply State.modAgent_touches
    | with_reducible apply State.modConc_touches
    | with_reducible apply State.modEngine_touches
    | with_reducible apply State.modLink_touches
    | with_reducible apply State.modHub_touches
    | with_reducible exact HubWithin.refl _ _
    | split
    | intro (_ : Hub)
    | (refine ⟨?_⟩; intro q hq; cases q <;> first | exact rfl | exact (no_mask hmsk rfl hq).elim)
    | (refine HubWithin.lit ?_ (by intro q hq; cases q <;> first | exact rfl | exact (no_mask hmsk rfl hq).elim))
    | intro _
    | (refine Within.lit ?_ (by intro q hq; cases q <;> first | exact rfl | exact ⟨HubPart.same_refl _ _, HubPart.same_refl _ _⟩ | exact (no_mask hmsk rfl hq).elim)))

theorem State.emit_touches {msk : Nat} {s₀ : State} (s : State) (u : NetUnit) (m : Msg) (hmsk : 17293822569102737408 &&& msk = 17293822569102737408) (hk : Within msk s₀ s)  :
    Within msk s₀ (State.emit s u m) := by
  unfold State.emit
  try dsimp only
  repeat' (first
    | with_reducible assumption
    | exact sub_mask hmsk rfl
    | with_reducible apply State.setQueue_touches
    | split
    | intro _
    | (refine Within.lit ?_ (by intro q hq; cases q <;> first | exact rfl | exact ⟨HubPart.same_refl _ _, HubPart.same_refl _ _⟩ | exact (no_mask hmsk rfl hq).elim)))

theorem State.report_touches {msk : Nat} {s₀ : State} (s : State) (a : Nat) (kind : Byte) (sev : BitVec 3) (addr : Addr) (job : Job) (hmsk : 17293822569102737408 &&& msk = 17293822569102737408) (hk : Within msk s₀ s)  :
    Within msk s₀ (State.report s a kind sev addr job) := by
  unfold State.report
  try dsimp only
  repeat' (first
    | with_reducible assumption
    | exact sub_mask hmsk rfl
    | with_reducible apply State.emit_touches
    | split
    | intro _
    | (refine Within.lit ?_ (by intro q hq; cases q <;> first | exact rfl | exact ⟨HubPart.same_refl _ _, HubPart.same_refl _ _⟩ | exact (no_mask hmsk rfl hq).elim)))

theorem State.mgmtPush_touches {msk : Nat} {s₀ : State} (s : State) (e : MgmtEvent) (hmsk : 1267650600228229401496703205376 &&& msk = 1267650600228229401496703205376) (hk : Within msk s₀ s)  :
    Within msk s₀ (State.mgmtPush s e) := by
  unfold State.mgmtPush
  try dsimp only
  repeat' (first
    | with_reducible assumption
    | exact sub_mask hmsk rfl
    | split
    | intro _
    | (refine Within.lit ?_ (by intro q hq; cases q <;> first | exact rfl | exact ⟨HubPart.same_refl _ _, HubPart.same_refl _ _⟩ | exact (no_mask hmsk rfl hq).elim)))

theorem State.setSt_touches {msk : Nat} {s₀ : State} (s : State) (h : HubId) (x : HubSt) (hmsk : 1267650600228229401496703205377 &&& msk = 1267650600228229401496703205377) (hk : Within msk s₀ s)  :
    Within msk s₀ (State.setSt s h x) := by
  unfold State.setSt
  try dsimp only
  repeat' (first
    | with_reducible assumption
    | exact sub_mask hmsk rfl
    | with_reducible apply State.modHub_touches
    | with_reducible apply State.mgmtPush_touches
    | with_reducible exact HubWithin.refl _ _
    | split
    | intro (_ : Hub)
    | (refine ⟨?_⟩; intro q hq; cases q <;> first | exact rfl | exact (no_mask hmsk rfl hq).elim)
    | (refine HubWithin.lit ?_ (by intro q hq; cases q <;> first | exact rfl | exact (no_mask hmsk rfl hq).elim))
    | intro _
    | (refine Within.lit ?_ (by intro q hq; cases q <;> first | exact rfl | exact ⟨HubPart.same_refl _ _, HubPart.same_refl _ _⟩ | exact (no_mask hmsk rfl hq).elim)))

theorem State.syncState_touches {msk : Nat} {s₀ : State} (s : State) (h : HubId) (hmsk : 1267650600228229401496703205377 &&& msk = 1267650600228229401496703205377) (hk : Within msk s₀ s)  :
    Within msk s₀ (State.syncState s h) := by
  unfold State.syncState
  try dsimp only
  repeat' (first
    | with_reducible assumption
    | exact sub_mask hmsk rfl
    | with_reducible apply State.setSt_touches
    | split
    | intro _
    | (refine Within.lit ?_ (by intro q hq; cases q <;> first | exact rfl | exact ⟨HubPart.same_refl _ _, HubPart.same_refl _ _⟩ | exact (no_mask hmsk rfl hq).elim)))

theorem State.setMode_touches {msk : Nat} {s₀ : State} (s : State) (m : Nat) (hmsk : 1267650600265122889644122308608 &&& msk = 1267650600265122889644122308608) (hk : Within msk s₀ s)  :
    Within msk s₀ (State.setMode s m) := by
  unfold State.setMode
  try dsimp only
  repeat' (first
    | with_reducible assumption
    | exact sub_mask hmsk rfl
    | with_reducible apply State.mgmtPush_touches
    | split
    | intro _
    | (refine Within.lit ?_ (by intro q hq; cases q <;> first | exact rfl | exact ⟨HubPart.same_refl _ _, HubPart.same_refl _ _⟩ | exact (no_mask hmsk rfl hq).elim)))

theorem State.endCmd_touches {msk : Nat} {s₀ : State} (s : State) (code : Nat) (hmsk : 2361183241434823655424 &&& msk = 2361183241434823655424) (hk : Within msk s₀ s)  :
    Within msk s₀ (State.endCmd s code) := by
  unfold State.endCmd
  try dsimp only
  repeat' (first
    | with_reducible assumption
    | exact sub_mask hmsk rfl
    | with_reducible apply State.modHubs_touches
    | with_reducible exact HubWithin.refl _ _
    | split
    | intro (_ : Hub)
    | (refine ⟨?_⟩; intro q hq; cases q <;> first | exact rfl | exact (no_mask hmsk rfl hq).elim)
    | (refine HubWithin.lit ?_ (by intro q hq; cases q <;> first | exact rfl | exact (no_mask hmsk rfl hq).elim))
    | intro _
    | (refine Within.lit ?_ (by intro q hq; cases q <;> first | exact rfl | exact ⟨HubPart.same_refl _ _, HubPart.same_refl _ _⟩ | exact (no_mask hmsk rfl hq).elim)))

theorem State.endWrap_touches {msk : Nat} {s₀ : State} (s : State) (hmsk : 1267650602589412642931526860801 &&& msk = 1267650602589412642931526860801) (hk : Within msk s₀ s)  :
    Within msk s₀ (State.endWrap s) := by
  unfold State.endWrap
  try dsimp only
  repeat' (first
    | with_reducible assumption
    | exact sub_mask hmsk rfl
    | with_reducible apply State.eachHub_touches
    | with_reducible apply State.setSt_touches
    | with_reducible apply State.endCmd_touches
    | split
    | intro _
    | (refine Within.lit ?_ (by intro q hq; cases q <;> first | exact rfl | exact ⟨HubPart.same_refl _ _, HubPart.same_refl _ _⟩ | exact (no_mask hmsk rfl hq).elim)))

theorem State.endQuiesce_touches {msk : Nat} {s₀ : State} (s : State) (hmsk : 1267650602589412642931526860801 &&& msk = 1267650602589412642931526860801) (hk : Within msk s₀ s)  :
    Within msk s₀ (State.endQuiesce s) := by
  unfold State.endQuiesce
  try dsimp only
  repeat' (first
    | with_reducible assumption
    | exact sub_mask hmsk rfl
    | with_reducible apply State.eachHub_touches
    | with_reducible apply State.setSt_touches
    | with_reducible apply State.endCmd_touches
    | split
    | intro _
    | (refine Within.lit ?_ (by intro q hq; cases q <;> first | exact rfl | exact ⟨HubPart.same_refl _ _, HubPart.same_refl _ _⟩ | exact (no_mask hmsk rfl hq).elim)))

theorem Hub.reelPut_touches {msk : Nat} {k₀ : Hub} (h : Hub) (m : Msg) (hmsk : 704 &&& msk = 704) (hk : HubWithin msk k₀ h) :
    HubWithin msk k₀ (Hub.reelPut h m) := by
  unfold Hub.reelPut
  try dsimp only
  repeat' (first
    | with_reducible assumption
    | exact sub_mask hmsk rfl
    | split
    | intro _
    | (refine HubWithin.trans (by assumption) ?_; refine ⟨?_⟩; intro q hq; cases q <;> first | exact rfl | exact (no_mask hmsk rfl hq).elim)
    | (refine HubWithin.lit ?_ (by intro q hq; cases q <;> first | exact rfl | exact (no_mask hmsk rfl hq).elim)))

theorem Hub.reelWrite_touches {msk : Nat} {k₀ : Hub} (h : Hub) (m : Msg) (hmsk : 3776 &&& msk = 3776) (hk : HubWithin msk k₀ h) :
    HubWithin msk k₀ (Hub.reelWrite h m) := by
  unfold Hub.reelWrite
  try dsimp only
  repeat' (first
    | with_reducible assumption
    | exact sub_mask hmsk rfl
    | with_reducible apply Hub.reelPut_touches
    | split
    | intro _
    | (refine HubWithin.trans (by assumption) ?_; refine ⟨?_⟩; intro q hq; cases q <;> first | exact rfl | exact (no_mask hmsk rfl hq).elim)
    | (refine HubWithin.lit ?_ (by intro q hq; cases q <;> first | exact rfl | exact (no_mask hmsk rfl hq).elim)))

theorem Hub.stick_touches {msk : Nat} {k₀ : Hub} (h : Hub) (m : Msg) (hmsk : 32 &&& msk = 32) (hk : HubWithin msk k₀ h) :
    HubWithin msk k₀ (Hub.stick h m) := by
  unfold Hub.stick
  try dsimp only
  repeat' (first
    | with_reducible assumption
    | exact sub_mask hmsk rfl
    | split
    | intro _
    | (refine HubWithin.trans (by assumption) ?_; refine ⟨?_⟩; intro q hq; cases q <;> first | exact rfl | exact (no_mask hmsk rfl hq).elim)
    | (refine HubWithin.lit ?_ (by intro q hq; cases q <;> first | exact rfl | exact (no_mask hmsk rfl hq).elim)))

theorem State.snapshot_touches {msk : Nat} {s₀ : State} (s : State) (h : HubId) (c : Nat) (hmsk : 16777216 &&& msk = 16777216) (hk : Within msk s₀ s)  :
    Within msk s₀ (State.snapshot s h c) := by
  unfold State.snapshot
  try dsimp only
  repeat' (first
    | with_reducible assumption
    | exact sub_mask hmsk rfl
    | with_reducible apply State.modHub_touches
    | with_reducible exact HubWithin.refl _ _
    | split
    | intro (_ : Hub)
    | (refine ⟨?_⟩; intro q hq; cases q <;> first | exact rfl | exact (no_mask hmsk rfl hq).elim)
    | (refine HubWithin.lit ?_ (by intro q hq; cases q <;> first | exact rfl | exact (no_mask hmsk rfl hq).elim))
    | intro _
    | (refine Within.lit ?_ (by intro q hq; cases q <;> first | exact rfl | exact ⟨HubPart.same_refl _ _, HubPart.same_refl _ _⟩ | exact (no_mask hmsk rfl hq).elim)))

theorem State.severeSnapshot_touches {msk : Nat} {s₀ : State} (s : State) (h : HubId) (m : Msg) (hmsk : 16777216 &&& msk = 16777216) (hk : Within msk s₀ s)  :
    Within msk s₀ (State.severeSnapshot s h m) := by
  unfold State.severeSnapshot
  try dsimp only
  repeat' (first
    | with_reducible assumption
    | exact sub_mask hmsk rfl
    | with_reducible apply State.snapshot_touches
    | split
    | intro _
    | (refine Within.lit ?_ (by intro q hq; cases q <;> first | exact rfl | exact ⟨HubPart.same_refl _ _, HubPart.same_refl _ _⟩ | exact (no_mask hmsk rfl hq).elim)))

theorem State.record_touches {msk : Nat} {s₀ : State} (s : State) (h : HubId) (m : Msg) (hmsk : 16781024 &&& msk = 16781024) (hk : Within msk s₀ s)  :
    Within msk s₀ (State.record s h m) := by
  unfold State.record
  repeat' (first
    | with_reducible assumption
    | exact sub_mask hmsk rfl
    | with_reducible apply State.modHub_touches
    | with_reducible apply State.severeSnapshot_touches
    | with_reducible apply Hub.reelWrite_touches
    | with_reducible apply Hub.stick_touches
    | with_reducible exact HubWithin.refl _ _
    | (extract_lets +onlyGivenNames zz; refine Within.cut (s := s₀) (t := zz) (m := msk) ?_ ?_; dsimp only [zz]; clear zz; rotate_left; clear_value zz; revert zz; intro _ _)
    | (extract_lets +onlyGivenNames zz; clear_value zz; revert zz; intro _)
    | split
    | intro (_ : Hub)
    | (refine ⟨?_⟩; intro q hq; cases q <;> first | exact rfl | exact (no_mask hmsk rfl hq).elim)
    | (refine HubWithin.lit ?_ (by intro q hq; cases q <;> first | exact rfl | exact (no_mask hmsk rfl hq).elim))
    | intro _
    | (refine Within.lit ?_ (by intro q hq; cases q <;> first | exact rfl | exact ⟨HubPart.same_refl _ _, HubPart.same_refl _ _⟩ | exact (no_mask hmsk rfl hq).elim)))

theorem Hub.holdDaily_touches {msk : Nat} {k₀ : Hub} (h : Hub) (d : Daily) (hmsk : 224300372066304 &&& msk = 224300372066304) (hk : HubWithin msk k₀ h) :
    HubWithin msk k₀ (Hub.holdDaily h d) := by
  unfold Hub.holdDaily
  try dsimp only
  repeat' (first
    | with_reducible assumption
    | exact sub_mask hmsk rfl
    | split
    | intro _
    | (refine HubWithin.trans (by assumption) ?_; refine ⟨?_⟩; intro q hq; cases q <;> first | exact rfl | exact (no_mask hmsk rfl hq).elim)
    | (refine HubWithin.lit ?_ (by intro q hq; cases q <;> first | exact rfl | exact (no_mask hmsk rfl hq).elim)))

theorem State.stopEvents_touches {msk : Nat} {s₀ : State} (s : State) (h : HubId) (seq : W32) (hmsk : 1267650600228229401496703205376 &&& msk = 1267650600228229401496703205376) (hk : Within msk s₀ s)  :
    Within msk s₀ (State.stopEvents s h seq) := by
  unfold State.stopEvents
  try dsimp only
  repeat' (first
    | with_reducible assumption
    | exact sub_mask hmsk rfl
    | split
    | intro _
    | (refine Within.lit ?_ (by intro q hq; cases q <;> first | exact rfl | exact ⟨HubPart.same_refl _ _, HubPart.same_refl _ _⟩ | exact (no_mask hmsk rfl hq).elim)))

theorem State.dropLostDailies_touches {msk : Nat} {s₀ : State} (s : State) (h : HubId) (hmsk : 1267650600228229401496703205376 &&& msk = 1267650600228229401496703205376) (hk : Within msk s₀ s)  :
    Within msk s₀ (State.dropLostDailies s h) := by
  unfold State.dropLostDailies
  try dsimp only
  repeat' (first
    | with_reducible assumption
    | exact sub_mask hmsk rfl
    | split
    | intro _
    | (refine Within.lit ?_ (by intro q hq; cases q <;> first | exact rfl | exact ⟨HubPart.same_refl _ _, HubPart.same_refl _ _⟩ | exact (no_mask hmsk rfl hq).elim)))

theorem State.buildDaily_touches {msk : Nat} {s₀ : State} (s t : State) (h : HubId) (m : Msg) (f : Nat) (hmsk : 1267650600228229625797075271680 &&& msk = 1267650600228229625797075271680) (hk : Within msk s₀ s)  :
    Within msk s₀ (State.buildDaily s t h m f) := by
  unfold State.buildDaily
  try dsimp only
  repeat' (first
    | with_reducible assumption
    | exact sub_mask hmsk rfl
    | with_reducible apply State.modHub_touches
    | with_reducible apply State.dropLostDailies_touches
    | with_reducible apply State.mgmtPush_touches
    | with_reducible apply State.stopEvents_touches
    | with_reducible apply Hub.holdDaily_touches
    | with_reducible exact HubWithin.refl _ _
    | split
    | intro (_ : Hub)
    | (refine ⟨?_⟩; intro q hq; cases q <;> first | exact rfl | exact (no_mask hmsk rfl hq).elim)
    | (refine HubWithin.lit ?_ (by intro q hq; cases q <;> first | exact rfl | exact (no_mask hmsk rfl hq).elim))
    | intro _
    | (refine Within.lit ?_ (by intro q hq; cases q <;> first | exact rfl | exact ⟨HubPart.same_refl _ _, HubPart.same_refl _ _⟩ | exact (no_mask hmsk rfl hq).elim)))

theorem State.modX_touches {msk : Nat} {s₀ : State} (s : State) (h : HubId) (f : XSend → XSend) (hmsk : 73786976294838206464 &&& msk = 73786976294838206464) (hk : Within msk s₀ s)  :
    Within msk s₀ (State.modX s h f) := by
  unfold State.modX
  try dsimp only
  repeat' (first
    | with_reducible assumption
    | exact sub_mask hmsk rfl
    | split
    | intro _
    | (refine Within.lit ?_ (by intro q hq; cases q <;> first | exact rfl | exact ⟨HubPart.same_refl _ _, HubPart.same_refl _ _⟩ | exact (no_mask hmsk rfl hq).elim)))

theorem State.mirrorOut_touches {msk : Nat} {s₀ : State} (s : State) (h : HubId) (m : Msg) (hmsk : 73786976294838206464 &&& msk = 73786976294838206464) (hk : Within msk s₀ s)  :
    Within msk s₀ (State.mirrorOut s h m) := by
  unfold State.mirrorOut
  try dsimp only
  repeat' (first
    | with_reducible assumption
    | exact sub_mask hmsk rfl
    | with_reducible apply State.modX_touches
    | split
    | intro _
    | (refine Within.lit ?_ (by intro q hq; cases q <;> first | exact rfl | exact ⟨HubPart.same_refl _ _, HubPart.same_refl _ _⟩ | exact (no_mask hmsk rfl hq).elim)))

theorem State.mirrorWrite_touches {msk : Nat} {s₀ : State} (s : State) (a : Nat) (data : W32) (hmsk : 73786976294838206464 &&& msk = 73786976294838206464) (hk : Within msk s₀ s)  :
    Within msk s₀ (State.mirrorWrite s a data) := by
  unfold State.mirrorWrite
  try dsimp only
  repeat' (first
    | with_reducible assumption
    | exact sub_mask hmsk rfl
    | with_reducible apply State.modX_touches
    | split
    | intro _
    | (refine Within.lit ?_ (by intro q hq; cases q <;> first | exact rfl | exact ⟨HubPart.same_refl _ _, HubPart.same_refl _ _⟩ | exact (no_mask hmsk rfl hq).elim)))

theorem State.portDo_touches {msk : Nat} {s₀ : State} (s : State) (f : State → State) (hmsk : 9007199254740992 &&& msk = 9007199254740992) (hk : Within msk s₀ s) (hf : ∀ t, Within msk s₀ t → Within msk s₀ (f t)) :
    Within msk s₀ (State.portDo s f) := by
  unfold State.portDo
  try dsimp only
  repeat' (first
    | with_reducible assumption
    | exact sub_mask hmsk rfl
    | with_reducible apply hf
    | with_reducible apply State.present_touches
    | split
    | intro _
    | (refine Within.lit ?_ (by intro q hq; cases q <;> first | exact rfl | exact ⟨HubPart.same_refl _ _, HubPart.same_refl _ _⟩ | exact (no_mask hmsk rfl hq).elim)))

theorem State.hubMsg_touches {msk : Nat} {s₀ : State} (s : State) (h : HubId) (src : BitVec 16) (kind : Byte) (sev : BitVec 3) (addr : Addr) (job : Job)
    (by_ : Option Msg := none) (hmsk : 32768 &&& msk = 32768) (hk : Within msk s₀ s)  :
    Within msk s₀ (State.hubMsg s h src kind sev addr job by_).2 := by
  unfold State.hubMsg
  try dsimp only
  repeat' (first
    | with_reducible assumption
    | exact sub_mask hmsk rfl
    | with_reducible apply State.modHub_touches
    | with_reducible exact HubWithin.refl _ _
    | split
    | intro (_ : Hub)
    | (refine ⟨?_⟩; intro q hq; cases q <;> first | exact rfl | exact (no_mask hmsk rfl hq).elim)
    | (refine HubWithin.lit ?_ (by intro q hq; cases q <;> first | exact rfl | exact (no_mask hmsk rfl hq).elim))
    | intro _
    | (refine Within.lit ?_ (by intro q hq; cases q <;> first | exact rfl | exact ⟨HubPart.same_refl _ _, HubPart.same_refl _ _⟩ | exact (no_mask hmsk rfl hq).elim)))

theorem State.hubMsg_touchesOf {msk : Nat} {s₀ : State} {s : State} (h : HubId) (src : BitVec 16) (kind : Byte) (sev : BitVec 3) (addr : Addr) (job : Job)
    (by_ : Option Msg := none) {t : State} {rest}
    (hmsk : 32768 &&& msk = 32768) (heq : State.hubMsg s h src kind sev addr job by_ = (rest, t)) (hk : Within msk s₀ s) : Within msk s₀ t := by
  have key := State.hubMsg_touches s h src kind sev addr job by_ hmsk hk
  rw [heq] at key
  exact key

theorem State.generate_touches {msk : Nat} {s₀ : State} (s : State) (h : HubId) (m : Msg) (hmsk : 1267650600302016602091930259168 &&& msk = 1267650600302016602091930259168) (hk : Within msk s₀ s)  :
    Within msk s₀ (State.generate s h m) := by
  unfold State.generate
  try dsimp only
  repeat' (first
    | with_reducible assumption
    | exact sub_mask hmsk rfl
    | with_reducible apply State.record_touches
    | with_reducible apply State.mirrorOut_touches
    | with_reducible apply State.buildDaily_touches
    | split
    | intro _
    | (refine Within.lit ?_ (by intro q hq; cases q <;> first | exact rfl | exact ⟨HubPart.same_refl _ _, HubPart.same_refl _ _⟩ | exact (no_mask hmsk rfl hq).elim)))

theorem State.generateIrq_touches {msk : Nat} {s₀ : State} (s : State) (h : HubId) (m : Msg) (hmsk : 1267650600302016602091931307744 &&& msk = 1267650600302016602091931307744) (hk : Within msk s₀ s)  :
    Within msk s₀ (State.generateIrq s h m) := by
  unfold State.generateIrq
  try dsimp only
  repeat' (first
    | with_reducible assumption
    | exact sub_mask hmsk rfl
    | with_reducible apply State.generate_touches
    | with_reducible apply State.modHub_touches
    | with_reducible exact HubWithin.refl _ _
    | split
    | intro (_ : Hub)
    | (refine ⟨?_⟩; intro q hq; cases q <;> first | exact rfl | exact (no_mask hmsk rfl hq).elim)
    | (refine HubWithin.lit ?_ (by intro q hq; cases q <;> first | exact rfl | exact (no_mask hmsk rfl hq).elim))
    | intro _
    | (refine Within.lit ?_ (by intro q hq; cases q <;> first | exact rfl | exact ⟨HubPart.same_refl _ _, HubPart.same_refl _ _⟩ | exact (no_mask hmsk rfl hq).elim)))

theorem State.orderFences_touches {msk : Nat} {s₀ : State} (s : State) (h : HubId) (l : List Nat) (hmsk : 16 &&& msk = 16) (hk : Within msk s₀ s)  :
    Within msk s₀ (State.orderFences s h l) := by
  unfold State.orderFences
  try dsimp only
  repeat' (first
    | with_reducible assumption
    | exact sub_mask hmsk rfl
    | with_reducible apply State.modHub_touches
    | with_reducible exact HubWithin.refl _ _
    | split
    | intro (_ : Hub)
    | (refine ⟨?_⟩; intro q hq; cases q <;> first | exact rfl | exact (no_mask hmsk rfl hq).elim)
    | (refine HubWithin.lit ?_ (by intro q hq; cases q <;> first | exact rfl | exact (no_mask hmsk rfl hq).elim))
    | intro _
    | (refine Within.lit ?_ (by intro q hq; cases q <;> first | exact rfl | exact ⟨HubPart.same_refl _ _, HubPart.same_refl _ _⟩ | exact (no_mask hmsk rfl hq).elim)))

theorem State.endFences_touches {msk : Nat} {s₀ : State} (s : State) (h : HubId) (l : List Nat) (hmsk : 16 &&& msk = 16) (hk : Within msk s₀ s)  :
    Within msk s₀ (State.endFences s h l) := by
  unfold State.endFences
  try dsimp only
  repeat' (first
    | with_reducible assumption
    | exact sub_mask hmsk rfl
    | with_reducible apply State.modHub_touches
    | with_reducible exact HubWithin.refl _ _
    | split
    | intro (_ : Hub)
    | (refine ⟨?_⟩; intro q hq; cases q <;> first | exact rfl | exact (no_mask hmsk rfl hq).elim)
    | (refine HubWithin.lit ?_ (by intro q hq; cases q <;> first | exact rfl | exact (no_mask hmsk rfl hq).elim))
    | intro _
    | (refine Within.lit ?_ (by intro q hq; cases q <;> first | exact rfl | exact ⟨HubPart.same_refl _ _, HubPart.same_refl _ _⟩ | exact (no_mask hmsk rfl hq).elim)))

theorem State.furtherEvent_touches {msk : Nat} {s₀ : State} (s : State) (h : HubId) (a : Nat) (hmsk : 65536 &&& msk = 65536) (hk : Within msk s₀ s)  :
    Within msk s₀ (State.furtherEvent s h a) := by
  unfold State.furtherEvent
  try dsimp only
  repeat' (first
    | with_reducible assumption
    | exact sub_mask hmsk rfl
    | with_reducible apply State.modHub_touches
    | with_reducible exact HubWithin.refl _ _
    | split
    | intro (_ : Hub)
    | (refine ⟨?_⟩; intro q hq; cases q <;> first | exact rfl | exact (no_mask hmsk rfl hq).elim)
    | (refine HubWithin.lit ?_ (by intro q hq; cases q <;> first | exact rfl | exact (no_mask hmsk rfl hq).elim))
    | intro _
    | (refine Within.lit ?_ (by intro q hq; cases q <;> first | exact rfl | exact ⟨HubPart.same_refl _ _, HubPart.same_refl _ _⟩ | exact (no_mask hmsk rfl hq).elim)))

theorem State.syncPaddock_touches {msk : Nat} {s₀ : State} (s : State) (a : Nat) (hmsk : 1161928703861587968 &&& msk = 1161928703861587968) (hk : Within msk s₀ s)  :
    Within msk s₀ (State.syncPaddock s a) := by
  unfold State.syncPaddock
  try dsimp only
  repeat' (first
    | with_reducible assumption
    | exact sub_mask hmsk rfl
    | with_reducible apply State.modAgent_touches
    | with_reducible apply State.present_touches
    | split
    | intro _
    | (refine Within.lit ?_ (by intro q hq; cases q <;> first | exact rfl | exact ⟨HubPart.same_refl _ _, HubPart.same_refl _ _⟩ | exact (no_mask hmsk rfl hq).elim)))

theorem State.removePad_touches {msk : Nat} {s₀ : State} (s : State) (h : HubId) (a : Nat) (hmsk : 633825300115276629452213256192 &&& msk = 633825300115276629452213256192) (hk : Within msk s₀ s)  :
    Within msk s₀ (State.removePad s h a) := by
  unfold State.removePad
  try dsimp only
  repeat' (first
    | with_reducible assumption
    | exact sub_mask hmsk rfl
    | with_reducible apply State.modHub_touches
    | with_reducible apply State.syncPaddock_touches
    | with_reducible exact HubWithin.refl _ _
    | split
    | intro (_ : Hub)
    | (refine ⟨?_⟩; intro q hq; cases q <;> first | exact rfl | exact (no_mask hmsk rfl hq).elim)
    | (refine HubWithin.lit ?_ (by intro q hq; cases q <;> first | exact rfl | exact (no_mask hmsk rfl hq).elim))
    | intro _
    | (refine Within.lit ?_ (by intro q hq; cases q <;> first | exact rfl | exact ⟨HubPart.same_refl _ _, HubPart.same_refl _ _⟩ | exact (no_mask hmsk rfl hq).elim)))

theorem State.exitPad_touches {msk : Nat} {s₀ : State} (s : State) (h : HubId) (a : Nat) (hmsk : 633825300115276629452213256192 &&& msk = 633825300115276629452213256192) (hk : Within msk s₀ s)  :
    Within msk s₀ (State.exitPad s h a) := by
  unfold State.exitPad
  try dsimp only
  repeat' (first
    | with_reducible assumption
    | exact sub_mask hmsk rfl
    | with_reducible apply State.removePad_touches
    | split
    | intro _
    | (refine Within.lit ?_ (by intro q hq; cases q <;> first | exact rfl | exact ⟨HubPart.same_refl _ _, HubPart.same_refl _ _⟩ | exact (no_mask hmsk rfl hq).elim)))

theorem State.presentCmt_touches {msk : Nat} {s₀ : State} (s : State) (a : Nat) (c : Cmt) (hmsk : 1161928703861587968 &&& msk = 1161928703861587968) (hk : Within msk s₀ s)  :
    Within msk s₀ (State.presentCmt s a c) := by
  unfold State.presentCmt
  try dsimp only
  repeat' (first
    | with_reducible assumption
    | exact sub_mask hmsk rfl
    | with_reducible apply State.modAgent_touches
    | with_reducible apply State.present_touches
    | split
    | intro _
    | (refine Within.lit ?_ (by intro q hq; cases q <;> first | exact rfl | exact ⟨HubPart.same_refl _ _, HubPart.same_refl _ _⟩ | exact (no_mask hmsk rfl hq).elim)))

theorem State.openInc_touches {msk : Nat} {s₀ : State} (s : State) (a : Nat) (job : Job) (step : Option W64) (hmsk : 2305843009213693952 &&& msk = 2305843009213693952) (hk : Within msk s₀ s)  :
    Within msk s₀ (State.openInc s a job step) := by
  unfold State.openInc
  try dsimp only
  repeat' (first
    | with_reducible assumption
    | exact sub_mask hmsk rfl
    | with_reducible apply State.modConc_touches
    | split
    | intro _
    | (refine Within.lit ?_ (by intro q hq; cases q <;> first | exact rfl | exact ⟨HubPart.same_refl _ _, HubPart.same_refl _ _⟩ | exact (no_mask hmsk rfl hq).elim)))

theorem State.openDec_touches {msk : Nat} {s₀ : State} (s : State) (a : Nat) (job : Job) (step : Option W64) (hmsk : 2305843009213693952 &&& msk = 2305843009213693952) (hk : Within msk s₀ s)  :
    Within msk s₀ (State.openDec s a job step) := by
  unfold State.openDec
  try dsimp only
  repeat' (first
    | with_reducible assumption
    | exact sub_mask hmsk rfl
    | with_reducible apply State.modConc_touches
    | split
    | intro _
    | (refine Within.lit ?_ (by intro q hq; cases q <;> first | exact rfl | exact ⟨HubPart.same_refl _ _, HubPart.same_refl _ _⟩ | exact (no_mask hmsk rfl hq).elim)))

theorem State.logRetake_touches {msk : Nat} {s₀ : State} (s : State) (r : Retake) (dec : Nat) (blame : Nat → Nat) (hmsk : 270799387052441448954724352 &&& msk = 270799387052441448954724352) (hk : Within msk s₀ s)  :
    Within msk s₀ (State.logRetake s r dec blame) := by
  unfold State.logRetake
  try dsimp only
  repeat' (first
    | with_reducible assumption
    | exact sub_mask hmsk rfl
    | with_reducible apply State.each_touches
    | with_reducible apply State.modConc_touches
    | with_reducible apply State.modAgent_touches
    | split
    | intro _
    | (refine Within.lit ?_ (by intro q hq; cases q <;> first | exact rfl | exact ⟨HubPart.same_refl _ _, HubPart.same_refl _ _⟩ | exact (no_mask hmsk rfl hq).elim)))

theorem State.settled_touches {msk : Nat} {s₀ : State} (s : State) (r : Retake) (hmsk : 2305843009213693952 &&& msk = 2305843009213693952) (hk : Within msk s₀ s)  :
    Within msk s₀ (State.settled s r) := by
  unfold State.settled
  try dsimp only
  repeat' (first
    | with_reducible assumption
    | exact sub_mask hmsk rfl
    | with_reducible apply State.openDec_touches
    | split
    | intro _
    | (refine Within.lit ?_ (by intro q hq; cases q <;> first | exact rfl | exact ⟨HubPart.same_refl _ _, HubPart.same_refl _ _⟩ | exact (no_mask hmsk rfl hq).elim)))

theorem State.closeRetake_touches {msk : Nat} {s₀ : State} (s : State) (n : Nat) (dec : Nat) (blame : Nat → Nat) (hmsk : 1267940744789578918447276883969 &&& msk = 1267940744789578918447276883969) (hk : Within msk s₀ s)  :
    Within msk s₀ (State.closeRetake s n dec blame) := by
  unfold State.closeRetake
  try dsimp only
  repeat' (first
    | with_reducible assumption
    | exact sub_mask hmsk rfl
    | with_reducible apply State.each_touches
    | with_reducible apply State.modAgent_touches
    | with_reducible apply State.settled_touches
    | with_reducible apply State.logRetake_touches
    | with_reducible apply State.endQuiesce_touches
    | split
    | intro _
    | (refine Within.lit ?_ (by intro q hq; cases q <;> first | exact rfl | exact ⟨HubPart.same_refl _ _, HubPart.same_refl _ _⟩ | exact (no_mask hmsk rfl hq).elim)))

theorem State.abortedEntry_touches {msk : Nat} {s₀ : State} (s : State) (h : HubId) (r : Retake) (hmsk : 1267650600302016602091931307744 &&& msk = 1267650600302016602091931307744) (hk : Within msk s₀ s)  :
    Within msk s₀ (State.abortedEntry s h r) := by
  unfold State.abortedEntry
  try dsimp only
  repeat' (first
    | with_reducible assumption
    | exact sub_mask hmsk rfl
    | with_reducible apply State.generate_touches
    | with_reducible apply State.modHub_touches
    | with_reducible exact HubWithin.refl _ _
    | split
    | intro (_ : Hub)
    | (refine ⟨?_⟩; intro q hq; cases q <;> first | exact rfl | exact (no_mask hmsk rfl hq).elim)
    | (refine HubWithin.lit ?_ (by intro q hq; cases q <;> first | exact rfl | exact (no_mask hmsk rfl hq).elim))
    | intro _
    | (refine Within.lit ?_ (by intro q hq; cases q <;> first | exact rfl | exact ⟨HubPart.same_refl _ _, HubPart.same_refl _ _⟩ | exact (no_mask hmsk rfl hq).elim)))

theorem State.stopRetakes_touches {msk : Nat} {s₀ : State} (s : State) (h : HubId) (hmsk : 1267940744863366119042503937761 &&& msk = 1267940744863366119042503937761) (hk : Within msk s₀ s)  :
    Within msk s₀ (State.stopRetakes s h) := by
  unfold State.stopRetakes
  try dsimp only
  repeat' (first
    | with_reducible assumption
    | exact sub_mask hmsk rfl
    | with_reducible apply State.each_touches
    | with_reducible apply State.modRetake_touches
    | with_reducible apply State.closeRetake_touches
    | with_reducible apply State.abortedEntry_touches
    | split
    | intro _
    | (refine Within.lit ?_ (by intro q hq; cases q <;> first | exact rfl | exact ⟨HubPart.same_refl _ _, HubPart.same_refl _ _⟩ | exact (no_mask hmsk rfl hq).elim)))

theorem State.abortRetakes_touches {msk : Nat} {s₀ : State} (s : State) (j : Nat) (hmsk : 1267669943115130436158726606560 &&& msk = 1267669943115130436158726606560) (hk : Within msk s₀ s)  :
    Within msk s₀ (State.abortRetakes s j) := by
  unfold State.abortRetakes
  try dsimp only
  repeat' (first
    | with_reducible assumption
    | exact sub_mask hmsk rfl
    | with_reducible apply State.each_touches
    | with_reducible apply State.modRetake_touches
    | with_reducible apply State.abortedEntry_touches
    | split
    | intro _
    | (refine Within.lit ?_ (by intro q hq; cases q <;> first | exact rfl | exact ⟨HubPart.same_refl _ _, HubPart.same_refl _ _⟩ | exact (no_mask hmsk rfl hq).elim)))

theorem State.sendBeacon_touches {msk : Nat} {s₀ : State} (s : State) (p : Nat) (hmsk : 4951760157150528298851237888 &&& msk = 4951760157150528298851237888) (hk : Within msk s₀ s)  :
    Within msk s₀ (State.sendBeacon s p) := by
  unfold State.sendBeacon
  try dsimp only
  repeat' (first
    | with_reducible assumption
    | exact sub_mask hmsk rfl
    | with_reducible apply State.modPort_touches
    | with_reducible apply State.present_touches
    | split
    | intro _
    | (refine Within.lit ?_ (by intro q hq; cases q <;> first | exact rfl | exact ⟨HubPart.same_refl _ _, HubPart.same_refl _ _⟩ | exact (no_mask hmsk rfl hq).elim)))

theorem State.abortStreams_touches {msk : Nat} {s₀ : State} (s : State) (j : Nat) (hmsk : 118842243771396506390315925504 &&& msk = 118842243771396506390315925504) (hk : Within msk s₀ s)  :
    Within msk s₀ (State.abortStreams s j) := by
  unfold State.abortStreams
  try dsimp only
  repeat' (first
    | with_reducible assumption
    | exact sub_mask hmsk rfl
    | split
    | intro _
    | (refine Within.lit ?_ (by intro q hq; cases q <;> first | exact rfl | exact ⟨HubPart.same_refl _ _, HubPart.same_refl _ _⟩ | exact (no_mask hmsk rfl hq).elim)))

theorem State.dropRefused_touches {msk : Nat} {s₀ : State} (s : State) (j : Nat) (hmsk : 36893488147419103232 &&& msk = 36893488147419103232) (hk : Within msk s₀ s)  :
    Within msk s₀ (State.dropRefused s j) := by
  unfold State.dropRefused
  try dsimp only
  repeat' (first
    | with_reducible assumption
    | exact sub_mask hmsk rfl
    | split
    | intro _
    | (refine Within.lit ?_ (by intro q hq; cases q <;> first | exact rfl | exact ⟨HubPart.same_refl _ _, HubPart.same_refl _ _⟩ | exact (no_mask hmsk rfl hq).elim)))

theorem State.abortBeacons_touches {msk : Nat} {s₀ : State} (s : State) (mask : BitVec 16) (step : W64) (hmsk : 14855280471433570498044231680 &&& msk = 14855280471433570498044231680) (hk : Within msk s₀ s)  :
    Within msk s₀ (State.abortBeacons s mask step) := by
  unfold State.abortBeacons
  try dsimp only
  repeat' (first
    | with_reducible assumption
    | exact sub_mask hmsk rfl
    | with_reducible apply State.each_touches
    | with_reducible apply State.sendBeacon_touches
    | split
    | intro _
    | (refine Within.lit ?_ (by intro q hq; cases q <;> first | exact rfl | exact ⟨HubPart.same_refl _ _, HubPart.same_refl _ _⟩ | exact (no_mask hmsk rfl hq).elim)))

theorem State.dropHeld_touches {msk : Nat} {s₀ : State} (s : State) (j : Nat) (hmsk : 4951760157141521099596496896 &&& msk = 4951760157141521099596496896) (hk : Within msk s₀ s)  :
    Within msk s₀ (State.dropHeld s j) := by
  unfold State.dropHeld
  try dsimp only
  repeat' (first
    | with_reducible assumption
    | exact sub_mask hmsk rfl
    | split
    | intro _
    | (refine Within.lit ?_ (by intro q hq; cases q <;> first | exact rfl | exact ⟨HubPart.same_refl _ _, HubPart.same_refl _ _⟩ | exact (no_mask hmsk rfl hq).elim)))

theorem State.markAborted_touches {msk : Nat} {s₀ : State} (s : State) (j : Nat) (hmsk : 1401369887607676471887677886177 &&& msk = 1401369887607676471887677886177) (hk : Within msk s₀ s)  :
    Within msk s₀ (State.markAborted s j) := by
  unfold State.markAborted
  try dsimp only
  repeat' (first
    | with_reducible assumption
    | exact sub_mask hmsk rfl
    | with_reducible apply State.dropRefused_touches
    | with_reducible apply State.modJob_touches
    | with_reducible apply State.abortStreams_touches
    | with_reducible apply State.abortRetakes_touches
    | with_reducible apply State.dropHeld_touches
    | with_reducible apply State.abortBeacons_touches
    | with_reducible apply State.endQuiesce_touches
    | split
    | intro _
    | (refine Within.lit ?_ (by intro q hq; cases q <;> first | exact rfl | exact ⟨HubPart.same_refl _ _, HubPart.same_refl _ _⟩ | exact (no_mask hmsk rfl hq).elim)))

theorem State.fifoAbort_touches {msk : Nat} {s₀ : State} (s : State) (j : Nat) (kind : Byte) (hmsk : 7253554917687775048237056 &&& msk = 7253554917687775048237056) (hk : Within msk s₀ s)  :
    Within msk s₀ (State.fifoAbort s j kind) := by
  unfold State.fifoAbort
  try dsimp only
  repeat' (first
    | with_reducible assumption
    | exact sub_mask hmsk rfl
    | with_reducible apply State.modJob_touches
    | split
    | intro _
    | (refine Within.lit ?_ (by intro q hq; cases q <;> first | exact rfl | exact ⟨HubPart.same_refl _ _, HubPart.same_refl _ _⟩ | exact (no_mask hmsk rfl hq).elim)))

theorem State.raiseAbort_touches {msk : Nat} {s₀ : State} (s : State) (h : HubId) (job : Job) (kind : Byte) (hmsk : 1401374723310954930404376841953 &&& msk = 1401374723310954930404376841953) (hk : Within msk s₀ s)  :
    Within msk s₀ (State.raiseAbort s h job kind) := by
  unfold State.raiseAbort
  try dsimp only
  repeat' (first
    | with_reducible assumption
    | exact sub_mask hmsk rfl
    | with_reducible apply State.modHub_touches
    | with_reducible apply State.markAborted_touches
    | with_reducible apply State.modX_touches
    | with_reducible apply State.fifoAbort_touches
    | with_reducible exact HubWithin.refl _ _
    | split
    | intro (_ : Hub)
    | (refine ⟨?_⟩; intro q hq; cases q <;> first | exact rfl | exact (no_mask hmsk rfl hq).elim)
    | (refine HubWithin.lit ?_ (by intro q hq; cases q <;> first | exact rfl | exact (no_mask hmsk rfl hq).elim))
    | intro _
    | (refine Within.lit ?_ (by intro q hq; cases q <;> first | exact rfl | exact ⟨HubPart.same_refl _ _, HubPart.same_refl _ _⟩ | exact (no_mask hmsk rfl hq).elim)))

theorem State.curbEntry_touches {msk : Nat} {s₀ : State} (s : State) (h : HubId) (die level : Nat) (ovr : Bool) (by_ : Option Msg := none) (hmsk : 16813792 &&& msk = 16813792) (hk : Within msk s₀ s)  :
    Within msk s₀ (State.curbEntry s h die level ovr by_) := by
  unfold State.curbEntry
  try dsimp only
  repeat' (first
    | with_reducible assumption
    | exact sub_mask hmsk rfl
    | with_reducible apply State.hubMsg_touches
    | refine State.hubMsg_touchesOf (sub_mask hmsk rfl) (by assumption) ?_
    | with_reducible apply State.record_touches
    | split
    | intro _
    | (refine Within.lit ?_ (by intro q hq; cases q <;> first | exact rfl | exact ⟨HubPart.same_refl _ _, HubPart.same_refl _ _⟩ | exact (no_mask hmsk rfl hq).elim)))

theorem State.setCurb_touches {msk : Nat} {s₀ : State} (s : State) (h : HubId) (die level : Nat) (ovr : Bool) (by_ : Option Msg := none) (hmsk : 23105248 &&& msk = 23105248) (hk : Within msk s₀ s)  :
    Within msk s₀ (State.setCurb s h die level ovr by_) := by
  unfold State.setCurb
  try dsimp only
  repeat' (first
    | with_reducible assumption
    | exact sub_mask hmsk rfl
    | with_reducible apply State.modHub_touches
    | with_reducible apply State.curbEntry_touches
    | with_reducible exact HubWithin.refl _ _
    | split
    | intro (_ : Hub)
    | (refine ⟨?_⟩; intro q hq; cases q <;> first | exact rfl | exact (no_mask hmsk rfl hq).elim)
    | (refine HubWithin.lit ?_ (by intro q hq; cases q <;> first | exact rfl | exact (no_mask hmsk rfl hq).elim))
    | intro _
    | (refine Within.lit ?_ (by intro q hq; cases q <;> first | exact rfl | exact ⟨HubPart.same_refl _ _, HubPart.same_refl _ _⟩ | exact (no_mask hmsk rfl hq).elim)))

theorem State.periodEntry_touches {msk : Nat} {s₀ : State} (s : State) (h : HubId) (die : Nat) (by_ : Option Msg := none) (hmsk : 16813792 &&& msk = 16813792) (hk : Within msk s₀ s)  :
    Within msk s₀ (State.periodEntry s h die by_) := by
  unfold State.periodEntry
  try dsimp only
  repeat' (first
    | with_reducible assumption
    | exact sub_mask hmsk rfl
    | with_reducible apply State.curbEntry_touches
    | split
    | intro _
    | (refine Within.lit ?_ (by intro q hq; cases q <;> first | exact rfl | exact ⟨HubPart.same_refl _ _, HubPart.same_refl _ _⟩ | exact (no_mask hmsk rfl hq).elim)))

theorem State.stopCurbs_touches {msk : Nat} {s₀ : State} (s : State) (h : HubId) (by_ : Option Msg := none) (hmsk : 56659680 &&& msk = 56659680) (hk : Within msk s₀ s)  :
    Within msk s₀ (State.stopCurbs s h by_) := by
  unfold State.stopCurbs
  try dsimp only
  repeat' (first
    | with_reducible assumption
    | exact sub_mask hmsk rfl
    | with_reducible apply State.each_touches
    | with_reducible apply State.setCurb_touches
    | with_reducible apply State.periodEntry_touches
    | with_reducible apply State.modHub_touches
    | with_reducible exact HubWithin.refl _ _
    | split
    | intro (_ : Hub)
    | (refine ⟨?_⟩; intro q hq; cases q <;> first | exact rfl | exact (no_mask hmsk rfl hq).elim)
    | (refine HubWithin.lit ?_ (by intro q hq; cases q <;> first | exact rfl | exact (no_mask hmsk rfl hq).elim))
    | intro _
    | (refine Within.lit ?_ (by intro q hq; cases q <;> first | exact rfl | exact ⟨HubPart.same_refl _ _, HubPart.same_refl _ _⟩ | exact (no_mask hmsk rfl hq).elim)))

theorem State.failStage_touches {msk : Nat} {s₀ : State} (s : State) (cause code good bad : Nat) (by_ : Option Msg := none) (hmsk : 1267650701759108783194093162209 &&& msk = 1267650701759108783194093162209) (hk : Within msk s₀ s)  :
    Within msk s₀ (State.failStage s cause code good bad by_) := by
  unfold State.failStage
  try dsimp only
  repeat' (first
    | with_reducible assumption
    | exact sub_mask hmsk rfl
    | with_reducible apply State.eachHub_touches
    | with_reducible apply State.setSt_touches
    | with_reducible apply State.hubMsg_touches
    | refine State.hubMsg_touchesOf (sub_mask hmsk rfl) (by assumption) ?_
    | with_reducible apply State.record_touches
    | with_reducible apply State.endCmd_touches
    | split
    | intro _
    | (refine Within.lit ?_ (by intro q hq; cases q <;> first | exact rfl | exact ⟨HubPart.same_refl _ _, HubPart.same_refl _ _⟩ | exact (no_mask hmsk rfl hq).elim)))

theorem State.breakStage_touches {msk : Nat} {s₀ : State} (s : State) (cause : Nat) (by_ : Option Msg := none) (hmsk : 1267650701759108783194093162209 &&& msk = 1267650701759108783194093162209) (hk : Within msk s₀ s)  :
    Within msk s₀ (State.breakStage s cause by_) := by
  unfold State.breakStage
  try dsimp only
  repeat' (first
    | with_reducible assumption
    | exact sub_mask hmsk rfl
    | with_reducible apply State.failStage_touches
    | split
    | intro _
    | (refine Within.lit ?_ (by intro q hq; cases q <;> first | exact rfl | exact ⟨HubPart.same_refl _ _, HubPart.same_refl _ _⟩ | exact (no_mask hmsk rfl hq).elim)))

theorem State.dropProposals_touches {msk : Nat} {s₀ : State} (s : State) (hmsk : 36893488147419103232 &&& msk = 36893488147419103232) (hk : Within msk s₀ s)  :
    Within msk s₀ (State.dropProposals s) := by
  unfold State.dropProposals
  try dsimp only
  repeat' (first
    | with_reducible assumption
    | exact sub_mask hmsk rfl
    | split
    | intro _
    | (refine Within.lit ?_ (by intro q hq; cases q <;> first | exact rfl | exact ⟨HubPart.same_refl _ _, HubPart.same_refl _ _⟩ | exact (no_mask hmsk rfl hq).elim)))

theorem State.stopScans_touches {msk : Nat} {s₀ : State} (s : State) (hmsk : 1161928703861587968 &&& msk = 1161928703861587968) (hk : Within msk s₀ s)  :
    Within msk s₀ (State.stopScans s) := by
  unfold State.stopScans
  try dsimp only
  repeat' (first
    | with_reducible assumption
    | exact sub_mask hmsk rfl
    | with_reducible apply State.each_touches
    | with_reducible apply State.modAgent_touches
    | with_reducible apply State.present_touches
    | split
    | intro _
    | (refine Within.lit ?_ (by intro q hq; cases q <;> first | exact rfl | exact ⟨HubPart.same_refl _ _, HubPart.same_refl _ _⟩ | exact (no_mask hmsk rfl hq).elim)))

theorem State.chipStop_touches {msk : Nat} {s₀ : State} (s : State) (h : HubId) (by_ : Option Msg := none) (hmsk : 1267940844069964754651767148265 &&& msk = 1267940844069964754651767148265) (hk : Within msk s₀ s)  :
    Within msk s₀ (State.chipStop s h by_) := by
  unfold State.chipStop
  try dsimp only
  repeat' (first
    | with_reducible assumption
    | exact sub_mask hmsk rfl
    | with_reducible apply State.modHub_touches
    | with_reducible apply State.breakStage_touches
    | with_reducible apply State.setSt_touches
    | with_reducible apply State.stopCurbs_touches
    | with_reducible apply State.stopRetakes_touches
    | with_reducible apply State.dropProposals_touches
    | with_reducible apply State.stopScans_touches
    | with_reducible apply State.endCmd_touches
    | with_reducible exact HubWithin.refl _ _
    | split
    | intro (_ : Hub)
    | (refine ⟨?_⟩; intro q hq; cases q <;> first | exact rfl | exact (no_mask hmsk rfl hq).elim)
    | (refine HubWithin.lit ?_ (by intro q hq; cases q <;> first | exact rfl | exact (no_mask hmsk rfl hq).elim))
    | intro _
    | (refine Within.lit ?_ (by intro q hq; cases q <;> first | exact rfl | exact ⟨HubPart.same_refl _ _, HubPart.same_refl _ _⟩ | exact (no_mask hmsk rfl hq).elim)))

theorem State.endGrant_touches {msk : Nat} {s₀ : State} (s : State) (hmsk : 633825300114114700748351602688 &&& msk = 633825300114114700748351602688) (hk : Within msk s₀ s)  :
    Within msk s₀ (State.endGrant s) := by
  unfold State.endGrant
  try dsimp only
  repeat' (first
    | with_reducible assumption
    | exact sub_mask hmsk rfl
    | split
    | intro _
    | (refine Within.lit ?_ (by intro q hq; cases q <;> first | exact rfl | exact ⟨HubPart.same_refl _ _, HubPart.same_refl _ _⟩ | exact (no_mask hmsk rfl hq).elim)))

theorem State.abandonTrot_touches {msk : Nat} {s₀ : State} (s : State) (t : Trot) (hmsk : 1901475902704680265184485376001 &&& msk = 1901475902704680265184485376001) (hk : Within msk s₀ s)  :
    Within msk s₀ (State.abandonTrot s t) := by
  unfold State.abandonTrot
  try dsimp only
  repeat' (first
    | with_reducible assumption
    | exact sub_mask hmsk rfl
    | with_reducible apply State.endGrant_touches
    | with_reducible apply State.modAgent_touches
    | with_reducible apply State.eachHub_touches
    | with_reducible apply State.modHub_touches
    | with_reducible apply State.endQuiesce_touches
    | with_reducible exact HubWithin.refl _ _
    | split
    | intro (_ : Hub)
    | (refine ⟨?_⟩; intro q hq; cases q <;> first | exact rfl | exact (no_mask hmsk rfl hq).elim)
    | (refine HubWithin.lit ?_ (by intro q hq; cases q <;> first | exact rfl | exact (no_mask hmsk rfl hq).elim))
    | intro _
    | (refine Within.lit ?_ (by intro q hq; cases q <;> first | exact rfl | exact ⟨HubPart.same_refl _ _, HubPart.same_refl _ _⟩ | exact (no_mask hmsk rfl hq).elim)))

theorem State.handDailies_touches {msk : Nat} {s₀ : State} (s : State) (h w : HubId) (served : Bool) (hmsk : 1267650600228229405894749716480 &&& msk = 1267650600228229405894749716480) (hk : Within msk s₀ s)  :
    Within msk s₀ (State.handDailies s h w served) := by
  unfold State.handDailies
  try dsimp only
  repeat' (first
    | with_reducible assumption
    | exact sub_mask hmsk rfl
    | with_reducible apply State.modHub_touches
    | with_reducible exact HubWithin.refl _ _
    | split
    | intro (_ : Hub)
    | (refine ⟨?_⟩; intro q hq; cases q <;> first | exact rfl | exact (no_mask hmsk rfl hq).elim)
    | (refine HubWithin.lit ?_ (by intro q hq; cases q <;> first | exact rfl | exact (no_mask hmsk rfl hq).elim))
    | intro _
    | (refine Within.lit ?_ (by intro q hq; cases q <;> first | exact rfl | exact ⟨HubPart.same_refl _ _, HubPart.same_refl _ _⟩ | exact (no_mask hmsk rfl hq).elim)))

theorem State.representOrders_touches {msk : Nat} {s₀ : State} (s : State) (hmsk : 9007199254740992 &&& msk = 9007199254740992) (hk : Within msk s₀ s)  :
    Within msk s₀ (State.representOrders s) := by
  unfold State.representOrders
  try dsimp only
  repeat' (first
    | with_reducible assumption
    | exact sub_mask hmsk rfl
    | with_reducible apply State.each_touches
    | with_reducible apply State.present_touches
    | split
    | intro _
    | (refine Within.lit ?_ (by intro q hq; cases q <;> first | exact rfl | exact ⟨HubPart.same_refl _ _, HubPart.same_refl _ _⟩ | exact (no_mask hmsk rfl hq).elim)))

theorem State.detach_touches {msk : Nat} {s₀ : State} (s : State) (h : HubId) (mode : Nat) (hmsk : 1901483156517861381588768587777 &&& msk = 1901483156517861381588768587777) (hk : Within msk s₀ s)  :
    Within msk s₀ (State.detach s h mode) := by
  unfold State.detach
  try dsimp only
  repeat' (first
    | with_reducible assumption
    | exact sub_mask hmsk rfl
    | with_reducible apply State.handDailies_touches
    | with_reducible apply State.setMode_touches
    | with_reducible apply State.each_touches
    | with_reducible apply State.fifoAbort_touches
    | with_reducible apply State.modX_touches
    | with_reducible apply State.abandonTrot_touches
    | with_reducible apply State.representOrders_touches
    | with_reducible apply State.endCmd_touches
    | split
    | intro _
    | (refine Within.lit ?_ (by intro q hq; cases q <;> first | exact rfl | exact ⟨HubPart.same_refl _ _, HubPart.same_refl _ _⟩ | exact (no_mask hmsk rfl hq).elim)))

theorem State.enterFault_touches {msk : Nat} {s₀ : State} (s : State) (h : HubId) (p : Nat) (kind : Byte) (by_ : Option Msg := none) (hmsk : 1901773397886571095764843466491 &&& msk = 1901773397886571095764843466491) (hk : Within msk s₀ s)  :
    Within msk s₀ (State.enterFault s h p kind by_) := by
  unfold State.enterFault
  try dsimp only
  repeat' (first
    | with_reducible assumption
    | exact sub_mask hmsk rfl
    | with_reducible apply State.modHub_touches
    | with_reducible apply State.orderFences_touches
    | with_reducible apply State.removePad_touches
    | with_reducible apply State.syncState_touches
    | with_reducible apply State.detach_touches
    | with_reducible apply State.chipStop_touches
    | with_reducible apply Hub.modSrc_touches
    | with_reducible exact HubWithin.refl _ _
    | split
    | intro (_ : Hub)
    | (refine ⟨?_⟩; intro q hq; cases q <;> first | exact rfl | exact (no_mask hmsk rfl hq).elim)
    | (refine HubWithin.lit ?_ (by intro q hq; cases q <;> first | exact rfl | exact (no_mask hmsk rfl hq).elim))
    | intro _
    | (refine Within.lit ?_ (by intro q hq; cases q <;> first | exact rfl | exact ⟨HubPart.same_refl _ _, HubPart.same_refl _ _⟩ | exact (no_mask hmsk rfl hq).elim)))

theorem State.lameEvent_touches {msk : Nat} {s₀ : State} (s : State) (h : HubId) (hmsk : 1267650600228229401496703205376 &&& msk = 1267650600228229401496703205376) (hk : Within msk s₀ s)  :
    Within msk s₀ (State.lameEvent s h) := by
  unfold State.lameEvent
  try dsimp only
  repeat' (first
    | with_reducible assumption
    | exact sub_mask hmsk rfl
    | with_reducible apply State.mgmtPush_touches
    | split
    | intro _
    | (refine Within.lit ?_ (by intro q hq; cases q <;> first | exact rfl | exact ⟨HubPart.same_refl _ _, HubPart.same_refl _ _⟩ | exact (no_mask hmsk rfl hq).elim)))

theorem State.makeLame_touches {msk : Nat} {s₀ : State} (s : State) (h : HubId) (p : Nat) (by_ : Option Msg := none) (hmsk : 1901475900417293231544144613111 &&& msk = 1901475900417293231544144613111) (hk : Within msk s₀ s)  :
    Within msk s₀ (State.makeLame s h p by_) := by
  unfold State.makeLame
  try dsimp only
  repeat' (first
    | with_reducible assumption
    | exact sub_mask hmsk rfl
    | with_reducible apply State.modHub_touches
    | with_reducible apply State.orderFences_touches
    | with_reducible apply State.removePad_touches
    | with_reducible apply State.hubMsg_touches
    | refine State.hubMsg_touchesOf (sub_mask hmsk rfl) (by assumption) ?_
    | with_reducible apply State.generateIrq_touches
    | with_reducible apply State.lameEvent_touches
    | with_reducible apply State.syncState_touches
    | with_reducible apply Hub.modSrc_touches
    | with_reducible apply Hub.count_touches
    | with_reducible exact HubWithin.refl _ _
    | split
    | intro (_ : Hub)
    | (refine ⟨?_⟩; intro q hq; cases q <;> first | exact rfl | exact (no_mask hmsk rfl hq).elim)
    | (refine HubWithin.lit ?_ (by intro q hq; cases q <;> first | exact rfl | exact (no_mask hmsk rfl hq).elim))
    | intro _
    | (refine Within.lit ?_ (by intro q hq; cases q <;> first | exact rfl | exact ⟨HubPart.same_refl _ _, HubPart.same_refl _ _⟩ | exact (no_mask hmsk rfl hq).elim)))

theorem State.bucketStep_touches {msk : Nat} {s₀ : State} (s : State) (h : HubId) (m : Msg) (hmsk : 1901773397886571095764843482875 &&& msk = 1901773397886571095764843482875) (hk : Within msk s₀ s)  :
    Within msk s₀ (State.bucketStep s h m) := by
  unfold State.bucketStep
  try dsimp only
  repeat' (first
    | with_reducible assumption
    | exact sub_mask hmsk rfl
    | with_reducible apply State.modHub_touches
    | with_reducible apply State.enterFault_touches
    | with_reducible apply State.furtherEvent_touches
    | with_reducible apply State.record_touches
    | with_reducible apply State.mirrorOut_touches
    | with_reducible apply State.buildDaily_touches
    | with_reducible apply Hub.modSrc_touches
    | with_reducible apply Hub.count_touches
    | with_reducible exact HubWithin.refl _ _
    | split
    | intro (_ : Hub)
    | (refine ⟨?_⟩; intro q hq; cases q <;> first | exact rfl | exact (no_mask hmsk rfl hq).elim)
    | (refine HubWithin.lit ?_ (by intro q hq; cases q <;> first | exact rfl | exact (no_mask hmsk rfl hq).elim))
    | intro _
    | (refine Within.lit ?_ (by intro q hq; cases q <;> first | exact rfl | exact ⟨HubPart.same_refl _ _, HubPart.same_refl _ _⟩ | exact (no_mask hmsk rfl hq).elim)))

theorem State.place_touches {msk : Nat} {s₀ : State} (s : State) (h : HubId) (a : Nat) (tile agentSus : Bool) (cause : Nat) (by_ : Msg) (hmsk : 1901773397886571095764843466491 &&& msk = 1901773397886571095764843466491) (hk : Within msk s₀ s)  :
    Within msk s₀ (State.place s h a tile agentSus cause by_) := by
  unfold State.place
  try dsimp only
  repeat' (first
    | with_reducible assumption
    | exact sub_mask hmsk rfl
    | with_reducible apply State.modHub_touches
    | with_reducible apply State.syncPaddock_touches
    | with_reducible apply State.record_touches
    | with_reducible apply State.mirrorOut_touches
    | with_reducible apply State.enterFault_touches
    | with_reducible apply State.buildDaily_touches
    | with_reducible exact HubWithin.refl _ _
    | split
    | intro (_ : Hub)
    | (refine ⟨?_⟩; intro q hq; cases q <;> first | exact rfl | exact (no_mask hmsk rfl hq).elim)
    | (refine HubWithin.lit ?_ (by intro q hq; cases q <;> first | exact rfl | exact (no_mask hmsk rfl hq).elim))
    | intro _
    | (refine Within.lit ?_ (by intro q hq; cases q <;> first | exact rfl | exact ⟨HubPart.same_refl _ _, HubPart.same_refl _ _⟩ | exact (no_mask hmsk rfl hq).elim)))

theorem State.react_touches {msk : Nat} {s₀ : State} (s : State) (h : HubId) (m : Msg) (hmsk : 2035470922129392165453949030139 &&& msk = 2035470922129392165453949030139) (hk : Within msk s₀ s)  :
    Within msk s₀ (State.react s h m) := by
  unfold State.react
  try dsimp only
  repeat' (first
    | with_reducible assumption
    | exact sub_mask hmsk rfl
    | with_reducible apply State.bucketStep_touches
    | with_reducible apply State.chipStop_touches
    | with_reducible apply State.raiseAbort_touches
    | split
    | intro _
    | (refine Within.lit ?_ (by intro q hq; cases q <;> first | exact rfl | exact ⟨HubPart.same_refl _ _, HubPart.same_refl _ _⟩ | exact (no_mask hmsk rfl hq).elim)))

theorem State.acceptRecord_touches {msk : Nat} {s₀ : State} (s : State) (h : HubId) (m : Msg) (hmsk : 17829600 &&& msk = 17829600) (hk : Within msk s₀ s)  :
    Within msk s₀ (State.acceptRecord s h m) := by
  unfold State.acceptRecord
  try dsimp only
  repeat' (first
    | with_reducible assumption
    | exact sub_mask hmsk rfl
    | with_reducible apply State.record_touches
    | with_reducible apply State.modHub_touches
    | with_reducible exact HubWithin.refl _ _
    | split
    | intro (_ : Hub)
    | (refine ⟨?_⟩; intro q hq; cases q <;> first | exact rfl | exact (no_mask hmsk rfl hq).elim)
    | (refine HubWithin.lit ?_ (by intro q hq; cases q <;> first | exact rfl | exact (no_mask hmsk rfl hq).elim))
    | intro _
    | (refine Within.lit ?_ (by intro q hq; cases q <;> first | exact rfl | exact ⟨HubPart.same_refl _ _, HubPart.same_refl _ _⟩ | exact (no_mask hmsk rfl hq).elim)))

theorem State.hubEntry_touches {msk : Nat} {s₀ : State} (s : State) (h : HubId) (m : Msg) (hmsk : 2035470922129392165453949030139 &&& msk = 2035470922129392165453949030139) (hk : Within msk s₀ s)  :
    Within msk s₀ (State.hubEntry s h m) := by
  unfold State.hubEntry
  try dsimp only
  repeat' (first
    | with_reducible assumption
    | exact sub_mask hmsk rfl
    | with_reducible apply State.acceptRecord_touches
    | with_reducible apply State.react_touches
    | with_reducible apply State.buildDaily_touches
    | split
    | intro _
    | (refine Within.lit ?_ (by intro q hq; cases q <;> first | exact rfl | exact ⟨HubPart.same_refl _ _, HubPart.same_refl _ _⟩ | exact (no_mask hmsk rfl hq).elim)))

theorem State.note_touches {msk : Nat} {s₀ : State} (s : State) (h : HubId) (src : BitVec 16) (kind : Byte) (sev : BitVec 3) (addr : Addr) (job : Job)
    (by_ : Option Msg := none) (hmsk : 2035470922129392165453949030139 &&& msk = 2035470922129392165453949030139) (hk : Within msk s₀ s)  :
    Within msk s₀ (State.note s h src kind sev addr job by_) := by
  unfold State.note
  try dsimp only
  repeat' (first
    | with_reducible assumption
    | exact sub_mask hmsk rfl
    | with_reducible apply State.hubMsg_touches
    | refine State.hubMsg_touchesOf (sub_mask hmsk rfl) (by assumption) ?_
    | with_reducible apply State.hubEntry_touches
    | split
    | intro _
    | (refine Within.lit ?_ (by intro q hq; cases q <;> first | exact rfl | exact ⟨HubPart.same_refl _ _, HubPart.same_refl _ _⟩ | exact (no_mask hmsk rfl hq).elim)))

theorem State.noteMirror_touches {msk : Nat} {s₀ : State} (s : State) (h : HubId) (src : BitVec 16) (kind : Byte) (sev : BitVec 3) (addr : Addr) (job : Job) (hmsk : 2035470922129392165453949030139 &&& msk = 2035470922129392165453949030139) (hk : Within msk s₀ s)  :
    Within msk s₀ (State.noteMirror s h src kind sev addr job) := by
  unfold State.noteMirror
  try dsimp only
  repeat' (first
    | with_reducible assumption
    | exact sub_mask hmsk rfl
    | with_reducible apply State.hubMsg_touches
    | refine State.hubMsg_touchesOf (sub_mask hmsk rfl) (by assumption) ?_
    | with_reducible apply State.hubEntry_touches
    | with_reducible apply State.mirrorOut_touches
    | split
    | intro _
    | (refine Within.lit ?_ (by intro q hq; cases q <;> first | exact rfl | exact ⟨HubPart.same_refl _ _, HubPart.same_refl _ _⟩ | exact (no_mask hmsk rfl hq).elim)))

theorem State.noteAll_touches {msk : Nat} {s₀ : State} (s : State) (src : BitVec 16) (kind : Byte) (sev : BitVec 3) (addr : Addr) (job : Job) (hmsk : 2035470922129392165453949030139 &&& msk = 2035470922129392165453949030139) (hk : Within msk s₀ s)  :
    Within msk s₀ (State.noteAll s src kind sev addr job) := by
  unfold State.noteAll
  try dsimp only
  repeat' (first
    | with_reducible assumption
    | exact sub_mask hmsk rfl
    | with_reducible apply State.eachHub_touches
    | with_reducible apply State.note_touches
    | split
    | intro _
    | (refine Within.lit ?_ (by intro q hq; cases q <;> first | exact rfl | exact ⟨HubPart.same_refl _ _, HubPart.same_refl _ _⟩ | exact (no_mask hmsk rfl hq).elim)))

theorem State.refusal_touches {msk : Nat} {s₀ : State} (s : State) (hmsk : 2035470922129392165591387983611 &&& msk = 2035470922129392165591387983611) (hk : Within msk s₀ s)  :
    Within msk s₀ (State.refusal s) := by
  unfold State.refusal
  try dsimp only
  repeat' (first
    | with_reducible assumption
    | exact sub_mask hmsk rfl
    | with_reducible apply State.modHub_touches
    | with_reducible apply State.note_touches
    | with_reducible exact HubWithin.refl _ _
    | split
    | intro (_ : Hub)
    | (refine ⟨?_⟩; intro q hq; cases q <;> first | exact rfl | exact (no_mask hmsk rfl hq).elim)
    | (refine HubWithin.lit ?_ (by intro q hq; cases q <;> first | exact rfl | exact (no_mask hmsk rfl hq).elim))
    | intro _
    | (refine Within.lit ?_ (by intro q hq; cases q <;> first | exact rfl | exact ⟨HubPart.same_refl _ _, HubPart.same_refl _ _⟩ | exact (no_mask hmsk rfl hq).elim)))

theorem State.propose_touches {msk : Nat} {s₀ : State} (s : State) (x : RelaxAction) (hmsk : 36893488147419103232 &&& msk = 36893488147419103232) (hk : Within msk s₀ s)  :
    Within msk s₀ (State.propose s x) := by
  unfold State.propose
  try dsimp only
  repeat' (first
    | with_reducible assumption
    | exact sub_mask hmsk rfl
    | split
    | intro _
    | (refine Within.lit ?_ (by intro q hq; cases q <;> first | exact rfl | exact ⟨HubPart.same_refl _ _, HubPart.same_refl _ _⟩ | exact (no_mask hmsk rfl hq).elim)))

theorem State.keepRefusal_touches {msk : Nat} {s₀ : State} (s : State) (x : RelaxAction) (hmsk : 36893488147419103232 &&& msk = 36893488147419103232) (hk : Within msk s₀ s)  :
    Within msk s₀ (State.keepRefusal s x) := by
  unfold State.keepRefusal
  try dsimp only
  repeat' (first
    | with_reducible assumption
    | exact sub_mask hmsk rfl
    | split
    | intro _
    | (refine Within.lit ?_ (by intro q hq; cases q <;> first | exact rfl | exact ⟨HubPart.same_refl _ _, HubPart.same_refl _ _⟩ | exact (no_mask hmsk rfl hq).elim)))

theorem State.relax_touches {msk : Nat} {s₀ : State} (s : State) (x : RelaxAction) (act : State → State) (hmsk : 36893488147419103232 &&& msk = 36893488147419103232) (hk : Within msk s₀ s) (ha : ∀ t, Within msk s₀ t → Within msk s₀ (act t)) :
    Within msk s₀ (State.relax s x act) := by
  unfold State.relax
  try dsimp only
  repeat' (first
    | with_reducible assumption
    | exact sub_mask hmsk rfl
    | with_reducible apply ha
    | with_reducible apply State.propose_touches
    | split
    | intro _
    | (refine Within.lit ?_ (by intro q hq; cases q <;> first | exact rfl | exact ⟨HubPart.same_refl _ _, HubPart.same_refl _ _⟩ | exact (no_mask hmsk rfl hq).elim)))

end Sys2Proof.Machine
end

