-- ==== Sys2Proof/Laws/TouchesRetake.lean ====
section
/-! SUPPORT. What every operation of Machine/Retake.lean may touch. -/

namespace Sys2Proof.Machine

open Sys2Proof

theorem State.scPush_touches {msk : Nat} {s₀ : State} (s : State) (a : Nat) (op : ScOp) (hmsk : 1161928703861587968 &&& msk = 1161928703861587968) (hk : Within msk s₀ s)  :
    Within msk s₀ (State.scPush s a op) := by
  unfold State.scPush
  try dsimp only
  repeat' (first
    | with_reducible assumption
    | exact sub_mask hmsk rfl
    | with_reducible apply State.modAgent_touches
    | with_reducible apply State.present_touches
    | split
    | intro _
    | (refine Within.lit ?_ (by intro q hq; cases q <;> first | exact rfl | exact ⟨HubPart.same_refl _ _, HubPart.same_refl _ _⟩ | exact (no_mask hmsk rfl hq).elim)))

theorem State.scDrop_touches {msk : Nat} {s₀ : State} (s : State) (a : Nat) (f : ScOp → Bool) (hmsk : 1152921504606846976 &&& msk = 1152921504606846976) (hk : Within msk s₀ s)  :
    Within msk s₀ (State.scDrop s a f) := by
  unfold State.scDrop
  try dsimp only
  repeat' (first
    | with_reducible assumption
    | exact sub_mask hmsk rfl
    | with_reducible apply State.modAgent_touches
    | split
    | intro _
    | (refine Within.lit ?_ (by intro q hq; cases q <;> first | exact rfl | exact ⟨HubPart.same_refl _ _, HubPart.same_refl _ _⟩ | exact (no_mask hmsk rfl hq).elim)))

theorem State.requestRun_touches {msk : Nat} {s₀ : State} (s : State) (n : Nat) (hmsk : 328827824097107839381667840 &&& msk = 328827824097107839381667840) (hk : Within msk s₀ s)  :
    Within msk s₀ (State.requestRun s n) := by
  unfold State.requestRun
  try dsimp only
  repeat' (first
    | with_reducible assumption
    | exact sub_mask hmsk rfl
    | with_reducible apply State.modRetake_touches
    | with_reducible apply State.scPush_touches
    | split
    | intro _
    | (refine Within.lit ?_ (by intro q hq; cases q <;> first | exact rfl | exact ⟨HubPart.same_refl _ _, HubPart.same_refl _ _⟩ | exact (no_mask hmsk rfl hq).elim)))

theorem State.startWaiting_touches {msk : Nat} {s₀ : State} (s : State) (hmsk : 328827824097107839381667840 &&& msk = 328827824097107839381667840) (hk : Within msk s₀ s)  :
    Within msk s₀ (State.startWaiting s) := by
  unfold State.startWaiting
  try dsimp only
  repeat' (first
    | with_reducible assumption
    | exact sub_mask hmsk rfl
    | with_reducible apply State.each_touches
    | with_reducible apply State.requestRun_touches
    | split
    | intro _
    | (refine Within.lit ?_ (by intro q hq; cases q <;> first | exact rfl | exact ⟨HubPart.same_refl _ _, HubPart.same_refl _ _⟩ | exact (no_mask hmsk rfl hq).elim)))

theorem State.decisionEntry_touches {msk : Nat} {s₀ : State} (s : State) (r : Retake) (dec : Nat) (hmsk : 2035470922129392165453949030139 &&& msk = 2035470922129392165453949030139) (hk : Within msk s₀ s)  :
    Within msk s₀ (State.decisionEntry s r dec) := by
  unfold State.decisionEntry
  try dsimp only
  repeat' (first
    | with_reducible assumption
    | exact sub_mask hmsk rfl
    | with_reducible apply State.hubEntry_touches
    | with_reducible apply State.mirrorOut_touches
    | split
    | intro _
    | (refine Within.lit ?_ (by intro q hq; cases q <;> first | exact rfl | exact ⟨HubPart.same_refl _ _, HubPart.same_refl _ _⟩ | exact (no_mask hmsk rfl hq).elim)))

theorem State.placeBlamed_touches {msk : Nat} {s₀ : State} (s : State) (r : Retake) (dec : Nat) (hmsk : 1901773397886571095764843466491 &&& msk = 1901773397886571095764843466491) (hk : Within msk s₀ s)  :
    Within msk s₀ (State.placeBlamed s r dec) := by
  unfold State.placeBlamed
  try dsimp only
  repeat' (first
    | with_reducible assumption
    | exact sub_mask hmsk rfl
    | with_reducible apply State.each_touches
    | with_reducible apply State.eachHub_touches
    | with_reducible apply State.place_touches
    | split
    | intro _
    | (refine Within.lit ?_ (by intro q hq; cases q <;> first | exact rfl | exact ⟨HubPart.same_refl _ _, HubPart.same_refl _ _⟩ | exact (no_mask hmsk rfl hq).elim)))

theorem State.takeDecision_touches {msk : Nat} {s₀ : State} (s : State) (n dec : Nat) (hmsk : 2035470922129392165453949030139 &&& msk = 2035470922129392165453949030139) (hk : Within msk s₀ s)  :
    Within msk s₀ (State.takeDecision s n dec) := by
  unfold State.takeDecision
  try dsimp only
  repeat' (first
    | with_reducible assumption
    | exact sub_mask hmsk rfl
    | with_reducible apply State.modRetake_touches
    | with_reducible apply State.placeBlamed_touches
    | with_reducible apply State.decisionEntry_touches
    | split
    | intro _
    | (refine Within.lit ?_ (by intro q hq; cases q <;> first | exact rfl | exact ⟨HubPart.same_refl _ _, HubPart.same_refl _ _⟩ | exact (no_mask hmsk rfl hq).elim)))

theorem State.decideStep_touches {msk : Nat} {s₀ : State} (s : State) (n : Nat) (more : Bool) (hmsk : 2035780407139213510522673811195 &&& msk = 2035780407139213510522673811195) (hk : Within msk s₀ s)  :
    Within msk s₀ (State.decideStep s n more) := by
  unfold State.decideStep
  try dsimp only
  repeat' (first
    | with_reducible assumption
    | exact sub_mask hmsk rfl
    | with_reducible apply State.requestRun_touches
    | with_reducible apply State.modRetake_touches
    | with_reducible apply State.relax_touches
    | with_reducible apply State.takeDecision_touches
    | split
    | intro _
    | (refine Within.lit ?_ (by intro q hq; cases q <;> first | exact rfl | exact ⟨HubPart.same_refl _ _, HubPart.same_refl _ _⟩ | exact (no_mask hmsk rfl hq).elim)))

theorem State.loseRun_touches {msk : Nat} {s₀ : State} (s : State) (n agent : Nat) (excused : Bool) (hmsk : 19342813113834066795298816 &&& msk = 19342813113834066795298816) (hk : Within msk s₀ s)  :
    Within msk s₀ (State.loseRun s n agent excused) := by
  unfold State.loseRun
  try dsimp only
  repeat' (first
    | with_reducible assumption
    | exact sub_mask hmsk rfl
    | with_reducible apply State.modRetake_touches
    | split
    | intro _
    | (refine Within.lit ?_ (by intro q hq; cases q <;> first | exact rfl | exact ⟨HubPart.same_refl _ _, HubPart.same_refl _ _⟩ | exact (no_mask hmsk rfl hq).elim)))

theorem State.declineRetake_touches {msk : Nat} {s₀ : State} (s : State) (x : Account) (hmsk : 3467771713075298304 &&& msk = 3467771713075298304) (hk : Within msk s₀ s)  :
    Within msk s₀ (State.declineRetake s x) := by
  unfold State.declineRetake
  try dsimp only
  repeat' (first
    | with_reducible assumption
    | exact sub_mask hmsk rfl
    | with_reducible apply State.presentCmt_touches
    | with_reducible apply State.modConc_touches
    | with_reducible apply State.modAgent_touches
    | with_reducible apply Hub.count_touches
    | split
    | intro _
    | (refine Within.lit ?_ (by intro q hq; cases q <;> first | exact rfl | exact ⟨HubPart.same_refl _ _, HubPart.same_refl _ _⟩ | exact (no_mask hmsk rfl hq).elim)))

theorem State.denyRetake_touches {msk : Nat} {s₀ : State} (s : State) (h : HubId) (m : Msg) (r : Retake) (dec : Nat) (hmsk : 2035470922129392165453949030139 &&& msk = 2035470922129392165453949030139) (hk : Within msk s₀ s)  :
    Within msk s₀ (State.denyRetake s h m r dec) := by
  unfold State.denyRetake
  try dsimp only
  repeat' (first
    | with_reducible assumption
    | exact sub_mask hmsk rfl
    | with_reducible apply State.logRetake_touches
    | with_reducible apply State.decisionEntry_touches
    | with_reducible apply State.raiseAbort_touches
    | split
    | intro _
    | (refine Within.lit ?_ (by intro q hq; cases q <;> first | exact rfl | exact ⟨HubPart.same_refl _ _, HubPart.same_refl _ _⟩ | exact (no_mask hmsk rfl hq).elim)))

theorem State.denyUnheld_touches {msk : Nat} {s₀ : State} (s : State) (h : HubId) (m : Msg) (hmsk : 2035470922129464223047986958075 &&& msk = 2035470922129464223047986958075) (hk : Within msk s₀ s)  :
    Within msk s₀ (State.denyUnheld s h m) := by
  unfold State.denyUnheld
  try dsimp only
  repeat' (first
    | with_reducible assumption
    | exact sub_mask hmsk rfl
    | with_reducible apply State.modConc_touches
    | with_reducible apply State.denyRetake_touches
    | split
    | intro _
    | (refine Within.lit ?_ (by intro q hq; cases q <;> first | exact rfl | exact ⟨HubPart.same_refl _ _, HubPart.same_refl _ _⟩ | exact (no_mask hmsk rfl hq).elim)))

theorem State.leadRetake_touches {msk : Nat} {s₀ : State} (s : State) (h : HubId) (m : Msg) (hmsk : 2035780407139285568116711739131 &&& msk = 2035780407139285568116711739131) (hk : Within msk s₀ s)  :
    Within msk s₀ (State.leadRetake s h m) := by
  unfold State.leadRetake
  try dsimp only
  repeat' (first
    | with_reducible assumption
    | exact sub_mask hmsk rfl
    | with_reducible apply State.denyUnheld_touches
    | with_reducible apply State.declineRetake_touches
    | with_reducible apply State.denyRetake_touches
    | with_reducible apply State.requestRun_touches
    | split
    | intro _
    | (refine Within.lit ?_ (by intro q hq; cases q <;> first | exact rfl | exact ⟨HubPart.same_refl _ _, HubPart.same_refl _ _⟩ | exact (no_mask hmsk rfl hq).elim)))

theorem State.openRetake_touches {msk : Nat} {s₀ : State} (s : State) (h : HubId) (m : Msg) (hmsk : 2035780407139285568116712001275 &&& msk = 2035780407139285568116712001275) (hk : Within msk s₀ s)  :
    Within msk s₀ (State.openRetake s h m) := by
  unfold State.openRetake
  try dsimp only
  repeat' (first
    | with_reducible assumption
    | exact sub_mask hmsk rfl
    | with_reducible apply State.modHub_touches
    | with_reducible apply State.leadRetake_touches
    | with_reducible exact HubWithin.refl _ _
    | split
    | intro (_ : Hub)
    | (refine ⟨?_⟩; intro q hq; cases q <;> first | exact rfl | exact (no_mask hmsk rfl hq).elim)
    | (refine HubWithin.lit ?_ (by intro q hq; cases q <;> first | exact rfl | exact (no_mask hmsk rfl hq).elim))
    | intro _
    | (refine Within.lit ?_ (by intro q hq; cases q <;> first | exact rfl | exact ⟨HubPart.same_refl _ _, HubPart.same_refl _ _⟩ | exact (no_mask hmsk rfl hq).elim)))

theorem State.takeUpFails_touches {msk : Nat} {s₀ : State} (s : State) (h : HubId) (hmsk : 2035780407139285568116712001275 &&& msk = 2035780407139285568116712001275) (hk : Within msk s₀ s)  :
    Within msk s₀ (State.takeUpFails s h) := by
  unfold State.takeUpFails
  try dsimp only
  repeat' (first
    | with_reducible assumption
    | exact sub_mask hmsk rfl
    | with_reducible apply State.each_touches
    | with_reducible apply State.leadRetake_touches
    | with_reducible apply State.modHub_touches
    | with_reducible exact HubWithin.refl _ _
    | split
    | intro (_ : Hub)
    | (refine ⟨?_⟩; intro q hq; cases q <;> first | exact rfl | exact (no_mask hmsk rfl hq).elim)
    | (refine HubWithin.lit ?_ (by intro q hq; cases q <;> first | exact rfl | exact (no_mask hmsk rfl hq).elim))
    | intro _
    | (refine Within.lit ?_ (by intro q hq; cases q <;> first | exact rfl | exact ⟨HubPart.same_refl _ _, HubPart.same_refl _ _⟩ | exact (no_mask hmsk rfl hq).elim)))

theorem State.takeUpLead_touches {msk : Nat} {s₀ : State} (s : State) (hmsk : 2035780407139285568116712001275 &&& msk = 2035780407139285568116712001275) (hk : Within msk s₀ s)  :
    Within msk s₀ (State.takeUpLead s) := by
  unfold State.takeUpLead
  try dsimp only
  repeat' (first
    | with_reducible assumption
    | exact sub_mask hmsk rfl
    | with_reducible apply State.takeUpFails_touches
    | split
    | intro _
    | (refine Within.lit ?_ (by intro q hq; cases q <;> first | exact rfl | exact ⟨HubPart.same_refl _ _, HubPart.same_refl _ _⟩ | exact (no_mask hmsk rfl hq).elim)))

theorem State.retire_touches {msk : Nat} {s₀ : State} (s : State) (hmsk : 2035470922129392165453949030139 &&& msk = 2035470922129392165453949030139) (hk : Within msk s₀ s)  :
    Within msk s₀ (State.retire s) := by
  unfold State.retire
  try dsimp only
  repeat' (first
    | with_reducible assumption
    | exact sub_mask hmsk rfl
    | with_reducible apply State.detach_touches
    | with_reducible apply State.note_touches
    | with_reducible apply State.endCmd_touches
    | split
    | intro _
    | (refine Within.lit ?_ (by intro q hq; cases q <;> first | exact rfl | exact ⟨HubPart.same_refl _ _, HubPart.same_refl _ _⟩ | exact (no_mask hmsk rfl hq).elim)))

theorem State.endRetire_touches {msk : Nat} {s₀ : State} (s : State) (hmsk : 2035780407139285568116712001275 &&& msk = 2035780407139285568116712001275) (hk : Within msk s₀ s)  :
    Within msk s₀ (State.endRetire s) := by
  unfold State.endRetire
  try dsimp only
  repeat' (first
    | with_reducible assumption
    | exact sub_mask hmsk rfl
    | with_reducible apply State.retire_touches
    | with_reducible apply State.takeUpLead_touches
    | split
    | intro _
    | (refine Within.lit ?_ (by intro q hq; cases q <;> first | exact rfl | exact ⟨HubPart.same_refl _ _, HubPart.same_refl _ _⟩ | exact (no_mask hmsk rfl hq).elim)))

theorem State.countTimeout_touches {msk : Nat} {s₀ : State} (s : State) (hmsk : 618970019642690137449562112 &&& msk = 618970019642690137449562112) (hk : Within msk s₀ s)  :
    Within msk s₀ (State.countTimeout s) := by
  unfold State.countTimeout
  try dsimp only
  repeat' (first
    | with_reducible assumption
    | exact sub_mask hmsk rfl
    | split
    | intro _
    | (refine Within.lit ?_ (by intro q hq; cases q <;> first | exact rfl | exact ⟨HubPart.same_refl _ _, HubPart.same_refl _ _⟩ | exact (no_mask hmsk rfl hq).elim)))

end Sys2Proof.Machine
end

