-- ==== Sys2Proof/Laws/TouchesNetwork.lean ====
section
/-! SUPPORT. What every operation of Machine/Network.lean may touch. -/

namespace Sys2Proof.Machine

open Sys2Proof

theorem State.hopMessage_touches {msk : Nat} {s₀ : State} (s : State) (u : NetUnit) (h : HubId) (hmsk : 35740566642812289024 &&& msk = 35740566642812289024) (hk : Within msk s₀ s)  :
    Within msk s₀ (State.hopMessage s u h) := by
  unfold State.hopMessage
  try dsimp only
  repeat' (first
    | with_reducible assumption
    | exact sub_mask hmsk rfl
    | with_reducible apply State.setQueue_touches
    | split
    | intro _
    | (refine Within.lit ?_ (by intro q hq; cases q <;> first | exact rfl | exact ⟨HubPart.same_refl _ _, HubPart.same_refl _ _⟩ | exact (no_mask hmsk rfl hq).elim)))

theorem State.noteResend_touches {msk : Nat} {s₀ : State} (s : State) (u v : NetUnit) (hmsk : 9223372036854775808 &&& msk = 9223372036854775808) (hk : Within msk s₀ s)  :
    Within msk s₀ (State.noteResend s u v) := by
  unfold State.noteResend
  try dsimp only
  repeat' (first
    | with_reducible assumption
    | exact sub_mask hmsk rfl
    | with_reducible apply State.modLink_touches
    | split
    | intro _
    | (refine Within.lit ?_ (by intro q hq; cases q <;> first | exact rfl | exact ⟨HubPart.same_refl _ _, HubPart.same_refl _ _⟩ | exact (no_mask hmsk rfl hq).elim)))

theorem State.hopBad_touches {msk : Nat} {s₀ : State} (s : State) (u : NetUnit) (h : HubId) (hmsk : 17293822569102737408 &&& msk = 17293822569102737408) (hk : Within msk s₀ s)  :
    Within msk s₀ (State.hopBad s u h) := by
  unfold State.hopBad
  try dsimp only
  repeat' (first
    | with_reducible assumption
    | exact sub_mask hmsk rfl
    | with_reducible apply State.setQueue_touches
    | with_reducible apply State.emit_touches
    | with_reducible apply State.noteResend_touches
    | split
    | intro _
    | (refine Within.lit ?_ (by intro q hq; cases q <;> first | exact rfl | exact ⟨HubPart.same_refl _ _, HubPart.same_refl _ _⟩ | exact (no_mask hmsk rfl hq).elim)))

theorem State.recover_touches {msk : Nat} {s₀ : State} (s : State) (h : HubId) (p : Nat) (hmsk : 1901773397895794467801698258683 &&& msk = 1901773397895794467801698258683) (hk : Within msk s₀ s)  :
    Within msk s₀ (State.recover s h p) := by
  unfold State.recover
  try dsimp only
  repeat' (first
    | with_reducible assumption
    | exact sub_mask hmsk rfl
    | with_reducible apply State.modHub_touches
    | with_reducible apply State.hubMsg_touches
    | refine State.hubMsg_touchesOf (sub_mask hmsk rfl) (by assumption) ?_
    | with_reducible apply State.generateIrq_touches
    | with_reducible apply State.endFences_touches
    | with_reducible apply State.place_touches
    | with_reducible apply State.modLink_touches
    | with_reducible apply State.syncState_touches
    | with_reducible apply Hub.modSrc_touches
    | with_reducible apply Hub.count_touches
    | with_reducible exact HubWithin.refl _ _
    | split
    | intro (_ : Hub)
    | (refine ⟨?_⟩; intro q hq; cases q <;> first | exact rfl | exact (no_mask hmsk rfl hq).elim)
    | (refine HubWithin.lit ?_ (by intro q hq; cases q <;> first | exact rfl | exact (no_mask hmsk rfl hq).elim))
    | intro _
    | (refine Within.lit ?_ (by intro q hq; cases q <;> first | exact rfl | exact ⟨HubPart.same_refl _ _, HubPart.same_refl _ _⟩ | exact (no_mask hmsk rfl hq).elim)))

theorem State.onQuiet_touches {msk : Nat} {s₀ : State} (s : State) (h : HubId) (p : Nat) (hmsk : 1901773397895794467801698258687 &&& msk = 1901773397895794467801698258687) (hk : Within msk s₀ s)  :
    Within msk s₀ (State.onQuiet s h p) := by
  unfold State.onQuiet
  try dsimp only
  repeat' (first
    | with_reducible assumption
    | exact sub_mask hmsk rfl
    | with_reducible apply State.modHub_touches
    | with_reducible apply State.makeLame_touches
    | with_reducible apply State.recover_touches
    | with_reducible apply Hub.modSrc_touches
    | with_reducible exact HubWithin.refl _ _
    | split
    | intro (_ : Hub)
    | (refine ⟨?_⟩; intro q hq; cases q <;> first | exact rfl | exact (no_mask hmsk rfl hq).elim)
    | (refine HubWithin.lit ?_ (by intro q hq; cases q <;> first | exact rfl | exact (no_mask hmsk rfl hq).elim))
    | intro _
    | (refine Within.lit ?_ (by intro q hq; cases q <;> first | exact rfl | exact ⟨HubPart.same_refl _ _, HubPart.same_refl _ _⟩ | exact (no_mask hmsk rfl hq).elim)))

theorem State.placeOdd_touches {msk : Nat} {s₀ : State} (s : State) (h : HubId) (a : Nat) (m : Msg) (hmsk : 1901773397886571095764843466491 &&& msk = 1901773397886571095764843466491) (hk : Within msk s₀ s)  :
    Within msk s₀ (State.placeOdd s h a m) := by
  unfold State.placeOdd
  try dsimp only
  repeat' (first
    | with_reducible assumption
    | exact sub_mask hmsk rfl
    | with_reducible apply State.place_touches
    | split
    | intro _
    | (refine Within.lit ?_ (by intro q hq; cases q <;> first | exact rfl | exact ⟨HubPart.same_refl _ _, HubPart.same_refl _ _⟩ | exact (no_mask hmsk rfl hq).elim)))

theorem State.kindActions_touches {msk : Nat} {s₀ : State} (s : State) (h : HubId) (m : Msg) (hmsk : 2035780407139287819916525686523 &&& msk = 2035780407139287819916525686523) (hk : Within msk s₀ s)  :
    Within msk s₀ (State.kindActions s h m) := by
  unfold State.kindActions
  try dsimp only
  repeat' (first
    | with_reducible assumption
    | exact sub_mask hmsk rfl
    | with_reducible apply State.openRetake_touches
    | with_reducible apply State.each_touches
    | with_reducible apply State.placeOdd_touches
    | with_reducible apply State.modHub_touches
    | with_reducible exact HubWithin.refl _ _
    | split
    | intro (_ : Hub)
    | (refine ⟨?_⟩; intro q hq; cases q <;> first | exact rfl | exact (no_mask hmsk rfl hq).elim)
    | (refine HubWithin.lit ?_ (by intro q hq; cases q <;> first | exact rfl | exact (no_mask hmsk rfl hq).elim))
    | intro _
    | (refine Within.lit ?_ (by intro q hq; cases q <;> first | exact rfl | exact ⟨HubPart.same_refl _ _, HubPart.same_refl _ _⟩ | exact (no_mask hmsk rfl hq).elim)))

theorem State.dropQueues_touches {msk : Nat} {s₀ : State} (s : State) (d : Nat) (hmsk : 17293822569102704640 &&& msk = 17293822569102704640) (hk : Within msk s₀ s)  :
    Within msk s₀ (State.dropQueues s d) := by
  unfold State.dropQueues
  try dsimp only
  repeat' (first
    | with_reducible assumption
    | exact sub_mask hmsk rfl
    | with_reducible apply State.each_touches
    | with_reducible apply State.modAgent_touches
    | with_reducible apply State.modConc_touches
    | with_reducible apply State.modEngine_touches
    | with_reducible apply State.modLink_touches
    | split
    | intro _
    | (refine Within.lit ?_ (by intro q hq; cases q <;> first | exact rfl | exact ⟨HubPart.same_refl _ _, HubPart.same_refl _ _⟩ | exact (no_mask hmsk rfl hq).elim)))

theorem State.lameAll_touches {msk : Nat} {s₀ : State} (s : State) (h : HubId) (p : Nat) (by_ : Option Msg := none) (hmsk : 1901475900417293231544144613111 &&& msk = 1901475900417293231544144613111) (hk : Within msk s₀ s)  :
    Within msk s₀ (State.lameAll s h p by_) := by
  unfold State.lameAll
  try dsimp only
  repeat' (first
    | with_reducible assumption
    | exact sub_mask hmsk rfl
    | with_reducible apply State.each_touches
    | with_reducible apply State.makeLame_touches
    | split
    | intro _
    | (refine Within.lit ?_ (by intro q hq; cases q <;> first | exact rfl | exact ⟨HubPart.same_refl _ _, HubPart.same_refl _ _⟩ | exact (no_mask hmsk rfl hq).elim)))

theorem State.finding_touches {msk : Nat} {s₀ : State} (s : State) (h : HubId) (src : BitVec 16) (kind : Byte) (sev : BitVec 3) (addr : Addr)
    (by_ : Option Msg := none) (hmsk : 1267650600228229625797093134048 &&& msk = 1267650600228229625797093134048) (hk : Within msk s₀ s)  :
    Within msk s₀ (State.finding s h src kind sev addr by_) := by
  unfold State.finding
  try dsimp only
  repeat' (first
    | with_reducible assumption
    | exact sub_mask hmsk rfl
    | with_reducible apply State.hubMsg_touches
    | refine State.hubMsg_touchesOf (sub_mask hmsk rfl) (by assumption) ?_
    | with_reducible apply State.acceptRecord_touches
    | with_reducible apply State.buildDaily_touches
    | split
    | intro _
    | (refine Within.lit ?_ (by intro q hq; cases q <;> first | exact rfl | exact ⟨HubPart.same_refl _ _, HubPart.same_refl _ _⟩ | exact (no_mask hmsk rfl hq).elim)))

theorem State.loseDie_touches {msk : Nat} {s₀ : State} (s : State) (h : HubId) (d : Nat) (by_ : Option Msg := none) (hmsk : 2035470922143227223509231193855 &&& msk = 2035470922143227223509231193855) (hk : Within msk s₀ s)  :
    Within msk s₀ (State.loseDie s h d by_) := by
  unfold State.loseDie
  try dsimp only
  repeat' (first
    | with_reducible assumption
    | exact sub_mask hmsk rfl
    | with_reducible apply State.finding_touches
    | with_reducible apply State.note_touches
    | with_reducible apply State.lameAll_touches
    | with_reducible apply State.dropQueues_touches
    | split
    | intro _
    | (refine Within.lit ?_ (by intro q hq; cases q <;> first | exact rfl | exact ⟨HubPart.same_refl _ _, HubPart.same_refl _ _⟩ | exact (no_mask hmsk rfl hq).elim)))

theorem State.judgeDies_touches {msk : Nat} {s₀ : State} (s : State) (by_ : Option Msg := none) (hmsk : 2035470922143227223509231193855 &&& msk = 2035470922143227223509231193855) (hk : Within msk s₀ s)  :
    Within msk s₀ (State.judgeDies s by_) := by
  unfold State.judgeDies
  try dsimp only
  repeat' (first
    | with_reducible assumption
    | exact sub_mask hmsk rfl
    | with_reducible apply State.eachHub_touches
    | with_reducible apply State.each_touches
    | with_reducible apply State.loseDie_touches
    | split
    | intro _
    | (refine Within.lit ?_ (by intro q hq; cases q <;> first | exact rfl | exact ⟨HubPart.same_refl _ _, HubPart.same_refl _ _⟩ | exact (no_mask hmsk rfl hq).elim)))

theorem State.acceptMsg_touches {msk : Nat} {s₀ : State} (s : State) (h : HubId) (m : Msg) (hmsk : 2035780407153122877971807850239 &&& msk = 2035780407153122877971807850239) (hk : Within msk s₀ s)  :
    Within msk s₀ (State.acceptMsg s h m) := by
  unfold State.acceptMsg
  repeat' (first
    | with_reducible assumption
    | exact sub_mask hmsk rfl
    | with_reducible apply State.modHub_touches
    | with_reducible apply State.acceptRecord_touches
    | with_reducible apply State.react_touches
    | with_reducible apply State.judgeDies_touches
    | with_reducible apply State.kindActions_touches
    | with_reducible apply State.buildDaily_touches
    | with_reducible apply State.takeUpLead_touches
    | with_reducible apply Hub.modSrc_touches
    | with_reducible apply Hub.count_touches
    | with_reducible apply Hub.reelWrite_touches
    | with_reducible apply Hub.stick_touches
    | with_reducible exact HubWithin.refl _ _
    | (extract_lets +onlyGivenNames zz; refine Within.cut (s := s₀) (t := zz) (m := msk) ?_ ?_; dsimp only [zz]; clear zz; rotate_left; clear_value zz; revert zz; intro _ _)
    | (extract_lets +onlyGivenNames zz; clear_value zz; revert zz; intro _)
    | split
    | intro (_ : Hub)
    | (refine ⟨?_⟩; intro q hq; cases q <;> first | exact rfl | exact (no_mask hmsk rfl hq).elim)
    | (refine HubWithin.lit ?_ (by intro q hq; cases q <;> first | exact rfl | exact (no_mask hmsk rfl hq).elim))
    | intro _
    | (refine Within.lit ?_ (by intro q hq; cases q <;> first | exact rfl | exact ⟨HubPart.same_refl _ _, HubPart.same_refl _ _⟩ | exact (no_mask hmsk rfl hq).elim)))

theorem State.reelMark_touches {msk : Nat} {s₀ : State} (s : State) (h : HubId) (hmsk : 16813792 &&& msk = 16813792) (hk : Within msk s₀ s)  :
    Within msk s₀ (State.reelMark s h) := by
  unfold State.reelMark
  try dsimp only
  repeat' (first
    | with_reducible assumption
    | exact sub_mask hmsk rfl
    | with_reducible apply State.hubMsg_touches
    | refine State.hubMsg_touchesOf (sub_mask hmsk rfl) (by assumption) ?_
    | with_reducible apply State.record_touches
    | split
    | intro _
    | (refine Within.lit ?_ (by intro q hq; cases q <;> first | exact rfl | exact ⟨HubPart.same_refl _ _, HubPart.same_refl _ _⟩ | exact (no_mask hmsk rfl hq).elim)))

theorem State.reconcileTake_touches {msk : Nat} {s₀ : State} (s : State) (h : HubId) (a : Nat) (bitSet : Bool) (hmsk : 1901773397886571095764843466491 &&& msk = 1901773397886571095764843466491) (hk : Within msk s₀ s)  :
    Within msk s₀ (State.reconcileTake s h a bitSet) := by
  unfold State.reconcileTake
  try dsimp only
  repeat' (first
    | with_reducible assumption
    | exact sub_mask hmsk rfl
    | with_reducible apply State.enterFault_touches
    | with_reducible apply State.modHub_touches
    | with_reducible exact HubWithin.refl _ _
    | split
    | intro (_ : Hub)
    | (refine ⟨?_⟩; intro q hq; cases q <;> first | exact rfl | exact (no_mask hmsk rfl hq).elim)
    | (refine HubWithin.lit ?_ (by intro q hq; cases q <;> first | exact rfl | exact (no_mask hmsk rfl hq).elim))
    | intro _
    | (refine Within.lit ?_ (by intro q hq; cases q <;> first | exact rfl | exact ⟨HubPart.same_refl _ _, HubPart.same_refl _ _⟩ | exact (no_mask hmsk rfl hq).elim)))

theorem State.reconcileAgent_touches {msk : Nat} {s₀ : State} (s : State) (h : HubId) (c i : Nat) (hmsk : 2035470922129392165458243997435 &&& msk = 2035470922129392165458243997435) (hk : Within msk s₀ s)  :
    Within msk s₀ (State.reconcileAgent s h c i) := by
  unfold State.reconcileAgent
  try dsimp only
  repeat' (first
    | with_reducible assumption
    | exact sub_mask hmsk rfl
    | with_reducible apply State.modHub_touches
    | with_reducible apply State.noteMirror_touches
    | with_reducible apply State.reconcileTake_touches
    | with_reducible exact HubWithin.refl _ _
    | split
    | intro (_ : Hub)
    | (refine ⟨?_⟩; intro q hq; cases q <;> first | exact rfl | exact (no_mask hmsk rfl hq).elim)
    | (refine HubWithin.lit ?_ (by intro q hq; cases q <;> first | exact rfl | exact (no_mask hmsk rfl hq).elim))
    | intro _
    | (refine Within.lit ?_ (by intro q hq; cases q <;> first | exact rfl | exact ⟨HubPart.same_refl _ _, HubPart.same_refl _ _⟩ | exact (no_mask hmsk rfl hq).elim)))

end Sys2Proof.Machine
end

