-- ==== Sys2Proof/Laws/TouchesTest.lean ====
section
/-! SUPPORT. What every operation of Machine/Test.lean may touch. -/

namespace Sys2Proof.Machine

open Sys2Proof

theorem State.noteLead_touches {msk : Nat} {s₀ : State} (s : State) (src : BitVec 16) (kind : Byte) (sev : BitVec 3) (addr : Addr) (job : Job) (hmsk : 2035470922129392165453949030139 &&& msk = 2035470922129392165453949030139) (hk : Within msk s₀ s)  :
    Within msk s₀ (State.noteLead s src kind sev addr job) := by
  unfold State.noteLead
  try dsimp only
  repeat' (first
    | with_reducible assumption
    | exact sub_mask hmsk rfl
    | with_reducible apply State.hubMsg_touches
    | refine State.hubMsg_touchesOf (sub_mask hmsk rfl) (by assumption) ?_
    | with_reducible apply State.hubEntry_touches
    | with_reducible apply State.mirrorOut_touches
    | split
    | intro _
    | (refine Within.lit ?_ (by intro q hq; cases q <;> first | exact rfl | exact ⟨HubPart.same_refl _ _, HubPart.same_refl _ _⟩ | exact (no_mask hmsk rfl hq).elim)))

theorem State.modTrot_touches {msk : Nat} {s₀ : State} (s : State) (a : Nat) (f : Trot → Trot) (hmsk : 633825300114114700748351602688 &&& msk = 633825300114114700748351602688) (hk : Within msk s₀ s)  :
    Within msk s₀ (State.modTrot s a f) := by
  unfold State.modTrot
  try dsimp only
  repeat' (first
    | with_reducible assumption
    | exact sub_mask hmsk rfl
    | split
    | intro _
    | (refine Within.lit ?_ (by intro q hq; cases q <;> first | exact rfl | exact ⟨HubPart.same_refl _ _, HubPart.same_refl _ _⟩ | exact (no_mask hmsk rfl hq).elim)))

theorem State.modPad_touches {msk : Nat} {s₀ : State} (s : State) (a : Nat) (f : PadEntry → PadEntry) (hmsk : 65536 &&& msk = 65536) (hk : Within msk s₀ s)  :
    Within msk s₀ (State.modPad s a f) := by
  unfold State.modPad
  try dsimp only
  repeat' (first
    | with_reducible assumption
    | exact sub_mask hmsk rfl
    | with_reducible apply State.eachHub_touches
    | with_reducible apply State.modHub_touches
    | with_reducible exact HubWithin.refl _ _
    | split
    | intro (_ : Hub)
    | (refine ⟨?_⟩; intro q hq; cases q <;> first | exact rfl | exact (no_mask hmsk rfl hq).elim)
    | (refine HubWithin.lit ?_ (by intro q hq; cases q <;> first | exact rfl | exact (no_mask hmsk rfl hq).elim))
    | intro _
    | (refine Within.lit ?_ (by intro q hq; cases q <;> first | exact rfl | exact ⟨HubPart.same_refl _ _, HubPart.same_refl _ _⟩ | exact (no_mask hmsk rfl hq).elim)))

theorem State.clearSecrets_touches {msk : Nat} {s₀ : State} (s : State) (a : Nat) (hmsk : 1161928703861587968 &&& msk = 1161928703861587968) (hk : Within msk s₀ s)  :
    Within msk s₀ (State.clearSecrets s a) := by
  unfold State.clearSecrets
  try dsimp only
  repeat' (first
    | with_reducible assumption
    | exact sub_mask hmsk rfl
    | with_reducible apply State.modAgent_touches
    | with_reducible apply State.present_touches
    | split
    | intro _
    | (refine Within.lit ?_ (by intro q hq; cases q <;> first | exact rfl | exact ⟨HubPart.same_refl _ _, HubPart.same_refl _ _⟩ | exact (no_mask hmsk rfl hq).elim)))

theorem State.askSecrets_touches {msk : Nat} {s₀ : State} (s : State) (a : Nat) (hmsk : 633825300115276629452213190656 &&& msk = 633825300115276629452213190656) (hk : Within msk s₀ s)  :
    Within msk s₀ (State.askSecrets s a) := by
  unfold State.askSecrets
  try dsimp only
  repeat' (first
    | with_reducible assumption
    | exact sub_mask hmsk rfl
    | with_reducible apply State.modTrot_touches
    | with_reducible apply State.clearSecrets_touches
    | split
    | intro _
    | (refine Within.lit ?_ (by intro q hq; cases q <;> first | exact rfl | exact ⟨HubPart.same_refl _ _, HubPart.same_refl _ _⟩ | exact (no_mask hmsk rfl hq).elim)))

theorem State.askSave_touches {msk : Nat} {s₀ : State} (s : State) (a slot : Nat) (hmsk : 633825300115276629452213190656 &&& msk = 633825300115276629452213190656) (hk : Within msk s₀ s)  :
    Within msk s₀ (State.askSave s a slot) := by
  unfold State.askSave
  try dsimp only
  repeat' (first
    | with_reducible assumption
    | exact sub_mask hmsk rfl
    | with_reducible apply State.askSecrets_touches
    | with_reducible apply State.modTrot_touches
    | with_reducible apply State.scPush_touches
    | split
    | intro _
    | (refine Within.lit ?_ (by intro q hq; cases q <;> first | exact rfl | exact ⟨HubPart.same_refl _ _, HubPart.same_refl _ _⟩ | exact (no_mask hmsk rfl hq).elim)))

theorem State.startTrot_touches {msk : Nat} {s₀ : State} (s : State) (a : Nat) (standin : Option Nat) (hmsk : 633825300115276629452213256192 &&& msk = 633825300115276629452213256192) (hk : Within msk s₀ s)  :
    Within msk s₀ (State.startTrot s a standin) := by
  unfold State.startTrot
  try dsimp only
  repeat' (first
    | with_reducible assumption
    | exact sub_mask hmsk rfl
    | with_reducible apply State.modPad_touches
    | with_reducible apply State.askSave_touches
    | with_reducible apply State.askSecrets_touches
    | with_reducible apply State.scPush_touches
    | split
    | intro _
    | (refine Within.lit ?_ (by intro q hq; cases q <;> first | exact rfl | exact ⟨HubPart.same_refl _ _, HubPart.same_refl _ _⟩ | exact (no_mask hmsk rfl hq).elim)))

theorem State.deferTrot_touches {msk : Nat} {s₀ : State} (s : State) (a : Nat) (hmsk : 633825300114114700748351668224 &&& msk = 633825300114114700748351668224) (hk : Within msk s₀ s)  :
    Within msk s₀ (State.deferTrot s a) := by
  unfold State.deferTrot
  try dsimp only
  repeat' (first
    | with_reducible assumption
    | exact sub_mask hmsk rfl
    | with_reducible apply State.modPad_touches
    | split
    | intro _
    | (refine Within.lit ?_ (by intro q hq; cases q <;> first | exact rfl | exact ⟨HubPart.same_refl _ _, HubPart.same_refl _ _⟩ | exact (no_mask hmsk rfl hq).elim)))

theorem State.tryScan_touches {msk : Nat} {s₀ : State} (s : State) (a : Nat) (hmsk : 633825300115276629452213190656 &&& msk = 633825300115276629452213190656) (hk : Within msk s₀ s)  :
    Within msk s₀ (State.tryScan s a) := by
  unfold State.tryScan
  try dsimp only
  repeat' (first
    | with_reducible assumption
    | exact sub_mask hmsk rfl
    | with_reducible apply State.modTrot_touches
    | with_reducible apply State.modAgent_touches
    | with_reducible apply State.present_touches
    | split
    | intro _
    | (refine Within.lit ?_ (by intro q hq; cases q <;> first | exact rfl | exact ⟨HubPart.same_refl _ _, HubPart.same_refl _ _⟩ | exact (no_mask hmsk rfl hq).elim)))

theorem State.swapBack_touches {msk : Nat} {s₀ : State} (s : State) (a : Nat) (hmsk : 633825300115276629452213190656 &&& msk = 633825300115276629452213190656) (hk : Within msk s₀ s)  :
    Within msk s₀ (State.swapBack s a) := by
  unfold State.swapBack
  try dsimp only
  repeat' (first
    | with_reducible assumption
    | exact sub_mask hmsk rfl
    | with_reducible apply State.modAgent_touches
    | with_reducible apply State.modTrot_touches
    | with_reducible apply State.scPush_touches
    | split
    | intro _
    | (refine Within.lit ?_ (by intro q hq; cases q <;> first | exact rfl | exact ⟨HubPart.same_refl _ _, HubPart.same_refl _ _⟩ | exact (no_mask hmsk rfl hq).elim)))

theorem State.afterScan_touches {msk : Nat} {s₀ : State} (s : State) (a : Nat) (hmsk : 633825300115276629452213190656 &&& msk = 633825300115276629452213190656) (hk : Within msk s₀ s)  :
    Within msk s₀ (State.afterScan s a) := by
  unfold State.afterScan
  try dsimp only
  repeat' (first
    | with_reducible assumption
    | exact sub_mask hmsk rfl
    | with_reducible apply State.modAgent_touches
    | with_reducible apply State.present_touches
    | with_reducible apply State.modTrot_touches
    | with_reducible apply State.endGrant_touches
    | with_reducible apply State.swapBack_touches
    | with_reducible apply State.scPush_touches
    | split
    | intro _
    | (refine Within.lit ?_ (by intro q hq; cases q <;> first | exact rfl | exact ⟨HubPart.same_refl _ _, HubPart.same_refl _ _⟩ | exact (no_mask hmsk rfl hq).elim)))

theorem State.trotPass_touches {msk : Nat} {s₀ : State} (s : State) (h : HubId) (a : Nat) (hmsk : 65536 &&& msk = 65536) (hk : Within msk s₀ s)  :
    Within msk s₀ (State.trotPass s h a) := by
  unfold State.trotPass
  try dsimp only
  repeat' (first
    | with_reducible assumption
    | exact sub_mask hmsk rfl
    | with_reducible apply State.modHub_touches
    | with_reducible exact HubWithin.refl _ _
    | split
    | intro (_ : Hub)
    | (refine ⟨?_⟩; intro q hq; cases q <;> first | exact rfl | exact (no_mask hmsk rfl hq).elim)
    | (refine HubWithin.lit ?_ (by intro q hq; cases q <;> first | exact rfl | exact (no_mask hmsk rfl hq).elim))
    | intro _
    | (refine Within.lit ?_ (by intro q hq; cases q <;> first | exact rfl | exact ⟨HubPart.same_refl _ _, HubPart.same_refl _ _⟩ | exact (no_mask hmsk rfl hq).elim)))

theorem State.passTest_touches {msk : Nat} {s₀ : State} (s : State) (a : Nat) (hmsk : 1152921504606846976 &&& msk = 1152921504606846976) (hk : Within msk s₀ s)  :
    Within msk s₀ (State.passTest s a) := by
  unfold State.passTest
  try dsimp only
  repeat' (first
    | with_reducible assumption
    | exact sub_mask hmsk rfl
    | with_reducible apply State.modAgent_touches
    | split
    | intro _
    | (refine Within.lit ?_ (by intro q hq; cases q <;> first | exact rfl | exact ⟨HubPart.same_refl _ _, HubPart.same_refl _ _⟩ | exact (no_mask hmsk rfl hq).elim)))

theorem State.dueNow_touches {msk : Nat} {s₀ : State} (s : State) (h : HubId) (a : Nat) (hmsk : 65536 &&& msk = 65536) (hk : Within msk s₀ s)  :
    Within msk s₀ (State.dueNow s h a) := by
  unfold State.dueNow
  try dsimp only
  repeat' (first
    | with_reducible assumption
    | exact sub_mask hmsk rfl
    | with_reducible apply State.modHub_touches
    | with_reducible exact HubWithin.refl _ _
    | split
    | intro (_ : Hub)
    | (refine ⟨?_⟩; intro q hq; cases q <;> first | exact rfl | exact (no_mask hmsk rfl hq).elim)
    | (refine HubWithin.lit ?_ (by intro q hq; cases q <;> first | exact rfl | exact (no_mask hmsk rfl hq).elim))
    | intro _
    | (refine Within.lit ?_ (by intro q hq; cases q <;> first | exact rfl | exact ⟨HubPart.same_refl _ _, HubPart.same_refl _ _⟩ | exact (no_mask hmsk rfl hq).elim)))

theorem State.leavePad_touches {msk : Nat} {s₀ : State} (s : State) (a : Nat) (hmsk : 634154127938211808587733336064 &&& msk = 634154127938211808587733336064) (hk : Within msk s₀ s)  :
    Within msk s₀ (State.leavePad s a) := by
  unfold State.leavePad
  try dsimp only
  repeat' (first
    | with_reducible assumption
    | exact sub_mask hmsk rfl
    | with_reducible apply State.eachHub_touches
    | with_reducible apply State.exitPad_touches
    | with_reducible apply State.startWaiting_touches
    | split
    | intro _
    | (refine Within.lit ?_ (by intro q hq; cases q <;> first | exact rfl | exact ⟨HubPart.same_refl _ _, HubPart.same_refl _ _⟩ | exact (no_mask hmsk rfl hq).elim)))

theorem State.trotPassed_touches {msk : Nat} {s₀ : State} (s : State) (a : Nat) (p : W64 × W32) (hmsk : 2035780407139213510522673811195 &&& msk = 2035780407139213510522673811195) (hk : Within msk s₀ s)  :
    Within msk s₀ (State.trotPassed s a p) := by
  unfold State.trotPassed
  try dsimp only
  repeat' (first
    | with_reducible assumption
    | exact sub_mask hmsk rfl
    | with_reducible apply State.modAgent_touches
    | with_reducible apply State.noteLead_touches
    | with_reducible apply State.eachHub_touches
    | with_reducible apply State.trotPass_touches
    | with_reducible apply State.relax_touches
    | with_reducible apply State.leavePad_touches
    | split
    | intro _
    | (refine Within.lit ?_ (by intro q hq; cases q <;> first | exact rfl | exact ⟨HubPart.same_refl _ _, HubPart.same_refl _ _⟩ | exact (no_mask hmsk rfl hq).elim)))

theorem State.askUnit_touches {msk : Nat} {s₀ : State} (s : State) (p : Nat) (hmsk : 3467771773204824064 &&& msk = 3467771773204824064) (hk : Within msk s₀ s)  :
    Within msk s₀ (State.askUnit s p) := by
  unfold State.askUnit
  try dsimp only
  repeat' (first
    | with_reducible assumption
    | exact sub_mask hmsk rfl
    | with_reducible apply State.clearSecrets_touches
    | with_reducible apply State.modConc_touches
    | with_reducible apply State.present_touches
    | with_reducible apply State.modHub_touches
    | with_reducible exact HubWithin.refl _ _
    | split
    | intro (_ : Hub)
    | (refine ⟨?_⟩; intro q hq; cases q <;> first | exact rfl | exact (no_mask hmsk rfl hq).elim)
    | (refine HubWithin.lit ?_ (by intro q hq; cases q <;> first | exact rfl | exact (no_mask hmsk rfl hq).elim))
    | intro _
    | (refine Within.lit ?_ (by intro q hq; cases q <;> first | exact rfl | exact ⟨HubPart.same_refl _ _, HubPart.same_refl _ _⟩ | exact (no_mask hmsk rfl hq).elim)))

theorem State.endUnit_touches {msk : Nat} {s₀ : State} (s : State) (p : Nat) (hmsk : 3467771764614889472 &&& msk = 3467771764614889472) (hk : Within msk s₀ s)  :
    Within msk s₀ (State.endUnit s p) := by
  unfold State.endUnit
  try dsimp only
  repeat' (first
    | with_reducible assumption
    | exact sub_mask hmsk rfl
    | with_reducible apply State.modAgent_touches
    | with_reducible apply State.present_touches
    | with_reducible apply State.modConc_touches
    | with_reducible apply State.modHub_touches
    | with_reducible exact HubWithin.refl _ _
    | split
    | intro (_ : Hub)
    | (refine ⟨?_⟩; intro q hq; cases q <;> first | exact rfl | exact (no_mask hmsk rfl hq).elim)
    | (refine HubWithin.lit ?_ (by intro q hq; cases q <;> first | exact rfl | exact (no_mask hmsk rfl hq).elim))
    | intro _
    | (refine Within.lit ?_ (by intro q hq; cases q <;> first | exact rfl | exact ⟨HubPart.same_refl _ _, HubPart.same_refl _ _⟩ | exact (no_mask hmsk rfl hq).elim)))

theorem State.askGroup_touches {msk : Nat} {s₀ : State} (s : State) (hmsk : 633825300117582472521556426752 &&& msk = 633825300117582472521556426752) (hk : Within msk s₀ s)  :
    Within msk s₀ (State.askGroup s) := by
  unfold State.askGroup
  try dsimp only
  repeat' (first
    | with_reducible assumption
    | exact sub_mask hmsk rfl
    | with_reducible apply State.each_touches
    | with_reducible apply State.askUnit_touches
    | split
    | intro _
    | (refine Within.lit ?_ (by intro q hq; cases q <;> first | exact rfl | exact ⟨HubPart.same_refl _ _, HubPart.same_refl _ _⟩ | exact (no_mask hmsk rfl hq).elim)))

theorem State.endWrapGroup_touches {msk : Nat} {s₀ : State} (s : State) (counts : Bool) (hmsk : 633825300117582472521556426752 &&& msk = 633825300117582472521556426752) (hk : Within msk s₀ s)  :
    Within msk s₀ (State.endWrapGroup s counts) := by
  unfold State.endWrapGroup
  try dsimp only
  repeat' (first
    | with_reducible assumption
    | exact sub_mask hmsk rfl
    | with_reducible apply State.each_touches
    | with_reducible apply State.endUnit_touches
    | with_reducible apply State.endGrant_touches
    | with_reducible apply State.askGroup_touches
    | split
    | intro _
    | (refine Within.lit ?_ (by intro q hq; cases q <;> first | exact rfl | exact ⟨HubPart.same_refl _ _, HubPart.same_refl _ _⟩ | exact (no_mask hmsk rfl hq).elim)))

theorem State.tryGroup_touches {msk : Nat} {s₀ : State} (s : State) (hmsk : 633825300117582472521556426752 &&& msk = 633825300117582472521556426752) (hk : Within msk s₀ s)  :
    Within msk s₀ (State.tryGroup s) := by
  unfold State.tryGroup
  try dsimp only
  repeat' (first
    | with_reducible assumption
    | exact sub_mask hmsk rfl
    | with_reducible apply State.endWrapGroup_touches
    | with_reducible apply State.each_touches
    | with_reducible apply State.modAgent_touches
    | with_reducible apply State.present_touches
    | split
    | intro _
    | (refine Within.lit ?_ (by intro q hq; cases q <;> first | exact rfl | exact ⟨HubPart.same_refl _ _, HubPart.same_refl _ _⟩ | exact (no_mask hmsk rfl hq).elim)))

theorem State.secretsMissed_touches {msk : Nat} {s₀ : State} (s : State) (a : Nat) (hmsk : 2035471526592319987167045865211 &&& msk = 2035471526592319987167045865211) (hk : Within msk s₀ s)  :
    Within msk s₀ (State.secretsMissed s a) := by
  unfold State.secretsMissed
  try dsimp only
  repeat' (first
    | with_reducible assumption
    | exact sub_mask hmsk rfl
    | with_reducible apply State.advanceTo_touches
    | with_reducible apply State.noteLead_touches
    | with_reducible apply State.afterScan_touches
    | split
    | intro _
    | (refine Within.lit ?_ (by intro q hq; cases q <;> first | exact rfl | exact ⟨HubPart.same_refl _ _, HubPart.same_refl _ _⟩ | exact (no_mask hmsk rfl hq).elim)))

theorem State.unitMissed_touches {msk : Nat} {s₀ : State} (s : State) (p : Nat) (hmsk : 2035471526592319987227175407355 &&& msk = 2035471526592319987227175407355) (hk : Within msk s₀ s)  :
    Within msk s₀ (State.unitMissed s p) := by
  unfold State.unitMissed
  try dsimp only
  repeat' (first
    | with_reducible assumption
    | exact sub_mask hmsk rfl
    | with_reducible apply State.advanceTo_touches
    | with_reducible apply State.noteLead_touches
    | with_reducible apply State.endUnit_touches
    | with_reducible apply State.tryGroup_touches
    | split
    | intro _
    | (refine Within.lit ?_ (by intro q hq; cases q <;> first | exact rfl | exact ⟨HubPart.same_refl _ _, HubPart.same_refl _ _⟩ | exact (no_mask hmsk rfl hq).elim)))

theorem State.endTrot_touches {msk : Nat} {s₀ : State} (s : State) (a : Nat) (hmsk : 2035780407139213510582803353339 &&& msk = 2035780407139213510582803353339) (hk : Within msk s₀ s)  :
    Within msk s₀ (State.endTrot s a) := by
  unfold State.endTrot
  try dsimp only
  repeat' (first
    | with_reducible assumption
    | exact sub_mask hmsk rfl
    | with_reducible apply State.eachHub_touches
    | with_reducible apply State.endFences_touches
    | with_reducible apply State.trotPassed_touches
    | with_reducible apply State.dueNow_touches
    | with_reducible apply State.startWaiting_touches
    | with_reducible apply State.endQuiesce_touches
    | with_reducible apply State.askGroup_touches
    | split
    | intro _
    | (refine Within.lit ?_ (by intro q hq; cases q <;> first | exact rfl | exact ⟨HubPart.same_refl _ _, HubPart.same_refl _ _⟩ | exact (no_mask hmsk rfl hq).elim)))

theorem State.scAcked_touches {msk : Nat} {s₀ : State} (s : State) (a : Nat) (o : ScOp) (hmsk : 2035780407139213510582803353339 &&& msk = 2035780407139213510582803353339) (hk : Within msk s₀ s)  :
    Within msk s₀ (State.scAcked s a o) := by
  unfold State.scAcked
  try dsimp only
  repeat' (first
    | with_reducible assumption
    | exact sub_mask hmsk rfl
    | with_reducible apply State.modAgent_touches
    | with_reducible apply State.modRetake_touches
    | with_reducible apply State.eachHub_touches
    | with_reducible apply State.orderFences_touches
    | with_reducible apply State.askSave_touches
    | with_reducible apply State.askSecrets_touches
    | with_reducible apply State.swapBack_touches
    | with_reducible apply State.endTrot_touches
    | split
    | intro _
    | (refine Within.lit ?_ (by intro q hq; cases q <;> first | exact rfl | exact ⟨HubPart.same_refl _ _, HubPart.same_refl _ _⟩ | exact (no_mask hmsk rfl hq).elim)))

theorem State.setFailed_touches {msk : Nat} {s₀ : State} (s : State) (p : PatSet) (block : Nat) (hmsk : 2035470922129392165453949030139 &&& msk = 2035470922129392165453949030139) (hk : Within msk s₀ s)  :
    Within msk s₀ (State.setFailed s p block) := by
  unfold State.setFailed
  try dsimp only
  repeat' (first
    | with_reducible assumption
    | exact sub_mask hmsk rfl
    | with_reducible apply State.noteLead_touches
    | split
    | intro _
    | (refine Within.lit ?_ (by intro q hq; cases q <;> first | exact rfl | exact ⟨HubPart.same_refl _ _, HubPart.same_refl _ _⟩ | exact (no_mask hmsk rfl hq).elim)))

theorem State.unitResult_touches {msk : Nat} {s₀ : State} (s : State) (p : Nat) (l : List Checkpoint × List Checkpoint) (hmsk : 2035470922129392165453949030139 &&& msk = 2035470922129392165453949030139) (hk : Within msk s₀ s)  :
    Within msk s₀ (State.unitResult s p l) := by
  unfold State.unitResult
  try dsimp only
  repeat' (first
    | with_reducible assumption
    | exact sub_mask hmsk rfl
    | with_reducible apply State.passTest_touches
    | with_reducible apply State.noteLead_touches
    | split
    | intro _
    | (refine Within.lit ?_ (by intro q hq; cases q <;> first | exact rfl | exact ⟨HubPart.same_refl _ _, HubPart.same_refl _ _⟩ | exact (no_mask hmsk rfl hq).elim)))

end Sys2Proof.Machine
end

