-- ==== Sys2Proof/Laws/TouchesTile.lean ====
section
/-! SUPPORT. What every operation of Machine/Tile.lean may touch. -/

namespace Sys2Proof.Machine

open Sys2Proof

theorem State.deferCmt_touches {msk : Nat} {s₀ : State} (s : State) (a : Nat) (y : GateRange) (hmsk : 1152921504606846976 &&& msk = 1152921504606846976) (hk : Within msk s₀ s)  :
    Within msk s₀ (State.deferCmt s a y).1 := by
  unfold State.deferCmt
  try dsimp only
  repeat' (first
    | with_reducible assumption
    | exact sub_mask hmsk rfl
    | with_reducible apply State.modAgent_touches
    | split
    | intro _
    | (refine Within.lit ?_ (by intro q hq; cases q <;> first | exact rfl | exact ⟨HubPart.same_refl _ _, HubPart.same_refl _ _⟩ | exact (no_mask hmsk rfl hq).elim)))

theorem State.deferCmt_touchesOf {msk : Nat} {s₀ : State} {s : State} (a : Nat) (y : GateRange) {t : State} {rest}
    (hmsk : 1152921504606846976 &&& msk = 1152921504606846976) (heq : State.deferCmt s a y = (t, rest)) (hk : Within msk s₀ s) : Within msk s₀ t := by
  have key := State.deferCmt_touches s a y hmsk hk
  rw [heq] at key
  exact key

theorem State.commitAction_touches {msk : Nat} {s₀ : State} (s : State) (a : Nat) (gated : Bool) (step : Option W64) (job : Job) (base : Addr) (count : BitVec 16) (hmsk : 1161928703861587968 &&& msk = 1161928703861587968) (hk : Within msk s₀ s)  :
    Within msk s₀ (State.commitAction s a gated step job base count).1 := by
  unfold State.commitAction
  try dsimp only
  repeat' (first
    | with_reducible assumption
    | exact sub_mask hmsk rfl
    | with_reducible apply State.presentCmt_touches
    | with_reducible apply State.deferCmt_touches
    | refine State.deferCmt_touchesOf (sub_mask hmsk rfl) (by assumption) ?_
    | split
    | intro _
    | (refine Within.lit ?_ (by intro q hq; cases q <;> first | exact rfl | exact ⟨HubPart.same_refl _ _, HubPart.same_refl _ _⟩ | exact (no_mask hmsk rfl hq).elim)))

theorem State.commitAction_touchesOf {msk : Nat} {s₀ : State} {s : State} (a : Nat) (gated : Bool) (step : Option W64) (job : Job) (base : Addr) (count : BitVec 16) {t : State} {rest}
    (hmsk : 1161928703861587968 &&& msk = 1161928703861587968) (heq : State.commitAction s a gated step job base count = (t, rest)) (hk : Within msk s₀ s) : Within msk s₀ t := by
  have key := State.commitAction_touches s a gated step job base count hmsk hk
  rw [heq] at key
  exact key

theorem State.poisonTask_touches {msk : Nat} {s₀ : State} (s : State) (a : Nat) (d : BitVec 256) (hmsk : 1161928703861587968 &&& msk = 1161928703861587968) (hk : Within msk s₀ s)  :
    Within msk s₀ (State.poisonTask s a d) := by
  unfold State.poisonTask
  try dsimp only
  repeat' (first
    | with_reducible assumption
    | exact sub_mask hmsk rfl
    | with_reducible apply State.presentCmt_touches
    | split
    | intro _
    | (refine Within.lit ?_ (by intro q hq; cases q <;> first | exact rfl | exact ⟨HubPart.same_refl _ _, HubPart.same_refl _ _⟩ | exact (no_mask hmsk rfl hq).elim)))

theorem State.paddockGap_touches {msk : Nat} {s₀ : State} (s : State) (a : Nat) (hmsk : 1152921504606912512 &&& msk = 1152921504606912512) (hk : Within msk s₀ s)  :
    Within msk s₀ (State.paddockGap s a) := by
  unfold State.paddockGap
  try dsimp only
  repeat' (first
    | with_reducible assumption
    | exact sub_mask hmsk rfl
    | with_reducible apply State.modAgent_touches
    | with_reducible apply State.eachHub_touches
    | with_reducible apply State.modHub_touches
    | with_reducible exact HubWithin.refl _ _
    | split
    | intro (_ : Hub)
    | (refine ⟨?_⟩; intro q hq; cases q <;> first | exact rfl | exact (no_mask hmsk rfl hq).elim)
    | (refine HubWithin.lit ?_ (by intro q hq; cases q <;> first | exact rfl | exact (no_mask hmsk rfl hq).elim))
    | intro _
    | (refine Within.lit ?_ (by intro q hq; cases q <;> first | exact rfl | exact ⟨HubPart.same_refl _ _, HubPart.same_refl _ _⟩ | exact (no_mask hmsk rfl hq).elim)))

theorem State.recordUncovered_touches {msk : Nat} {s₀ : State} (s : State) (a : Nat) (d : BitVec 256) (o : Outcome) (reason : Nat) (hmsk : 1152921504606912512 &&& msk = 1152921504606912512) (hk : Within msk s₀ s)  :
    Within msk s₀ (State.recordUncovered s a d o reason) := by
  unfold State.recordUncovered
  try dsimp only
  repeat' (first
    | with_reducible assumption
    | exact sub_mask hmsk rfl
    | with_reducible apply State.modAgent_touches
    | with_reducible apply State.paddockGap_touches
    | split
    | intro _
    | (refine Within.lit ?_ (by intro q hq; cases q <;> first | exact rfl | exact ⟨HubPart.same_refl _ _, HubPart.same_refl _ _⟩ | exact (no_mask hmsk rfl hq).elim)))

theorem State.uncheckCtx_touches {msk : Nat} {s₀ : State} (s : State) (a : Nat) (x : Ctx) (o : Outcome) (reason : Nat) (hmsk : 19342814266755571402211328 &&& msk = 19342814266755571402211328) (hk : Within msk s₀ s)  :
    Within msk s₀ (State.uncheckCtx s a x o reason) := by
  unfold State.uncheckCtx
  try dsimp only
  repeat' (first
    | with_reducible assumption
    | exact sub_mask hmsk rfl
    | with_reducible apply State.modAgent_touches
    | with_reducible apply State.recordUncovered_touches
    | with_reducible apply State.loseRun_touches
    | split
    | intro _
    | (refine Within.lit ?_ (by intro q hq; cases q <;> first | exact rfl | exact ⟨HubPart.same_refl _ _, HubPart.same_refl _ _⟩ | exact (no_mask hmsk rfl hq).elim)))

theorem State.finishTask_touches {msk : Nat} {s₀ : State} (s : State) (a : Nat) (u : Unchecked) (hmsk : 17302829768357478400 &&& msk = 17302829768357478400) (hk : Within msk s₀ s)  :
    Within msk s₀ (State.finishTask s a u) := by
  unfold State.finishTask
  try dsimp only
  repeat' (first
    | with_reducible assumption
    | exact sub_mask hmsk rfl
    | with_reducible apply State.poisonTask_touches
    | with_reducible apply State.report_touches
    | with_reducible apply State.openDec_touches
    | with_reducible apply State.commitAction_touches
    | refine State.commitAction_touchesOf (sub_mask hmsk rfl) (by assumption) ?_
    | with_reducible apply State.modAgent_touches
    | split
    | intro _
    | (refine Within.lit ?_ (by intro q hq; cases q <;> first | exact rfl | exact ⟨HubPart.same_refl _ _, HubPart.same_refl _ _⟩ | exact (no_mask hmsk rfl hq).elim)))

theorem State.dropHanded_touches {msk : Nat} {s₀ : State} (s : State) (a id : Nat) (hmsk : 2305843009213693952 &&& msk = 2305843009213693952) (hk : Within msk s₀ s)  :
    Within msk s₀ (State.dropHanded s a id) := by
  unfold State.dropHanded
  try dsimp only
  repeat' (first
    | with_reducible assumption
    | exact sub_mask hmsk rfl
    | with_reducible apply State.modConc_touches
    | split
    | intro _
    | (refine Within.lit ?_ (by intro q hq; cases q <;> first | exact rfl | exact ⟨HubPart.same_refl _ _, HubPart.same_refl _ _⟩ | exact (no_mask hmsk rfl hq).elim)))

theorem State.dropAccount_touches {msk : Nat} {s₀ : State} (s : State) (a : Nat) (x : Ctx) (hmsk : 2305843009213693952 &&& msk = 2305843009213693952) (hk : Within msk s₀ s)  :
    Within msk s₀ (State.dropAccount s a x) := by
  unfold State.dropAccount
  try dsimp only
  repeat' (first
    | with_reducible assumption
    | exact sub_mask hmsk rfl
    | with_reducible apply State.modConc_touches
    | split
    | intro _
    | (refine Within.lit ?_ (by intro q hq; cases q <;> first | exact rfl | exact ⟨HubPart.same_refl _ _, HubPart.same_refl _ _⟩ | exact (no_mask hmsk rfl hq).elim)))

theorem State.failCtx_touches {msk : Nat} {s₀ : State} (s : State) (a : Nat) (x : Ctx) (kind : Byte) (sev : BitVec 3) (hmsk : 19342830416663835152777216 &&& msk = 19342830416663835152777216) (hk : Within msk s₀ s)  :
    Within msk s₀ (State.failCtx s a x kind sev) := by
  unfold State.failCtx
  try dsimp only
  repeat' (first
    | with_reducible assumption
    | exact sub_mask hmsk rfl
    | with_reducible apply State.dropHanded_touches
    | with_reducible apply State.dropAccount_touches
    | with_reducible apply State.modAgent_touches
    | with_reducible apply State.poisonTask_touches
    | with_reducible apply State.report_touches
    | with_reducible apply State.loseRun_touches
    | split
    | intro _
    | (refine Within.lit ?_ (by intro q hq; cases q <;> first | exact rfl | exact ⟨HubPart.same_refl _ _, HubPart.same_refl _ _⟩ | exact (no_mask hmsk rfl hq).elim)))

theorem State.loseRunOf_touches {msk : Nat} {s₀ : State} (s : State) (retake : Option Nat) (a : Nat) (hmsk : 19342813113834066795298816 &&& msk = 19342813113834066795298816) (hk : Within msk s₀ s)  :
    Within msk s₀ (State.loseRunOf s retake a) := by
  unfold State.loseRunOf
  try dsimp only
  repeat' (first
    | with_reducible assumption
    | exact sub_mask hmsk rfl
    | with_reducible apply State.loseRun_touches
    | split
    | intro _
    | (refine Within.lit ?_ (by intro q hq; cases q <;> first | exact rfl | exact ⟨HubPart.same_refl _ _, HubPart.same_refl _ _⟩ | exact (no_mask hmsk rfl hq).elim)))

theorem State.uncheckBound_touches {msk : Nat} {s₀ : State} (s : State) (a : Nat) (h : BitVec 5) (hmsk : 19342814266755571402211328 &&& msk = 19342814266755571402211328) (hk : Within msk s₀ s)  :
    Within msk s₀ (State.uncheckBound s a h) := by
  unfold State.uncheckBound
  try dsimp only
  repeat' (first
    | with_reducible assumption
    | exact sub_mask hmsk rfl
    | with_reducible apply State.uncheckCtx_touches
    | split
    | intro _
    | (refine Within.lit ?_ (by intro q hq; cases q <;> first | exact rfl | exact ⟨HubPart.same_refl _ _, HubPart.same_refl _ _⟩ | exact (no_mask hmsk rfl hq).elim)))

theorem State.bindTwice_touches {msk : Nat} {s₀ : State} (s : State) (a : Nat) (h : BitVec 5) (d : BitVec 256) (step : Option W64) (rt : Option (Nat × Bool)) (hmsk : 19342830416663835152842752 &&& msk = 19342830416663835152842752) (hk : Within msk s₀ s)  :
    Within msk s₀ (State.bindTwice s a h d step rt) := by
  unfold State.bindTwice
  try dsimp only
  repeat' (first
    | with_reducible assumption
    | exact sub_mask hmsk rfl
    | with_reducible apply State.uncheckBound_touches
    | with_reducible apply State.recordUncovered_touches
    | with_reducible apply State.loseRunOf_touches
    | with_reducible apply State.finishTask_touches
    | with_reducible apply State.modAgent_touches
    | split
    | intro _
    | (refine Within.lit ?_ (by intro q hq; cases q <;> first | exact rfl | exact ⟨HubPart.same_refl _ _, HubPart.same_refl _ _⟩ | exact (no_mask hmsk rfl hq).elim)))

theorem State.uncheckNew_touches {msk : Nat} {s₀ : State} (s : State) (a : Nat) (h : BitVec 5) (d : BitVec 256) (step : Option W64) (rt : Option (Nat × Bool))
    (o : Outcome) (reason : Nat) (hmsk : 19342814266755571402211328 &&& msk = 19342814266755571402211328) (hk : Within msk s₀ s)  :
    Within msk s₀ (State.uncheckNew s a h d step rt o reason) := by
  unfold State.uncheckNew
  try dsimp only
  repeat' (first
    | with_reducible assumption
    | exact sub_mask hmsk rfl
    | with_reducible apply State.recordUncovered_touches
    | with_reducible apply State.modAgent_touches
    | with_reducible apply State.loseRunOf_touches
    | split
    | intro _
    | (refine Within.lit ?_ (by intro q hq; cases q <;> first | exact rfl | exact ⟨HubPart.same_refl _ _, HubPart.same_refl _ _⟩ | exact (no_mask hmsk rfl hq).elim)))

theorem State.fencedTask_touches {msk : Nat} {s₀ : State} (s : State) (a : Nat) (h : BitVec 5) (d : BitVec 256) (bounded : Bool) (hmsk : 19342830416663835152777216 &&& msk = 19342830416663835152777216) (hk : Within msk s₀ s)  :
    Within msk s₀ (State.fencedTask s a h d bounded) := by
  unfold State.fencedTask
  try dsimp only
  repeat' (first
    | with_reducible assumption
    | exact sub_mask hmsk rfl
    | with_reducible apply State.modAgent_touches
    | with_reducible apply State.openInc_touches
    | with_reducible apply State.failCtx_touches
    | split
    | intro _
    | (refine Within.lit ?_ (by intro q hq; cases q <;> first | exact rfl | exact ⟨HubPart.same_refl _ _, HubPart.same_refl _ _⟩ | exact (no_mask hmsk rfl hq).elim)))

theorem State.bindRetake_touches {msk : Nat} {s₀ : State} (s : State) (a : Nat) (d : BitVec 256) (hmsk : 19342814266755571402145792 &&& msk = 19342814266755571402145792) (hk : Within msk s₀ s)  :
    Within msk s₀ (State.bindRetake s a d).1 := by
  unfold State.bindRetake
  try dsimp only
  repeat' (first
    | with_reducible assumption
    | exact sub_mask hmsk rfl
    | with_reducible apply State.modAgent_touches
    | with_reducible apply State.modRetake_touches
    | with_reducible apply State.loseRun_touches
    | split
    | intro _
    | (refine Within.lit ?_ (by intro q hq; cases q <;> first | exact rfl | exact ⟨HubPart.same_refl _ _, HubPart.same_refl _ _⟩ | exact (no_mask hmsk rfl hq).elim)))

theorem State.bindRetake_touchesOf {msk : Nat} {s₀ : State} {s : State} (a : Nat) (d : BitVec 256) {t : State} {rest}
    (hmsk : 19342814266755571402145792 &&& msk = 19342814266755571402145792) (heq : State.bindRetake s a d = (t, rest)) (hk : Within msk s₀ s) : Within msk s₀ t := by
  have key := State.bindRetake_touches s a d hmsk hk
  rw [heq] at key
  exact key

theorem State.takeDescriptor_touches {msk : Nat} {s₀ : State} (s : State) (a : Nat) (h : BitVec 5) (d : BitVec 256) (cyc : Nat) (step : Option W64)
    (rt : Option (Nat × Bool)) (hmsk : 19342814266755571402211328 &&& msk = 19342814266755571402211328) (hk : Within msk s₀ s)  :
    Within msk s₀ (State.takeDescriptor s a h d cyc step rt) := by
  unfold State.takeDescriptor
  try dsimp only
  repeat' (first
    | with_reducible assumption
    | exact sub_mask hmsk rfl
    | with_reducible apply State.uncheckNew_touches
    | with_reducible apply State.modAgent_touches
    | split
    | intro _
    | (refine Within.lit ?_ (by intro q hq; cases q <;> first | exact rfl | exact ⟨HubPart.same_refl _ _, HubPart.same_refl _ _⟩ | exact (no_mask hmsk rfl hq).elim)))

theorem State.passEmpty_touches {msk : Nat} {s₀ : State} (s : State) (a : Nat) (d : BitVec 256) (hmsk : 3458764513820540928 &&& msk = 3458764513820540928) (hk : Within msk s₀ s)  :
    Within msk s₀ (State.passEmpty s a d) := by
  unfold State.passEmpty
  try dsimp only
  repeat' (first
    | with_reducible assumption
    | exact sub_mask hmsk rfl
    | with_reducible apply State.modAgent_touches
    | with_reducible apply State.modConc_touches
    | split
    | intro _
    | (refine Within.lit ?_ (by intro q hq; cases q <;> first | exact rfl | exact ⟨HubPart.same_refl _ _, HubPart.same_refl _ _⟩ | exact (no_mask hmsk rfl hq).elim)))

theorem State.takeSlots_touches {msk : Nat} {s₀ : State} (s : State) (a : Nat) (x : Ctx) (cyc : Nat) (hmsk : 19342814266755571402211328 &&& msk = 19342814266755571402211328) (hk : Within msk s₀ s)  :
    Within msk s₀ (State.takeSlots s a x cyc) := by
  unfold State.takeSlots
  try dsimp only
  repeat' (first
    | with_reducible assumption
    | exact sub_mask hmsk rfl
    | with_reducible apply State.uncheckCtx_touches
    | with_reducible apply State.modAgent_touches
    | split
    | intro _
    | (refine Within.lit ?_ (by intro q hq; cases q <;> first | exact rfl | exact ⟨HubPart.same_refl _ _, HubPart.same_refl _ _⟩ | exact (no_mask hmsk rfl hq).elim)))

theorem State.admitFirst_touches {msk : Nat} {s₀ : State} (s : State) (a : Nat) (h : BitVec 5) (cyc : Nat) (hmsk : 19342814266755571402211328 &&& msk = 19342814266755571402211328) (hk : Within msk s₀ s)  :
    Within msk s₀ (State.admitFirst s a h cyc) := by
  unfold State.admitFirst
  try dsimp only
  repeat' (first
    | with_reducible assumption
    | exact sub_mask hmsk rfl
    | with_reducible apply State.takeSlots_touches
    | split
    | intro _
    | (refine Within.lit ?_ (by intro q hq; cases q <;> first | exact rfl | exact ⟨HubPart.same_refl _ _, HubPart.same_refl _ _⟩ | exact (no_mask hmsk rfl hq).elim)))

theorem State.fillRun_touches {msk : Nat} {s₀ : State} (s : State) (a : Nat) (x : Ctx) (n : Nat) (hmsk : 19342816572598580615839744 &&& msk = 19342816572598580615839744) (hk : Within msk s₀ s)  :
    Within msk s₀ (State.fillRun s a x n) := by
  unfold State.fillRun
  try dsimp only
  repeat' (first
    | with_reducible assumption
    | exact sub_mask hmsk rfl
    | with_reducible apply State.loseRun_touches
    | with_reducible apply State.modAgent_touches
    | with_reducible apply State.modConc_touches
    | split
    | intro _
    | (refine Within.lit ?_ (by intro q hq; cases q <;> first | exact rfl | exact ⟨HubPart.same_refl _ _, HubPart.same_refl _ _⟩ | exact (no_mask hmsk rfl hq).elim)))

theorem State.endFill_touches {msk : Nat} {s₀ : State} (s : State) (a : Nat) (x : Ctx) (differ : Bool) (hmsk : 19342830416663835152777216 &&& msk = 19342830416663835152777216) (hk : Within msk s₀ s)  :
    Within msk s₀ (State.endFill s a x differ) := by
  unfold State.endFill
  try dsimp only
  repeat' (first
    | with_reducible assumption
    | exact sub_mask hmsk rfl
    | with_reducible apply State.modAgent_touches
    | with_reducible apply State.report_touches
    | with_reducible apply State.loseRunOf_touches
    | with_reducible apply State.present_touches
    | with_reducible apply State.fillRun_touches
    | split
    | intro _
    | (refine Within.lit ?_ (by intro q hq; cases q <;> first | exact rfl | exact ⟨HubPart.same_refl _ _, HubPart.same_refl _ _⟩ | exact (no_mask hmsk rfl hq).elim)))

theorem State.tapCtx_touches {msk : Nat} {s₀ : State} (s : State) (a : Nat) (x : Ctx) (b : TapBeat) (hmsk : 19342830416663835152842752 &&& msk = 19342830416663835152842752) (hk : Within msk s₀ s)  :
    Within msk s₀ (State.tapCtx s a x b) := by
  unfold State.tapCtx
  try dsimp only
  repeat' (first
    | with_reducible assumption
    | exact sub_mask hmsk rfl
    | with_reducible apply State.uncheckCtx_touches
    | with_reducible apply State.modAgent_touches
    | with_reducible apply State.endFill_touches
    | split
    | intro _
    | (refine Within.lit ?_ (by intro q hq; cases q <;> first | exact rfl | exact ⟨HubPart.same_refl _ _, HubPart.same_refl _ _⟩ | exact (no_mask hmsk rfl hq).elim)))

theorem State.tapBeat_touches {msk : Nat} {s₀ : State} (s : State) (a : Nat) (b : TapBeat) (hmsk : 19342830416663835152842752 &&& msk = 19342830416663835152842752) (hk : Within msk s₀ s)  :
    Within msk s₀ (State.tapBeat s a b) := by
  unfold State.tapBeat
  try dsimp only
  repeat' (first
    | with_reducible assumption
    | exact sub_mask hmsk rfl
    | with_reducible apply State.modAgent_touches
    | with_reducible apply State.admitFirst_touches
    | with_reducible apply State.tapCtx_touches
    | split
    | intro _
    | (refine Within.lit ?_ (by intro q hq; cases q <;> first | exact rfl | exact ⟨HubPart.same_refl _ _, HubPart.same_refl _ _⟩ | exact (no_mask hmsk rfl hq).elim)))

theorem State.rejectEntry_touches {msk : Nat} {s₀ : State} (s : State) (a : Nat) (x : Ctx) (cyc : Nat) (hmsk : 19342814266755571402211328 &&& msk = 19342814266755571402211328) (hk : Within msk s₀ s)  :
    Within msk s₀ (State.rejectEntry s a x cyc) := by
  unfold State.rejectEntry
  try dsimp only
  repeat' (first
    | with_reducible assumption
    | exact sub_mask hmsk rfl
    | with_reducible apply State.uncheckCtx_touches
    | with_reducible apply State.modAgent_touches
    | split
    | intro _
    | (refine Within.lit ?_ (by intro q hq; cases q <;> first | exact rfl | exact ⟨HubPart.same_refl _ _, HubPart.same_refl _ _⟩ | exact (no_mask hmsk rfl hq).elim)))

theorem State.prjCtx_touches {msk : Nat} {s₀ : State} (s : State) (a : Nat) (x : Ctx) (b : PrjBeat) (hmsk : 19342814266755571402211328 &&& msk = 19342814266755571402211328) (hk : Within msk s₀ s)  :
    Within msk s₀ (State.prjCtx s a x b) := by
  unfold State.prjCtx
  try dsimp only
  repeat' (first
    | with_reducible assumption
    | exact sub_mask hmsk rfl
    | with_reducible apply State.rejectEntry_touches
    | with_reducible apply State.modAgent_touches
    | with_reducible apply State.uncheckCtx_touches
    | split
    | intro _
    | (refine Within.lit ?_ (by intro q hq; cases q <;> first | exact rfl | exact ⟨HubPart.same_refl _ _, HubPart.same_refl _ _⟩ | exact (no_mask hmsk rfl hq).elim)))

theorem State.abortPoison_touches {msk : Nat} {s₀ : State} (s : State) (a : Nat) (x : Ctx) (hmsk : 17302829768357478400 &&& msk = 17302829768357478400) (hk : Within msk s₀ s)  :
    Within msk s₀ (State.abortPoison s a x) := by
  unfold State.abortPoison
  try dsimp only
  repeat' (first
    | with_reducible assumption
    | exact sub_mask hmsk rfl
    | with_reducible apply State.poisonTask_touches
    | with_reducible apply State.report_touches
    | split
    | intro _
    | (refine Within.lit ?_ (by intro q hq; cases q <;> first | exact rfl | exact ⟨HubPart.same_refl _ _, HubPart.same_refl _ _⟩ | exact (no_mask hmsk rfl hq).elim)))

theorem State.abortLast_touches {msk : Nat} {s₀ : State} (s : State) (a : Nat) (x : Ctx) (hmsk : 1268250229813244328770538602497 &&& msk = 1268250229813244328770538602497) (hk : Within msk s₀ s)  :
    Within msk s₀ (State.abortLast s a x) := by
  unfold State.abortLast
  try dsimp only
  repeat' (first
    | with_reducible assumption
    | exact sub_mask hmsk rfl
    | with_reducible apply State.modAgent_touches
    | with_reducible apply State.abortPoison_touches
    | with_reducible apply State.closeRetake_touches
    | with_reducible apply State.startWaiting_touches
    | split
    | intro _
    | (refine Within.lit ?_ (by intro q hq; cases q <;> first | exact rfl | exact ⟨HubPart.same_refl _ _, HubPart.same_refl _ _⟩ | exact (no_mask hmsk rfl hq).elim)))

theorem State.lastC_touches {msk : Nat} {s₀ : State} (s : State) (a : Nat) (h : BitVec 5) (cyc : Nat) (hmsk : 1268250229813244328770538668033 &&& msk = 1268250229813244328770538668033) (hk : Within msk s₀ s)  :
    Within msk s₀ (State.lastC s a h cyc) := by
  unfold State.lastC
  try dsimp only
  repeat' (first
    | with_reducible assumption
    | exact sub_mask hmsk rfl
    | with_reducible apply State.uncheckCtx_touches
    | with_reducible apply State.modAgent_touches
    | with_reducible apply State.finishTask_touches
    | with_reducible apply State.abortLast_touches
    | split
    | intro _
    | (refine Within.lit ?_ (by intro q hq; cases q <;> first | exact rfl | exact ⟨HubPart.same_refl _ _, HubPart.same_refl _ _⟩ | exact (no_mask hmsk rfl hq).elim)))

theorem State.failContexts_touches {msk : Nat} {s₀ : State} (s : State) (a : Nat) (f : Ctx → Bool) (hmsk : 19342830416663835152777216 &&& msk = 19342830416663835152777216) (hk : Within msk s₀ s)  :
    Within msk s₀ (State.failContexts s a f) := by
  unfold State.failContexts
  try dsimp only
  repeat' (first
    | with_reducible assumption
    | exact sub_mask hmsk rfl
    | with_reducible apply State.each_touches
    | with_reducible apply State.failCtx_touches
    | split
    | intro _
    | (refine Within.lit ?_ (by intro q hq; cases q <;> first | exact rfl | exact ⟨HubPart.same_refl _ _, HubPart.same_refl _ _⟩ | exact (no_mask hmsk rfl hq).elim)))

end Sys2Proof.Machine
end

