-- ==== Sys2Proof/Laws/TouchesVector.lean ====
section
/-! SUPPORT. What every operation of Machine/Vector.lean may touch. -/

namespace Sys2Proof.Machine

open Sys2Proof

theorem State.groupRange_touches {msk : Nat} {s₀ : State} (s : State) (a : Nat) (g : Group) (poison : Bool) (hmsk : 1161928703861587968 &&& msk = 1161928703861587968) (hk : Within msk s₀ s)  :
    Within msk s₀ (State.groupRange s a g poison) := by
  unfold State.groupRange
  try dsimp only
  repeat' (first
    | with_reducible assumption
    | exact sub_mask hmsk rfl
    | with_reducible apply State.presentCmt_touches
    | with_reducible apply State.commitAction_touches
    | refine State.commitAction_touchesOf (sub_mask hmsk rfl) (by assumption) ?_
    | with_reducible apply State.modAgent_touches
    | split
    | intro _
    | (refine Within.lit ?_ (by intro q hq; cases q <;> first | exact rfl | exact ⟨HubPart.same_refl _ _, HubPart.same_refl _ _⟩ | exact (no_mask hmsk rfl hq).elim)))

theorem State.endUnjudged_touches {msk : Nat} {s₀ : State} (s : State) (a : Nat) (g : Group) (hmsk : 17302829768357478400 &&& msk = 17302829768357478400) (hk : Within msk s₀ s)  :
    Within msk s₀ (State.endUnjudged s a g) := by
  unfold State.endUnjudged
  try dsimp only
  repeat' (first
    | with_reducible assumption
    | exact sub_mask hmsk rfl
    | with_reducible apply State.openDec_touches
    | with_reducible apply State.groupRange_touches
    | with_reducible apply State.report_touches
    | split
    | intro _
    | (refine Within.lit ?_ (by intro q hq; cases q <;> first | exact rfl | exact ⟨HubPart.same_refl _ _, HubPart.same_refl _ _⟩ | exact (no_mask hmsk rfl hq).elim)))

theorem State.settleTests_touches {msk : Nat} {s₀ : State} (s : State) (a : Nat) (g : Group) (hmsk : 1152921504606846976 &&& msk = 1152921504606846976) (hk : Within msk s₀ s)  :
    Within msk s₀ (State.settleTests s a g).1 := by
  unfold State.settleTests
  try dsimp only
  repeat' (first
    | with_reducible assumption
    | exact sub_mask hmsk rfl
    | with_reducible apply State.modAgent_touches
    | split
    | intro _
    | (refine Within.lit ?_ (by intro q hq; cases q <;> first | exact rfl | exact ⟨HubPart.same_refl _ _, HubPart.same_refl _ _⟩ | exact (no_mask hmsk rfl hq).elim)))

theorem State.settleTests_touchesOf {msk : Nat} {s₀ : State} {s : State} (a : Nat) (g : Group) {t : State} {rest}
    (hmsk : 1152921504606846976 &&& msk = 1152921504606846976) (heq : State.settleTests s a g = (t, rest)) (hk : Within msk s₀ s) : Within msk s₀ t := by
  have key := State.settleTests_touches s a g hmsk hk
  rw [heq] at key
  exact key

theorem State.groupReports_touches {msk : Nat} {s₀ : State} (s : State) (a : Nat) (g : Group) (hmsk : 17293822569102737408 &&& msk = 17293822569102737408) (hk : Within msk s₀ s)  :
    Within msk s₀ (State.groupReports s a g) := by
  unfold State.groupReports
  try dsimp only
  repeat' (first
    | with_reducible assumption
    | exact sub_mask hmsk rfl
    | with_reducible apply State.report_touches
    | split
    | intro _
    | (refine Within.lit ?_ (by intro q hq; cases q <;> first | exact rfl | exact ⟨HubPart.same_refl _ _, HubPart.same_refl _ _⟩ | exact (no_mask hmsk rfl hq).elim)))

theorem State.groupVerdict_touches {msk : Nat} {s₀ : State} (s : State) (a : Nat) (g : Group) (hmsk : 3467771713075281920 &&& msk = 3467771713075281920) (hk : Within msk s₀ s)  :
    Within msk s₀ (State.groupVerdict s a g) := by
  unfold State.groupVerdict
  try dsimp only
  repeat' (first
    | with_reducible assumption
    | exact sub_mask hmsk rfl
    | with_reducible apply State.groupRange_touches
    | with_reducible apply State.modAgent_touches
    | with_reducible apply State.openDec_touches
    | split
    | intro _
    | (refine Within.lit ?_ (by intro q hq; cases q <;> first | exact rfl | exact ⟨HubPart.same_refl _ _, HubPart.same_refl _ _⟩ | exact (no_mask hmsk rfl hq).elim)))

theorem State.endGroup_touches {msk : Nat} {s₀ : State} (s : State) (a gid : Nat) (g : Group) (hmsk : 17302829768357478400 &&& msk = 17302829768357478400) (hk : Within msk s₀ s)  :
    Within msk s₀ (State.endGroup s a gid g) := by
  unfold State.endGroup
  try dsimp only
  repeat' (first
    | with_reducible assumption
    | exact sub_mask hmsk rfl
    | with_reducible apply State.modAgent_touches
    | with_reducible apply State.settleTests_touches
    | refine State.settleTests_touchesOf (sub_mask hmsk rfl) (by assumption) ?_
    | with_reducible apply State.groupReports_touches
    | with_reducible apply State.groupRange_touches
    | with_reducible apply State.endUnjudged_touches
    | split
    | intro _
    | (refine Within.lit ?_ (by intro q hq; cases q <;> first | exact rfl | exact ⟨HubPart.same_refl _ _, HubPart.same_refl _ _⟩ | exact (no_mask hmsk rfl hq).elim)))

theorem State.fenceGroup_touches {msk : Nat} {s₀ : State} (s : State) (a : Nat) (g : Group) (hmsk : 17302829768357478400 &&& msk = 17302829768357478400) (hk : Within msk s₀ s)  :
    Within msk s₀ (State.fenceGroup s a g) := by
  unfold State.fenceGroup
  try dsimp only
  repeat' (first
    | with_reducible assumption
    | exact sub_mask hmsk rfl
    | with_reducible apply State.presentCmt_touches
    | with_reducible apply State.report_touches
    | split
    | intro _
    | (refine Within.lit ?_ (by intro q hq; cases q <;> first | exact rfl | exact ⟨HubPart.same_refl _ _, HubPart.same_refl _ _⟩ | exact (no_mask hmsk rfl hq).elim)))

theorem State.numbersOdd_touches {msk : Nat} {s₀ : State} (s : State) (c : Nat) (job : Job) (hmsk : 17293822569102737408 &&& msk = 17293822569102737408) (hk : Within msk s₀ s)  :
    Within msk s₀ (State.numbersOdd s c job) := by
  unfold State.numbersOdd
  try dsimp only
  repeat' (first
    | with_reducible assumption
    | exact sub_mask hmsk rfl
    | with_reducible apply State.modConc_touches
    | with_reducible apply State.emit_touches
    | split
    | intro _
    | (refine Within.lit ?_ (by intro q hq; cases q <;> first | exact rfl | exact ⟨HubPart.same_refl _ _, HubPart.same_refl _ _⟩ | exact (no_mask hmsk rfl hq).elim)))

end Sys2Proof.Machine
end

