-- ==== Sys2Proof/Laws/TouchesVerdict.lean ====
section
/-! SUPPORT. What every operation of Machine/Verdict.lean may touch. -/

namespace Sys2Proof.Machine

open Sys2Proof

theorem State.handOffEnded_touches {msk : Nat} {s₀ : State} (s : State) (a : Nat) (x : Ctx) (hmsk : 3467771713075281920 &&& msk = 3467771713075281920) (hk : Within msk s₀ s)  :
    Within msk s₀ (State.handOffEnded s a x) := by
  unfold State.handOffEnded
  try dsimp only
  repeat' (first
    | with_reducible assumption
    | exact sub_mask hmsk rfl
    | with_reducible apply State.modAgent_touches
    | with_reducible apply State.modConc_touches
    | with_reducible apply State.poisonTask_touches
    | split
    | intro _
    | (refine Within.lit ?_ (by intro q hq; cases q <;> first | exact rfl | exact ⟨HubPart.same_refl _ _, HubPart.same_refl _ _⟩ | exact (no_mask hmsk rfl hq).elim)))

theorem State.handOff_touches {msk : Nat} {s₀ : State} (s : State) (a : Nat) (x : Ctx) (hmsk : 3467771713075281920 &&& msk = 3467771713075281920) (hk : Within msk s₀ s)  :
    Within msk s₀ (State.handOff s a x) := by
  unfold State.handOff
  try dsimp only
  repeat' (first
    | with_reducible assumption
    | exact sub_mask hmsk rfl
    | with_reducible apply State.handOffEnded_touches
    | with_reducible apply State.modAgent_touches
    | with_reducible apply State.modConc_touches
    | split
    | intro _
    | (refine Within.lit ?_ (by intro q hq; cases q <;> first | exact rfl | exact ⟨HubPart.same_refl _ _, HubPart.same_refl _ _⟩ | exact (no_mask hmsk rfl hq).elim)))

theorem State.storeFull_touches {msk : Nat} {s₀ : State} (s : State) (c a : Nat) (k : Account) (hmsk : 19342815419677076008992768 &&& msk = 19342815419677076008992768) (hk : Within msk s₀ s)  :
    Within msk s₀ (State.storeFull s c a k) := by
  unfold State.storeFull
  try dsimp only
  repeat' (first
    | with_reducible assumption
    | exact sub_mask hmsk rfl
    | with_reducible apply State.loseRun_touches
    | with_reducible apply State.modConc_touches
    | split
    | intro _
    | (refine Within.lit ?_ (by intro q hq; cases q <;> first | exact rfl | exact ⟨HubPart.same_refl _ _, HubPart.same_refl _ _⟩ | exact (no_mask hmsk rfl hq).elim)))

theorem State.engineVerdict_touches {msk : Nat} {s₀ : State} (s : State) (c : Nat) (h : Handed) (hmsk : 19342816572598580615839744 &&& msk = 19342816572598580615839744) (hk : Within msk s₀ s)  :
    Within msk s₀ (State.engineVerdict s c h) := by
  unfold State.engineVerdict
  try dsimp only
  repeat' (first
    | with_reducible assumption
    | exact sub_mask hmsk rfl
    | with_reducible apply State.storeFull_touches
    | with_reducible apply State.modConc_touches
    | with_reducible apply State.modAgent_touches
    | split
    | intro _
    | (refine Within.lit ?_ (by intro q hq; cases q <;> first | exact rfl | exact ⟨HubPart.same_refl _ _, HubPart.same_refl _ _⟩ | exact (no_mask hmsk rfl hq).elim)))

theorem State.countInconclusive_touches {msk : Nat} {s₀ : State} (s : State) (a : Nat) (x : Ctx) (reason : Nat) (hmsk : 17293822569102737408 &&& msk = 17293822569102737408) (hk : Within msk s₀ s)  :
    Within msk s₀ (State.countInconclusive s a x reason) := by
  unfold State.countInconclusive
  try dsimp only
  repeat' (first
    | with_reducible assumption
    | exact sub_mask hmsk rfl
    | with_reducible apply State.modAgent_touches
    | with_reducible apply State.modConc_touches
    | with_reducible apply State.report_touches
    | split
    | intro _
    | (refine Within.lit ?_ (by intro q hq; cases q <;> first | exact rfl | exact ⟨HubPart.same_refl _ _, HubPart.same_refl _ _⟩ | exact (no_mask hmsk rfl hq).elim)))

theorem State.countVerdict_touches {msk : Nat} {s₀ : State} (s : State) (a : Nat) (x : Ctx) (lenient : Bool) (hmsk : 1152921504606846976 &&& msk = 1152921504606846976) (hk : Within msk s₀ s)  :
    Within msk s₀ (State.countVerdict s a x lenient) := by
  unfold State.countVerdict
  try dsimp only
  repeat' (first
    | with_reducible assumption
    | exact sub_mask hmsk rfl
    | with_reducible apply State.modAgent_touches
    | split
    | intro _
    | (refine Within.lit ?_ (by intro q hq; cases q <;> first | exact rfl | exact ⟨HubPart.same_refl _ _, HubPart.same_refl _ _⟩ | exact (no_mask hmsk rfl hq).elim)))

theorem State.commitCtx_touches {msk : Nat} {s₀ : State} (s : State) (a : Nat) (x : Ctx) (hmsk : 1161928703861587968 &&& msk = 1161928703861587968) (hk : Within msk s₀ s)  :
    Within msk s₀ (State.commitCtx s a x) := by
  unfold State.commitCtx
  try dsimp only
  repeat' (first
    | with_reducible assumption
    | exact sub_mask hmsk rfl
    | with_reducible apply State.modAgent_touches
    | with_reducible apply State.commitAction_touches
    | refine State.commitAction_touchesOf (sub_mask hmsk rfl) (by assumption) ?_
    | split
    | intro _
    | (refine Within.lit ?_ (by intro q hq; cases q <;> first | exact rfl | exact ⟨HubPart.same_refl _ _, HubPart.same_refl _ _⟩ | exact (no_mask hmsk rfl hq).elim)))

theorem State.poisonedVerdict_touches {msk : Nat} {s₀ : State} (s : State) (a : Nat) (x : Ctx) (hmsk : 17302829768357478400 &&& msk = 17302829768357478400) (hk : Within msk s₀ s)  :
    Within msk s₀ (State.poisonedVerdict s a x) := by
  unfold State.poisonedVerdict
  try dsimp only
  repeat' (first
    | with_reducible assumption
    | exact sub_mask hmsk rfl
    | with_reducible apply State.dropAccount_touches
    | with_reducible apply State.modAgent_touches
    | with_reducible apply State.poisonTask_touches
    | with_reducible apply State.report_touches
    | split
    | intro _
    | (refine Within.lit ?_ (by intro q hq; cases q <;> first | exact rfl | exact ⟨HubPart.same_refl _ _, HubPart.same_refl _ _⟩ | exact (no_mask hmsk rfl hq).elim)))

theorem State.originalVerdict_touches {msk : Nat} {s₀ : State} (s : State) (a : Nat) (x : Ctx) (v : VerdictMsg) (hmsk : 19342830416663835152777216 &&& msk = 19342830416663835152777216) (hk : Within msk s₀ s)  :
    Within msk s₀ (State.originalVerdict s a x v) := by
  unfold State.originalVerdict
  try dsimp only
  repeat' (first
    | with_reducible assumption
    | exact sub_mask hmsk rfl
    | with_reducible apply State.countInconclusive_touches
    | with_reducible apply State.countVerdict_touches
    | with_reducible apply State.poisonedVerdict_touches
    | with_reducible apply State.dropAccount_touches
    | with_reducible apply State.openDec_touches
    | with_reducible apply State.commitCtx_touches
    | with_reducible apply State.modAgent_touches
    | with_reducible apply State.report_touches
    | with_reducible apply State.storeFull_touches
    | with_reducible apply State.poisonTask_touches
    | split
    | intro _
    | (refine Within.lit ?_ (by intro q hq; cases q <;> first | exact rfl | exact ⟨HubPart.same_refl _ _, HubPart.same_refl _ _⟩ | exact (no_mask hmsk rfl hq).elim)))

theorem State.retakeVerdict_touches {msk : Nat} {s₀ : State} (s : State) (a n : Nat) (x : Ctx) (hmsk : 17302829768357478400 &&& msk = 17302829768357478400) (hk : Within msk s₀ s)  :
    Within msk s₀ (State.retakeVerdict s a n x) := by
  unfold State.retakeVerdict
  try dsimp only
  repeat' (first
    | with_reducible assumption
    | exact sub_mask hmsk rfl
    | with_reducible apply State.poisonedVerdict_touches
    | with_reducible apply State.modAgent_touches
    | split
    | intro _
    | (refine Within.lit ?_ (by intro q hq; cases q <;> first | exact rfl | exact ⟨HubPart.same_refl _ _, HubPart.same_refl _ _⟩ | exact (no_mask hmsk rfl hq).elim)))

theorem State.fenceTask_touches {msk : Nat} {s₀ : State} (s : State) (a : Nat) (h : Nat) (u : Unchecked) (hmsk : 19342830416663835152777216 &&& msk = 19342830416663835152777216) (hk : Within msk s₀ s)  :
    Within msk s₀ (State.fenceTask s a h u) := by
  unfold State.fenceTask
  try dsimp only
  repeat' (first
    | with_reducible assumption
    | exact sub_mask hmsk rfl
    | with_reducible apply State.modAgent_touches
    | with_reducible apply State.failCtx_touches
    | split
    | intro _
    | (refine Within.lit ?_ (by intro q hq; cases q <;> first | exact rfl | exact ⟨HubPart.same_refl _ _, HubPart.same_refl _ _⟩ | exact (no_mask hmsk rfl hq).elim)))

theorem State.fenceOpenGroup_touches {msk : Nat} {s₀ : State} (s : State) (a key : Nat) (g : Group) (hmsk : 17302829768357478400 &&& msk = 17302829768357478400) (hk : Within msk s₀ s)  :
    Within msk s₀ (State.fenceOpenGroup s a key g) := by
  unfold State.fenceOpenGroup
  try dsimp only
  repeat' (first
    | with_reducible assumption
    | exact sub_mask hmsk rfl
    | with_reducible apply State.fenceGroup_touches
    | with_reducible apply State.openDec_touches
    | with_reducible apply State.modAgent_touches
    | split
    | intro _
    | (refine Within.lit ?_ (by intro q hq; cases q <;> first | exact rfl | exact ⟨HubPart.same_refl _ _, HubPart.same_refl _ _⟩ | exact (no_mask hmsk rfl hq).elim)))

theorem State.fenceRetake_touches {msk : Nat} {s₀ : State} (s : State) (a n : Nat) (x : Ctx) (hmsk : 19342830416663835152777216 &&& msk = 19342830416663835152777216) (hk : Within msk s₀ s)  :
    Within msk s₀ (State.fenceRetake s a n x) := by
  unfold State.fenceRetake
  try dsimp only
  repeat' (first
    | with_reducible assumption
    | exact sub_mask hmsk rfl
    | with_reducible apply State.failCtx_touches
    | with_reducible apply State.modRetake_touches
    | split
    | intro _
    | (refine Within.lit ?_ (by intro q hq; cases q <;> first | exact rfl | exact ⟨HubPart.same_refl _ _, HubPart.same_refl _ _⟩ | exact (no_mask hmsk rfl hq).elim)))

theorem State.fenceContexts_touches {msk : Nat} {s₀ : State} (s : State) (a : Nat) (hmsk : 19342830416663835152777216 &&& msk = 19342830416663835152777216) (hk : Within msk s₀ s)  :
    Within msk s₀ (State.fenceContexts s a) := by
  unfold State.fenceContexts
  try dsimp only
  repeat' (first
    | with_reducible assumption
    | exact sub_mask hmsk rfl
    | with_reducible apply State.each_touches
    | with_reducible apply State.failCtx_touches
    | with_reducible apply State.fenceRetake_touches
    | split
    | intro _
    | (refine Within.lit ?_ (by intro q hq; cases q <;> first | exact rfl | exact ⟨HubPart.same_refl _ _, HubPart.same_refl _ _⟩ | exact (no_mask hmsk rfl hq).elim)))

theorem State.fenceRequests_touches {msk : Nat} {s₀ : State} (s : State) (a : Nat) (hmsk : 328827824097107839381667840 &&& msk = 328827824097107839381667840) (hk : Within msk s₀ s)  :
    Within msk s₀ (State.fenceRequests s a) := by
  unfold State.fenceRequests
  try dsimp only
  repeat' (first
    | with_reducible assumption
    | exact sub_mask hmsk rfl
    | with_reducible apply State.modAgent_touches
    | with_reducible apply State.loseRun_touches
    | with_reducible apply State.scDrop_touches
    | with_reducible apply State.each_touches
    | with_reducible apply State.modRetake_touches
    | with_reducible apply State.requestRun_touches
    | split
    | intro _
    | (refine Within.lit ?_ (by intro q hq; cases q <;> first | exact rfl | exact ⟨HubPart.same_refl _ _, HubPart.same_refl _ _⟩ | exact (no_mask hmsk rfl hq).elim)))

theorem State.lateGates_touches {msk : Nat} {s₀ : State} (s : State) (a : Nat) (hmsk : 1161928703861587968 &&& msk = 1161928703861587968) (hk : Within msk s₀ s)  :
    Within msk s₀ (State.lateGates s a) := by
  unfold State.lateGates
  try dsimp only
  repeat' (first
    | with_reducible assumption
    | exact sub_mask hmsk rfl
    | with_reducible apply State.modAgent_touches
    | with_reducible apply State.each_touches
    | with_reducible apply State.presentCmt_touches
    | split
    | intro _
    | (refine Within.lit ?_ (by intro q hq; cases q <;> first | exact rfl | exact ⟨HubPart.same_refl _ _, HubPart.same_refl _ _⟩ | exact (no_mask hmsk rfl hq).elim)))

theorem State.poisonOrdered_touches {msk : Nat} {s₀ : State} (s : State) (agent record : Nat) (hmsk : 1268250229799409270715256406017 &&& msk = 1268250229799409270715256406017) (hk : Within msk s₀ s)  :
    Within msk s₀ (State.poisonOrdered s agent record) := by
  unfold State.poisonOrdered
  try dsimp only
  repeat' (first
    | with_reducible assumption
    | exact sub_mask hmsk rfl
    | with_reducible apply State.presentCmt_touches
    | with_reducible apply State.modAgent_touches
    | with_reducible apply State.closeRetake_touches
    | with_reducible apply State.startWaiting_touches
    | split
    | intro _
    | (refine Within.lit ?_ (by intro q hq; cases q <;> first | exact rfl | exact ⟨HubPart.same_refl _ _, HubPart.same_refl _ _⟩ | exact (no_mask hmsk rfl hq).elim)))

theorem State.openGates_touches {msk : Nat} {s₀ : State} (s : State) (a : Nat) (job : Job) (step : W64) (hmsk : 1161928703861587968 &&& msk = 1161928703861587968) (hk : Within msk s₀ s)  :
    Within msk s₀ (State.openGates s a job step) := by
  unfold State.openGates
  try dsimp only
  repeat' (first
    | with_reducible assumption
    | exact sub_mask hmsk rfl
    | with_reducible apply State.modAgent_touches
    | with_reducible apply State.each_touches
    | with_reducible apply State.presentCmt_touches
    | split
    | intro _
    | (refine Within.lit ?_ (by intro q hq; cases q <;> first | exact rfl | exact ⟨HubPart.same_refl _ _, HubPart.same_refl _ _⟩ | exact (no_mask hmsk rfl hq).elim)))

theorem State.modEnvelopes_touches {msk : Nat} {s₀ : State} (s : State) (job : Job) (f : Nat → Envelope → Envelope) (hmsk : 2305843009213693952 &&& msk = 2305843009213693952) (hk : Within msk s₀ s)  :
    Within msk s₀ (State.modEnvelopes s job f) := by
  unfold State.modEnvelopes
  try dsimp only
  repeat' (first
    | with_reducible assumption
    | exact sub_mask hmsk rfl
    | with_reducible apply State.each_touches
    | with_reducible apply State.modConc_touches
    | split
    | intro _
    | (refine Within.lit ?_ (by intro q hq; cases q <;> first | exact rfl | exact ⟨HubPart.same_refl _ _, HubPart.same_refl _ _⟩ | exact (no_mask hmsk rfl hq).elim)))

theorem State.abortAwaiting_touches {msk : Nat} {s₀ : State} (s : State) (a : Nat) (x : Ctx) (hmsk : 1268250229813244328770538602497 &&& msk = 1268250229813244328770538602497) (hk : Within msk s₀ s)  :
    Within msk s₀ (State.abortAwaiting s a x) := by
  unfold State.abortAwaiting
  try dsimp only
  repeat' (first
    | with_reducible assumption
    | exact sub_mask hmsk rfl
    | with_reducible apply State.modAgent_touches
    | with_reducible apply State.poisonTask_touches
    | with_reducible apply State.dropHanded_touches
    | with_reducible apply State.dropAccount_touches
    | with_reducible apply State.abortPoison_touches
    | with_reducible apply State.closeRetake_touches
    | with_reducible apply State.startWaiting_touches
    | split
    | intro _
    | (refine Within.lit ?_ (by intro q hq; cases q <;> first | exact rfl | exact ⟨HubPart.same_refl _ _, HubPart.same_refl _ _⟩ | exact (no_mask hmsk rfl hq).elim)))

theorem State.abortGroup_touches {msk : Nat} {s₀ : State} (s : State) (a key : Nat) (g : Group) (hmsk : 1161928703861587968 &&& msk = 1161928703861587968) (hk : Within msk s₀ s)  :
    Within msk s₀ (State.abortGroup s a key g) := by
  unfold State.abortGroup
  try dsimp only
  repeat' (first
    | with_reducible assumption
    | exact sub_mask hmsk rfl
    | with_reducible apply State.groupRange_touches
    | with_reducible apply State.modAgent_touches
    | split
    | intro _
    | (refine Within.lit ?_ (by intro q hq; cases q <;> first | exact rfl | exact ⟨HubPart.same_refl _ _, HubPart.same_refl _ _⟩ | exact (no_mask hmsk rfl hq).elim)))

theorem State.abortAgent_touches {msk : Nat} {s₀ : State} (s : State) (a : Nat) (job : Job) (hmsk : 1401950172018385316460639588065 &&& msk = 1401950172018385316460639588065) (hk : Within msk s₀ s)  :
    Within msk s₀ (State.abortAgent s a job) := by
  unfold State.abortAgent
  try dsimp only
  repeat' (first
    | with_reducible assumption
    | exact sub_mask hmsk rfl
    | with_reducible apply State.modAgent_touches
    | with_reducible apply State.each_touches
    | with_reducible apply State.presentCmt_touches
    | with_reducible apply State.abortAwaiting_touches
    | with_reducible apply State.abortGroup_touches
    | with_reducible apply State.markAborted_touches
    | split
    | intro _
    | (refine Within.lit ?_ (by intro q hq; cases q <;> first | exact rfl | exact ⟨HubPart.same_refl _ _, HubPart.same_refl _ _⟩ | exact (no_mask hmsk rfl hq).elim)))

theorem State.abortConc_touches {msk : Nat} {s₀ : State} (s : State) (c : Nat) (job : Job) (hmsk : 3467771713075298304 &&& msk = 3467771713075298304) (hk : Within msk s₀ s)  :
    Within msk s₀ (State.abortConc s c job) := by
  unfold State.abortConc
  try dsimp only
  repeat' (first
    | with_reducible assumption
    | exact sub_mask hmsk rfl
    | with_reducible apply State.each_touches
    | with_reducible apply State.presentCmt_touches
    | with_reducible apply State.modConc_touches
    | with_reducible apply Hub.count_touches
    | split
    | intro _
    | (refine Within.lit ?_ (by intro q hq; cases q <;> first | exact rfl | exact ⟨HubPart.same_refl _ _, HubPart.same_refl _ _⟩ | exact (no_mask hmsk rfl hq).elim)))

theorem State.clearExcursions_touches {msk : Nat} {s₀ : State} (s : State) (job : Job) (hmsk : 2305843009213693952 &&& msk = 2305843009213693952) (hk : Within msk s₀ s)  :
    Within msk s₀ (State.clearExcursions s job) := by
  unfold State.clearExcursions
  try dsimp only
  repeat' (first
    | with_reducible assumption
    | exact sub_mask hmsk rfl
    | with_reducible apply State.each_touches
    | with_reducible apply State.modConc_touches
    | split
    | intro _
    | (refine Within.lit ?_ (by intro q hq; cases q <;> first | exact rfl | exact ⟨HubPart.same_refl _ _, HubPart.same_refl _ _⟩ | exact (no_mask hmsk rfl hq).elim)))

end Sys2Proof.Machine
end

