-- ==== Sys2Proof/Laws/TouchesSign.lean ====
section
/-! SUPPORT. What every operation of Machine/Sign.lean may touch. -/

namespace Sys2Proof.Machine

open Sys2Proof

theorem State.modStream_touches {msk : Nat} {s₀ : State} (s : State) (n : Nat) (f : SignStream → SignStream) (hmsk : 79228162514264337593543950336 &&& msk = 79228162514264337593543950336) (hk : Within msk s₀ s)  :
    Within msk s₀ (State.modStream s n f) := by
  unfold State.modStream
  try dsimp only
  repeat' (first
    | with_reducible assumption
    | exact sub_mask hmsk rfl
    | split
    | intro _
    | (refine Within.lit ?_ (by intro q hq; cases q <;> first | exact rfl | exact ⟨HubPart.same_refl _ _, HubPart.same_refl _ _⟩ | exact (no_mask hmsk rfl hq).elim)))

theorem State.signHead_touches {msk : Nat} {s₀ : State} (s : State) (n : Nat) (close : Bool) (hmsk : 237684489903976254215455506432 &&& msk = 237684489903976254215455506432) (hk : Within msk s₀ s)  :
    Within msk s₀ (State.signHead s n close) := by
  unfold State.signHead
  try dsimp only
  repeat' (first
    | with_reducible assumption
    | exact sub_mask hmsk rfl
    | with_reducible apply State.modStream_touches
    | with_reducible apply State.endCmd_touches
    | split
    | intro _
    | (refine Within.lit ?_ (by intro q hq; cases q <;> first | exact rfl | exact ⟨HubPart.same_refl _ _, HubPart.same_refl _ _⟩ | exact (no_mask hmsk rfl hq).elim)))

theorem State.finishSign_touches {msk : Nat} {s₀ : State} (s : State) (n : Nat) (hmsk : 237684489903976254215455506432 &&& msk = 237684489903976254215455506432) (hk : Within msk s₀ s)  :
    Within msk s₀ (State.finishSign s n) := by
  unfold State.finishSign
  try dsimp only
  repeat' (first
    | with_reducible assumption
    | exact sub_mask hmsk rfl
    | with_reducible apply State.signHead_touches
    | split
    | intro _
    | (refine Within.lit ?_ (by intro q hq; cases q <;> first | exact rfl | exact ⟨HubPart.same_refl _ _, HubPart.same_refl _ _⟩ | exact (no_mask hmsk rfl hq).elim)))

theorem State.reportTo_touches {msk : Nat} {s₀ : State} (s : State) (n block : Nat) (tag : W32) (hmsk : 237684489903976254215455506432 &&& msk = 237684489903976254215455506432) (hk : Within msk s₀ s)  :
    Within msk s₀ (State.reportTo s n block tag) := by
  unfold State.reportTo
  try dsimp only
  repeat' (first
    | with_reducible assumption
    | exact sub_mask hmsk rfl
    | with_reducible apply State.modStream_touches
    | with_reducible apply State.finishSign_touches
    | split
    | intro _
    | (refine Within.lit ?_ (by intro q hq; cases q <;> first | exact rfl | exact ⟨HubPart.same_refl _ _, HubPart.same_refl _ _⟩ | exact (no_mask hmsk rfl hq).elim)))

theorem State.reportCommit_touches {msk : Nat} {s₀ : State} (s : State) (block : Nat) (tag : W32) (hmsk : 237684489903976254215455506432 &&& msk = 237684489903976254215455506432) (hk : Within msk s₀ s)  :
    Within msk s₀ (State.reportCommit s block tag) := by
  unfold State.reportCommit
  try dsimp only
  repeat' (first
    | with_reducible assumption
    | exact sub_mask hmsk rfl
    | with_reducible apply State.each_touches
    | with_reducible apply State.reportTo_touches
    | split
    | intro _
    | (refine Within.lit ?_ (by intro q hq; cases q <;> first | exact rfl | exact ⟨HubPart.same_refl _ _, HubPart.same_refl _ _⟩ | exact (no_mask hmsk rfl hq).elim)))

theorem State.dropWaiting_touches {msk : Nat} {s₀ : State} (s : State) (block : Nat) (hmsk : 237684489903976254215455506432 &&& msk = 237684489903976254215455506432) (hk : Within msk s₀ s)  :
    Within msk s₀ (State.dropWaiting s block) := by
  unfold State.dropWaiting
  try dsimp only
  repeat' (first
    | with_reducible assumption
    | exact sub_mask hmsk rfl
    | with_reducible apply State.each_touches
    | with_reducible apply State.modStream_touches
    | with_reducible apply State.finishSign_touches
    | split
    | intro _
    | (refine Within.lit ?_ (by intro q hq; cases q <;> first | exact rfl | exact ⟨HubPart.same_refl _ _, HubPart.same_refl _ _⟩ | exact (no_mask hmsk rfl hq).elim)))

end Sys2Proof.Machine
end

