-- ==== Sys2Proof/Laws/TouchesTags.lean ====
section
/-! SUPPORT. What every operation of Machine/Tags.lean may touch. -/

namespace Sys2Proof.Machine

open Sys2Proof

theorem State.countTag_touches {msk : Nat} {s₀ : State} (s : State) (e i : Nat) (hmsk : 4611686018427387904 &&& msk = 4611686018427387904) (hk : Within msk s₀ s)  :
    Within msk s₀ (State.countTag s e i) := by
  unfold State.countTag
  try dsimp only
  repeat' (first
    | with_reducible assumption
    | exact sub_mask hmsk rfl
    | with_reducible apply State.modEngine_touches
    | split
    | intro _
    | (refine Within.lit ?_ (by intro q hq; cases q <;> first | exact rfl | exact ⟨HubPart.same_refl _ _, HubPart.same_refl _ _⟩ | exact (no_mask hmsk rfl hq).elim)))

theorem State.tagReport_touches {msk : Nat} {s₀ : State} (s : State) (e : Nat) (kind : Byte) (addr : Nat) (job : Job) (hmsk : 17293822569102737408 &&& msk = 17293822569102737408) (hk : Within msk s₀ s)  :
    Within msk s₀ (State.tagReport s e kind addr job) := by
  unfold State.tagReport
  try dsimp only
  repeat' (first
    | with_reducible assumption
    | exact sub_mask hmsk rfl
    | with_reducible apply State.emit_touches
    | split
    | intro _
    | (refine Within.lit ?_ (by intro q hq; cases q <;> first | exact rfl | exact ⟨HubPart.same_refl _ _, HubPart.same_refl _ _⟩ | exact (no_mask hmsk rfl hq).elim)))

theorem State.mismatch_touches {msk : Nat} {s₀ : State} (s : State) (e addr : Nat) (job : Job) (hmsk : 17293822569102737408 &&& msk = 17293822569102737408) (hk : Within msk s₀ s)  :
    Within msk s₀ (State.mismatch s e addr job) := by
  unfold State.mismatch
  try dsimp only
  repeat' (first
    | with_reducible assumption
    | exact sub_mask hmsk rfl
    | with_reducible apply State.countTag_touches
    | with_reducible apply State.tagReport_touches
    | split
    | intro _
    | (refine Within.lit ?_ (by intro q hq; cases q <;> first | exact rfl | exact ⟨HubPart.same_refl _ _, HubPart.same_refl _ _⟩ | exact (no_mask hmsk rfl hq).elim)))

theorem State.setStream_touches {msk : Nat} {s₀ : State} (s : State) (e id : Nat) (t : Option Stream) (hmsk : 4611686018427387904 &&& msk = 4611686018427387904) (hk : Within msk s₀ s)  :
    Within msk s₀ (State.setStream s e id t) := by
  unfold State.setStream
  try dsimp only
  repeat' (first
    | with_reducible assumption
    | exact sub_mask hmsk rfl
    | with_reducible apply State.modEngine_touches
    | split
    | intro _
    | (refine Within.lit ?_ (by intro q hq; cases q <;> first | exact rfl | exact ⟨HubPart.same_refl _ _, HubPart.same_refl _ _⟩ | exact (no_mask hmsk rfl hq).elim)))

theorem State.reply_touches {msk : Nat} {s₀ : State} (s : State) (e id code d : Nat) (hmsk : 9007199254740992 &&& msk = 9007199254740992) (hk : Within msk s₀ s)  :
    Within msk s₀ (State.reply s e id code d) := by
  unfold State.reply
  try dsimp only
  repeat' (first
    | with_reducible assumption
    | exact sub_mask hmsk rfl
    | with_reducible apply State.present_touches
    | split
    | intro _
    | (refine Within.lit ?_ (by intro q hq; cases q <;> first | exact rfl | exact ⟨HubPart.same_refl _ _, HubPart.same_refl _ _⟩ | exact (no_mask hmsk rfl hq).elim)))

theorem State.endStream_touches {msk : Nat} {s₀ : State} (s : State) (e id : Nat) (t : Option Stream) (hmsk : 4611686018427387904 &&& msk = 4611686018427387904) (hk : Within msk s₀ s)  :
    Within msk s₀ (State.endStream s e id t) := by
  unfold State.endStream
  try dsimp only
  repeat' (first
    | with_reducible assumption
    | exact sub_mask hmsk rfl
    | with_reducible apply State.modEngine_touches
    | with_reducible apply State.setStream_touches
    | split
    | intro _
    | (refine Within.lit ?_ (by intro q hq; cases q <;> first | exact rfl | exact ⟨HubPart.same_refl _ _, HubPart.same_refl _ _⟩ | exact (no_mask hmsk rfl hq).elim)))

theorem State.finalReply_touches {msk : Nat} {s₀ : State} (s : State) (e id : Nat) (code d : Nat) (hmsk : 4620693217682128896 &&& msk = 4620693217682128896) (hk : Within msk s₀ s)  :
    Within msk s₀ (State.finalReply s e id code d) := by
  unfold State.finalReply
  try dsimp only
  repeat' (first
    | with_reducible assumption
    | exact sub_mask hmsk rfl
    | with_reducible apply State.endStream_touches
    | with_reducible apply State.reply_touches
    | split
    | intro _
    | (refine Within.lit ?_ (by intro q hq; cases q <;> first | exact rfl | exact ⟨HubPart.same_refl _ _, HubPart.same_refl _ _⟩ | exact (no_mask hmsk rfl hq).elim)))

theorem State.sideIssue_touches {msk : Nat} {s₀ : State} (s : State) (e : Nat) (r : SideReq) (hmsk : 4620693217682128896 &&& msk = 4620693217682128896) (hk : Within msk s₀ s)  :
    Within msk s₀ (State.sideIssue s e r).1 := by
  unfold State.sideIssue
  try dsimp only
  repeat' (first
    | with_reducible assumption
    | exact sub_mask hmsk rfl
    | with_reducible apply State.modEngine_touches
    | with_reducible apply State.present_touches
    | split
    | intro _
    | (refine Within.lit ?_ (by intro q hq; cases q <;> first | exact rfl | exact ⟨HubPart.same_refl _ _, HubPart.same_refl _ _⟩ | exact (no_mask hmsk rfl hq).elim)))

theorem State.sideIssue_touchesOf {msk : Nat} {s₀ : State} {s : State} (e : Nat) (r : SideReq) {t : State} {rest}
    (hmsk : 4620693217682128896 &&& msk = 4620693217682128896) (heq : State.sideIssue s e r = (t, rest)) (hk : Within msk s₀ s) : Within msk s₀ t := by
  have key := State.sideIssue_touches s e r hmsk hk
  rw [heq] at key
  exact key

theorem State.writeWord_touches {msk : Nat} {s₀ : State} (s : State) (e block : Nat) (w : W32) (job : Job) (p : SidePurpose) (hmsk : 4620693217682128896 &&& msk = 4620693217682128896) (hk : Within msk s₀ s)  :
    Within msk s₀ (State.writeWord s e block w job p).1 := by
  unfold State.writeWord
  try dsimp only
  repeat' (first
    | with_reducible assumption
    | exact sub_mask hmsk rfl
    | with_reducible apply State.sideIssue_touches
    | refine State.sideIssue_touchesOf (sub_mask hmsk rfl) (by assumption) ?_
    | split
    | intro _
    | (refine Within.lit ?_ (by intro q hq; cases q <;> first | exact rfl | exact ⟨HubPart.same_refl _ _, HubPart.same_refl _ _⟩ | exact (no_mask hmsk rfl hq).elim)))

theorem State.writeWord_touchesOf {msk : Nat} {s₀ : State} {s : State} (e block : Nat) (w : W32) (job : Job) (p : SidePurpose) {t : State} {rest}
    (hmsk : 4620693217682128896 &&& msk = 4620693217682128896) (heq : State.writeWord s e block w job p = (t, rest)) (hk : Within msk s₀ s) : Within msk s₀ t := by
  have key := State.writeWord_touches s e block w job p hmsk hk
  rw [heq] at key
  exact key

theorem State.skipBlock_touches {msk : Nat} {s₀ : State} (s : State) (e block : Nat) (hmsk : 4611686018427387904 &&& msk = 4611686018427387904) (hk : Within msk s₀ s)  :
    Within msk s₀ (State.skipBlock s e block) := by
  unfold State.skipBlock
  try dsimp only
  repeat' (first
    | with_reducible assumption
    | exact sub_mask hmsk rfl
    | with_reducible apply State.modEngine_touches
    | split
    | intro _
    | (refine Within.lit ?_ (by intro q hq; cases q <;> first | exact rfl | exact ⟨HubPart.same_refl _ _, HubPart.same_refl _ _⟩ | exact (no_mask hmsk rfl hq).elim)))

theorem State.modOn_touches {msk : Nat} {s₀ : State} (s : State) (e block : Nat) (f : Stream → Stream) (hmsk : 4611686018427387904 &&& msk = 4611686018427387904) (hk : Within msk s₀ s)  :
    Within msk s₀ (State.modOn s e block f) := by
  unfold State.modOn
  try dsimp only
  repeat' (first
    | with_reducible assumption
    | exact sub_mask hmsk rfl
    | with_reducible apply State.modEngine_touches
    | split
    | intro _
    | (refine Within.lit ?_ (by intro q hq; cases q <;> first | exact rfl | exact ⟨HubPart.same_refl _ _, HubPart.same_refl _ _⟩ | exact (no_mask hmsk rfl hq).elim)))

theorem State.poisonBlock_touches {msk : Nat} {s₀ : State} (s : State) (e block : Nat) (job : Job) (report : Bool) (hmsk : 237684489921279083983812984832 &&& msk = 237684489921279083983812984832) (hk : Within msk s₀ s)  :
    Within msk s₀ (State.poisonBlock s e block job report) := by
  unfold State.poisonBlock
  try dsimp only
  repeat' (first
    | with_reducible assumption
    | exact sub_mask hmsk rfl
    | with_reducible apply State.mismatch_touches
    | with_reducible apply State.skipBlock_touches
    | with_reducible apply State.writeWord_touches
    | refine State.writeWord_touchesOf (sub_mask hmsk rfl) (by assumption) ?_
    | with_reducible apply State.modOn_touches
    | with_reducible apply State.each_touches
    | with_reducible apply State.countTag_touches
    | with_reducible apply State.finalReply_touches
    | with_reducible apply State.dropWaiting_touches
    | split
    | intro _
    | (refine Within.lit ?_ (by intro q hq; cases q <;> first | exact rfl | exact ⟨HubPart.same_refl _ _, HubPart.same_refl _ _⟩ | exact (no_mask hmsk rfl hq).elim)))

theorem State.writeTag_touches {msk : Nat} {s₀ : State} (s : State) (e block : Nat) (w : W32) (job : Job) (p : SidePurpose) (hmsk : 237684489921279083983812984832 &&& msk = 237684489921279083983812984832) (hk : Within msk s₀ s)  :
    Within msk s₀ (State.writeTag s e block w job p).1 := by
  unfold State.writeTag
  try dsimp only
  repeat' (first
    | with_reducible assumption
    | exact sub_mask hmsk rfl
    | with_reducible apply State.writeWord_touches
    | refine State.writeWord_touchesOf (sub_mask hmsk rfl) (by assumption) ?_
    | with_reducible apply State.poisonBlock_touches
    | split
    | intro _
    | (refine Within.lit ?_ (by intro q hq; cases q <;> first | exact rfl | exact ⟨HubPart.same_refl _ _, HubPart.same_refl _ _⟩ | exact (no_mask hmsk rfl hq).elim)))

theorem State.writeTag_touchesOf {msk : Nat} {s₀ : State} {s : State} (e block : Nat) (w : W32) (job : Job) (p : SidePurpose) {t : State} {rest}
    (hmsk : 237684489921279083983812984832 &&& msk = 237684489921279083983812984832) (heq : State.writeTag s e block w job p = (t, rest)) (hk : Within msk s₀ s) : Within msk s₀ t := by
  have key := State.writeTag_touches s e block w job p hmsk hk
  rw [heq] at key
  exact key

theorem State.verifyRead_touches {msk : Nat} {s₀ : State} (s : State) (e id : Nat) (t : Stream) (w : W32) (rel : Bool) (hmsk : 237684489921279083983812984832 &&& msk = 237684489921279083983812984832) (hk : Within msk s₀ s)  :
    Within msk s₀ (State.verifyRead s e id t w rel) := by
  unfold State.verifyRead
  try dsimp only
  repeat' (first
    | with_reducible assumption
    | exact sub_mask hmsk rfl
    | with_reducible apply State.countTag_touches
    | with_reducible apply State.finalReply_touches
    | with_reducible apply State.poisonBlock_touches
    | split
    | intro _
    | (refine Within.lit ?_ (by intro q hq; cases q <;> first | exact rfl | exact ⟨HubPart.same_refl _ _, HubPart.same_refl _ _⟩ | exact (no_mask hmsk rfl hq).elim)))

theorem State.judgeRead_touches {msk : Nat} {s₀ : State} (s : State) (e id : Nat) (t : Stream) (w : W32) (bad : Bool) (hmsk : 237684489921279083983812984832 &&& msk = 237684489921279083983812984832) (hk : Within msk s₀ s)  :
    Within msk s₀ (State.judgeRead s e id t w bad) := by
  unfold State.judgeRead
  try dsimp only
  repeat' (first
    | with_reducible assumption
    | exact sub_mask hmsk rfl
    | with_reducible apply State.finalReply_touches
    | with_reducible apply State.poisonBlock_touches
    | with_reducible apply State.countTag_touches
    | with_reducible apply State.setStream_touches
    | with_reducible apply State.reply_touches
    | with_reducible apply State.verifyRead_touches
    | split
    | intro _
    | (refine Within.lit ?_ (by intro q hq; cases q <;> first | exact rfl | exact ⟨HubPart.same_refl _ _, HubPart.same_refl _ _⟩ | exact (no_mask hmsk rfl hq).elim)))

theorem State.readWord_touches {msk : Nat} {s₀ : State} (s : State) (e id : Nat) (w : W32) (bad : Bool) (hmsk : 237684489921279083983812984832 &&& msk = 237684489921279083983812984832) (hk : Within msk s₀ s)  :
    Within msk s₀ (State.readWord s e id w bad) := by
  unfold State.readWord
  try dsimp only
  repeat' (first
    | with_reducible assumption
    | exact sub_mask hmsk rfl
    | with_reducible apply State.setStream_touches
    | with_reducible apply State.judgeRead_touches
    | split
    | intro _
    | (refine Within.lit ?_ (by intro q hq; cases q <;> first | exact rfl | exact ⟨HubPart.same_refl _ _, HubPart.same_refl _ _⟩ | exact (no_mask hmsk rfl hq).elim)))

theorem State.requestWord_touches {msk : Nat} {s₀ : State} (s : State) (e id : Nat) (t : Stream) (hmsk : 237684489921279083983812984832 &&& msk = 237684489921279083983812984832) (hk : Within msk s₀ s)  :
    Within msk s₀ (State.requestWord s e id t) := by
  unfold State.requestWord
  try dsimp only
  repeat' (first
    | with_reducible assumption
    | exact sub_mask hmsk rfl
    | with_reducible apply State.setStream_touches
    | with_reducible apply State.readWord_touches
    | with_reducible apply State.sideIssue_touches
    | refine State.sideIssue_touchesOf (sub_mask hmsk rfl) (by assumption) ?_
    | split
    | intro _
    | (refine Within.lit ?_ (by intro q hq; cases q <;> first | exact rfl | exact ⟨HubPart.same_refl _ _, HubPart.same_refl _ _⟩ | exact (no_mask hmsk rfl hq).elim)))

theorem State.releaseRead_touches {msk : Nat} {s₀ : State} (s : State) (e id : Nat) (hmsk : 238922429960564464258712109056 &&& msk = 238922429960564464258712109056) (hk : Within msk s₀ s)  :
    Within msk s₀ (State.releaseRead s e id) := by
  unfold State.releaseRead
  try dsimp only
  repeat' (first
    | with_reducible assumption
    | exact sub_mask hmsk rfl
    | with_reducible apply State.countTag_touches
    | with_reducible apply State.finalReply_touches
    | with_reducible apply State.verifyRead_touches
    | split
    | intro _
    | (refine Within.lit ?_ (by intro q hq; cases q <;> first | exact rfl | exact ⟨HubPart.same_refl _ _, HubPart.same_refl _ _⟩ | exact (no_mask hmsk rfl hq).elim)))

theorem State.releaseBlock_touches {msk : Nat} {s₀ : State} (s : State) (e block : Nat) (hmsk : 238922429960564464258712109056 &&& msk = 238922429960564464258712109056) (hk : Within msk s₀ s)  :
    Within msk s₀ (State.releaseBlock s e block) := by
  unfold State.releaseBlock
  try dsimp only
  repeat' (first
    | with_reducible assumption
    | exact sub_mask hmsk rfl
    | with_reducible apply State.each_touches
    | with_reducible apply State.releaseRead_touches
    | split
    | intro _
    | (refine Within.lit ?_ (by intro q hq; cases q <;> first | exact rfl | exact ⟨HubPart.same_refl _ _, HubPart.same_refl _ _⟩ | exact (no_mask hmsk rfl hq).elim)))

theorem State.queueInlog_touches {msk : Nat} {s₀ : State} (s : State) (t : Stream) (w : W32) (hmsk : 19809458480205313656735399936 &&& msk = 19809458480205313656735399936) (hk : Within msk s₀ s)  :
    Within msk s₀ (State.queueInlog s t w) := by
  unfold State.queueInlog
  try dsimp only
  repeat' (first
    | with_reducible assumption
    | exact sub_mask hmsk rfl
    | with_reducible apply State.modJob_touches
    | split
    | intro _
    | (refine Within.lit ?_ (by intro q hq; cases q <;> first | exact rfl | exact ⟨HubPart.same_refl _ _, HubPart.same_refl _ _⟩ | exact (no_mask hmsk rfl hq).elim)))

theorem State.commitNow_touches {msk : Nat} {s₀ : State} (s : State) (e block : Nat) (pending : Bool) (w : W32) (hmsk : 237684489908587940233882894336 &&& msk = 237684489908587940233882894336) (hk : Within msk s₀ s)  :
    Within msk s₀ (State.commitNow s e block pending w) := by
  unfold State.commitNow
  try dsimp only
  repeat' (first
    | with_reducible assumption
    | exact sub_mask hmsk rfl
    | with_reducible apply State.reportCommit_touches
    | with_reducible apply State.countTag_touches
    | with_reducible apply State.dropWaiting_touches
    | split
    | intro _
    | (refine Within.lit ?_ (by intro q hq; cases q <;> first | exact rfl | exact ⟨HubPart.same_refl _ _, HubPart.same_refl _ _⟩ | exact (no_mask hmsk rfl hq).elim)))

theorem State.overtaken_touches {msk : Nat} {s₀ : State} (s : State) (e block : Nat) (hmsk : 237684489908587940233882894336 &&& msk = 237684489908587940233882894336) (hk : Within msk s₀ s)  :
    Within msk s₀ (State.overtaken s e block) := by
  unfold State.overtaken
  try dsimp only
  repeat' (first
    | with_reducible assumption
    | exact sub_mask hmsk rfl
    | with_reducible apply State.commitNow_touches
    | with_reducible apply State.dropWaiting_touches
    | split
    | intro _
    | (refine Within.lit ?_ (by intro q hq; cases q <;> first | exact rfl | exact ⟨HubPart.same_refl _ _, HubPart.same_refl _ _⟩ | exact (no_mask hmsk rfl hq).elim)))

theorem State.storeTag_touches {msk : Nat} {s₀ : State} (s : State) (e : Nat) (t : Stream) (hmsk : 258731888440769777915447508992 &&& msk = 258731888440769777915447508992) (hk : Within msk s₀ s)  :
    Within msk s₀ (State.storeTag s e t) := by
  unfold State.storeTag
  try dsimp only
  repeat' (first
    | with_reducible assumption
    | exact sub_mask hmsk rfl
    | with_reducible apply State.modOn_touches
    | with_reducible apply State.overtaken_touches
    | with_reducible apply State.skipBlock_touches
    | with_reducible apply State.writeTag_touches
    | refine State.writeTag_touchesOf (sub_mask hmsk rfl) (by assumption) ?_
    | with_reducible apply State.commitNow_touches
    | with_reducible apply State.releaseBlock_touches
    | with_reducible apply State.queueInlog_touches
    | split
    | intro _
    | (refine Within.lit ?_ (by intro q hq; cases q <;> first | exact rfl | exact ⟨HubPart.same_refl _ _, HubPart.same_refl _ _⟩ | exact (no_mask hmsk rfl hq).elim)))

theorem State.storePoison_touches {msk : Nat} {s₀ : State} (s : State) (e : Nat) (t : Stream) (report : Bool) (hmsk : 237684489921279083983812984832 &&& msk = 237684489921279083983812984832) (hk : Within msk s₀ s)  :
    Within msk s₀ (State.storePoison s e t report) := by
  unfold State.storePoison
  try dsimp only
  repeat' (first
    | with_reducible assumption
    | exact sub_mask hmsk rfl
    | with_reducible apply State.poisonBlock_touches
    | with_reducible apply State.countTag_touches
    | split
    | intro _
    | (refine Within.lit ?_ (by intro q hq; cases q <;> first | exact rfl | exact ⟨HubPart.same_refl _ _, HubPart.same_refl _ _⟩ | exact (no_mask hmsk rfl hq).elim)))

theorem State.closeWrite_touches {msk : Nat} {s₀ : State} (s : State) (e id : Nat) (t : Stream) (hmsk : 258731888440769777915447508992 &&& msk = 258731888440769777915447508992) (hk : Within msk s₀ s)  :
    Within msk s₀ (State.closeWrite s e id t) := by
  unfold State.closeWrite
  try dsimp only
  repeat' (first
    | with_reducible assumption
    | exact sub_mask hmsk rfl
    | with_reducible apply State.storePoison_touches
    | with_reducible apply State.finalReply_touches
    | with_reducible apply State.storeTag_touches
    | split
    | intro _
    | (refine Within.lit ?_ (by intro q hq; cases q <;> first | exact rfl | exact ⟨HubPart.same_refl _ _, HubPart.same_refl _ _⟩ | exact (no_mask hmsk rfl hq).elim)))

theorem State.finishPart_touches {msk : Nat} {s₀ : State} (s : State) (e id : Nat) (t : Stream) (w : W32) (bad : Bool) (hmsk : 238922429960564464258712109056 &&& msk = 238922429960564464258712109056) (hk : Within msk s₀ s)  :
    Within msk s₀ (State.finishPart s e id t w bad) := by
  unfold State.finishPart
  try dsimp only
  repeat' (first
    | with_reducible assumption
    | exact sub_mask hmsk rfl
    | with_reducible apply State.storePoison_touches
    | with_reducible apply State.finalReply_touches
    | with_reducible apply State.countTag_touches
    | with_reducible apply State.commitNow_touches
    | with_reducible apply State.skipBlock_touches
    | with_reducible apply State.writeTag_touches
    | refine State.writeTag_touchesOf (sub_mask hmsk rfl) (by assumption) ?_
    | with_reducible apply State.modOn_touches
    | with_reducible apply State.releaseBlock_touches
    | split
    | intro _
    | (refine Within.lit ?_ (by intro q hq; cases q <;> first | exact rfl | exact ⟨HubPart.same_refl _ _, HubPart.same_refl _ _⟩ | exact (no_mask hmsk rfl hq).elim)))

theorem State.closePart_touches {msk : Nat} {s₀ : State} (s : State) (e id : Nat) (t : Stream) (hmsk : 238922429960564464258712109056 &&& msk = 238922429960564464258712109056) (hk : Within msk s₀ s)  :
    Within msk s₀ (State.closePart s e id t) := by
  unfold State.closePart
  try dsimp only
  repeat' (first
    | with_reducible assumption
    | exact sub_mask hmsk rfl
    | with_reducible apply State.storePoison_touches
    | with_reducible apply State.finalReply_touches
    | with_reducible apply State.setStream_touches
    | with_reducible apply State.finishPart_touches
    | with_reducible apply State.sideIssue_touches
    | refine State.sideIssue_touchesOf (sub_mask hmsk rfl) (by assumption) ?_
    | split
    | intro _
    | (refine Within.lit ?_ (by intro q hq; cases q <;> first | exact rfl | exact ⟨HubPart.same_refl _ _, HubPart.same_refl _ _⟩ | exact (no_mask hmsk rfl hq).elim)))

theorem State.refuseWrite_touches {msk : Nat} {s₀ : State} (s : State) (e id : Nat) (t : Stream) (addr : Nat) (hmsk : 17302829768357478400 &&& msk = 17302829768357478400) (hk : Within msk s₀ s)  :
    Within msk s₀ (State.refuseWrite s e id t addr) := by
  unfold State.refuseWrite
  try dsimp only
  repeat' (first
    | with_reducible assumption
    | exact sub_mask hmsk rfl
    | with_reducible apply State.countTag_touches
    | with_reducible apply State.tagReport_touches
    | with_reducible apply State.finalReply_touches
    | split
    | intro _
    | (refine Within.lit ?_ (by intro q hq; cases q <;> first | exact rfl | exact ⟨HubPart.same_refl _ _, HubPart.same_refl _ _⟩ | exact (no_mask hmsk rfl hq).elim)))

theorem State.reuseStream_touches {msk : Nat} {s₀ : State} (s : State) (e id : Nat) (old t : Stream) (hmsk : 237684489921279083983812984832 &&& msk = 237684489921279083983812984832) (hk : Within msk s₀ s)  :
    Within msk s₀ (State.reuseStream s e id old t) := by
  unfold State.reuseStream
  try dsimp only
  repeat' (first
    | with_reducible assumption
    | exact sub_mask hmsk rfl
    | with_reducible apply State.finalReply_touches
    | with_reducible apply State.poisonBlock_touches
    | with_reducible apply State.endStream_touches
    | split
    | intro _
    | (refine Within.lit ?_ (by intro q hq; cases q <;> first | exact rfl | exact ⟨HubPart.same_refl _ _, HubPart.same_refl _ _⟩ | exact (no_mask hmsk rfl hq).elim)))

theorem State.sampleReads_touches {msk : Nat} {s₀ : State} (s : State) (e block : Nat) (hmsk : 237684489921279083983812984832 &&& msk = 237684489921279083983812984832) (hk : Within msk s₀ s)  :
    Within msk s₀ (State.sampleReads s e block) := by
  unfold State.sampleReads
  try dsimp only
  repeat' (first
    | with_reducible assumption
    | exact sub_mask hmsk rfl
    | with_reducible apply State.each_touches
    | with_reducible apply State.requestWord_touches
    | split
    | intro _
    | (refine Within.lit ?_ (by intro q hq; cases q <;> first | exact rfl | exact ⟨HubPart.same_refl _ _, HubPart.same_refl _ _⟩ | exact (no_mask hmsk rfl hq).elim)))

theorem State.openWrite_touches {msk : Nat} {s₀ : State} (s : State) (e id : Nat) (t : Stream) (hmsk : 237684489921279083983812984832 &&& msk = 237684489921279083983812984832) (hk : Within msk s₀ s)  :
    Within msk s₀ (State.openWrite s e id t) := by
  unfold State.openWrite
  try dsimp only
  repeat' (first
    | with_reducible assumption
    | exact sub_mask hmsk rfl
    | with_reducible apply State.setStream_touches
    | with_reducible apply State.refuseWrite_touches
    | with_reducible apply State.sampleReads_touches
    | with_reducible apply State.each_touches
    | with_reducible apply State.poisonBlock_touches
    | split
    | intro _
    | (refine Within.lit ?_ (by intro q hq; cases q <;> first | exact rfl | exact ⟨HubPart.same_refl _ _, HubPart.same_refl _ _⟩ | exact (no_mask hmsk rfl hq).elim)))

theorem State.openRead_touches {msk : Nat} {s₀ : State} (s : State) (e id : Nat) (t : Stream) (hmsk : 237684489921279083983812984832 &&& msk = 237684489921279083983812984832) (hk : Within msk s₀ s)  :
    Within msk s₀ (State.openRead s e id t) := by
  unfold State.openRead
  try dsimp only
  repeat' (first
    | with_reducible assumption
    | exact sub_mask hmsk rfl
    | with_reducible apply State.countTag_touches
    | with_reducible apply State.finalReply_touches
    | with_reducible apply State.setStream_touches
    | with_reducible apply State.requestWord_touches
    | split
    | intro _
    | (refine Within.lit ?_ (by intro q hq; cases q <;> first | exact rfl | exact ⟨HubPart.same_refl _ _, HubPart.same_refl _ _⟩ | exact (no_mask hmsk rfl hq).elim)))

theorem State.memOp_touches {msk : Nat} {s₀ : State} (s : State) (e : Nat) (stream : BitVec 7) (addr : Addr) (job : Job) (f : Stream → Stream) (hmsk : 237684489921279083983812984832 &&& msk = 237684489921279083983812984832) (hk : Within msk s₀ s)  :
    Within msk s₀ (State.memOp s e stream addr job f) := by
  unfold State.memOp
  try dsimp only
  repeat' (first
    | with_reducible assumption
    | exact sub_mask hmsk rfl
    | with_reducible apply State.reuseStream_touches
    | with_reducible apply State.openRead_touches
    | with_reducible apply State.openWrite_touches
    | split
    | intro _
    | (refine Within.lit ?_ (by intro q hq; cases q <;> first | exact rfl | exact ⟨HubPart.same_refl _ _, HubPart.same_refl _ _⟩ | exact (no_mask hmsk rfl hq).elim)))

theorem State.untaggedBeat_touches {msk : Nat} {s₀ : State} (s : State) (e id : Nat) (t : Stream) (b : TgBeat) (hmsk : 17302829768357478400 &&& msk = 17302829768357478400) (hk : Within msk s₀ s)  :
    Within msk s₀ (State.untaggedBeat s e id t b) := by
  unfold State.untaggedBeat
  try dsimp only
  repeat' (first
    | with_reducible assumption
    | exact sub_mask hmsk rfl
    | with_reducible apply State.refuseWrite_touches
    | with_reducible apply State.finalReply_touches
    | with_reducible apply State.setStream_touches
    | split
    | intro _
    | (refine Within.lit ?_ (by intro q hq; cases q <;> first | exact rfl | exact ⟨HubPart.same_refl _ _, HubPart.same_refl _ _⟩ | exact (no_mask hmsk rfl hq).elim)))

theorem State.taggedBeat_touches {msk : Nat} {s₀ : State} (s : State) (e id : Nat) (t : Stream) (b : TgBeat) (hmsk : 258731888440769777915447508992 &&& msk = 258731888440769777915447508992) (hk : Within msk s₀ s)  :
    Within msk s₀ (State.taggedBeat s e id t b) := by
  unfold State.taggedBeat
  try dsimp only
  repeat' (first
    | with_reducible assumption
    | exact sub_mask hmsk rfl
    | with_reducible apply State.setStream_touches
    | with_reducible apply State.requestWord_touches
    | with_reducible apply State.judgeRead_touches
    | with_reducible apply State.closePart_touches
    | with_reducible apply State.closeWrite_touches
    | split
    | intro _
    | (refine Within.lit ?_ (by intro q hq; cases q <;> first | exact rfl | exact ⟨HubPart.same_refl _ _, HubPart.same_refl _ _⟩ | exact (no_mask hmsk rfl hq).elim)))

theorem State.modCommit_touches {msk : Nat} {s₀ : State} (s : State) (e key : Nat) (f : CommitEntry → CommitEntry) (hmsk : 4611686018427387904 &&& msk = 4611686018427387904) (hk : Within msk s₀ s)  :
    Within msk s₀ (State.modCommit s e key f) := by
  unfold State.modCommit
  try dsimp only
  repeat' (first
    | with_reducible assumption
    | exact sub_mask hmsk rfl
    | with_reducible apply State.modEngine_touches
    | split
    | intro _
    | (refine Within.lit ?_ (by intro q hq; cases q <;> first | exact rfl | exact ⟨HubPart.same_refl _ _, HubPart.same_refl _ _⟩ | exact (no_mask hmsk rfl hq).elim)))

theorem State.commitWord_touches {msk : Nat} {s₀ : State} (s : State) (e : Nat) (c : CommitEntry) (block : Nat) (w : W32) (bad : Bool) (hmsk : 237684489921279083983812984832 &&& msk = 237684489921279083983812984832) (hk : Within msk s₀ s)  :
    Within msk s₀ (State.commitWord s e c block w bad).1 := by
  unfold State.commitWord
  try dsimp only
  repeat' (first
    | with_reducible assumption
    | exact sub_mask hmsk rfl
    | with_reducible apply State.poisonBlock_touches
    | with_reducible apply State.writeTag_touches
    | refine State.writeTag_touchesOf (sub_mask hmsk rfl) (by assumption) ?_
    | with_reducible apply State.reportCommit_touches
    | with_reducible apply State.countTag_touches
    | with_reducible apply State.dropWaiting_touches
    | split
    | intro _
    | (refine Within.lit ?_ (by intro q hq; cases q <;> first | exact rfl | exact ⟨HubPart.same_refl _ _, HubPart.same_refl _ _⟩ | exact (no_mask hmsk rfl hq).elim)))

theorem State.commitWord_touchesOf {msk : Nat} {s₀ : State} {s : State} (e : Nat) (c : CommitEntry) (block : Nat) (w : W32) (bad : Bool) {t : State} {rest}
    (hmsk : 237684489921279083983812984832 &&& msk = 237684489921279083983812984832) (heq : State.commitWord s e c block w bad = (t, rest)) (hk : Within msk s₀ s) : Within msk s₀ t := by
  have key := State.commitWord_touches s e c block w bad hmsk hk
  rw [heq] at key
  exact key

theorem State.commitGo_touches {msk : Nat} {s₀ : State} (e key n : Nat) (s : State) (hmsk : 237684489921279083983812984832 &&& msk = 237684489921279083983812984832) 
    (hk : Within msk s₀ s) : Within msk s₀ (State.commitGo e key n s) := by
  induction n generalizing s with
  | zero => exact hk
  | succ n ih =>
    unfold State.commitGo
    try dsimp only
    repeat' (first
      | with_reducible assumption
      | exact sub_mask hmsk rfl
      | with_reducible apply ih
      | with_reducible apply State.modCommit_touches
      | with_reducible apply State.commitWord_touches
      | with_reducible apply State.sideIssue_touches
      | with_reducible apply State.poisonBlock_touches
      | refine State.commitWord_touchesOf (sub_mask hmsk rfl) (by assumption) ?_
      | refine State.sideIssue_touchesOf (sub_mask hmsk rfl) (by assumption) ?_
      | split
      | intro _)

theorem State.commitNext_touches {msk : Nat} {s₀ : State} (s : State) (e key : Nat) (hmsk : 237684489921279083983812984832 &&& msk = 237684489921279083983812984832) (hk : Within msk s₀ s)  :
    Within msk s₀ (State.commitNext s e key) := by
  unfold State.commitNext
  try dsimp only
  repeat' (first
    | with_reducible assumption
    | exact sub_mask hmsk rfl
    | with_reducible apply State.commitGo_touches
    | split
    | intro _
    | (refine Within.lit ?_ (by intro q hq; cases q <;> first | exact rfl | exact ⟨HubPart.same_refl _ _, HubPart.same_refl _ _⟩ | exact (no_mask hmsk rfl hq).elim)))

theorem State.commitBlock_touches {msk : Nat} {s₀ : State} (s : State) (e key block i : Nat) (hmsk : 238922429960564464258712109056 &&& msk = 238922429960564464258712109056) (hk : Within msk s₀ s)  :
    Within msk s₀ (State.commitBlock s e key block i) := by
  unfold State.commitBlock
  try dsimp only
  repeat' (first
    | with_reducible assumption
    | exact sub_mask hmsk rfl
    | with_reducible apply State.each_touches
    | with_reducible apply State.setStream_touches
    | with_reducible apply State.modCommit_touches
    | with_reducible apply State.releaseBlock_touches
    | with_reducible apply State.modEngine_touches
    | split
    | intro _
    | (refine Within.lit ?_ (by intro q hq; cases q <;> first | exact rfl | exact ⟨HubPart.same_refl _ _, HubPart.same_refl _ _⟩ | exact (no_mask hmsk rfl hq).elim)))

theorem State.commitEffect_touches {msk : Nat} {s₀ : State} (s : State) (e : Nat) (c : CommitEntry) (hmsk : 238922429960564464258712109056 &&& msk = 238922429960564464258712109056) (hk : Within msk s₀ s)  :
    Within msk s₀ (State.commitEffect s e c) := by
  unfold State.commitEffect
  try dsimp only
  repeat' (first
    | with_reducible assumption
    | exact sub_mask hmsk rfl
    | with_reducible apply State.modEngine_touches
    | with_reducible apply State.each_touches
    | with_reducible apply State.commitBlock_touches
    | with_reducible apply State.commitNext_touches
    | split
    | intro _
    | (refine Within.lit ?_ (by intro q hq; cases q <;> first | exact rfl | exact ⟨HubPart.same_refl _ _, HubPart.same_refl _ _⟩ | exact (no_mask hmsk rfl hq).elim)))

theorem State.takeCommit_touches {msk : Nat} {s₀ : State} (s : State) (e : Nat) (c : CommitEntry) (hmsk : 238922429960564464258712109056 &&& msk = 238922429960564464258712109056) (hk : Within msk s₀ s)  :
    Within msk s₀ (State.takeCommit s e c) := by
  unfold State.takeCommit
  try dsimp only
  repeat' (first
    | with_reducible assumption
    | exact sub_mask hmsk rfl
    | with_reducible apply State.commitEffect_touches
    | with_reducible apply State.countTag_touches
    | with_reducible apply State.modEngine_touches
    | split
    | intro _
    | (refine Within.lit ?_ (by intro q hq; cases q <;> first | exact rfl | exact ⟨HubPart.same_refl _ _, HubPart.same_refl _ _⟩ | exact (no_mask hmsk rfl hq).elim)))

theorem State.poisonRange_touches {msk : Nat} {s₀ : State} (s : State) (e a count : Nat) (job : Job) (hmsk : 237684489921279083983812984832 &&& msk = 237684489921279083983812984832) (hk : Within msk s₀ s)  :
    Within msk s₀ (State.poisonRange s e a count job) := by
  unfold State.poisonRange
  try dsimp only
  repeat' (first
    | with_reducible assumption
    | exact sub_mask hmsk rfl
    | with_reducible apply State.each_touches
    | with_reducible apply State.poisonBlock_touches
    | with_reducible apply State.modOn_touches
    | split
    | intro _
    | (refine Within.lit ?_ (by intro q hq; cases q <;> first | exact rfl | exact ⟨HubPart.same_refl _ _, HubPart.same_refl _ _⟩ | exact (no_mask hmsk rfl hq).elim)))

theorem State.commitPast_touches {msk : Nat} {s₀ : State} (s : State) (e key : Nat) (hmsk : 237684489921279083983812984832 &&& msk = 237684489921279083983812984832) (hk : Within msk s₀ s)  :
    Within msk s₀ (State.commitPast s e key) := by
  unfold State.commitPast
  try dsimp only
  repeat' (first
    | with_reducible assumption
    | exact sub_mask hmsk rfl
    | with_reducible apply State.modCommit_touches
    | with_reducible apply State.commitNext_touches
    | split
    | intro _
    | (refine Within.lit ?_ (by intro q hq; cases q <;> first | exact rfl | exact ⟨HubPart.same_refl _ _, HubPart.same_refl _ _⟩ | exact (no_mask hmsk rfl hq).elim)))

theorem State.commitRead_touches {msk : Nat} {s₀ : State} (s : State) (e key block : Nat) (w : W32) (bad : Bool) (hmsk : 237684489921279083983812984832 &&& msk = 237684489921279083983812984832) (hk : Within msk s₀ s)  :
    Within msk s₀ (State.commitRead s e key block w bad) := by
  unfold State.commitRead
  try dsimp only
  repeat' (first
    | with_reducible assumption
    | exact sub_mask hmsk rfl
    | with_reducible apply State.commitPast_touches
    | with_reducible apply State.commitWord_touches
    | refine State.commitWord_touchesOf (sub_mask hmsk rfl) (by assumption) ?_
    | split
    | intro _
    | (refine Within.lit ?_ (by intro q hq; cases q <;> first | exact rfl | exact ⟨HubPart.same_refl _ _, HubPart.same_refl _ _⟩ | exact (no_mask hmsk rfl hq).elim)))

theorem State.sideDone_touches {msk : Nat} {s₀ : State} (s : State) (e : Nat) (r : SideReq) (w : W32) (bad late : Bool) (hmsk : 238922429960564464258712109056 &&& msk = 238922429960564464258712109056) (hk : Within msk s₀ s)  :
    Within msk s₀ (State.sideDone s e r w bad late) := by
  unfold State.sideDone
  try dsimp only
  repeat' (first
    | with_reducible assumption
    | exact sub_mask hmsk rfl
    | with_reducible apply State.readWord_touches
    | with_reducible apply State.finishPart_touches
    | with_reducible apply State.poisonBlock_touches
    | with_reducible apply State.commitRead_touches
    | with_reducible apply State.commitPast_touches
    | split
    | intro _
    | (refine Within.lit ?_ (by intro q hq; cases q <;> first | exact rfl | exact ⟨HubPart.same_refl _ _, HubPart.same_refl _ _⟩ | exact (no_mask hmsk rfl hq).elim)))

theorem State.issueWaiting_touches {msk : Nat} {s₀ : State} (s : State) (e : Nat) (hmsk : 4620693217682128896 &&& msk = 4620693217682128896) (hk : Within msk s₀ s)  :
    Within msk s₀ (State.issueWaiting s e) := by
  unfold State.issueWaiting
  try dsimp only
  repeat' (first
    | with_reducible assumption
    | exact sub_mask hmsk rfl
    | with_reducible apply State.modEngine_touches
    | with_reducible apply State.sideIssue_touches
    | refine State.sideIssue_touchesOf (sub_mask hmsk rfl) (by assumption) ?_
    | split
    | intro _
    | (refine Within.lit ?_ (by intro q hq; cases q <;> first | exact rfl | exact ⟨HubPart.same_refl _ _, HubPart.same_refl _ _⟩ | exact (no_mask hmsk rfl hq).elim)))

theorem State.destUse_touches {msk : Nat} {s₀ : State} (s : State) (e : Nat) (g : Option Region124) (src : Option Nat) (bad : Bool) (u : SrcUse) (hmsk : 4620693217682128896 &&& msk = 4620693217682128896) (hk : Within msk s₀ s)  :
    Within msk s₀ (State.destUse s e g src bad u) := by
  unfold State.destUse
  try dsimp only
  repeat' (first
    | with_reducible assumption
    | exact sub_mask hmsk rfl
    | with_reducible apply State.countTag_touches
    | with_reducible apply State.modEngine_touches
    | with_reducible apply State.present_touches
    | split
    | intro _
    | (refine Within.lit ?_ (by intro q hq; cases q <;> first | exact rfl | exact ⟨HubPart.same_refl _ _, HubPart.same_refl _ _⟩ | exact (no_mask hmsk rfl hq).elim)))

theorem State.packetUse_touches {msk : Nat} {s₀ : State} (s : State) (e : Nat) (g : Option Region124) (src : Option Nat) (bad : Bool) (u : SrcUse) (hmsk : 4611686018427387904 &&& msk = 4611686018427387904) (hk : Within msk s₀ s)  :
    Within msk s₀ (State.packetUse s e g src bad u) := by
  unfold State.packetUse
  try dsimp only
  repeat' (first
    | with_reducible assumption
    | exact sub_mask hmsk rfl
    | with_reducible apply State.modEngine_touches
    | split
    | intro _
    | (refine Within.lit ?_ (by intro q hq; cases q <;> first | exact rfl | exact ⟨HubPart.same_refl _ _, HubPart.same_refl _ _⟩ | exact (no_mask hmsk rfl hq).elim)))

theorem State.addRows_touches {msk : Nat} {s₀ : State} (s : State) (e : Nat) (job : Job) (round : BitVec 16) (n : Nat) (hmsk : 2305843009213693952 &&& msk = 2305843009213693952) (hk : Within msk s₀ s)  :
    Within msk s₀ (State.addRows s e job round n) := by
  unfold State.addRows
  try dsimp only
  repeat' (first
    | with_reducible assumption
    | exact sub_mask hmsk rfl
    | with_reducible apply State.modConc_touches
    | split
    | intro _
    | (refine Within.lit ?_ (by intro q hq; cases q <;> first | exact rfl | exact ⟨HubPart.same_refl _ _, HubPart.same_refl _ _⟩ | exact (no_mask hmsk rfl hq).elim)))

theorem State.poisonOwned_touches {msk : Nat} {s₀ : State} (s : State) (l : List Addr) (job : Job) (hmsk : 237684489921279083983812984832 &&& msk = 237684489921279083983812984832) (hk : Within msk s₀ s)  :
    Within msk s₀ (State.poisonOwned s l job) := by
  unfold State.poisonOwned
  try dsimp only
  repeat' (first
    | with_reducible assumption
    | exact sub_mask hmsk rfl
    | with_reducible apply State.each_touches
    | with_reducible apply State.poisonBlock_touches
    | split
    | intro _
    | (refine Within.lit ?_ (by intro q hq; cases q <;> first | exact rfl | exact ⟨HubPart.same_refl _ _, HubPart.same_refl _ _⟩ | exact (no_mask hmsk rfl hq).elim)))

theorem State.closeSender_touches {msk : Nat} {s₀ : State} (s : State) (e : Nat) (job : Job) (round : BitVec 16) (hmsk : 17293822569102737408 &&& msk = 17293822569102737408) (hk : Within msk s₀ s)  :
    Within msk s₀ (State.closeSender s e job round) := by
  unfold State.closeSender
  try dsimp only
  repeat' (first
    | with_reducible assumption
    | exact sub_mask hmsk rfl
    | with_reducible apply State.modConc_touches
    | with_reducible apply State.emit_touches
    | split
    | intro _
    | (refine Within.lit ?_ (by intro q hq; cases q <;> first | exact rfl | exact ⟨HubPart.same_refl _ _, HubPart.same_refl _ _⟩ | exact (no_mask hmsk rfl hq).elim)))

theorem State.ledgerWrite_touches {msk : Nat} {s₀ : State} (s : State) (block d : Nat) (job : Job) (hmsk : 258731888440769777915447508992 &&& msk = 258731888440769777915447508992) (hk : Within msk s₀ s)  :
    Within msk s₀ (State.ledgerWrite s block d job) := by
  unfold State.ledgerWrite
  try dsimp only
  repeat' (first
    | with_reducible assumption
    | exact sub_mask hmsk rfl
    | with_reducible apply State.countTag_touches
    | with_reducible apply State.tagReport_touches
    | with_reducible apply State.storeTag_touches
    | split
    | intro _
    | (refine Within.lit ?_ (by intro q hq; cases q <;> first | exact rfl | exact ⟨HubPart.same_refl _ _, HubPart.same_refl _ _⟩ | exact (no_mask hmsk rfl hq).elim)))

theorem State.closeReceiver_touches {msk : Nat} {s₀ : State} (s : State) (e : Nat) (job : Job) (round : BitVec 16) (hmsk : 238922429960564464258712109056 &&& msk = 238922429960564464258712109056) (hk : Within msk s₀ s)  :
    Within msk s₀ (State.closeReceiver s e job round) := by
  unfold State.closeReceiver
  try dsimp only
  repeat' (first
    | with_reducible assumption
    | exact sub_mask hmsk rfl
    | with_reducible apply State.modEngine_touches
    | with_reducible apply State.tagReport_touches
    | with_reducible apply State.poisonOwned_touches
    | with_reducible apply State.each_touches
    | with_reducible apply State.takeCommit_touches
    | split
    | intro _
    | (refine Within.lit ?_ (by intro q hq; cases q <;> first | exact rfl | exact ⟨HubPart.same_refl _ _, HubPart.same_refl _ _⟩ | exact (no_mask hmsk rfl hq).elim)))

theorem State.modRound_touches {msk : Nat} {s₀ : State} (s : State) (e : Nat) (job : Job) (round : BitVec 16) (f : RecvRound → RecvRound) (hmsk : 4611686018427387904 &&& msk = 4611686018427387904) (hk : Within msk s₀ s)  :
    Within msk s₀ (State.modRound s e job round f) := by
  unfold State.modRound
  try dsimp only
  repeat' (first
    | with_reducible assumption
    | exact sub_mask hmsk rfl
    | with_reducible apply State.modEngine_touches
    | split
    | intro _
    | (refine Within.lit ?_ (by intro q hq; cases q <;> first | exact rfl | exact ⟨HubPart.same_refl _ _, HubPart.same_refl _ _⟩ | exact (no_mask hmsk rfl hq).elim)))

theorem State.packetFails_touches {msk : Nat} {s₀ : State} (s : State) (e : Nat) (p : DispatchPacket) (kind : Option Byte) (blocks : List Addr) (hmsk : 237684489921279083983812984832 &&& msk = 237684489921279083983812984832) (hk : Within msk s₀ s)  :
    Within msk s₀ (State.packetFails s e p kind blocks) := by
  unfold State.packetFails
  try dsimp only
  repeat' (first
    | with_reducible assumption
    | exact sub_mask hmsk rfl
    | with_reducible apply State.mismatch_touches
    | with_reducible apply State.tagReport_touches
    | with_reducible apply State.modRound_touches
    | with_reducible apply State.poisonOwned_touches
    | split
    | intro _
    | (refine Within.lit ?_ (by intro q hq; cases q <;> first | exact rfl | exact ⟨HubPart.same_refl _ _, HubPart.same_refl _ _⟩ | exact (no_mask hmsk rfl hq).elim)))

theorem State.layPacket_touches {msk : Nat} {s₀ : State} (s : State) (p : DispatchPacket) (poisoned : List Addr) (laid : List (Nat × Nat × Nat)) (hmsk : 258731888440769777915447508992 &&& msk = 258731888440769777915447508992) (hk : Within msk s₀ s)  :
    Within msk s₀ (State.layPacket s p poisoned laid) := by
  unfold State.layPacket
  try dsimp only
  repeat' (first
    | with_reducible assumption
    | exact sub_mask hmsk rfl
    | with_reducible apply State.each_touches
    | with_reducible apply State.ledgerWrite_touches
    | split
    | intro _
    | (refine Within.lit ?_ (by intro q hq; cases q <;> first | exact rfl | exact ⟨HubPart.same_refl _ _, HubPart.same_refl _ _⟩ | exact (no_mask hmsk rfl hq).elim)))

end Sys2Proof.Machine
end

