-- ==== Sys2Proof/Laws/TouchesSteps.lean ====
section
/-! SUPPORT. What every operation of Machine/Steps.lean may touch. -/

namespace Sys2Proof.Machine

open Sys2Proof

theorem State.loseSync_touches {msk : Nat} {s₀ : State} (s : State) (hmsk : 604462909807314587353088 &&& msk = 604462909807314587353088) (hk : Within msk s₀ s)  :
    Within msk s₀ (State.loseSync s) := by
  unfold State.loseSync
  try dsimp only
  repeat' (first
    | with_reducible assumption
    | exact sub_mask hmsk rfl
    | split
    | intro _
    | (refine Within.lit ?_ (by intro q hq; cases q <;> first | exact rfl | exact ⟨HubPart.same_refl _ _, HubPart.same_refl _ _⟩ | exact (no_mask hmsk rfl hq).elim)))

theorem State.refuseWord_touches {msk : Nat} {s₀ : State} (s : State) (hmsk : 2361183241434822606848 &&& msk = 2361183241434822606848) (hk : Within msk s₀ s)  :
    Within msk s₀ (State.refuseWord s) := by
  unfold State.refuseWord
  try dsimp only
  repeat' (first
    | with_reducible assumption
    | exact sub_mask hmsk rfl
    | split
    | intro _
    | (refine Within.lit ?_ (by intro q hq; cases q <;> first | exact rfl | exact ⟨HubPart.same_refl _ _, HubPart.same_refl _ _⟩ | exact (no_mask hmsk rfl hq).elim)))

theorem State.clearChoices_touches {msk : Nat} {s₀ : State} (s : State) (job : Job) (hmsk : 1152921504606846976 &&& msk = 1152921504606846976) (hk : Within msk s₀ s)  :
    Within msk s₀ (State.clearChoices s job) := by
  unfold State.clearChoices
  try dsimp only
  repeat' (first
    | with_reducible assumption
    | exact sub_mask hmsk rfl
    | with_reducible apply State.each_touches
    | with_reducible apply State.modAgent_touches
    | split
    | intro _
    | (refine Within.lit ?_ (by intro q hq; cases q <;> first | exact rfl | exact ⟨HubPart.same_refl _ _, HubPart.same_refl _ _⟩ | exact (no_mask hmsk rfl hq).elim)))

theorem State.slateMismatch_touches {msk : Nat} {s₀ : State} (s : State) (n p reason : Nat) (step peerStep : W64) (hmsk : 2035470922129392165453949030139 &&& msk = 2035470922129392165453949030139) (hk : Within msk s₀ s)  :
    Within msk s₀ (State.slateMismatch s n p reason step peerStep) := by
  unfold State.slateMismatch
  try dsimp only
  repeat' (first
    | with_reducible assumption
    | exact sub_mask hmsk rfl
    | with_reducible apply State.modJob_touches
    | with_reducible apply State.eachHub_touches
    | with_reducible apply State.note_touches
    | split
    | intro _
    | (refine Within.lit ?_ (by intro q hq; cases q <;> first | exact rfl | exact ⟨HubPart.same_refl _ _, HubPart.same_refl _ _⟩ | exact (no_mask hmsk rfl hq).elim)))

theorem State.onBeacon_touches {msk : Nat} {s₀ : State} (s : State) (n p : Nat) (slate step : W64) (hmsk : 2035470922129392165453949030139 &&& msk = 2035470922129392165453949030139) (hk : Within msk s₀ s)  :
    Within msk s₀ (State.onBeacon s n p slate step) := by
  unfold State.onBeacon
  try dsimp only
  repeat' (first
    | with_reducible assumption
    | exact sub_mask hmsk rfl
    | with_reducible apply State.slateMismatch_touches
    | with_reducible apply State.modJob_touches
    | with_reducible apply State.modPort_touches
    | split
    | intro _
    | (refine Within.lit ?_ (by intro q hq; cases q <;> first | exact rfl | exact ⟨HubPart.same_refl _ _, HubPart.same_refl _ _⟩ | exact (no_mask hmsk rfl hq).elim)))

theorem State.judgeSlate_touches {msk : Nat} {s₀ : State} (s : State) (p : Nat) (slate step : W64) (hmsk : 2035470922129392165453949030139 &&& msk = 2035470922129392165453949030139) (hk : Within msk s₀ s)  :
    Within msk s₀ (State.judgeSlate s p slate step) := by
  unfold State.judgeSlate
  try dsimp only
  repeat' (first
    | with_reducible assumption
    | exact sub_mask hmsk rfl
    | with_reducible apply State.each_touches
    | with_reducible apply State.onBeacon_touches
    | split
    | intro _
    | (refine Within.lit ?_ (by intro q hq; cases q <;> first | exact rfl | exact ⟨HubPart.same_refl _ _, HubPart.same_refl _ _⟩ | exact (no_mask hmsk rfl hq).elim)))

theorem State.pulseUnits_touches {msk : Nat} {s₀ : State} (s : State) (job : Job) (step : W64) (hmsk : 3458764513820540928 &&& msk = 3458764513820540928) (hk : Within msk s₀ s)  :
    Within msk s₀ (State.pulseUnits s job step) := by
  unfold State.pulseUnits
  try dsimp only
  repeat' (first
    | with_reducible assumption
    | exact sub_mask hmsk rfl
    | with_reducible apply State.each_touches
    | with_reducible apply State.modAgent_touches
    | with_reducible apply State.modConc_touches
    | with_reducible apply State.modEnvelopes_touches
    | split
    | intro _
    | (refine Within.lit ?_ (by intro q hq; cases q <;> first | exact rfl | exact ⟨HubPart.same_refl _ _, HubPart.same_refl _ _⟩ | exact (no_mask hmsk rfl hq).elim)))

theorem State.judgeHeld_touches {msk : Nat} {s₀ : State} (s : State) (n p : Nat) (hmsk : 2035470922129392165453949030139 &&& msk = 2035470922129392165453949030139) (hk : Within msk s₀ s)  :
    Within msk s₀ (State.judgeHeld s n p) := by
  unfold State.judgeHeld
  try dsimp only
  repeat' (first
    | with_reducible assumption
    | exact sub_mask hmsk rfl
    | with_reducible apply State.onBeacon_touches
    | split
    | intro _
    | (refine Within.lit ?_ (by intro q hq; cases q <;> first | exact rfl | exact ⟨HubPart.same_refl _ _, HubPart.same_refl _ _⟩ | exact (no_mask hmsk rfl hq).elim)))

theorem State.launchPulse_touches {msk : Nat} {s₀ : State} (s : State) (n : Nat) (count : W64) (mask : BitVec 16) (hmsk : 2035470922129392165453949030139 &&& msk = 2035470922129392165453949030139) (hk : Within msk s₀ s)  :
    Within msk s₀ (State.launchPulse s n count mask) := by
  unfold State.launchPulse
  try dsimp only
  repeat' (first
    | with_reducible assumption
    | exact sub_mask hmsk rfl
    | with_reducible apply State.modJob_touches
    | with_reducible apply State.pulseUnits_touches
    | with_reducible apply State.present_touches
    | with_reducible apply State.each_touches
    | with_reducible apply State.sendBeacon_touches
    | with_reducible apply State.judgeHeld_touches
    | with_reducible apply State.dropHeld_touches
    | split
    | intro _
    | (refine Within.lit ?_ (by intro q hq; cases q <;> first | exact rfl | exact ⟨HubPart.same_refl _ _, HubPart.same_refl _ _⟩ | exact (no_mask hmsk rfl hq).elim)))

theorem State.stepElements_touches {msk : Nat} {s₀ : State} (s : State) (n : Nat) (o : OpenStep) (hmsk : 237684489903976254215455506432 &&& msk = 237684489903976254215455506432) (hk : Within msk s₀ s)  :
    Within msk s₀ (State.stepElements s n o) := by
  unfold State.stepElements
  try dsimp only
  repeat' (first
    | with_reducible assumption
    | exact sub_mask hmsk rfl
    | with_reducible apply State.each_touches
    | with_reducible apply State.modStream_touches
    | with_reducible apply State.finishSign_touches
    | split
    | intro _
    | (refine Within.lit ?_ (by intro q hq; cases q <;> first | exact rfl | exact ⟨HubPart.same_refl _ _, HubPart.same_refl _ _⟩ | exact (no_mask hmsk rfl hq).elim)))

theorem State.diverge_touches {msk : Nat} {s₀ : State} (s : State) (step : W64) (live rec_ : List InlogEntry) (byTcc : Bool) (hmsk : 39614081257132168796773023744 &&& msk = 39614081257132168796773023744) (hk : Within msk s₀ s)  :
    Within msk s₀ (State.diverge s step live rec_ byTcc) := by
  unfold State.diverge
  try dsimp only
  repeat' (first
    | with_reducible assumption
    | exact sub_mask hmsk rfl
    | with_reducible apply State.modHubs_touches
    | with_reducible exact HubWithin.refl _ _
    | split
    | intro (_ : Hub)
    | (refine ⟨?_⟩; intro q hq; cases q <;> first | exact rfl | exact (no_mask hmsk rfl hq).elim)
    | (refine HubWithin.lit ?_ (by intro q hq; cases q <;> first | exact rfl | exact (no_mask hmsk rfl hq).elim))
    | intro _
    | (refine Within.lit ?_ (by intro q hq; cases q <;> first | exact rfl | exact ⟨HubPart.same_refl _ _, HubPart.same_refl _ _⟩ | exact (no_mask hmsk rfl hq).elim)))

theorem State.replayStep_touches {msk : Nat} {s₀ : State} (s : State) (n : Nat) (o : OpenStep) (before after : W64) (hmsk : 39614081257132168796773023744 &&& msk = 39614081257132168796773023744) (hk : Within msk s₀ s)  :
    Within msk s₀ (State.replayStep s n o before after) := by
  unfold State.replayStep
  try dsimp only
  repeat' (first
    | with_reducible assumption
    | exact sub_mask hmsk rfl
    | with_reducible apply State.diverge_touches
    | split
    | intro _
    | (refine Within.lit ?_ (by intro q hq; cases q <;> first | exact rfl | exact ⟨HubPart.same_refl _ _, HubPart.same_refl _ _⟩ | exact (no_mask hmsk rfl hq).elim)))

theorem State.openGateAct_touches {msk : Nat} {s₀ : State} (s : State) (n : Nat) (o : OpenStep) (hmsk : 1544951589277870541914699202561 &&& msk = 1544951589277870541914699202561) (hk : Within msk s₀ s)  :
    Within msk s₀ (State.openGateAct s n o) := by
  unfold State.openGateAct
  try dsimp only
  repeat' (first
    | with_reducible assumption
    | exact sub_mask hmsk rfl
    | with_reducible apply State.modJob_touches
    | with_reducible apply State.stepElements_touches
    | with_reducible apply State.replayStep_touches
    | with_reducible apply State.endQuiesce_touches
    | split
    | intro _
    | (refine Within.lit ?_ (by intro q hq; cases q <;> first | exact rfl | exact ⟨HubPart.same_refl _ _, HubPart.same_refl _ _⟩ | exact (no_mask hmsk rfl hq).elim)))

end Sys2Proof.Machine
end

