-- ==== Sys2Proof/Laws/TouchesStages.lean ====
section
/-! SUPPORT. What every operation of Machine/Stages.lean may touch. -/

namespace Sys2Proof.Machine

open Sys2Proof

theorem State.beginStage_touches {msk : Nat} {s₀ : State} (s : State) (n : Nat) (hmsk : 146393369976158256365568 &&& msk = 146393369976158256365568) (hk : Within msk s₀ s)  :
    Within msk s₀ (State.beginStage s n) := by
  unfold State.beginStage
  try dsimp only
  repeat' (first
    | with_reducible assumption
    | exact sub_mask hmsk rfl
    | with_reducible apply State.present_touches
    | split
    | intro _
    | (refine Within.lit ?_ (by intro q hq; cases q <;> first | exact rfl | exact ⟨HubPart.same_refl _ _, HubPart.same_refl _ _⟩ | exact (no_mask hmsk rfl hq).elim)))

theorem State.passStage_touches {msk : Nat} {s₀ : State} (s : State) (cause good bad : Nat) (hmsk : 146393369976158256365568 &&& msk = 146393369976158256365568) (hk : Within msk s₀ s)  :
    Within msk s₀ (State.passStage s cause good bad) := by
  unfold State.passStage
  try dsimp only
  repeat' (first
    | with_reducible assumption
    | exact sub_mask hmsk rfl
    | with_reducible apply State.beginStage_touches
    | split
    | intro _
    | (refine Within.lit ?_ (by intro q hq; cases q <;> first | exact rfl | exact ⟨HubPart.same_refl _ _, HubPart.same_refl _ _⟩ | exact (no_mask hmsk rfl hq).elim)))

theorem State.endStage_touches {msk : Nat} {s₀ : State} (s : State) (r : StageEnd) (hmsk : 1267650748982782619089800040161 &&& msk = 1267650748982782619089800040161) 
    (hk : Within msk s₀ s) : Within msk s₀ (State.endStage s r) := by
  cases r
  · exact State.passStage_touches s _ _ _ (sub_mask hmsk rfl) hk
  · exact State.failStage_touches s _ _ _ _ none (sub_mask hmsk rfl) hk
  · exact hk

theorem State.runStage_touches {msk : Nat} {s₀ : State} (s : State) (n us : Nat) (work : State → State × StageEnd) (hmsk : 1267651353445710440802896875233 &&& msk = 1267651353445710440802896875233) (hk : Within msk s₀ s) (hw : ∀ t, Within msk s₀ t → Within msk s₀ (work t).1) :
    Within msk s₀ (State.runStage s n us work) := by
  unfold State.runStage
  try dsimp only
  repeat' (first
    | with_reducible assumption
    | exact sub_mask hmsk rfl
    | with_reducible apply hw
    | with_reducible apply State.advanceTo_touches
    | with_reducible apply State.breakStage_touches
    | with_reducible apply State.endStage_touches
    | split
    | intro _
    | (refine Within.lit ?_ (by intro q hq; cases q <;> first | exact rfl | exact ⟨HubPart.same_refl _ _, HubPart.same_refl _ _⟩ | exact (no_mask hmsk rfl hq).elim)))

end Sys2Proof.Machine
end

