-- ==== Sys2Proof/Laws/TouchesBeacons.lean ====
section
/-! SUPPORT. What every operation of Machine/Beacons.lean may touch. -/

namespace Sys2Proof.Machine

open Sys2Proof

theorem State.recordPort_touches {msk : Nat} {s₀ : State} (s : State) (p result entry : Nat) (hmsk : 2035470922129392165453949030139 &&& msk = 2035470922129392165453949030139) (hk : Within msk s₀ s)  :
    Within msk s₀ (State.recordPort s p result entry) := by
  unfold State.recordPort
  try dsimp only
  repeat' (first
    | with_reducible assumption
    | exact sub_mask hmsk rfl
    | with_reducible apply State.eachHub_touches
    | with_reducible apply State.note_touches
    | split
    | intro _
    | (refine Within.lit ?_ (by intro q hq; cases q <;> first | exact rfl | exact ⟨HubPart.same_refl _ _, HubPart.same_refl _ _⟩ | exact (no_mask hmsk rfl hq).elim)))

theorem State.setResult_touches {msk : Nat} {s₀ : State} (s : State) (p result : Nat) (e : Option Rec) (admitted : Bool) (hmsk : 2035470922129392165453949030139 &&& msk = 2035470922129392165453949030139) (hk : Within msk s₀ s)  :
    Within msk s₀ (State.setResult s p result e admitted) := by
  unfold State.setResult
  try dsimp only
  repeat' (first
    | with_reducible assumption
    | exact sub_mask hmsk rfl
    | with_reducible apply State.modPort_touches
    | with_reducible apply State.recordPort_touches
    | split
    | intro _
    | (refine Within.lit ?_ (by intro q hq; cases q <;> first | exact rfl | exact ⟨HubPart.same_refl _ _, HubPart.same_refl _ _⟩ | exact (no_mask hmsk rfl hq).elim)))

theorem State.resolvePort_touches {msk : Nat} {s₀ : State} (s : State) (p : Nat) (b : Beacon) (hmsk : 2035470922129392165453949030139 &&& msk = 2035470922129392165453949030139) (hk : Within msk s₀ s)  :
    Within msk s₀ (State.resolvePort s p b) := by
  unfold State.resolvePort
  try dsimp only
  repeat' (first
    | with_reducible assumption
    | exact sub_mask hmsk rfl
    | with_reducible apply State.modPort_touches
    | with_reducible apply State.relax_touches
    | with_reducible apply State.setResult_touches
    | split
    | intro _
    | (refine Within.lit ?_ (by intro q hq; cases q <;> first | exact rfl | exact ⟨HubPart.same_refl _ _, HubPart.same_refl _ _⟩ | exact (no_mask hmsk rfl hq).elim)))

theorem State.admitPort_touches {msk : Nat} {s₀ : State} (s : State) (p : Nat) (hmsk : 2035470922129392165453949030139 &&& msk = 2035470922129392165453949030139) (hk : Within msk s₀ s)  :
    Within msk s₀ (State.admitPort s p) := by
  unfold State.admitPort
  try dsimp only
  repeat' (first
    | with_reducible assumption
    | exact sub_mask hmsk rfl
    | with_reducible apply State.setResult_touches
    | split
    | intro _
    | (refine Within.lit ?_ (by intro q hq; cases q <;> first | exact rfl | exact ⟨HubPart.same_refl _ _, HubPart.same_refl _ _⟩ | exact (no_mask hmsk rfl hq).elim)))

theorem State.goodBeacon_touches {msk : Nat} {s₀ : State} (s : State) (p : Nat) (frame : List Byte) (b : Beacon) (hmsk : 2035470922129392165453949030139 &&& msk = 2035470922129392165453949030139) (hk : Within msk s₀ s)  :
    Within msk s₀ (State.goodBeacon s p frame b) := by
  unfold State.goodBeacon
  try dsimp only
  repeat' (first
    | with_reducible assumption
    | exact sub_mask hmsk rfl
    | with_reducible apply State.modPort_touches
    | with_reducible apply State.resolvePort_touches
    | with_reducible apply State.judgeSlate_touches
    | split
    | intro _
    | (refine Within.lit ?_ (by intro q hq; cases q <;> first | exact rfl | exact ⟨HubPart.same_refl _ _, HubPart.same_refl _ _⟩ | exact (no_mask hmsk rfl hq).elim)))

theorem State.endDiscovery_touches {msk : Nat} {s₀ : State} (s : State) (hmsk : 1267650748982782619089800040161 &&& msk = 1267650748982782619089800040161) (hk : Within msk s₀ s)  :
    Within msk s₀ (State.endDiscovery s) := by
  unfold State.endDiscovery
  try dsimp only
  repeat' (first
    | with_reducible assumption
    | exact sub_mask hmsk rfl
    | with_reducible apply State.endStage_touches
    | split
    | intro _
    | (refine Within.lit ?_ (by intro q hq; cases q <;> first | exact rfl | exact ⟨HubPart.same_refl _ _, HubPart.same_refl _ _⟩ | exact (no_mask hmsk rfl hq).elim)))

theorem State.windowEnd_touches {msk : Nat} {s₀ : State} (s : State) (hmsk : 2035471573815984815863498002171 &&& msk = 2035471573815984815863498002171) (hk : Within msk s₀ s)  :
    Within msk s₀ (State.windowEnd s) := by
  unfold State.windowEnd
  try dsimp only
  repeat' (first
    | with_reducible assumption
    | exact sub_mask hmsk rfl
    | with_reducible apply State.advanceTo_touches
    | with_reducible apply State.each_touches
    | with_reducible apply State.setResult_touches
    | with_reducible apply State.endStage_touches
    | split
    | intro _
    | (refine Within.lit ?_ (by intro q hq; cases q <;> first | exact rfl | exact ⟨HubPart.same_refl _ _, HubPart.same_refl _ _⟩ | exact (no_mask hmsk rfl hq).elim)))

end Sys2Proof.Machine
end

