-- ==== Sys2Proof/Laws/TouchesHousekeeping.lean ====
section
/-! SUPPORT. What every operation of Machine/Housekeeping.lean may touch. -/

namespace Sys2Proof.Machine

open Sys2Proof

theorem State.modChan_touches {msk : Nat} {s₀ : State} (s : State) (h : HubId) (c : Nat) (f : Channel → Channel) (hmsk : 8388608 &&& msk = 8388608) (hk : Within msk s₀ s)  :
    Within msk s₀ (State.modChan s h c f) := by
  unfold State.modChan
  try dsimp only
  repeat' (first
    | with_reducible assumption
    | exact sub_mask hmsk rfl
    | with_reducible apply State.modHub_touches
    | with_reducible exact HubWithin.refl _ _
    | split
    | intro (_ : Hub)
    | (refine ⟨?_⟩; intro q hq; cases q <;> first | exact rfl | exact (no_mask hmsk rfl hq).elim)
    | (refine HubWithin.lit ?_ (by intro q hq; cases q <;> first | exact rfl | exact (no_mask hmsk rfl hq).elim))
    | intro _
    | (refine Within.lit ?_ (by intro q hq; cases q <;> first | exact rfl | exact ⟨HubPart.same_refl _ _, HubPart.same_refl _ _⟩ | exact (no_mask hmsk rfl hq).elim)))

theorem State.sensorState_touches {msk : Nat} {s₀ : State} (s : State) (id : Nat) (st : Nat) (value : Int) (hmsk : 1267650600228229401496703205376 &&& msk = 1267650600228229401496703205376) (hk : Within msk s₀ s)  :
    Within msk s₀ (State.sensorState s id st value) := by
  unfold State.sensorState
  try dsimp only
  repeat' (first
    | with_reducible assumption
    | exact sub_mask hmsk rfl
    | with_reducible apply State.mgmtPush_touches
    | split
    | intro _
    | (refine Within.lit ?_ (by intro q hq; cases q <;> first | exact rfl | exact ⟨HubPart.same_refl _ _, HubPart.same_refl _ _⟩ | exact (no_mask hmsk rfl hq).elim)))

theorem State.takeSample_touches {msk : Nat} {s₀ : State} (s : State) (h : HubId) (r : Rec) (hmsk : 2035470922129392165453957418747 &&& msk = 2035470922129392165453957418747) (hk : Within msk s₀ s)  :
    Within msk s₀ (State.takeSample s h r) := by
  unfold State.takeSample
  try dsimp only
  repeat' (first
    | with_reducible assumption
    | exact sub_mask hmsk rfl
    | with_reducible apply State.modChan_touches
    | with_reducible apply State.note_touches
    | split
    | intro _
    | (refine Within.lit ?_ (by intro q hq; cases q <;> first | exact rfl | exact ⟨HubPart.same_refl _ _, HubPart.same_refl _ _⟩ | exact (no_mask hmsk rfl hq).elim)))

theorem State.judgeLimits_touches {msk : Nat} {s₀ : State} (s : State) (h : HubId) (r : Rec) (hmsk : 2035470922129392165453949030139 &&& msk = 2035470922129392165453949030139) (hk : Within msk s₀ s)  :
    Within msk s₀ (State.judgeLimits s h r) := by
  unfold State.judgeLimits
  try dsimp only
  repeat' (first
    | with_reducible assumption
    | exact sub_mask hmsk rfl
    | with_reducible apply State.note_touches
    | split
    | intro _
    | (refine Within.lit ?_ (by intro q hq; cases q <;> first | exact rfl | exact ⟨HubPart.same_refl _ _, HubPart.same_refl _ _⟩ | exact (no_mask hmsk rfl hq).elim)))

theorem State.modThermal_touches {msk : Nat} {s₀ : State} (s : State) (h : HubId) (d : Nat) (f : DieThermal → DieThermal) (hmsk : 4194304 &&& msk = 4194304) (hk : Within msk s₀ s)  :
    Within msk s₀ (State.modThermal s h d f) := by
  unfold State.modThermal
  try dsimp only
  repeat' (first
    | with_reducible assumption
    | exact sub_mask hmsk rfl
    | with_reducible apply State.modHub_touches
    | with_reducible exact HubWithin.refl _ _
    | split
    | intro (_ : Hub)
    | (refine ⟨?_⟩; intro q hq; cases q <;> first | exact rfl | exact (no_mask hmsk rfl hq).elim)
    | (refine HubWithin.lit ?_ (by intro q hq; cases q <;> first | exact rfl | exact (no_mask hmsk rfl hq).elim))
    | intro _
    | (refine Within.lit ?_ (by intro q hq; cases q <;> first | exact rfl | exact ⟨HubPart.same_refl _ _, HubPart.same_refl _ _⟩ | exact (no_mask hmsk rfl hq).elim)))

theorem State.setReq_touches {msk : Nat} {s₀ : State} (s : State) (h : HubId) (d r : Nat) (hmsk : 6291456 &&& msk = 6291456) (hk : Within msk s₀ s)  :
    Within msk s₀ (State.setReq s h d r) := by
  unfold State.setReq
  try dsimp only
  repeat' (first
    | with_reducible assumption
    | exact sub_mask hmsk rfl
    | with_reducible apply State.modThermal_touches
    | with_reducible apply State.modHub_touches
    | with_reducible exact HubWithin.refl _ _
    | split
    | intro (_ : Hub)
    | (refine ⟨?_⟩; intro q hq; cases q <;> first | exact rfl | exact (no_mask hmsk rfl hq).elim)
    | (refine HubWithin.lit ?_ (by intro q hq; cases q <;> first | exact rfl | exact (no_mask hmsk rfl hq).elim))
    | intro _
    | (refine Within.lit ?_ (by intro q hq; cases q <;> first | exact rfl | exact ⟨HubPart.same_refl _ _, HubPart.same_refl _ _⟩ | exact (no_mask hmsk rfl hq).elim)))

theorem State.curbTo_touches {msk : Nat} {s₀ : State} (s : State) (h : HubId) (d level : Nat) (hmsk : 23105248 &&& msk = 23105248) (hk : Within msk s₀ s)  :
    Within msk s₀ (State.curbTo s h d level) := by
  unfold State.curbTo
  try dsimp only
  repeat' (first
    | with_reducible assumption
    | exact sub_mask hmsk rfl
    | with_reducible apply State.setCurb_touches
    | split
    | intro _
    | (refine Within.lit ?_ (by intro q hq; cases q <;> first | exact rfl | exact ⟨HubPart.same_refl _ _, HubPart.same_refl _ _⟩ | exact (no_mask hmsk rfl hq).elim)))

theorem State.proposeRelease_touches {msk : Nat} {s₀ : State} (s : State) (h : HubId) (d : Nat) (hmsk : 36893488147442208480 &&& msk = 36893488147442208480) (hk : Within msk s₀ s)  :
    Within msk s₀ (State.proposeRelease s h d) := by
  unfold State.proposeRelease
  try dsimp only
  repeat' (first
    | with_reducible assumption
    | exact sub_mask hmsk rfl
    | with_reducible apply State.relax_touches
    | with_reducible apply State.curbTo_touches
    | split
    | intro _
    | (refine Within.lit ?_ (by intro q hq; cases q <;> first | exact rfl | exact ⟨HubPart.same_refl _ _, HubPart.same_refl _ _⟩ | exact (no_mask hmsk rfl hq).elim)))

theorem State.takeRelease_touches {msk : Nat} {s₀ : State} (s : State) (d : Nat) (hmsk : 23105248 &&& msk = 23105248) (hk : Within msk s₀ s)  :
    Within msk s₀ (State.takeRelease s d) := by
  unfold State.takeRelease
  try dsimp only
  repeat' (first
    | with_reducible assumption
    | exact sub_mask hmsk rfl
    | with_reducible apply State.eachHub_touches
    | with_reducible apply State.curbTo_touches
    | split
    | intro _
    | (refine Within.lit ?_ (by intro q hq; cases q <;> first | exact rfl | exact ⟨HubPart.same_refl _ _, HubPart.same_refl _ _⟩ | exact (no_mask hmsk rfl hq).elim)))

theorem State.releaseAgain_touches {msk : Nat} {s₀ : State} (s : State) (h : HubId) (d : Nat) (hmsk : 36893488147442208480 &&& msk = 36893488147442208480) (hk : Within msk s₀ s)  :
    Within msk s₀ (State.releaseAgain s h d) := by
  unfold State.releaseAgain
  try dsimp only
  repeat' (first
    | with_reducible assumption
    | exact sub_mask hmsk rfl
    | with_reducible apply State.proposeRelease_touches
    | split
    | intro _
    | (refine Within.lit ?_ (by intro q hq; cases q <;> first | exact rfl | exact ⟨HubPart.same_refl _ _, HubPart.same_refl _ _⟩ | exact (no_mask hmsk rfl hq).elim)))

theorem State.enterAsk_touches {msk : Nat} {s₀ : State} (s : State) (h : HubId) (d : Nat) (x : Int) (hmsk : 2035470922129392165453949030139 &&& msk = 2035470922129392165453949030139) (hk : Within msk s₀ s)  :
    Within msk s₀ (State.enterAsk s h d x) := by
  unfold State.enterAsk
  try dsimp only
  repeat' (first
    | with_reducible assumption
    | exact sub_mask hmsk rfl
    | with_reducible apply State.modThermal_touches
    | with_reducible apply State.note_touches
    | split
    | intro _
    | (refine Within.lit ?_ (by intro q hq; cases q <;> first | exact rfl | exact ⟨HubPart.same_refl _ _, HubPart.same_refl _ _⟩ | exact (no_mask hmsk rfl hq).elim)))

theorem State.roundStep_touches {msk : Nat} {s₀ : State} (s : State) (h : HubId) (d : Nat) (x : Int) (hmsk : 2035470922129392165453949030139 &&& msk = 2035470922129392165453949030139) (hk : Within msk s₀ s)  :
    Within msk s₀ (State.roundStep s h d x) := by
  unfold State.roundStep
  try dsimp only
  repeat' (first
    | with_reducible assumption
    | exact sub_mask hmsk rfl
    | with_reducible apply State.enterAsk_touches
    | with_reducible apply State.hubMsg_touches
    | refine State.hubMsg_touchesOf (sub_mask hmsk rfl) (by assumption) ?_
    | with_reducible apply State.hubEntry_touches
    | with_reducible apply State.setReq_touches
    | with_reducible apply State.curbTo_touches
    | with_reducible apply State.modThermal_touches
    | with_reducible apply State.releaseAgain_touches
    | with_reducible apply State.proposeRelease_touches
    | split
    | intro _
    | (refine Within.lit ?_ (by intro q hq; cases q <;> first | exact rfl | exact ⟨HubPart.same_refl _ _, HubPart.same_refl _ _⟩ | exact (no_mask hmsk rfl hq).elim)))

theorem State.failsafe_touches {msk : Nat} {s₀ : State} (s : State) (h : HubId) (d : Nat) (hmsk : 23105248 &&& msk = 23105248) (hk : Within msk s₀ s)  :
    Within msk s₀ (State.failsafe s h d) := by
  unfold State.failsafe
  try dsimp only
  repeat' (first
    | with_reducible assumption
    | exact sub_mask hmsk rfl
    | with_reducible apply State.setCurb_touches
    | with_reducible apply State.modThermal_touches
    | split
    | intro _
    | (refine Within.lit ?_ (by intro q hq; cases q <;> first | exact rfl | exact ⟨HubPart.same_refl _ _, HubPart.same_refl _ _⟩ | exact (no_mask hmsk rfl hq).elim)))

theorem State.moveCurb_touches {msk : Nat} {s₀ : State} (s : State) (h : HubId) (d : Nat) (hmsk : 23105248 &&& msk = 23105248) (hk : Within msk s₀ s)  :
    Within msk s₀ (State.moveCurb s h d) := by
  unfold State.moveCurb
  try dsimp only
  repeat' (first
    | with_reducible assumption
    | exact sub_mask hmsk rfl
    | with_reducible apply State.curbTo_touches
    | split
    | intro _
    | (refine Within.lit ?_ (by intro q hq; cases q <;> first | exact rfl | exact ⟨HubPart.same_refl _ _, HubPart.same_refl _ _⟩ | exact (no_mask hmsk rfl hq).elim)))

theorem State.thermalEvent_touches {msk : Nat} {s₀ : State} (s : State) (h : HubId) (d : Nat) (hmsk : 1267650600228229401496703205376 &&& msk = 1267650600228229401496703205376) (hk : Within msk s₀ s)  :
    Within msk s₀ (State.thermalEvent s h d) := by
  unfold State.thermalEvent
  try dsimp only
  repeat' (first
    | with_reducible assumption
    | exact sub_mask hmsk rfl
    | with_reducible apply State.sensorState_touches
    | split
    | intro _
    | (refine Within.lit ?_ (by intro q hq; cases q <;> first | exact rfl | exact ⟨HubPart.same_refl _ _, HubPart.same_refl _ _⟩ | exact (no_mask hmsk rfl hq).elim)))

theorem State.thermalStep_touches {msk : Nat} {s₀ : State} (s : State) (h : HubId) (d : Nat) (hmsk : 2035470922129392165453949030139 &&& msk = 2035470922129392165453949030139) (hk : Within msk s₀ s)  :
    Within msk s₀ (State.thermalStep s h d) := by
  unfold State.thermalStep
  try dsimp only
  repeat' (first
    | with_reducible assumption
    | exact sub_mask hmsk rfl
    | with_reducible apply State.moveCurb_touches
    | with_reducible apply State.failsafe_touches
    | with_reducible apply State.roundStep_touches
    | with_reducible apply State.thermalEvent_touches
    | split
    | intro _
    | (refine Within.lit ?_ (by intro q hq; cases q <;> first | exact rfl | exact ⟨HubPart.same_refl _ _, HubPart.same_refl _ _⟩ | exact (no_mask hmsk rfl hq).elim)))

theorem State.broadcast_touches {msk : Nat} {s₀ : State} (s : State) (h : HubId) (d : Nat) (hmsk : 4194304 &&& msk = 4194304) (hk : Within msk s₀ s)  :
    Within msk s₀ (State.broadcast s h d) := by
  unfold State.broadcast
  try dsimp only
  repeat' (first
    | with_reducible assumption
    | exact sub_mask hmsk rfl
    | with_reducible apply State.modThermal_touches
    | split
    | intro _
    | (refine Within.lit ?_ (by intro q hq; cases q <;> first | exact rfl | exact ⟨HubPart.same_refl _ _, HubPart.same_refl _ _⟩ | exact (no_mask hmsk rfl hq).elim)))

theorem State.setTrim_touches {msk : Nat} {s₀ : State} (s : State) (h : HubId) (hmsk : 2147483648 &&& msk = 2147483648) (hk : Within msk s₀ s)  :
    Within msk s₀ (State.setTrim s h) := by
  unfold State.setTrim
  try dsimp only
  repeat' (first
    | with_reducible assumption
    | exact sub_mask hmsk rfl
    | with_reducible apply State.modHub_touches
    | with_reducible exact HubWithin.refl _ _
    | split
    | intro (_ : Hub)
    | (refine ⟨?_⟩; intro q hq; cases q <;> first | exact rfl | exact (no_mask hmsk rfl hq).elim)
    | (refine HubWithin.lit ?_ (by intro q hq; cases q <;> first | exact rfl | exact (no_mask hmsk rfl hq).elim))
    | intro _
    | (refine Within.lit ?_ (by intro q hq; cases q <;> first | exact rfl | exact ⟨HubPart.same_refl _ _, HubPart.same_refl _ _⟩ | exact (no_mask hmsk rfl hq).elim)))

theorem State.hkRound_touches {msk : Nat} {s₀ : State} (s : State) (h : HubId) (hmsk : 2035470922129392165456172011259 &&& msk = 2035470922129392165456172011259) (hk : Within msk s₀ s)  :
    Within msk s₀ (State.hkRound s h) := by
  unfold State.hkRound
  try dsimp only
  repeat' (first
    | with_reducible assumption
    | exact sub_mask hmsk rfl
    | with_reducible apply State.each_touches
    | with_reducible apply State.takeSample_touches
    | with_reducible apply State.broadcast_touches
    | with_reducible apply State.setTrim_touches
    | with_reducible apply State.judgeLimits_touches
    | with_reducible apply State.thermalEvent_touches
    | with_reducible apply State.thermalStep_touches
    | with_reducible apply State.periodEntry_touches
    | with_reducible apply State.modHub_touches
    | with_reducible exact HubWithin.refl _ _
    | split
    | intro (_ : Hub)
    | (refine ⟨?_⟩; intro q hq; cases q <;> first | exact rfl | exact (no_mask hmsk rfl hq).elim)
    | (refine HubWithin.lit ?_ (by intro q hq; cases q <;> first | exact rfl | exact (no_mask hmsk rfl hq).elim))
    | intro _
    | (refine Within.lit ?_ (by intro q hq; cases q <;> first | exact rfl | exact ⟨HubPart.same_refl _ _, HubPart.same_refl _ _⟩ | exact (no_mask hmsk rfl hq).elim)))

theorem State.settleBand_touches {msk : Nat} {s₀ : State} (s : State) (hmsk : 2475880078570760549798248448 &&& msk = 2475880078570760549798248448) (hk : Within msk s₀ s)  :
    Within msk s₀ (State.settleBand s) := by
  unfold State.settleBand
  try dsimp only
  repeat' (first
    | with_reducible assumption
    | exact sub_mask hmsk rfl
    | split
    | intro _
    | (refine Within.lit ?_ (by intro q hq; cases q <;> first | exact rfl | exact ⟨HubPart.same_refl _ _, HubPart.same_refl _ _⟩ | exact (no_mask hmsk rfl hq).elim)))

theorem State.busStep_touches {msk : Nat} {s₀ : State} (s : State) (h : HubId) (c : Nat) (hmsk : 2035470922129392165453957418747 &&& msk = 2035470922129392165453957418747) (hk : Within msk s₀ s)  :
    Within msk s₀ (State.busStep s h c) := by
  unfold State.busStep
  try dsimp only
  repeat' (first
    | with_reducible assumption
    | exact sub_mask hmsk rfl
    | with_reducible apply State.modChan_touches
    | with_reducible apply State.note_touches
    | with_reducible apply State.snapshot_touches
    | split
    | intro _
    | (refine Within.lit ?_ (by intro q hq; cases q <;> first | exact rfl | exact ⟨HubPart.same_refl _ _, HubPart.same_refl _ _⟩ | exact (no_mask hmsk rfl hq).elim)))

theorem State.busSensor_touches {msk : Nat} {s₀ : State} (s : State) (c : Nat) (hmsk : 1267650600228229401496703205376 &&& msk = 1267650600228229401496703205376) (hk : Within msk s₀ s)  :
    Within msk s₀ (State.busSensor s c) := by
  unfold State.busSensor
  try dsimp only
  repeat' (first
    | with_reducible assumption
    | exact sub_mask hmsk rfl
    | with_reducible apply State.sensorState_touches
    | split
    | intro _
    | (refine Within.lit ?_ (by intro q hq; cases q <;> first | exact rfl | exact ⟨HubPart.same_refl _ _, HubPart.same_refl _ _⟩ | exact (no_mask hmsk rfl hq).elim)))

theorem State.takeMargin_touches {msk : Nat} {s₀ : State} (s : State) (c a count : Nat) (hmsk : 17293822569102737408 &&& msk = 17293822569102737408) (hk : Within msk s₀ s)  :
    Within msk s₀ (State.takeMargin s c a count) := by
  unfold State.takeMargin
  try dsimp only
  repeat' (first
    | with_reducible assumption
    | exact sub_mask hmsk rfl
    | with_reducible apply State.modAgent_touches
    | with_reducible apply State.emit_touches
    | split
    | intro _
    | (refine Within.lit ?_ (by intro q hq; cases q <;> first | exact rfl | exact ⟨HubPart.same_refl _ _, HubPart.same_refl _ _⟩ | exact (no_mask hmsk rfl hq).elim)))

theorem State.takeMargins_touches {msk : Nat} {s₀ : State} (s : State) (cluster : Nat) (counts : List (Nat × Nat)) (hmsk : 1267650600245523224065805942784 &&& msk = 1267650600245523224065805942784) (hk : Within msk s₀ s)  :
    Within msk s₀ (State.takeMargins s cluster counts) := by
  unfold State.takeMargins
  try dsimp only
  repeat' (first
    | with_reducible assumption
    | exact sub_mask hmsk rfl
    | with_reducible apply State.each_touches
    | with_reducible apply State.takeMargin_touches
    | with_reducible apply State.sensorState_touches
    | split
    | intro _
    | (refine Within.lit ?_ (by intro q hq; cases q <;> first | exact rfl | exact ⟨HubPart.same_refl _ _, HubPart.same_refl _ _⟩ | exact (no_mask hmsk rfl hq).elim)))

end Sys2Proof.Machine
end

