-- ==== Sys2Proof/Laws/TouchesLinks.lean ====
section
/-! SUPPORT. What every operation of Machine/Links.lean may touch. -/

namespace Sys2Proof.Machine

open Sys2Proof

theorem State.moveQueue_touches {msk : Nat} {s₀ : State} (s : State) (i : Nat) (hmsk : 9223372036854775808 &&& msk = 9223372036854775808) (hk : Within msk s₀ s)  :
    Within msk s₀ (State.moveQueue s i) := by
  unfold State.moveQueue
  try dsimp only
  repeat' (first
    | with_reducible assumption
    | exact sub_mask hmsk rfl
    | with_reducible apply State.each_touches
    | with_reducible apply State.modLink_touches
    | split
    | intro _
    | (refine Within.lit ?_ (by intro q hq; cases q <;> first | exact rfl | exact ⟨HubPart.same_refl _ _, HubPart.same_refl _ _⟩ | exact (no_mask hmsk rfl hq).elim)))

theorem State.startRetrain_touches {msk : Nat} {s₀ : State} (s : State) (i : Nat) (hmsk : 9223372036854775808 &&& msk = 9223372036854775808) (hk : Within msk s₀ s)  :
    Within msk s₀ (State.startRetrain s i) := by
  unfold State.startRetrain
  try dsimp only
  repeat' (first
    | with_reducible assumption
    | exact sub_mask hmsk rfl
    | with_reducible apply State.modLink_touches
    | with_reducible apply State.moveQueue_touches
    | split
    | intro _
    | (refine Within.lit ?_ (by intro q hq; cases q <;> first | exact rfl | exact ⟨HubPart.same_refl _ _, HubPart.same_refl _ _⟩ | exact (no_mask hmsk rfl hq).elim)))

theorem State.reportTrained_touches {msk : Nat} {s₀ : State} (s : State) (i old new : Nat) (hmsk : 17293822569102737408 &&& msk = 17293822569102737408) (hk : Within msk s₀ s)  :
    Within msk s₀ (State.reportTrained s i old new) := by
  unfold State.reportTrained
  try dsimp only
  repeat' (first
    | with_reducible assumption
    | exact sub_mask hmsk rfl
    | with_reducible apply State.emit_touches
    | split
    | intro _
    | (refine Within.lit ?_ (by intro q hq; cases q <;> first | exact rfl | exact ⟨HubPart.same_refl _ _, HubPart.same_refl _ _⟩ | exact (no_mask hmsk rfl hq).elim)))

end Sys2Proof.Machine
end

