-- ==== Sys2Proof/Laws/TouchesRegMap.lean ====
section
/-! SUPPORT. What every operation of Machine/RegMap.lean may touch. -/

namespace Sys2Proof.Machine

open Sys2Proof

theorem State.latchWord_touches {msk : Nat} {s₀ : State} (s : State) (a : Nat) (hmsk : 1180591620717411303424 &&& msk = 1180591620717411303424) (hk : Within msk s₀ s)  :
    Within msk s₀ (State.latchWord s a) := by
  unfold State.latchWord
  try dsimp only
  repeat' (first
    | with_reducible assumption
    | exact sub_mask hmsk rfl
    | split
    | intro _
    | (refine Within.lit ?_ (by intro q hq; cases q <;> first | exact rfl | exact ⟨HubPart.same_refl _ _, HubPart.same_refl _ _⟩ | exact (no_mask hmsk rfl hq).elim)))

end Sys2Proof.Machine
end

