-- ==== Sys2Proof/Laws/TouchesRegisters.lean ====
section
/-! SUPPORT. What every operation of Machine/Registers.lean may touch. -/

namespace Sys2Proof.Machine

open Sys2Proof

theorem State.atServing_touches {msk : Nat} {s₀ : State} (s : State) (f : HubId → State → State) (hmsk : 0 &&& msk = 0) (hk : Within msk s₀ s) (hf : ∀ h t, Within msk s₀ t → Within msk s₀ (f h t)) :
    Within msk s₀ (State.atServing s f) := by
  unfold State.atServing
  try dsimp only
  repeat' (first
    | with_reducible assumption
    | exact sub_mask hmsk rfl
    | with_reducible apply hf
    | with_reducible apply State.eachHub_touches
    | split
    | intro _
    | (refine Within.lit ?_ (by intro q hq; cases q <;> first | exact rfl | exact ⟨HubPart.same_refl _ _, HubPart.same_refl _ _⟩ | exact (no_mask hmsk rfl hq).elim)))

theorem State.regWriteServing_touches {msk : Nat} {s₀ : State} (s : State) (a : Nat) (data : W32) (f : Hub → Hub) (hmsk : 73786976294838206464 &&& msk = 73786976294838206464) (hk : Within msk s₀ s) (hf : ∀ k, HubWithin msk k (f k)) :
    Within msk s₀ (State.regWriteServing s a data f) := by
  unfold State.regWriteServing
  try dsimp only
  repeat' (first
    | with_reducible assumption
    | exact sub_mask hmsk rfl
    | with_reducible apply hf
    | with_reducible apply State.atServing_touches
    | with_reducible apply State.modHub_touches
    | with_reducible apply State.mirrorWrite_touches
    | with_reducible exact HubWithin.refl _ _
    | split
    | intro (_ : Hub)
    | (refine ⟨?_⟩; intro q hq; cases q <;> first | exact rfl | exact (no_mask hmsk rfl hq).elim)
    | (refine HubWithin.lit ?_ (by intro q hq; cases q <;> first | exact rfl | exact (no_mask hmsk rfl hq).elim))
    | intro _
    | (refine Within.lit ?_ (by intro q hq; cases q <;> first | exact rfl | exact ⟨HubPart.same_refl _ _, HubPart.same_refl _ _⟩ | exact (no_mask hmsk rfl hq).elim)))

theorem Hub.clearSticky_touches {msk : Nat} {k₀ : Hub} (k : Hub) (w : Nat) (data : W32) (hmsk : 32 &&& msk = 32) (hk : HubWithin msk k₀ k) :
    HubWithin msk k₀ (Hub.clearSticky k w data) := by
  unfold Hub.clearSticky
  try dsimp only
  repeat' (first
    | with_reducible assumption
    | exact sub_mask hmsk rfl
    | split
    | intro _
    | (refine HubWithin.trans (by assumption) ?_; refine ⟨?_⟩; intro q hq; cases q <;> first | exact rfl | exact (no_mask hmsk rfl hq).elim)
    | (refine HubWithin.lit ?_ (by intro q hq; cases q <;> first | exact rfl | exact (no_mask hmsk rfl hq).elim)))

theorem State.releaseJob_touches {msk : Nat} {s₀ : State} (s : State) (job : Job) (hmsk : 1401950172018385316460639735521 &&& msk = 1401950172018385316460639735521) (hk : Within msk s₀ s)  :
    Within msk s₀ (State.releaseJob s job) := by
  unfold State.releaseJob
  try dsimp only
  repeat' (first
    | with_reducible assumption
    | exact sub_mask hmsk rfl
    | with_reducible apply State.each_touches
    | with_reducible apply State.abortAgent_touches
    | with_reducible apply State.abortConc_touches
    | with_reducible apply State.poisonOrdered_touches
    | with_reducible apply State.modEnvelopes_touches
    | with_reducible apply State.clearExcursions_touches
    | with_reducible apply State.modHubs_touches
    | with_reducible apply State.modJob_touches
    | with_reducible exact HubWithin.refl _ _
    | split
    | intro (_ : Hub)
    | (refine ⟨?_⟩; intro q hq; cases q <;> first | exact rfl | exact (no_mask hmsk rfl hq).elim)
    | (refine HubWithin.lit ?_ (by intro q hq; cases q <;> first | exact rfl | exact (no_mask hmsk rfl hq).elim))
    | intro _
    | (refine Within.lit ?_ (by intro q hq; cases q <;> first | exact rfl | exact ⟨HubPart.same_refl _ _, HubPart.same_refl _ _⟩ | exact (no_mask hmsk rfl hq).elim)))

theorem State.forceAt_touches {msk : Nat} {s₀ : State} (s : State) (h : HubId) (emitUnit : Bool) (p : Nat) (hmsk : 17293822569102753794 &&& msk = 17293822569102753794) (hk : Within msk s₀ s)  :
    Within msk s₀ (State.forceAt s h emitUnit p) := by
  unfold State.forceAt
  try dsimp only
  repeat' (first
    | with_reducible assumption
    | exact sub_mask hmsk rfl
    | with_reducible apply State.modHub_touches
    | with_reducible apply State.emit_touches
    | with_reducible apply Hub.count_touches
    | with_reducible apply Hub.modSrc_touches
    | with_reducible exact HubWithin.refl _ _
    | split
    | intro (_ : Hub)
    | (refine ⟨?_⟩; intro q hq; cases q <;> first | exact rfl | exact (no_mask hmsk rfl hq).elim)
    | (refine HubWithin.lit ?_ (by intro q hq; cases q <;> first | exact rfl | exact (no_mask hmsk rfl hq).elim))
    | intro _
    | (refine Within.lit ?_ (by intro q hq; cases q <;> first | exact rfl | exact ⟨HubPart.same_refl _ _, HubPart.same_refl _ _⟩ | exact (no_mask hmsk rfl hq).elim)))

theorem State.forceWord_touches {msk : Nat} {s₀ : State} (s : State) (h : HubId) (emitUnit : Bool) (w : Nat) (data : W32) (hmsk : 17293822569102753794 &&& msk = 17293822569102753794) (hk : Within msk s₀ s)  :
    Within msk s₀ (State.forceWord s h emitUnit w data) := by
  unfold State.forceWord
  try dsimp only
  repeat' (first
    | with_reducible assumption
    | exact sub_mask hmsk rfl
    | with_reducible apply State.each_touches
    | with_reducible apply State.forceAt_touches
    | with_reducible apply State.modHub_touches
    | with_reducible apply Hub.count_touches
    | with_reducible exact HubWithin.refl _ _
    | split
    | intro (_ : Hub)
    | (refine ⟨?_⟩; intro q hq; cases q <;> first | exact rfl | exact (no_mask hmsk rfl hq).elim)
    | (refine HubWithin.lit ?_ (by intro q hq; cases q <;> first | exact rfl | exact (no_mask hmsk rfl hq).elim))
    | intro _
    | (refine Within.lit ?_ (by intro q hq; cases q <;> first | exact rfl | exact ⟨HubPart.same_refl _ _, HubPart.same_refl _ _⟩ | exact (no_mask hmsk rfl hq).elim)))

theorem State.applyWrite_touches {msk : Nat} {s₀ : State} (s : State) (h : HubId) (a : Nat) (data : W32) (hmsk : 17293822569106423842 &&& msk = 17293822569106423842) (hk : Within msk s₀ s)  :
    Within msk s₀ (State.applyWrite s h a data) := by
  unfold State.applyWrite
  try dsimp only
  repeat' (first
    | with_reducible assumption
    | exact sub_mask hmsk rfl
    | with_reducible apply State.modHub_touches
    | with_reducible apply State.forceWord_touches
    | with_reducible apply Hub.clearSticky_touches
    | with_reducible exact HubWithin.refl _ _
    | split
    | intro (_ : Hub)
    | (refine ⟨?_⟩; intro q hq; cases q <;> first | exact rfl | exact (no_mask hmsk rfl hq).elim)
    | (refine HubWithin.lit ?_ (by intro q hq; cases q <;> first | exact rfl | exact (no_mask hmsk rfl hq).elim))
    | intro _
    | (refine Within.lit ?_ (by intro q hq; cases q <;> first | exact rfl | exact ⟨HubPart.same_refl _ _, HubPart.same_refl _ _⟩ | exact (no_mask hmsk rfl hq).elim)))

end Sys2Proof.Machine
end

