-- ==== Sys2Proof/Laws/TouchesIndirect.lean ====
section
/-! SUPPORT. What every operation of Machine/Indirect.lean may touch. -/

namespace Sys2Proof.Machine

open Sys2Proof

theorem State.clearUnit_touches {msk : Nat} {s₀ : State} (s : State) (u : IndUnit) (hmsk : 17293822569102704640 &&& msk = 17293822569102704640) (hk : Within msk s₀ s)  :
    Within msk s₀ (State.clearUnit s u) := by
  unfold State.clearUnit
  try dsimp only
  repeat' (first
    | with_reducible assumption
    | exact sub_mask hmsk rfl
    | with_reducible apply State.modAgent_touches
    | with_reducible apply State.modConc_touches
    | with_reducible apply State.each_touches
    | with_reducible apply State.modEngine_touches
    | with_reducible apply State.modLink_touches
    | split
    | intro _
    | (refine Within.lit ?_ (by intro q hq; cases q <;> first | exact rfl | exact ⟨HubPart.same_refl _ _, HubPart.same_refl _ _⟩ | exact (no_mask hmsk rfl hq).elim)))

theorem State.indAdvance_touches {msk : Nat} {s₀ : State} (s : State) (hmsk : 524288 &&& msk = 524288) (hk : Within msk s₀ s)  :
    Within msk s₀ (State.indAdvance s) := by
  unfold State.indAdvance
  try dsimp only
  repeat' (first
    | with_reducible assumption
    | exact sub_mask hmsk rfl
    | with_reducible apply State.modHubs_touches
    | with_reducible exact HubWithin.refl _ _
    | split
    | intro (_ : Hub)
    | (refine ⟨?_⟩; intro q hq; cases q <;> first | exact rfl | exact (no_mask hmsk rfl hq).elim)
    | (refine HubWithin.lit ?_ (by intro q hq; cases q <;> first | exact rfl | exact (no_mask hmsk rfl hq).elim))
    | intro _
    | (refine Within.lit ?_ (by intro q hq; cases q <;> first | exact rfl | exact ⟨HubPart.same_refl _ _, HubPart.same_refl _ _⟩ | exact (no_mask hmsk rfl hq).elim)))

theorem State.indPost_touches {msk : Nat} {s₀ : State} (s : State) (w : W32) (hmsk : 2535301200473752625562509115392 &&& msk = 2535301200473752625562509115392) (hk : Within msk s₀ s)  :
    Within msk s₀ (State.indPost s w) := by
  unfold State.indPost
  try dsimp only
  repeat' (first
    | with_reducible assumption
    | exact sub_mask hmsk rfl
    | with_reducible apply State.clearUnit_touches
    | split
    | intro _
    | (refine Within.lit ?_ (by intro q hq; cases q <;> first | exact rfl | exact ⟨HubPart.same_refl _ _, HubPart.same_refl _ _⟩ | exact (no_mask hmsk rfl hq).elim)))

theorem State.indSettle_touches {msk : Nat} {s₀ : State} (s : State) (hmsk : 2535301200473752625562509639680 &&& msk = 2535301200473752625562509639680) (hk : Within msk s₀ s)  :
    Within msk s₀ (State.indSettle s) := by
  unfold State.indSettle
  try dsimp only
  repeat' (first
    | with_reducible assumption
    | exact sub_mask hmsk rfl
    | with_reducible apply State.indPost_touches
    | with_reducible apply State.indAdvance_touches
    | split
    | intro _
    | (refine Within.lit ?_ (by intro q hq; cases q <;> first | exact rfl | exact ⟨HubPart.same_refl _ _, HubPart.same_refl _ _⟩ | exact (no_mask hmsk rfl hq).elim)))

theorem State.indFetched_touches {msk : Nat} {s₀ : State} (s : State) (hmsk : 2535301200456458802993406410752 &&& msk = 2535301200456458802993406410752) (hk : Within msk s₀ s)  :
    Within msk s₀ (State.indFetched s) := by
  unfold State.indFetched
  try dsimp only
  repeat' (first
    | with_reducible assumption
    | exact sub_mask hmsk rfl
    | split
    | intro _
    | (refine Within.lit ?_ (by intro q hq; cases q <;> first | exact rfl | exact ⟨HubPart.same_refl _ _, HubPart.same_refl _ _⟩ | exact (no_mask hmsk rfl hq).elim)))

theorem State.indComplete_touches {msk : Nat} {s₀ : State} (s : State) (hmsk : 2535301200473752625562509639680 &&& msk = 2535301200473752625562509639680) (hk : Within msk s₀ s)  :
    Within msk s₀ (State.indComplete s) := by
  unfold State.indComplete
  try dsimp only
  repeat' (first
    | with_reducible assumption
    | exact sub_mask hmsk rfl
    | with_reducible apply State.indSettle_touches
    | with_reducible apply State.indFetched_touches
    | split
    | intro _
    | (refine Within.lit ?_ (by intro q hq; cases q <;> first | exact rfl | exact ⟨HubPart.same_refl _ _, HubPart.same_refl _ _⟩ | exact (no_mask hmsk rfl hq).elim)))

theorem State.indFetch_touches {msk : Nat} {s₀ : State} (s : State) (hmsk : 2535301200456458802993406410752 &&& msk = 2535301200456458802993406410752) (hk : Within msk s₀ s)  :
    Within msk s₀ (State.indFetch s) := by
  unfold State.indFetch
  try dsimp only
  repeat' (first
    | with_reducible assumption
    | exact sub_mask hmsk rfl
    | split
    | intro _
    | (refine Within.lit ?_ (by intro q hq; cases q <;> first | exact rfl | exact ⟨HubPart.same_refl _ _, HubPart.same_refl _ _⟩ | exact (no_mask hmsk rfl hq).elim)))

end Sys2Proof.Machine
end

