-- ==== Sys2Proof/Laws/TouchesTwin.lean ====
section
/-! SUPPORT. What every operation of Machine/Twin.lean may touch. -/

namespace Sys2Proof.Machine

open Sys2Proof

theorem State.sendFrame_touches {msk : Nat} {s₀ : State} (s : State) (w : HubId) (t : FrameType) (content : List Nat) (hmsk : 73795983494092947456 &&& msk = 73795983494092947456) (hk : Within msk s₀ s)  :
    Within msk s₀ (State.sendFrame s w t content) := by
  unfold State.sendFrame
  try dsimp only
  repeat' (first
    | with_reducible assumption
    | exact sub_mask hmsk rfl
    | with_reducible apply State.modX_touches
    | with_reducible apply State.present_touches
    | split
    | intro _
    | (refine Within.lit ?_ (by intro q hq; cases q <;> first | exact rfl | exact ⟨HubPart.same_refl _ _, HubPart.same_refl _ _⟩ | exact (no_mask hmsk rfl hq).elim)))

theorem State.pump_touches {msk : Nat} {s₀ : State} (s : State) (w : HubId) (hmsk : 73795983494092947456 &&& msk = 73795983494092947456) (hk : Within msk s₀ s)  :
    Within msk s₀ (State.pump s w) := by
  unfold State.pump
  try dsimp only
  repeat' (first
    | with_reducible assumption
    | exact sub_mask hmsk rfl
    | with_reducible apply State.modX_touches
    | with_reducible apply State.sendFrame_touches
    | with_reducible apply State.each_touches
    | split
    | intro _
    | (refine Within.lit ?_ (by intro q hq; cases q <;> first | exact rfl | exact ⟨HubPart.same_refl _ _, HubPart.same_refl _ _⟩ | exact (no_mask hmsk rfl hq).elim)))

theorem State.queueFrame_touches {msk : Nat} {s₀ : State} (s : State) (w : HubId) (t : FrameType) (content : List Nat) (hmsk : 73795983494092947456 &&& msk = 73795983494092947456) (hk : Within msk s₀ s)  :
    Within msk s₀ (State.queueFrame s w t content) := by
  unfold State.queueFrame
  try dsimp only
  repeat' (first
    | with_reducible assumption
    | exact sub_mask hmsk rfl
    | with_reducible apply State.modX_touches
    | with_reducible apply State.pump_touches
    | split
    | intro _
    | (refine Within.lit ?_ (by intro q hq; cases q <;> first | exact rfl | exact ⟨HubPart.same_refl _ _, HubPart.same_refl _ _⟩ | exact (no_mask hmsk rfl hq).elim)))

theorem State.reportTest_touches {msk : Nat} {s₀ : State} (s : State) (w : HubId) (pass : Bool) (hmsk : 73795983494092947456 &&& msk = 73795983494092947456) (hk : Within msk s₀ s)  :
    Within msk s₀ (State.reportTest s w pass) := by
  unfold State.reportTest
  try dsimp only
  repeat' (first
    | with_reducible assumption
    | exact sub_mask hmsk rfl
    | with_reducible apply State.queueFrame_touches
    | split
    | intro _
    | (refine Within.lit ?_ (by intro q hq; cases q <;> first | exact rfl | exact ⟨HubPart.same_refl _ _, HubPart.same_refl _ _⟩ | exact (no_mask hmsk rfl hq).elim)))

theorem State.showCmd_touches {msk : Nat} {s₀ : State} (s : State) (hmsk : 36893488147419103232 &&& msk = 36893488147419103232) (hk : Within msk s₀ s)  :
    Within msk s₀ (State.showCmd s) := by
  unfold State.showCmd
  try dsimp only
  repeat' (first
    | with_reducible assumption
    | exact sub_mask hmsk rfl
    | split
    | intro _
    | (refine Within.lit ?_ (by intro q hq; cases q <;> first | exact rfl | exact ⟨HubPart.same_refl _ _, HubPart.same_refl _ _⟩ | exact (no_mask hmsk rfl hq).elim)))

theorem State.sendDigest_touches {msk : Nat} {s₀ : State} (s : State) (w : HubId) (value : W64) (hmsk : 73795983494092947456 &&& msk = 73795983494092947456) (hk : Within msk s₀ s)  :
    Within msk s₀ (State.sendDigest s w value) := by
  unfold State.sendDigest
  try dsimp only
  repeat' (first
    | with_reducible assumption
    | exact sub_mask hmsk rfl
    | with_reducible apply State.modX_touches
    | with_reducible apply State.pump_touches
    | split
    | intro _
    | (refine Within.lit ?_ (by intro q hq; cases q <;> first | exact rfl | exact ⟨HubPart.same_refl _ _, HubPart.same_refl _ _⟩ | exact (no_mask hmsk rfl hq).elim)))

theorem State.mergeFault_touches {msk : Nat} {s₀ : State} (s : State) (h : HubId) (p : Nat) (hmsk : 1901475900343506030948916461587 &&& msk = 1901475900343506030948916461587) (hk : Within msk s₀ s)  :
    Within msk s₀ (State.mergeFault s h p) := by
  unfold State.mergeFault
  try dsimp only
  repeat' (first
    | with_reducible assumption
    | exact sub_mask hmsk rfl
    | with_reducible apply State.modHub_touches
    | with_reducible apply State.orderFences_touches
    | with_reducible apply State.removePad_touches
    | with_reducible apply State.syncState_touches
    | with_reducible apply Hub.modSrc_touches
    | with_reducible exact HubWithin.refl _ _
    | split
    | intro (_ : Hub)
    | (refine ⟨?_⟩; intro q hq; cases q <;> first | exact rfl | exact (no_mask hmsk rfl hq).elim)
    | (refine HubWithin.lit ?_ (by intro q hq; cases q <;> first | exact rfl | exact (no_mask hmsk rfl hq).elim))
    | intro _
    | (refine Within.lit ?_ (by intro q hq; cases q <;> first | exact rfl | exact ⟨HubPart.same_refl _ _, HubPart.same_refl _ _⟩ | exact (no_mask hmsk rfl hq).elim)))

theorem State.mergeLame_touches {msk : Nat} {s₀ : State} (s : State) (h : HubId) (p : Nat) (recovery : Nat) (hmsk : 1901475900343506030948916477975 &&& msk = 1901475900343506030948916477975) (hk : Within msk s₀ s)  :
    Within msk s₀ (State.mergeLame s h p recovery) := by
  unfold State.mergeLame
  try dsimp only
  repeat' (first
    | with_reducible assumption
    | exact sub_mask hmsk rfl
    | with_reducible apply State.modHub_touches
    | with_reducible apply State.orderFences_touches
    | with_reducible apply State.removePad_touches
    | with_reducible apply State.lameEvent_touches
    | with_reducible apply State.syncState_touches
    | with_reducible apply Hub.modSrc_touches
    | with_reducible apply Hub.count_touches
    | with_reducible exact HubWithin.refl _ _
    | split
    | intro (_ : Hub)
    | (refine ⟨?_⟩; intro q hq; cases q <;> first | exact rfl | exact (no_mask hmsk rfl hq).elim)
    | (refine HubWithin.lit ?_ (by intro q hq; cases q <;> first | exact rfl | exact (no_mask hmsk rfl hq).elim))
    | intro _
    | (refine Within.lit ?_ (by intro q hq; cases q <;> first | exact rfl | exact ⟨HubPart.same_refl _ _, HubPart.same_refl _ _⟩ | exact (no_mask hmsk rfl hq).elim)))

theorem State.mergePad_touches {msk : Nat} {s₀ : State} (s : State) (h : HubId) (e : PadEntry) (hmsk : 1161928703861653504 &&& msk = 1161928703861653504) (hk : Within msk s₀ s)  :
    Within msk s₀ (State.mergePad s h e) := by
  unfold State.mergePad
  try dsimp only
  repeat' (first
    | with_reducible assumption
    | exact sub_mask hmsk rfl
    | with_reducible apply State.modHub_touches
    | with_reducible apply State.syncPaddock_touches
    | with_reducible exact HubWithin.refl _ _
    | split
    | intro (_ : Hub)
    | (refine ⟨?_⟩; intro q hq; cases q <;> first | exact rfl | exact (no_mask hmsk rfl hq).elim)
    | (refine HubWithin.lit ?_ (by intro q hq; cases q <;> first | exact rfl | exact (no_mask hmsk rfl hq).elim))
    | intro _
    | (refine Within.lit ?_ (by intro q hq; cases q <;> first | exact rfl | exact ⟨HubPart.same_refl _ _, HubPart.same_refl _ _⟩ | exact (no_mask hmsk rfl hq).elim)))

theorem State.mergeSection_touches {msk : Nat} {s₀ : State} (s : State) (h : HubId) (c : DigestSection) (hmsk : 1901766144184079455400118963967 &&& msk = 1901766144184079455400118963967) (hk : Within msk s₀ s)  :
    Within msk s₀ (State.mergeSection s h c) := by
  unfold State.mergeSection
  try dsimp only
  repeat' (first
    | with_reducible assumption
    | exact sub_mask hmsk rfl
    | with_reducible apply State.chipStop_touches
    | with_reducible apply State.setSt_touches
    | with_reducible apply State.each_touches
    | with_reducible apply State.mergeFault_touches
    | with_reducible apply State.mergeLame_touches
    | with_reducible apply State.orderFences_touches
    | with_reducible apply State.mergePad_touches
    | with_reducible apply State.modHub_touches
    | with_reducible apply State.setCurb_touches
    | with_reducible exact HubWithin.refl _ _
    | split
    | intro (_ : Hub)
    | (refine ⟨?_⟩; intro q hq; cases q <;> first | exact rfl | exact (no_mask hmsk rfl hq).elim)
    | (refine HubWithin.lit ?_ (by intro q hq; cases q <;> first | exact rfl | exact (no_mask hmsk rfl hq).elim))
    | intro _
    | (refine Within.lit ?_ (by intro q hq; cases q <;> first | exact rfl | exact ⟨HubPart.same_refl _ _, HubPart.same_refl _ _⟩ | exact (no_mask hmsk rfl hq).elim)))

theorem State.takeRecovery_touches {msk : Nat} {s₀ : State} (s : State) (h : HubId) (p recovery : Nat) (m : Msg) (hmsk : 1901773397886571095764843482875 &&& msk = 1901773397886571095764843482875) (hk : Within msk s₀ s)  :
    Within msk s₀ (State.takeRecovery s h p recovery m) := by
  unfold State.takeRecovery
  try dsimp only
  repeat' (first
    | with_reducible assumption
    | exact sub_mask hmsk rfl
    | with_reducible apply State.modHub_touches
    | with_reducible apply State.endFences_touches
    | with_reducible apply State.place_touches
    | with_reducible apply State.syncState_touches
    | with_reducible apply Hub.modSrc_touches
    | with_reducible apply Hub.count_touches
    | with_reducible exact HubWithin.refl _ _
    | split
    | intro (_ : Hub)
    | (refine ⟨?_⟩; intro q hq; cases q <;> first | exact rfl | exact (no_mask hmsk rfl hq).elim)
    | (refine HubWithin.lit ?_ (by intro q hq; cases q <;> first | exact rfl | exact (no_mask hmsk rfl hq).elim))
    | intro _
    | (refine Within.lit ?_ (by intro q hq; cases q <;> first | exact rfl | exact ⟨HubPart.same_refl _ _, HubPart.same_refl _ _⟩ | exact (no_mask hmsk rfl hq).elim)))

theorem State.mirrorRecovery_touches {msk : Nat} {s₀ : State} (s : State) (h : HubId) (p : Nat) (m : Msg) (hmsk : 1901773397886571095764843482875 &&& msk = 1901773397886571095764843482875) (hk : Within msk s₀ s)  :
    Within msk s₀ (State.mirrorRecovery s h p m) := by
  unfold State.mirrorRecovery
  try dsimp only
  repeat' (first
    | with_reducible assumption
    | exact sub_mask hmsk rfl
    | with_reducible apply State.takeRecovery_touches
    | split
    | intro _
    | (refine Within.lit ?_ (by intro q hq; cases q <;> first | exact rfl | exact ⟨HubPart.same_refl _ _, HubPart.same_refl _ _⟩ | exact (no_mask hmsk rfl hq).elim)))

theorem State.applyMirror_touches {msk : Nat} {s₀ : State} (s : State) (h : HubId) (m : Msg) (hmsk : 1901773397886571095764843613951 &&& msk = 1901773397886571095764843613951) (hk : Within msk s₀ s)  :
    Within msk s₀ (State.applyMirror s h m) := by
  unfold State.applyMirror
  try dsimp only
  repeat' (first
    | with_reducible assumption
    | exact sub_mask hmsk rfl
    | with_reducible apply State.record_touches
    | with_reducible apply State.mirrorRecovery_touches
    | with_reducible apply State.mergeLame_touches
    | with_reducible apply State.reconcileTake_touches
    | with_reducible apply State.chipStop_touches
    | with_reducible apply State.enterFault_touches
    | with_reducible apply State.modHub_touches
    | with_reducible exact HubWithin.refl _ _
    | split
    | intro (_ : Hub)
    | (refine ⟨?_⟩; intro q hq; cases q <;> first | exact rfl | exact (no_mask hmsk rfl hq).elim)
    | (refine HubWithin.lit ?_ (by intro q hq; cases q <;> first | exact rfl | exact (no_mask hmsk rfl hq).elim))
    | intro _
    | (refine Within.lit ?_ (by intro q hq; cases q <;> first | exact rfl | exact ⟨HubPart.same_refl _ _, HubPart.same_refl _ _⟩ | exact (no_mask hmsk rfl hq).elim)))

theorem State.claim_touches {msk : Nat} {s₀ : State} (s : State) (h : HubId) (hmsk : 147573952589676412928 &&& msk = 147573952589676412928) (hk : Within msk s₀ s)  :
    Within msk s₀ (State.claim s h) := by
  unfold State.claim
  try dsimp only
  repeat' (first
    | with_reducible assumption
    | exact sub_mask hmsk rfl
    | split
    | intro _
    | (refine Within.lit ?_ (by intro q hq; cases q <;> first | exact rfl | exact ⟨HubPart.same_refl _ _, HubPart.same_refl _ _⟩ | exact (no_mask hmsk rfl hq).elim)))

theorem State.rerunStage_touches {msk : Nat} {s₀ : State} (s : State) (hmsk : 4951807390029721832903409664 &&& msk = 4951807390029721832903409664) (hk : Within msk s₀ s)  :
    Within msk s₀ (State.rerunStage s) := by
  unfold State.rerunStage
  try dsimp only
  repeat' (first
    | with_reducible assumption
    | exact sub_mask hmsk rfl
    | split
    | intro _
    | (refine Within.lit ?_ (by intro q hq; cases q <;> first | exact rfl | exact ⟨HubPart.same_refl _ _, HubPart.same_refl _ _⟩ | exact (no_mask hmsk rfl hq).elim)))

end Sys2Proof.Machine
end

