-- ==== Sys2Proof/Laws/TouchesBringUp.lean ====
section
/-! SUPPORT. What every operation of Machine/BringUp.lean may touch. -/

namespace Sys2Proof.Machine

open Sys2Proof

theorem State.lameEach_touches {msk : Nat} {s₀ : State} (s : State) (l : List Nat) (hmsk : 1901475900417293231544144613111 &&& msk = 1901475900417293231544144613111) (hk : Within msk s₀ s)  :
    Within msk s₀ (State.lameEach s l) := by
  unfold State.lameEach
  try dsimp only
  repeat' (first
    | with_reducible assumption
    | exact sub_mask hmsk rfl
    | with_reducible apply State.each_touches
    | with_reducible apply State.eachHub_touches
    | with_reducible apply State.lameAll_touches
    | split
    | intro _
    | (refine Within.lit ?_ (by intro q hq; cases q <;> first | exact rfl | exact ⟨HubPart.same_refl _ _, HubPart.same_refl _ _⟩ | exact (no_mask hmsk rfl hq).elim)))

theorem State.oddReport_touches {msk : Nat} {s₀ : State} (s : State) (x : Nat × Nat × Nat) (hmsk : 1152921504606846976 &&& msk = 1152921504606846976) (hk : Within msk s₀ s)  :
    Within msk s₀ (State.oddReport s x) := by
  unfold State.oddReport
  try dsimp only
  repeat' (first
    | with_reducible assumption
    | exact sub_mask hmsk rfl
    | with_reducible apply State.modAgent_touches
    | split
    | intro _
    | (refine Within.lit ?_ (by intro q hq; cases q <;> first | exact rfl | exact ⟨HubPart.same_refl _ _, HubPart.same_refl _ _⟩ | exact (no_mask hmsk rfl hq).elim)))

theorem State.refuseItem_touches {msk : Nat} {s₀ : State} (s : State) (hmsk : 1267650701759108783194093162209 &&& msk = 1267650701759108783194093162209) (hk : Within msk s₀ s)  :
    Within msk s₀ (State.refuseItem s) := by
  unfold State.refuseItem
  try dsimp only
  repeat' (first
    | with_reducible assumption
    | exact sub_mask hmsk rfl
    | with_reducible apply State.failStage_touches
    | split
    | intro _
    | (refine Within.lit ?_ (by intro q hq; cases q <;> first | exact rfl | exact ⟨HubPart.same_refl _ _, HubPart.same_refl _ _⟩ | exact (no_mask hmsk rfl hq).elim)))

theorem State.place2_touches {msk : Nat} {s₀ : State} (s : State) (leader : HubId) (both : Bool) (mode : Nat) (hmsk : 1267650600486483818528636928000 &&& msk = 1267650600486483818528636928000) (hk : Within msk s₀ s)  :
    Within msk s₀ (State.place2 s leader both mode) := by
  unfold State.place2
  try dsimp only
  repeat' (first
    | with_reducible assumption
    | exact sub_mask hmsk rfl
    | with_reducible apply State.setMode_touches
    | split
    | intro _
    | (refine Within.lit ?_ (by intro q hq; cases q <;> first | exact rfl | exact ⟨HubPart.same_refl _ _, HubPart.same_refl _ _⟩ | exact (no_mask hmsk rfl hq).elim)))

theorem State.selfTestFault_touches {msk : Nat} {s₀ : State} (s : State) (h other : HubId) (hmsk : 2 &&& msk = 2) (hk : Within msk s₀ s)  :
    Within msk s₀ (State.selfTestFault s h other) := by
  unfold State.selfTestFault
  try dsimp only
  repeat' (first
    | with_reducible assumption
    | exact sub_mask hmsk rfl
    | with_reducible apply State.modHub_touches
    | with_reducible apply Hub.modSrc_touches
    | with_reducible exact HubWithin.refl _ _
    | split
    | intro (_ : Hub)
    | (refine ⟨?_⟩; intro q hq; cases q <;> first | exact rfl | exact (no_mask hmsk rfl hq).elim)
    | (refine HubWithin.lit ?_ (by intro q hq; cases q <;> first | exact rfl | exact (no_mask hmsk rfl hq).elim))
    | intro _
    | (refine Within.lit ?_ (by intro q hq; cases q <;> first | exact rfl | exact ⟨HubPart.same_refl _ _, HubPart.same_refl _ _⟩ | exact (no_mask hmsk rfl hq).elim)))

theorem State.trainDie_touches {msk : Nat} {s₀ : State} (s : State) (i : Nat) (ok : Bool) (hmsk : 2035470922138615537490803805951 &&& msk = 2035470922138615537490803805951) (hk : Within msk s₀ s)  :
    Within msk s₀ (State.trainDie s i ok) := by
  unfold State.trainDie
  try dsimp only
  repeat' (first
    | with_reducible assumption
    | exact sub_mask hmsk rfl
    | with_reducible apply State.modLink_touches
    | with_reducible apply State.each_touches
    | with_reducible apply State.eachHub_touches
    | with_reducible apply State.note_touches
    | with_reducible apply State.finding_touches
    | with_reducible apply State.lameAll_touches
    | split
    | intro _
    | (refine Within.lit ?_ (by intro q hq; cases q <;> first | exact rfl | exact ⟨HubPart.same_refl _ _, HubPart.same_refl _ _⟩ | exact (no_mask hmsk rfl hq).elim)))

theorem State.recordCheck_touches {msk : Nat} {s₀ : State} (s : State) (h : HubId) (accepted hot : Bool) (r : HarnessResult) (hmsk : 1688849860263936 &&& msk = 1688849860263936) (hk : Within msk s₀ s)  :
    Within msk s₀ (State.recordCheck s h accepted hot r) := by
  unfold State.recordCheck
  try dsimp only
  repeat' (first
    | with_reducible assumption
    | exact sub_mask hmsk rfl
    | with_reducible apply State.modHub_touches
    | with_reducible exact HubWithin.refl _ _
    | split
    | intro (_ : Hub)
    | (refine ⟨?_⟩; intro q hq; cases q <;> first | exact rfl | exact (no_mask hmsk rfl hq).elim)
    | (refine HubWithin.lit ?_ (by intro q hq; cases q <;> first | exact rfl | exact (no_mask hmsk rfl hq).elim))
    | intro _
    | (refine Within.lit ?_ (by intro q hq; cases q <;> first | exact rfl | exact ⟨HubPart.same_refl _ _, HubPart.same_refl _ _⟩ | exact (no_mask hmsk rfl hq).elim)))

theorem State.wakeMgmt_touches {msk : Nat} {s₀ : State} (s : State) (hmsk : 1267650600228238408695957946368 &&& msk = 1267650600228238408695957946368) (hk : Within msk s₀ s)  :
    Within msk s₀ (State.wakeMgmt s) := by
  unfold State.wakeMgmt
  try dsimp only
  repeat' (first
    | with_reducible assumption
    | exact sub_mask hmsk rfl
    | with_reducible apply State.present_touches
    | split
    | intro _
    | (refine Within.lit ?_ (by intro q hq; cases q <;> first | exact rfl | exact ⟨HubPart.same_refl _ _, HubPart.same_refl _ _⟩ | exact (no_mask hmsk rfl hq).elim)))

theorem State.acceptHarness_touches {msk : Nat} {s₀ : State} (s : State) (r : HarnessResult) (hmsk : 1267650902461999155362465841168 &&& msk = 1267650902461999155362465841168) (hk : Within msk s₀ s)  :
    Within msk s₀ (State.acceptHarness s r) := by
  unfold State.acceptHarness
  try dsimp only
  repeat' (first
    | with_reducible assumption
    | exact sub_mask hmsk rfl
    | with_reducible apply State.modHubs_touches
    | with_reducible apply State.each_touches
    | with_reducible apply State.modConc_touches
    | with_reducible apply State.eachHub_touches
    | with_reducible apply State.orderFences_touches
    | with_reducible apply State.wakeMgmt_touches
    | with_reducible exact HubWithin.refl _ _
    | split
    | intro (_ : Hub)
    | (refine ⟨?_⟩; intro q hq; cases q <;> first | exact rfl | exact (no_mask hmsk rfl hq).elim)
    | (refine HubWithin.lit ?_ (by intro q hq; cases q <;> first | exact rfl | exact (no_mask hmsk rfl hq).elim))
    | intro _
    | (refine Within.lit ?_ (by intro q hq; cases q <;> first | exact rfl | exact ⟨HubPart.same_refl _ _, HubPart.same_refl _ _⟩ | exact (no_mask hmsk rfl hq).elim)))

theorem State.sendPacket_touches {msk : Nat} {s₀ : State} (s : State) (len i : Nat) (dest : Option Nat) (hmsk : 9007199254740992 &&& msk = 9007199254740992) (hk : Within msk s₀ s)  :
    Within msk s₀ (State.sendPacket s len i dest) := by
  unfold State.sendPacket
  try dsimp only
  repeat' (first
    | with_reducible assumption
    | exact sub_mask hmsk rfl
    | with_reducible apply State.present_touches
    | split
    | intro _
    | (refine Within.lit ?_ (by intro q hq; cases q <;> first | exact rfl | exact ⟨HubPart.same_refl _ _, HubPart.same_refl _ _⟩ | exact (no_mask hmsk rfl hq).elim)))

theorem Hub.takeRecovery_touches {msk : Nat} {k₀ : Hub} (k : Hub) (rel : List Nat) (l : List (Nat × Nat)) (hmsk : 2 &&& msk = 2)
    (hk : HubWithin msk k₀ k) : HubWithin msk k₀ (k.takeRecovery rel l) := by
  unfold Hub.takeRecovery
  induction l generalizing k with
  | nil => exact hk
  | cons x l ih =>
    rw [List.foldl_cons]
    apply ih
    split
    · exact hk
    · exact Hub.modSrc_touches k _ _ hmsk hk

theorem State.applyPersist_touches {msk : Nat} {s₀ : State} (s : State) (p : Persist) (hmsk : 1901475900417293231544144625399 &&& msk = 1901475900417293231544144625399) (hk : Within msk s₀ s)  :
    Within msk s₀ (State.applyPersist s p).1 := by
  unfold State.applyPersist
  try dsimp only
  repeat' (first
    | with_reducible assumption
    | exact sub_mask hmsk rfl
    | with_reducible apply State.eachHub_touches
    | with_reducible apply State.modHub_touches
    | with_reducible apply State.lameEach_touches
    | with_reducible apply State.each_touches
    | with_reducible apply State.syncPaddock_touches
    | with_reducible apply Hub.takeRecovery_touches
    | with_reducible exact HubWithin.refl _ _
    | split
    | intro (_ : Hub)
    | (refine ⟨?_⟩; intro q hq; cases q <;> first | exact rfl | exact (no_mask hmsk rfl hq).elim)
    | (refine HubWithin.lit ?_ (by intro q hq; cases q <;> first | exact rfl | exact (no_mask hmsk rfl hq).elim))
    | intro _
    | (refine Within.lit ?_ (by intro q hq; cases q <;> first | exact rfl | exact ⟨HubPart.same_refl _ _, HubPart.same_refl _ _⟩ | exact (no_mask hmsk rfl hq).elim)))

theorem State.applyPersist_touchesOf {msk : Nat} {s₀ : State} {s : State} (p : Persist) {t : State} {rest}
    (hmsk : 1901475900417293231544144625399 &&& msk = 1901475900417293231544144625399) (heq : State.applyPersist s p = (t, rest)) (hk : Within msk s₀ s) : Within msk s₀ t := by
  have key := State.applyPersist_touches s p hmsk hk
  rw [heq] at key
  exact key

theorem State.twoRounds_touches {msk : Nat} {s₀ : State} (s : State) (h : HubId) (hmsk : 2035470922129392165456172011259 &&& msk = 2035470922129392165456172011259) (hk : Within msk s₀ s)  :
    Within msk s₀ (State.twoRounds s h) := by
  unfold State.twoRounds
  try dsimp only
  repeat' (first
    | with_reducible assumption
    | exact sub_mask hmsk rfl
    | with_reducible apply State.hkRound_touches
    | with_reducible apply State.each_touches
    | with_reducible apply State.modChan_touches
    | split
    | intro _
    | (refine Within.lit ?_ (by intro q hq; cases q <;> first | exact rfl | exact ⟨HubPart.same_refl _ _, HubPart.same_refl _ _⟩ | exact (no_mask hmsk rfl hq).elim)))

theorem State.laneFails_touches {msk : Nat} {s₀ : State} (s : State) (a l : Nat) (hmsk : 1901475900433434132608640470775 &&& msk = 1901475900433434132608640470775) (hk : Within msk s₀ s)  :
    Within msk s₀ (State.laneFails s a l) := by
  unfold State.laneFails
  try dsimp only
  repeat' (first
    | with_reducible assumption
    | exact sub_mask hmsk rfl
    | with_reducible apply State.modAgent_touches
    | with_reducible apply State.eachHub_touches
    | with_reducible apply State.finding_touches
    | with_reducible apply State.lameEach_touches
    | with_reducible apply State.report_touches
    | split
    | intro _
    | (refine Within.lit ?_ (by intro q hq; cases q <;> first | exact rfl | exact ⟨HubPart.same_refl _ _, HubPart.same_refl _ _⟩ | exact (no_mask hmsk rfl hq).elim)))

theorem State.unitFails_touches {msk : Nat} {s₀ : State} (s : State) (a u : Nat) (hmsk : 1901475900417293231544144613111 &&& msk = 1901475900417293231544144613111) (hk : Within msk s₀ s)  :
    Within msk s₀ (State.unitFails s a u) := by
  unfold State.unitFails
  try dsimp only
  repeat' (first
    | with_reducible assumption
    | exact sub_mask hmsk rfl
    | with_reducible apply State.eachHub_touches
    | with_reducible apply State.finding_touches
    | with_reducible apply State.lameEach_touches
    | split
    | intro _
    | (refine Within.lit ?_ (by intro q hq; cases q <;> first | exact rfl | exact ⟨HubPart.same_refl _ _, HubPart.same_refl _ _⟩ | exact (no_mask hmsk rfl hq).elim)))

theorem State.enterReady_touches {msk : Nat} {s₀ : State} (s : State) (hmsk : 1267652111386692887677000323041 &&& msk = 1267652111386692887677000323041) (hk : Within msk s₀ s)  :
    Within msk s₀ (State.enterReady s) := by
  unfold State.enterReady
  try dsimp only
  repeat' (first
    | with_reducible assumption
    | exact sub_mask hmsk rfl
    | with_reducible apply State.eachHub_touches
    | with_reducible apply State.modHub_touches
    | with_reducible apply State.setSt_touches
    | with_reducible apply State.each_touches
    | with_reducible apply State.modAgent_touches
    | with_reducible apply State.reelMark_touches
    | with_reducible exact HubWithin.refl _ _
    | split
    | intro (_ : Hub)
    | (refine ⟨?_⟩; intro q hq; cases q <;> first | exact rfl | exact (no_mask hmsk rfl hq).elim)
    | (refine HubWithin.lit ?_ (by intro q hq; cases q <;> first | exact rfl | exact (no_mask hmsk rfl hq).elim))
    | intro _
    | (refine Within.lit ?_ (by intro q hq; cases q <;> first | exact rfl | exact ⟨HubPart.same_refl _ _, HubPart.same_refl _ _⟩ | exact (no_mask hmsk rfl hq).elim)))

end Sys2Proof.Machine
end

