-- ==== Sys2Proof/Laws/TouchesManagement.lean ====
section
/-! SUPPORT. What every operation of Machine/Management.lean may touch. -/

namespace Sys2Proof.Machine

open Sys2Proof

theorem State.modMgmt_touches {msk : Nat} {s₀ : State} (s : State) (f : Mgmt → Mgmt) (hmsk : 1267650600228229401496703205376 &&& msk = 1267650600228229401496703205376) (hk : Within msk s₀ s)  :
    Within msk s₀ (State.modMgmt s f) := by
  unfold State.modMgmt
  try dsimp only
  repeat' (first
    | with_reducible assumption
    | exact sub_mask hmsk rfl
    | split
    | intro _
    | (refine Within.lit ?_ (by intro q hq; cases q <;> first | exact rfl | exact ⟨HubPart.same_refl _ _, HubPart.same_refl _ _⟩ | exact (no_mask hmsk rfl hq).elim)))

theorem State.mgmtReply_touches {msk : Nat} {s₀ : State} (s : State) (r : MgmtReply) (hmsk : 9007199254740992 &&& msk = 9007199254740992) (hk : Within msk s₀ s)  :
    Within msk s₀ (State.mgmtReply s r) := by
  unfold State.mgmtReply
  try dsimp only
  repeat' (first
    | with_reducible assumption
    | exact sub_mask hmsk rfl
    | with_reducible apply State.present_touches
    | split
    | intro _
    | (refine Within.lit ?_ (by intro q hq; cases q <;> first | exact rfl | exact ⟨HubPart.same_refl _ _, HubPart.same_refl _ _⟩ | exact (no_mask hmsk rfl hq).elim)))

theorem State.answer_touches {msk : Nat} {s₀ : State} (s : State) (r : State → MgmtReply) (f : Mgmt → Mgmt) (hmsk : 1267650600228238408695957946368 &&& msk = 1267650600228238408695957946368) (hk : Within msk s₀ s)  :
    Within msk s₀ (State.answer s r f) := by
  unfold State.answer
  try dsimp only
  repeat' (first
    | with_reducible assumption
    | exact sub_mask hmsk rfl
    | with_reducible apply State.modMgmt_touches
    | with_reducible apply State.mgmtReply_touches
    | split
    | intro _
    | (refine Within.lit ?_ (by intro q hq; cases q <;> first | exact rfl | exact ⟨HubPart.same_refl _ _, HubPart.same_refl _ _⟩ | exact (no_mask hmsk rfl hq).elim)))

theorem State.pdrEvent_touches {msk : Nat} {s₀ : State} (s : State) (l : List (BitVec 16)) (hmsk : 1267650600228229401496703205376 &&& msk = 1267650600228229401496703205376) (hk : Within msk s₀ s)  :
    Within msk s₀ (State.pdrEvent s l) := by
  unfold State.pdrEvent
  try dsimp only
  repeat' (first
    | with_reducible assumption
    | exact sub_mask hmsk rfl
    | with_reducible apply State.mgmtPush_touches
    | split
    | intro _
    | (refine Within.lit ?_ (by intro q hq; cases q <;> first | exact rfl | exact ⟨HubPart.same_refl _ _, HubPart.same_refl _ _⟩ | exact (no_mask hmsk rfl hq).elim)))

theorem State.releaseDaily_touches {msk : Nat} {s₀ : State} (s : State) (e : MgmtEvent) (hmsk : 39582418599936 &&& msk = 39582418599936) (hk : Within msk s₀ s)  :
    Within msk s₀ (State.releaseDaily s e) := by
  unfold State.releaseDaily
  try dsimp only
  repeat' (first
    | with_reducible assumption
    | exact sub_mask hmsk rfl
    | with_reducible apply State.modHubs_touches
    | with_reducible apply State.modHub_touches
    | with_reducible exact HubWithin.refl _ _
    | split
    | intro (_ : Hub)
    | (refine ⟨?_⟩; intro q hq; cases q <;> first | exact rfl | exact (no_mask hmsk rfl hq).elim)
    | (refine HubWithin.lit ?_ (by intro q hq; cases q <;> first | exact rfl | exact (no_mask hmsk rfl hq).elim))
    | intro _
    | (refine Within.lit ?_ (by intro q hq; cases q <;> first | exact rfl | exact ⟨HubPart.same_refl _ _, HubPart.same_refl _ _⟩ | exact (no_mask hmsk rfl hq).elim)))

theorem State.markSending_touches {msk : Nat} {s₀ : State} (s : State) (e : MgmtEvent) (hmsk : 4398046511104 &&& msk = 4398046511104) (hk : Within msk s₀ s)  :
    Within msk s₀ (State.markSending s e) := by
  unfold State.markSending
  try dsimp only
  repeat' (first
    | with_reducible assumption
    | exact sub_mask hmsk rfl
    | with_reducible apply State.modHub_touches
    | with_reducible exact HubWithin.refl _ _
    | split
    | intro (_ : Hub)
    | (refine ⟨?_⟩; intro q hq; cases q <;> first | exact rfl | exact (no_mask hmsk rfl hq).elim)
    | (refine HubWithin.lit ?_ (by intro q hq; cases q <;> first | exact rfl | exact (no_mask hmsk rfl hq).elim))
    | intro _
    | (refine Within.lit ?_ (by intro q hq; cases q <;> first | exact rfl | exact ⟨HubPart.same_refl _ _, HubPart.same_refl _ _⟩ | exact (no_mask hmsk rfl hq).elim)))

theorem State.holdPolled_touches {msk : Nat} {s₀ : State} (s : State) (e : MgmtEvent) (hmsk : 1267650600228229401496703205376 &&& msk = 1267650600228229401496703205376) (hk : Within msk s₀ s)  :
    Within msk s₀ (State.holdPolled s e) := by
  unfold State.holdPolled
  try dsimp only
  repeat' (first
    | with_reducible assumption
    | exact sub_mask hmsk rfl
    | with_reducible apply State.modMgmt_touches
    | split
    | intro _
    | (refine Within.lit ?_ (by intro q hq; cases q <;> first | exact rfl | exact ⟨HubPart.same_refl _ _, HubPart.same_refl _ _⟩ | exact (no_mask hmsk rfl hq).elim)))

theorem State.interrupt_touches {msk : Nat} {s₀ : State} (s : State) (hmsk : 9007199254740992 &&& msk = 9007199254740992) (hk : Within msk s₀ s)  :
    Within msk s₀ (State.interrupt s) := by
  unfold State.interrupt
  try dsimp only
  repeat' (first
    | with_reducible assumption
    | exact sub_mask hmsk rfl
    | with_reducible apply State.present_touches
    | split
    | intro _
    | (refine Within.lit ?_ (by intro q hq; cases q <;> first | exact rfl | exact ⟨HubPart.same_refl _ _, HubPart.same_refl _ _⟩ | exact (no_mask hmsk rfl hq).elim)))

theorem State.sendEvent_touches {msk : Nat} {s₀ : State} (s : State) (announced : Bool) (e : MgmtEvent) (hmsk : 9007199254740992 &&& msk = 9007199254740992) (hk : Within msk s₀ s)  :
    Within msk s₀ (State.sendEvent s announced e) := by
  unfold State.sendEvent
  try dsimp only
  repeat' (first
    | with_reducible assumption
    | exact sub_mask hmsk rfl
    | with_reducible apply State.present_touches
    | split
    | intro _
    | (refine Within.lit ?_ (by intro q hq; cases q <;> first | exact rfl | exact ⟨HubPart.same_refl _ _, HubPart.same_refl _ _⟩ | exact (no_mask hmsk rfl hq).elim)))

theorem State.releasePolled_touches {msk : Nat} {s₀ : State} (s : State) (e : MgmtEvent) (hmsk : 1267650600228229441079121805312 &&& msk = 1267650600228229441079121805312) (hk : Within msk s₀ s)  :
    Within msk s₀ (State.releasePolled s e) := by
  unfold State.releasePolled
  try dsimp only
  repeat' (first
    | with_reducible assumption
    | exact sub_mask hmsk rfl
    | with_reducible apply State.modMgmt_touches
    | with_reducible apply State.releaseDaily_touches
    | split
    | intro _
    | (refine Within.lit ?_ (by intro q hq; cases q <;> first | exact rfl | exact ⟨HubPart.same_refl _ _, HubPart.same_refl _ _⟩ | exact (no_mask hmsk rfl hq).elim)))

end Sys2Proof.Machine
end

