-- ==== Sys2Proof/Laws/TouchesCommands.lean ====
section
/-! SUPPORT. What every operation of Machine/Commands.lean may touch. -/

namespace Sys2Proof.Machine

open Sys2Proof

theorem State.overrunCmd_touches {msk : Nat} {s₀ : State} (s : State) (hmsk : 2361183241434822606848 &&& msk = 2361183241434822606848) (hk : Within msk s₀ s)  :
    Within msk s₀ (State.overrunCmd s) := by
  unfold State.overrunCmd
  try dsimp only
  repeat' (first
    | with_reducible assumption
    | exact sub_mask hmsk rfl
    | with_reducible apply State.refuseWord_touches
    | split
    | intro _
    | (refine Within.lit ?_ (by intro q hq; cases q <;> first | exact rfl | exact ⟨HubPart.same_refl _ _, HubPart.same_refl _ _⟩ | exact (no_mask hmsk rfl hq).elim)))

theorem State.acceptCmd_touches {msk : Nat} {s₀ : State} (s : State) (op : Nat) (tag : Byte) (hmsk : 2434970217729660813312 &&& msk = 2434970217729660813312) (hk : Within msk s₀ s)  :
    Within msk s₀ (State.acceptCmd s op tag) := by
  unfold State.acceptCmd
  try dsimp only
  repeat' (first
    | with_reducible assumption
    | exact sub_mask hmsk rfl
    | with_reducible apply State.mirrorWrite_touches
    | split
    | intro _
    | (refine Within.lit ?_ (by intro q hq; cases q <;> first | exact rfl | exact ⟨HubPart.same_refl _ _, HubPart.same_refl _ _⟩ | exact (no_mask hmsk rfl hq).elim)))

theorem State.refuseLoad_touches {msk : Nat} {s₀ : State} (s : State) (hmsk : 2361183241434823655424 &&& msk = 2361183241434823655424) (hk : Within msk s₀ s)  :
    Within msk s₀ (State.refuseLoad s) := by
  unfold State.refuseLoad
  try dsimp only
  repeat' (first
    | with_reducible assumption
    | exact sub_mask hmsk rfl
    | with_reducible apply State.refuseWord_touches
    | with_reducible apply State.modHubs_touches
    | with_reducible exact HubWithin.refl _ _
    | split
    | intro (_ : Hub)
    | (refine ⟨?_⟩; intro q hq; cases q <;> first | exact rfl | exact (no_mask hmsk rfl hq).elim)
    | (refine HubWithin.lit ?_ (by intro q hq; cases q <;> first | exact rfl | exact (no_mask hmsk rfl hq).elim))
    | intro _
    | (refine Within.lit ?_ (by intro q hq; cases q <;> first | exact rfl | exact ⟨HubPart.same_refl _ _, HubPart.same_refl _ _⟩ | exact (no_mask hmsk rfl hq).elim)))

theorem State.issue_touches {msk : Nat} {s₀ : State} (s : State) (op : Nat) (tag : Byte) (states : List HubSt) (masks : W32 × W32 × W32 × W32)
    (argOk : State → Bool) (act : State → State) (hmsk : 2434970217729661861888 &&& msk = 2434970217729661861888) (hk : Within msk s₀ s) (ha : ∀ t, Within msk s₀ t → Within msk s₀ (act t)) :
    Within msk s₀ (State.issue s op tag states masks argOk act) := by
  unfold State.issue
  try dsimp only
  repeat' (first
    | with_reducible assumption
    | exact sub_mask hmsk rfl
    | with_reducible apply ha
    | with_reducible apply State.refuseLoad_touches
    | with_reducible apply State.overrunCmd_touches
    | with_reducible apply State.acceptCmd_touches
    | with_reducible apply State.refuseWord_touches
    | with_reducible apply State.endCmd_touches
    | split
    | intro _
    | (refine Within.lit ?_ (by intro q hq; cases q <;> first | exact rfl | exact ⟨HubPart.same_refl _ _, HubPart.same_refl _ _⟩ | exact (no_mask hmsk rfl hq).elim)))

theorem State.consented_touches {msk : Nat} {s₀ : State} (s : State) (x : CmdAct) (act : State → State) (hmsk : 2398076729582241710080 &&& msk = 2398076729582241710080) (hk : Within msk s₀ s) (ha : ∀ t, Within msk s₀ t → Within msk s₀ (act t)) :
    Within msk s₀ (State.consented s x act) := by
  unfold State.consented
  try dsimp only
  repeat' (first
    | with_reducible assumption
    | exact sub_mask hmsk rfl
    | with_reducible apply ha
    | split
    | intro _
    | (refine Within.lit ?_ (by intro q hq; cases q <;> first | exact rfl | exact ⟨HubPart.same_refl _ _, HubPart.same_refl _ _⟩ | exact (no_mask hmsk rfl hq).elim)))

theorem State.startAct_touches {msk : Nat} {s₀ : State} (s : State) (hmsk : 1267650746621599377654959570945 &&& msk = 1267650746621599377654959570945) (hk : Within msk s₀ s)  :
    Within msk s₀ (State.startAct s) := by
  unfold State.startAct
  try dsimp only
  repeat' (first
    | with_reducible assumption
    | exact sub_mask hmsk rfl
    | with_reducible apply State.eachHub_touches
    | with_reducible apply State.setSt_touches
    | with_reducible apply State.beginStage_touches
    | split
    | intro _
    | (refine Within.lit ?_ (by intro q hq; cases q <;> first | exact rfl | exact ⟨HubPart.same_refl _ _, HubPart.same_refl _ _⟩ | exact (no_mask hmsk rfl hq).elim)))

theorem State.loadHarnessAct_touches {msk : Nat} {s₀ : State} (s : State) (hmsk : 304592638145092117331968 &&& msk = 304592638145092117331968) (hk : Within msk s₀ s)  :
    Within msk s₀ (State.loadHarnessAct s) := by
  unfold State.loadHarnessAct
  try dsimp only
  repeat' (first
    | with_reducible assumption
    | exact sub_mask hmsk rfl
    | with_reducible apply State.endCmd_touches
    | split
    | intro _
    | (refine Within.lit ?_ (by intro q hq; cases q <;> first | exact rfl | exact ⟨HubPart.same_refl _ _, HubPart.same_refl _ _⟩ | exact (no_mask hmsk rfl hq).elim)))

theorem State.runAct_touches {msk : Nat} {s₀ : State} (s : State) (hmsk : 1267650602589412642931526860801 &&& msk = 1267650602589412642931526860801) (hk : Within msk s₀ s)  :
    Within msk s₀ (State.runAct s) := by
  unfold State.runAct
  try dsimp only
  repeat' (first
    | with_reducible assumption
    | exact sub_mask hmsk rfl
    | with_reducible apply State.eachHub_touches
    | with_reducible apply State.setSt_touches
    | with_reducible apply State.endCmd_touches
    | split
    | intro _
    | (refine Within.lit ?_ (by intro q hq; cases q <;> first | exact rfl | exact ⟨HubPart.same_refl _ _, HubPart.same_refl _ _⟩ | exact (no_mask hmsk rfl hq).elim)))

theorem State.saveAct_touches {msk : Nat} {s₀ : State} (s : State) (hmsk : 1267650602589421650130781601793 &&& msk = 1267650602589421650130781601793) (hk : Within msk s₀ s)  :
    Within msk s₀ (State.saveAct s) := by
  unfold State.saveAct
  try dsimp only
  repeat' (first
    | with_reducible assumption
    | exact sub_mask hmsk rfl
    | with_reducible apply State.refuseWord_touches
    | with_reducible apply State.endCmd_touches
    | with_reducible apply State.present_touches
    | with_reducible apply State.eachHub_touches
    | with_reducible apply State.setSt_touches
    | split
    | intro _
    | (refine Within.lit ?_ (by intro q hq; cases q <;> first | exact rfl | exact ⟨HubPart.same_refl _ _, HubPart.same_refl _ _⟩ | exact (no_mask hmsk rfl hq).elim)))

theorem State.loadSlate_touches {msk : Nat} {s₀ : State} (s : State) (x : SavedSlate) (hmsk : 4954178009933671862552887296 &&& msk = 4954178009933671862552887296) (hk : Within msk s₀ s)  :
    Within msk s₀ (State.loadSlate s x) := by
  unfold State.loadSlate
  try dsimp only
  repeat' (first
    | with_reducible assumption
    | exact sub_mask hmsk rfl
    | with_reducible apply State.modHubs_touches
    | with_reducible apply State.clearChoices_touches
    | with_reducible apply State.dropHeld_touches
    | with_reducible apply State.modJob_touches
    | with_reducible exact HubWithin.refl _ _
    | split
    | intro (_ : Hub)
    | (refine ⟨?_⟩; intro q hq; cases q <;> first | exact rfl | exact (no_mask hmsk rfl hq).elim)
    | (refine HubWithin.lit ?_ (by intro q hq; cases q <;> first | exact rfl | exact (no_mask hmsk rfl hq).elim))
    | intro _
    | (refine Within.lit ?_ (by intro q hq; cases q <;> first | exact rfl | exact ⟨HubPart.same_refl _ _, HubPart.same_refl _ _⟩ | exact (no_mask hmsk rfl hq).elim)))

theorem State.loadEnvelope_touches {msk : Nat} {s₀ : State} (s : State) (x : SavedEnvelope) (hmsk : 2305843009213693952 &&& msk = 2305843009213693952) (hk : Within msk s₀ s)  :
    Within msk s₀ (State.loadEnvelope s x) := by
  unfold State.loadEnvelope
  try dsimp only
  repeat' (first
    | with_reducible assumption
    | exact sub_mask hmsk rfl
    | with_reducible apply State.modConc_touches
    | split
    | intro _
    | (refine Within.lit ?_ (by intro q hq; cases q <;> first | exact rfl | exact ⟨HubPart.same_refl _ _, HubPart.same_refl _ _⟩ | exact (no_mask hmsk rfl hq).elim)))

theorem Hub.loadSources_touches {msk : Nat} {k₀ : Hub} (k : Hub) (i : SaveImage) (hmsk : 65538 &&& msk = 65538) (hk : HubWithin msk k₀ k) :
    HubWithin msk k₀ (Hub.loadSources k i) := by
  unfold Hub.loadSources
  try dsimp only
  repeat' (first
    | with_reducible assumption
    | exact sub_mask hmsk rfl
    | split
    | intro _
    | (refine HubWithin.trans (by assumption) ?_; refine ⟨?_⟩; intro q hq; cases q <;> first | exact rfl | exact (no_mask hmsk rfl hq).elim)
    | (refine HubWithin.lit ?_ (by intro q hq; cases q <;> first | exact rfl | exact (no_mask hmsk rfl hq).elim)))

theorem State.loadUnits_touches {msk : Nat} {s₀ : State} (s : State) (i : SaveImage) (hmsk : 633825300115276629452213256194 &&& msk = 633825300115276629452213256194) (hk : Within msk s₀ s)  :
    Within msk s₀ (State.loadUnits s i) := by
  unfold State.loadUnits
  repeat' (first
    | with_reducible assumption
    | exact sub_mask hmsk rfl
    | with_reducible apply State.eachHub_touches
    | with_reducible apply State.modHub_touches
    | with_reducible apply State.each_touches
    | with_reducible apply State.syncPaddock_touches
    | with_reducible apply Hub.loadSources_touches
    | with_reducible exact HubWithin.refl _ _
    | (extract_lets +onlyGivenNames zz; refine Within.cut (s := s₀) (t := zz) (m := msk) ?_ ?_; dsimp only [zz]; clear zz; rotate_left; clear_value zz; revert zz; intro _ _)
    | (extract_lets +onlyGivenNames zz; clear_value zz; revert zz; intro _)
    | split
    | intro (_ : Hub)
    | (refine ⟨?_⟩; intro q hq; cases q <;> first | exact rfl | exact (no_mask hmsk rfl hq).elim)
    | (refine HubWithin.lit ?_ (by intro q hq; cases q <;> first | exact rfl | exact (no_mask hmsk rfl hq).elim))
    | intro _
    | (refine Within.lit ?_ (by intro q hq; cases q <;> first | exact rfl | exact ⟨HubPart.same_refl _ _, HubPart.same_refl _ _⟩ | exact (no_mask hmsk rfl hq).elim)))

theorem State.loadImage_touches {msk : Nat} {s₀ : State} (s : State) (i : SaveImage) (hmsk : 1054727633557705898842772406274 &&& msk = 1054727633557705898842772406274) (hk : Within msk s₀ s)  :
    Within msk s₀ (State.loadImage s i) := by
  unfold State.loadImage
  try dsimp only
  repeat' (first
    | with_reducible assumption
    | exact sub_mask hmsk rfl
    | with_reducible apply State.each_touches
    | with_reducible apply State.loadSlate_touches
    | with_reducible apply State.loadEnvelope_touches
    | with_reducible apply State.modConc_touches
    | with_reducible apply State.modStream_touches
    | with_reducible apply State.loadUnits_touches
    | split
    | intro _
    | (refine Within.lit ?_ (by intro q hq; cases q <;> first | exact rfl | exact ⟨HubPart.same_refl _ _, HubPart.same_refl _ _⟩ | exact (no_mask hmsk rfl hq).elim)))

theorem State.restoreAct_touches {msk : Nat} {s₀ : State} (s : State) (image : SaveImage) (hmsk : 2322378236147118541774299267075 &&& msk = 2322378236147118541774299267075) (hk : Within msk s₀ s)  :
    Within msk s₀ (State.restoreAct s image) := by
  unfold State.restoreAct
  try dsimp only
  repeat' (first
    | with_reducible assumption
    | exact sub_mask hmsk rfl
    | with_reducible apply State.loadImage_touches
    | with_reducible apply State.eachHub_touches
    | with_reducible apply State.setSt_touches
    | with_reducible apply State.endCmd_touches
    | split
    | intro _
    | (refine Within.lit ?_ (by intro q hq; cases q <;> first | exact rfl | exact ⟨HubPart.same_refl _ _, HubPart.same_refl _ _⟩ | exact (no_mask hmsk rfl hq).elim)))

theorem State.placeByDriver_touches {msk : Nat} {s₀ : State} (s : State) (h : HubId) (a : Nat) (hmsk : 1901773397886571095764843466491 &&& msk = 1901773397886571095764843466491) (hk : Within msk s₀ s)  :
    Within msk s₀ (State.placeByDriver s h a) := by
  unfold State.placeByDriver
  try dsimp only
  repeat' (first
    | with_reducible assumption
    | exact sub_mask hmsk rfl
    | with_reducible apply State.place_touches
    | with_reducible apply State.modHub_touches
    | with_reducible exact HubWithin.refl _ _
    | split
    | intro (_ : Hub)
    | (refine ⟨?_⟩; intro q hq; cases q <;> first | exact rfl | exact (no_mask hmsk rfl hq).elim)
    | (refine HubWithin.lit ?_ (by intro q hq; cases q <;> first | exact rfl | exact (no_mask hmsk rfl hq).elim))
    | intro _
    | (refine Within.lit ?_ (by intro q hq; cases q <;> first | exact rfl | exact ⟨HubPart.same_refl _ _, HubPart.same_refl _ _⟩ | exact (no_mask hmsk rfl hq).elim)))

theorem State.clearFollower_touches {msk : Nat} {s₀ : State} (s : State) (h : HubId) (p : Nat) (hmsk : 1901773397886571095764843482875 &&& msk = 1901773397886571095764843482875) (hk : Within msk s₀ s)  :
    Within msk s₀ (State.clearFollower s h p) := by
  unfold State.clearFollower
  try dsimp only
  repeat' (first
    | with_reducible assumption
    | exact sub_mask hmsk rfl
    | with_reducible apply State.modHub_touches
    | with_reducible apply State.takeRecovery_touches
    | with_reducible apply Hub.modSrc_touches
    | with_reducible exact HubWithin.refl _ _
    | split
    | intro (_ : Hub)
    | (refine ⟨?_⟩; intro q hq; cases q <;> first | exact rfl | exact (no_mask hmsk rfl hq).elim)
    | (refine HubWithin.lit ?_ (by intro q hq; cases q <;> first | exact rfl | exact (no_mask hmsk rfl hq).elim))
    | intro _
    | (refine Within.lit ?_ (by intro q hq; cases q <;> first | exact rfl | exact ⟨HubPart.same_refl _ _, HubPart.same_refl _ _⟩ | exact (no_mask hmsk rfl hq).elim)))

theorem State.clearSourceAct_touches {msk : Nat} {s₀ : State} (s : State) (hmsk : 1902082882905615812870423039743 &&& msk = 1902082882905615812870423039743) (hk : Within msk s₀ s)  :
    Within msk s₀ (State.clearSourceAct s) := by
  unfold State.clearSourceAct
  try dsimp only
  repeat' (first
    | with_reducible assumption
    | exact sub_mask hmsk rfl
    | with_reducible apply State.onQuiet_touches
    | with_reducible apply State.modHub_touches
    | with_reducible apply State.clearFollower_touches
    | with_reducible apply State.startWaiting_touches
    | with_reducible apply State.endCmd_touches
    | with_reducible apply Hub.modSrc_touches
    | with_reducible exact HubWithin.refl _ _
    | split
    | intro (_ : Hub)
    | (refine ⟨?_⟩; intro q hq; cases q <;> first | exact rfl | exact (no_mask hmsk rfl hq).elim)
    | (refine HubWithin.lit ?_ (by intro q hq; cases q <;> first | exact rfl | exact (no_mask hmsk rfl hq).elim))
    | intro _
    | (refine Within.lit ?_ (by intro q hq; cases q <;> first | exact rfl | exact ⟨HubPart.same_refl _ _, HubPart.same_refl _ _⟩ | exact (no_mask hmsk rfl hq).elim)))

theorem State.setBandAct_touches {msk : Nat} {s₀ : State} (s : State) (sel lo hi : W32) (hmsk : 2475882439754001984621903872 &&& msk = 2475882439754001984621903872) (hk : Within msk s₀ s)  :
    Within msk s₀ (State.setBandAct s sel lo hi) := by
  unfold State.setBandAct
  try dsimp only
  repeat' (first
    | with_reducible assumption
    | exact sub_mask hmsk rfl
    | with_reducible apply State.endCmd_touches
    | split
    | intro _
    | (refine Within.lit ?_ (by intro q hq; cases q <;> first | exact rfl | exact ⟨HubPart.same_refl _ _, HubPart.same_refl _ _⟩ | exact (no_mask hmsk rfl hq).elim)))

theorem State.finishMerge_touches {msk : Nat} {s₀ : State} (s : State) (h : HubId) (hmsk : 1901766144184079458698653847295 &&& msk = 1901766144184079458698653847295) (hk : Within msk s₀ s)  :
    Within msk s₀ (State.finishMerge s h) := by
  unfold State.finishMerge
  try dsimp only
  repeat' (first
    | with_reducible assumption
    | exact sub_mask hmsk rfl
    | with_reducible apply State.each_touches
    | with_reducible apply State.mergeSection_touches
    | with_reducible apply State.modHub_touches
    | with_reducible exact HubWithin.refl _ _
    | split
    | intro (_ : Hub)
    | (refine ⟨?_⟩; intro q hq; cases q <;> first | exact rfl | exact (no_mask hmsk rfl hq).elim)
    | (refine HubWithin.lit ?_ (by intro q hq; cases q <;> first | exact rfl | exact (no_mask hmsk rfl hq).elim))
    | intro _
    | (refine Within.lit ?_ (by intro q hq; cases q <;> first | exact rfl | exact ⟨HubPart.same_refl _ _, HubPart.same_refl _ _⟩ | exact (no_mask hmsk rfl hq).elim)))

theorem State.signResult_touches {msk : Nat} {s₀ : State} (s : State) (tag : Byte) (sub : Nat) (argOk : State → Bool) (x : CmdAct) (act : State → State) (hmsk : 2471872713076335706112 &&& msk = 2471872713076335706112) (hk : Within msk s₀ s) (ha : ∀ t, Within msk s₀ t → Within msk s₀ (act t)) :
    Within msk s₀ (State.signResult s tag sub argOk x act) := by
  unfold State.signResult
  try dsimp only
  repeat' (first
    | with_reducible assumption
    | exact sub_mask hmsk rfl
    | with_reducible apply ha
    | with_reducible apply State.portDo_touches
    | with_reducible apply State.issue_touches
    | with_reducible apply State.consented_touches
    | split
    | intro _
    | (refine Within.lit ?_ (by intro q hq; cases q <;> first | exact rfl | exact ⟨HubPart.same_refl _ _, HubPart.same_refl _ _⟩ | exact (no_mask hmsk rfl hq).elim)))

theorem State.signBegin_touches {msk : Nat} {s₀ : State} (s : State) (hmsk : 158456325028528675187087900672 &&& msk = 158456325028528675187087900672) (hk : Within msk s₀ s)  :
    Within msk s₀ (State.signBegin s) := by
  unfold State.signBegin
  try dsimp only
  repeat' (first
    | with_reducible assumption
    | exact sub_mask hmsk rfl
    | split
    | intro _
    | (refine Within.lit ?_ (by intro q hq; cases q <;> first | exact rfl | exact ⟨HubPart.same_refl _ _, HubPart.same_refl _ _⟩ | exact (no_mask hmsk rfl hq).elim)))

theorem State.signOpenAct_touches {msk : Nat} {s₀ : State} (s : State) (weights : List (List W32)) (hmsk : 237684489903976254215455506432 &&& msk = 237684489903976254215455506432) (hk : Within msk s₀ s)  :
    Within msk s₀ (State.signOpenAct s weights) := by
  unfold State.signOpenAct
  try dsimp only
  repeat' (first
    | with_reducible assumption
    | exact sub_mask hmsk rfl
    | with_reducible apply State.signBegin_touches
    | with_reducible apply State.modStream_touches
    | with_reducible apply State.endCmd_touches
    | split
    | intro _
    | (refine Within.lit ?_ (by intro q hq; cases q <;> first | exact rfl | exact ⟨HubPart.same_refl _ _, HubPart.same_refl _ _⟩ | exact (no_mask hmsk rfl hq).elim)))

theorem State.signAct_touches {msk : Nat} {s₀ : State} (s : State) (hmsk : 237684489903976254215455506432 &&& msk = 237684489903976254215455506432) (hk : Within msk s₀ s)  :
    Within msk s₀ (State.signAct s) := by
  unfold State.signAct
  try dsimp only
  repeat' (first
    | with_reducible assumption
    | exact sub_mask hmsk rfl
    | with_reducible apply State.signBegin_touches
    | with_reducible apply State.finishSign_touches
    | split
    | intro _
    | (refine Within.lit ?_ (by intro q hq; cases q <;> first | exact rfl | exact ⟨HubPart.same_refl _ _, HubPart.same_refl _ _⟩ | exact (no_mask hmsk rfl hq).elim)))

theorem State.launchAct_touches {msk : Nat} {s₀ : State} (s : State) (hmsk : 2420212822470693173067776 &&& msk = 2420212822470693173067776) (hk : Within msk s₀ s)  :
    Within msk s₀ (State.launchAct s) := by
  unfold State.launchAct
  try dsimp only
  repeat' (first
    | with_reducible assumption
    | exact sub_mask hmsk rfl
    | with_reducible apply State.modJob_touches
    | with_reducible apply State.endCmd_touches
    | split
    | intro _
    | (refine Within.lit ?_ (by intro q hq; cases q <;> first | exact rfl | exact ⟨HubPart.same_refl _ _, HubPart.same_refl _ _⟩ | exact (no_mask hmsk rfl hq).elim)))

theorem State.withHot_touches {msk : Nat} {s₀ : State} (s : State) (recs : List Rec) (seq : W32) (hmsk : 302231454903657293676544 &&& msk = 302231454903657293676544) (hk : Within msk s₀ s)  :
    Within msk s₀ (State.withHot s recs seq) := by
  unfold State.withHot
  try dsimp only
  repeat' (first
    | with_reducible assumption
    | exact sub_mask hmsk rfl
    | split
    | intro _
    | (refine Within.lit ?_ (by intro q hq; cases q <;> first | exact rfl | exact ⟨HubPart.same_refl _ _, HubPart.same_refl _ _⟩ | exact (no_mask hmsk rfl hq).elim)))

theorem State.hotAct_touches {msk : Nat} {s₀ : State} (s : State) (wordsA wordsB : List W32) (hmsk : 1267650904820869235438680801280 &&& msk = 1267650904820869235438680801280) (hk : Within msk s₀ s)  :
    Within msk s₀ (State.hotAct s wordsA wordsB) := by
  unfold State.hotAct
  try dsimp only
  repeat' (first
    | with_reducible assumption
    | exact sub_mask hmsk rfl
    | with_reducible apply State.recordCheck_touches
    | with_reducible apply State.endCmd_touches
    | with_reducible apply State.withHot_touches
    | with_reducible apply State.pdrEvent_touches
    | split
    | intro _
    | (refine Within.lit ?_ (by intro q hq; cases q <;> first | exact rfl | exact ⟨HubPart.same_refl _ _, HubPart.same_refl _ _⟩ | exact (no_mask hmsk rfl hq).elim)))

theorem State.replayAct_touches {msk : Nat} {s₀ : State} (s : State) (recorded : List InlogEntry) (hmsk : 39614083618315410231595630592 &&& msk = 39614083618315410231595630592) (hk : Within msk s₀ s)  :
    Within msk s₀ (State.replayAct s recorded) := by
  unfold State.replayAct
  try dsimp only
  repeat' (first
    | with_reducible assumption
    | exact sub_mask hmsk rfl
    | with_reducible apply State.endCmd_touches
    | split
    | intro _
    | (refine Within.lit ?_ (by intro q hq; cases q <;> first | exact rfl | exact ⟨HubPart.same_refl _ _, HubPart.same_refl _ _⟩ | exact (no_mask hmsk rfl hq).elim)))

theorem State.reservedOp_touches {msk : Nat} {s₀ : State} (s : State) (data : W32) (hmsk : 2434970217729661861888 &&& msk = 2434970217729661861888) (hk : Within msk s₀ s)  :
    Within msk s₀ (State.reservedOp s data) := by
  unfold State.reservedOp
  try dsimp only
  repeat' (first
    | with_reducible assumption
    | exact sub_mask hmsk rfl
    | with_reducible apply State.overrunCmd_touches
    | with_reducible apply State.acceptCmd_touches
    | with_reducible apply State.endCmd_touches
    | split
    | intro _
    | (refine Within.lit ?_ (by intro q hq; cases q <;> first | exact rfl | exact ⟨HubPart.same_refl _ _, HubPart.same_refl _ _⟩ | exact (no_mask hmsk rfl hq).elim)))

end Sys2Proof.Machine
end

