-- ==== Sys2Proof/Laws/TouchesConsent.lean ====
section
/-! SUPPORT. What every operation of Machine/Consent.lean may touch. -/

namespace Sys2Proof.Machine

open Sys2Proof

theorem State.commandAct_touches {msk : Nat} {s₀ : State} (s : State) (hmsk : 2523529132081998132073389608703 &&& msk = 2523529132081998132073389608703) (hk : Within msk s₀ s)  :
    Within msk s₀ (State.commandAct s) := by
  unfold State.commandAct
  try dsimp only
  repeat' (first
    | with_reducible assumption
    | exact sub_mask hmsk rfl
    | with_reducible apply State.startAct_touches
    | with_reducible apply State.loadHarnessAct_touches
    | with_reducible apply State.runAct_touches
    | with_reducible apply State.saveAct_touches
    | with_reducible apply State.restoreAct_touches
    | with_reducible apply State.clearSourceAct_touches
    | with_reducible apply State.setBandAct_touches
    | with_reducible apply State.signOpenAct_touches
    | with_reducible apply State.signAct_touches
    | with_reducible apply State.launchAct_touches
    | with_reducible apply State.hotAct_touches
    | with_reducible apply State.replayAct_touches
    | split
    | intro _
    | (refine Within.lit ?_ (by intro q hq; cases q <;> first | exact rfl | exact ⟨HubPart.same_refl _ _, HubPart.same_refl _ _⟩ | exact (no_mask hmsk rfl hq).elim)))

theorem State.takeAction_touches {msk : Nat} {s₀ : State} (s : State) (x : RelaxAction) (hmsk : 2533432652396281174272582602495 &&& msk = 2533432652396281174272582602495) (hk : Within msk s₀ s)  :
    Within msk s₀ (State.takeAction s x) := by
  unfold State.takeAction
  try dsimp only
  repeat' (first
    | with_reducible assumption
    | exact sub_mask hmsk rfl
    | with_reducible apply State.onQuiet_touches
    | with_reducible apply State.startWaiting_touches
    | with_reducible apply State.openGateAct_touches
    | with_reducible apply State.takeDecision_touches
    | with_reducible apply State.leavePad_touches
    | with_reducible apply State.takeRelease_touches
    | with_reducible apply State.admitPort_touches
    | with_reducible apply State.commandAct_touches
    | split
    | intro _
    | (refine Within.lit ?_ (by intro q hq; cases q <;> first | exact rfl | exact ⟨HubPart.same_refl _ _, HubPart.same_refl _ _⟩ | exact (no_mask hmsk rfl hq).elim)))

theorem State.clearProposal_touches {msk : Nat} {s₀ : State} (s : State) (x : RelaxAction) (hmsk : 36893488147419103232 &&& msk = 36893488147419103232) (hk : Within msk s₀ s)  :
    Within msk s₀ (State.clearProposal s x) := by
  unfold State.clearProposal
  try dsimp only
  repeat' (first
    | with_reducible assumption
    | exact sub_mask hmsk rfl
    | split
    | intro _
    | (refine Within.lit ?_ (by intro q hq; cases q <;> first | exact rfl | exact ⟨HubPart.same_refl _ _, HubPart.same_refl _ _⟩ | exact (no_mask hmsk rfl hq).elim)))

theorem State.refuseAction_touches {msk : Nat} {s₀ : State} (s : State) (x : RelaxAction) (hmsk : 2035470922129392165453949030139 &&& msk = 2035470922129392165453949030139) (hk : Within msk s₀ s)  :
    Within msk s₀ (State.refuseAction s x) := by
  unfold State.refuseAction
  try dsimp only
  repeat' (first
    | with_reducible assumption
    | exact sub_mask hmsk rfl
    | with_reducible apply State.takeDecision_touches
    | with_reducible apply State.endCmd_touches
    | with_reducible apply State.keepRefusal_touches
    | split
    | intro _
    | (refine Within.lit ?_ (by intro q hq; cases q <;> first | exact rfl | exact ⟨HubPart.same_refl _ _, HubPart.same_refl _ _⟩ | exact (no_mask hmsk rfl hq).elim)))

end Sys2Proof.Machine
end

