-- ==== Sys2Proof/Laws/ExecTouchesTile.lean ====
section
/-! SUPPORT. The parts that every command of a family may touch: Retake, Network, Test, Tile, Vector, Verdict. -/

namespace Sys2Proof.Machine

open Sys2Proof

/-- What every effect leaves alone, the command leaves alone. -/
theorem live_touches {m : Nat} {s t : State} {f : State → State} (h : live s f = .next t)
    (ho : m.testBit Part.out.idx = true) (hf : ∀ u, Within m s u → Within m s (f u)) : Within m s t := by
  unfold live at h
  split at h
  · cases h; exact Within.refl m s
  · cases h
    refine hf _ ⟨fun p hp => ?_⟩
    cases p <;> first
      | exact rfl
      | exact ⟨HubPart.same_refl _ _, HubPart.same_refl _ _⟩
      | exact absurd ho (by rw [hp]; decide)

theorem liveIf_touches {m : Nat} {s t : State} {bad : Bool} {rule : Nat} {f : State → State} (h : liveIf s bad rule f = .next t)
    (ho : m.testBit Part.out.idx = true) (hf : ∀ u, Within m s u → Within m s (f u)) : Within m s t := by
  unfold liveIf at h
  split at h
  · cases h; exact Within.refl m s
  · split at h
    · cases h
    · exact live_touches h ho hf

theorem execRstLAssert_touches {s₀ t : State} (h : execRstLAssert s₀ = .next t) : Touches (.out :: resetParts) s₀ t := by
  unfold execRstLAssert at h
  cases h
  refine Within.touches (m := 5070602400322383104847856533503) ⟨fun p hp => ?_⟩ (by decide)
  cases p with
  | hub q => cases q <;> exact absurd hp (by decide)
  | _ => first | exact rfl | exact absurd hp (by decide)

theorem execRstLDeassert_touches {s₀ t : State} (h : execRstLDeassert s₀ = .next t) : Touches (.out :: [.rstL]) s₀ t := by
  unfold execRstLDeassert at h
  cases h
  refine Within.touches (m := 297237575406452736) ⟨fun p hp => ?_⟩ (by decide)
  split <;> cases p <;> first
    | exact rfl
    | exact ⟨HubPart.same_refl _ _, HubPart.same_refl _ _⟩
    | exact absurd hp (by decide)

theorem execAccountFetch_touches {s₀ t : State} (record : Nat) (h : execAccountFetch record s₀ = .next t) :
    Touches (.out :: (noteParts ++ [.retakesOrdered])) s₀ t := by
  refine Within.touches (m := 2035780407139213510522673811195) ?_ (by decide)
  generalize hmsk : 2035780407139213510522673811195 = msk
  have ho : msk.testBit Part.out.idx = true := by rw [← hmsk]; rfl
  replace hmsk : 2035780407139213510522673811195 &&& msk = 2035780407139213510522673811195 := by rw [← hmsk]; rfl
  unfold execAccountFetch at h
  refine live_touches h ho ?_
  clear ho h
  intro u hk
  try dsimp only
  repeat' (first
    | with_reducible assumption
    | exact sub_mask hmsk rfl
    | with_reducible apply State.decideStep_touches
    | with_reducible apply State.modRetake_touches
    | split
    | intro _
    | (refine Within.lit ?_ (by intro q hq; cases q <;> first | exact rfl | exact ⟨HubPart.same_refl _ _, HubPart.same_refl _ _⟩ | exact (no_mask hmsk rfl hq).elim)))

theorem execRetakeIssueTimeout_touches {s₀ t : State} (record : Nat) (h : execRetakeIssueTimeout record s₀ = .next t) :
    Touches (.out :: (noteParts ++ timeParts ++ [.hub .fails, .freeCtr, .retakesOrdered, .retakeTimeouts])) s₀ t := by
  refine Within.touches (m := 2036399981621856079967258398459) ?_ (by decide)
  generalize hmsk : 2036399981621856079967258398459 = msk
  have ho : msk.testBit Part.out.idx = true := by rw [← hmsk]; rfl
  replace hmsk : 2036399981621856079967258398459 &&& msk = 2036399981621856079967258398459 := by rw [← hmsk]; rfl
  unfold execRetakeIssueTimeout at h
  refine live_touches h ho ?_
  clear ho h
  intro u hk
  try dsimp only
  repeat' (first
    | with_reducible assumption
    | exact sub_mask hmsk rfl
    | with_reducible apply State.advanceTo_touches
    | with_reducible apply State.countTimeout_touches
    | with_reducible apply State.scDrop_touches
    | with_reducible apply State.modAgent_touches
    | with_reducible apply State.loseRun_touches
    | with_reducible apply State.noteAll_touches
    | with_reducible apply State.decideStep_touches
    | with_reducible apply State.endRetire_touches
    | split
    | intro _
    | (refine Within.lit ?_ (by intro q hq; cases q <;> first | exact rfl | exact ⟨HubPart.same_refl _ _, HubPart.same_refl _ _⟩ | exact (no_mask hmsk rfl hq).elim)))

theorem execRetakeWaitExpiry_touches {s₀ t : State} (record : Nat) (h : execRetakeWaitExpiry record s₀ = .next t) :
    Touches (.out :: (noteParts ++ timeParts ++ [.retakesOrdered])) s₀ t := by
  refine Within.touches (m := 2035781011602141332235770646267) ?_ (by decide)
  generalize hmsk : 2035781011602141332235770646267 = msk
  have ho : msk.testBit Part.out.idx = true := by rw [← hmsk]; rfl
  replace hmsk : 2035781011602141332235770646267 &&& msk = 2035781011602141332235770646267 := by rw [← hmsk]; rfl
  unfold execRetakeWaitExpiry at h
  refine live_touches h ho ?_
  clear ho h
  intro u hk
  try dsimp only
  repeat' (first
    | with_reducible assumption
    | exact sub_mask hmsk rfl
    | with_reducible apply State.advanceTo_touches
    | with_reducible apply State.requestRun_touches
    | with_reducible apply State.decideStep_touches
    | split
    | intro _
    | (refine Within.lit ?_ (by intro q hq; cases q <;> first | exact rfl | exact ⟨HubPart.same_refl _ _, HubPart.same_refl _ _⟩ | exact (no_mask hmsk rfl hq).elim)))

theorem execRetakeRunTimeout_touches {s₀ t : State} (record : Nat) (h : execRetakeRunTimeout record s₀ = .next t) :
    Touches (.out :: (noteParts ++ timeParts ++ [.retakesOrdered, .retakeTimeouts])) s₀ t := by
  refine Within.touches (m := 2036399981621784022373220208379) ?_ (by decide)
  generalize hmsk : 2036399981621784022373220208379 = msk
  have ho : msk.testBit Part.out.idx = true := by rw [← hmsk]; rfl
  replace hmsk : 2036399981621784022373220208379 &&& msk = 2036399981621784022373220208379 := by rw [← hmsk]; rfl
  unfold execRetakeRunTimeout at h
  refine live_touches h ho ?_
  clear ho h
  intro u hk
  try dsimp only
  repeat' (first
    | with_reducible assumption
    | exact sub_mask hmsk rfl
    | with_reducible apply State.advanceTo_touches
    | with_reducible apply State.countTimeout_touches
    | with_reducible apply State.modAgent_touches
    | with_reducible apply State.loseRun_touches
    | with_reducible apply State.decideStep_touches
    | split
    | intro _
    | (refine Within.lit ?_ (by intro q hq; cases q <;> first | exact rfl | exact ⟨HubPart.same_refl _ _, HubPart.same_refl _ _⟩ | exact (no_mask hmsk rfl hq).elim)))

theorem execMessageOrigin_touches {s₀ t : State} (unit : NetUnit) (src : BitVec 16) (kind : Byte) (sev : BitVec 3) (addr : Addr) (job : Job) (h : execMessageOrigin unit src kind sev addr job s₀ = .next t) :
    Touches (.out :: (netParts)) s₀ t := by
  refine Within.touches (m := 17302829768357478400) ?_ (by decide)
  generalize hmsk : 17302829768357478400 = msk
  have ho : msk.testBit Part.out.idx = true := by rw [← hmsk]; rfl
  replace hmsk : 17302829768357478400 &&& msk = 17302829768357478400 := by rw [← hmsk]; rfl
  unfold execMessageOrigin at h
  refine live_touches h ho ?_
  clear ho h
  intro u hk
  try dsimp only
  repeat' (first
    | with_reducible assumption
    | exact sub_mask hmsk rfl
    | with_reducible apply State.emit_touches
    | split
    | intro _
    | (refine Within.lit ?_ (by intro q hq; cases q <;> first | exact rfl | exact ⟨HubPart.same_refl _ _, HubPart.same_refl _ _⟩ | exact (no_mask hmsk rfl hq).elim)))

theorem execMessageHop_touches {s₀ t : State} (unit : NetUnit) (dest : HubId) (h : execMessageHop unit dest s₀ = .next t) :
    Touches (.out :: (netParts ++ [.ways])) s₀ t := by
  refine Within.touches (m := 35749573842067030016) ?_ (by decide)
  generalize hmsk : 35749573842067030016 = msk
  have ho : msk.testBit Part.out.idx = true := by rw [← hmsk]; rfl
  replace hmsk : 35749573842067030016 &&& msk = 35749573842067030016 := by rw [← hmsk]; rfl
  unfold execMessageHop at h
  refine live_touches h ho ?_
  clear ho h
  intro u hk
  try dsimp only
  repeat' (first
    | with_reducible assumption
    | exact sub_mask hmsk rfl
    | with_reducible apply State.hopMessage_touches
    | split
    | intro _
    | (refine Within.lit ?_ (by intro q hq; cases q <;> first | exact rfl | exact ⟨HubPart.same_refl _ _, HubPart.same_refl _ _⟩ | exact (no_mask hmsk rfl hq).elim)))

theorem execHopBadCrc_touches {s₀ t : State} (unit : NetUnit) (dest : HubId) (h : execHopBadCrc unit dest s₀ = .next t) :
    Touches (.out :: (netParts)) s₀ t := by
  refine Within.touches (m := 17302829768357478400) ?_ (by decide)
  generalize hmsk : 17302829768357478400 = msk
  have ho : msk.testBit Part.out.idx = true := by rw [← hmsk]; rfl
  replace hmsk : 17302829768357478400 &&& msk = 17302829768357478400 := by rw [← hmsk]; rfl
  unfold execHopBadCrc at h
  refine live_touches h ho ?_
  clear ho h
  intro u hk
  try dsimp only
  repeat' (first
    | with_reducible assumption
    | exact sub_mask hmsk rfl
    | with_reducible apply State.hopBad_touches
    | split
    | intro _
    | (refine Within.lit ?_ (by intro q hq; cases q <;> first | exact rfl | exact ⟨HubPart.same_refl _ _, HubPart.same_refl _ _⟩ | exact (no_mask hmsk rfl hq).elim)))

theorem execMergedS2Send_touches {s₀ t : State} (unit : NetUnit) (h : execMergedS2Send unit s₀ = .next t) :
    Touches (.out :: (netParts)) s₀ t := by
  refine Within.touches (m := 17302829768357478400) ?_ (by decide)
  generalize hmsk : 17302829768357478400 = msk
  have ho : msk.testBit Part.out.idx = true := by rw [← hmsk]; rfl
  replace hmsk : 17302829768357478400 &&& msk = 17302829768357478400 := by rw [← hmsk]; rfl
  unfold execMergedS2Send at h
  refine live_touches h ho ?_
  clear ho h
  intro u hk
  try dsimp only
  repeat' (first
    | with_reducible assumption
    | exact sub_mask hmsk rfl
    | with_reducible apply State.setQueue_touches
    | split
    | intro _
    | (refine Within.lit ?_ (by intro q hq; cases q <;> first | exact rfl | exact ⟨HubPart.same_refl _ _, HubPart.same_refl _ _⟩ | exact (no_mask hmsk rfl hq).elim)))

theorem execHubAcceptMessage_touches {s₀ t : State} (hub : HubId) (h : execHubAcceptMessage hub s₀ = .next t) :
    Touches (.out :: (noteParts ++ netParts ++ [.hub .lameSinceReady, .hub .fails, .hub .odd, .freeCtr, .retakesOrdered])) s₀ t := by
  refine Within.touches (m := 2035780407153122877971807850239) ?_ (by decide)
  generalize hmsk : 2035780407153122877971807850239 = msk
  have ho : msk.testBit Part.out.idx = true := by rw [← hmsk]; rfl
  replace hmsk : 2035780407153122877971807850239 &&& msk = 2035780407153122877971807850239 := by rw [← hmsk]; rfl
  unfold execHubAcceptMessage at h
  refine live_touches h ho ?_
  clear ho h
  intro u hk
  try dsimp only
  repeat' (first
    | with_reducible assumption
    | exact sub_mask hmsk rfl
    | with_reducible apply State.setQueue_touches
    | with_reducible apply State.acceptMsg_touches
    | split
    | intro _
    | (refine Within.lit ?_ (by intro q hq; cases q <;> first | exact rfl | exact ⟨HubPart.same_refl _ _, HubPart.same_refl _ _⟩ | exact (no_mask hmsk rfl hq).elim)))

theorem execLeakTick_touches {s₀ t : State} (group : Nat) (h : execLeakTick group s₀ = .next t) :
    Touches (.out :: (timeParts ++ [.hub .srcs, .leakAt])) s₀ t := by
  refine Within.touches (m := 604463513289664654999554) ?_ (by decide)
  generalize hmsk : 604463513289664654999554 = msk
  have ho : msk.testBit Part.out.idx = true := by rw [← hmsk]; rfl
  replace hmsk : 604463513289664654999554 &&& msk = 604463513289664654999554 := by rw [← hmsk]; rfl
  unfold execLeakTick at h
  refine live_touches h ho ?_
  clear ho h
  intro u hk
  try dsimp only
  repeat' (first
    | with_reducible assumption
    | exact sub_mask hmsk rfl
    | with_reducible apply State.advanceTo_touches
    | with_reducible apply State.modHubs_touches
    | with_reducible exact HubWithin.refl _ _
    | split
    | intro (_ : Hub)
    | (refine ⟨?_⟩; intro q hq; cases q <;> first | exact rfl | exact (no_mask hmsk rfl hq).elim)
    | (refine HubWithin.lit ?_ (by intro q hq; cases q <;> first | exact rfl | exact (no_mask hmsk rfl hq).elim))
    | intro _
    | (refine Within.lit ?_ (by intro q hq; cases q <;> first | exact rfl | exact ⟨HubPart.same_refl _ _, HubPart.same_refl _ _⟩ | exact (no_mask hmsk rfl hq).elim)))

theorem execQuietEnd_touches {s₀ t : State} (pos : Nat) (h : execQuietEnd pos s₀ = .next t) :
    Touches (.out :: (timeParts ++ endParts ++ [.hub .st, .hub .srcs, .hub .lameSinceReady, .hub .s4, .hub .fences, .hub .sticky, .hub .reel, .hub .reelHead, .hub .reelWraps, .hub .reelStopped, .hub .afterS4, .hub .ctr, .hub .intake, .hub .paddock, .hub .thrEvt, .hub .thermal, .hub .snaps, .hub .roundMs, .hub .dailies, .hub .dailiesBuilt, .hub .dailiesDropped, .hub .dailyDropped, .agents, .concs, .links, .twin, .xlink, .alive, .stage, .stages, .keyPort, .jobs, .abortFifo, .retakes, .retakeLog, .logHead, .decCnt, .retakesOrdered, .test, .mgmt])) s₀ t := by
  refine Within.touches (m := 1902083487368543634583519874815) ?_ (by decide)
  generalize hmsk : 1902083487368543634583519874815 = msk
  have ho : msk.testBit Part.out.idx = true := by rw [← hmsk]; rfl
  replace hmsk : 1902083487368543634583519874815 &&& msk = 1902083487368543634583519874815 := by rw [← hmsk]; rfl
  unfold execQuietEnd at h
  refine live_touches h ho ?_
  clear ho h
  intro u hk
  try dsimp only
  repeat' (first
    | with_reducible assumption
    | exact sub_mask hmsk rfl
    | with_reducible apply State.advanceTo_touches
    | with_reducible apply State.onQuiet_touches
    | with_reducible apply State.relax_touches
    | with_reducible apply State.startWaiting_touches
    | split
    | intro _
    | (refine Within.lit ?_ (by intro q hq; cases q <;> first | exact rfl | exact ⟨HubPart.same_refl _ _, HubPart.same_refl _ _⟩ | exact (no_mask hmsk rfl hq).elim)))

theorem execReelMark_touches {s₀ t : State}  (h : execReelMark  s₀ = .next t) :
    Touches (.out :: (timeParts ++ [.hub .sticky, .hub .reel, .hub .reelHead, .hub .reelWraps, .hub .reelStopped, .hub .afterS4, .hub .intake, .hub .snaps])) s₀ t := by
  refine Within.touches (m := 604462936828912368389856) ?_ (by decide)
  generalize hmsk : 604462936828912368389856 = msk
  have ho : msk.testBit Part.out.idx = true := by rw [← hmsk]; rfl
  replace hmsk : 604462936828912368389856 &&& msk = 604462936828912368389856 := by rw [← hmsk]; rfl
  unfold execReelMark at h
  refine live_touches h ho ?_
  clear ho h
  intro u hk
  try dsimp only
  repeat' (first
    | with_reducible assumption
    | exact sub_mask hmsk rfl
    | with_reducible apply State.advanceTo_touches
    | with_reducible apply State.eachHub_touches
    | with_reducible apply State.reelMark_touches
    | split
    | intro _
    | (refine Within.lit ?_ (by intro q hq; cases q <;> first | exact rfl | exact ⟨HubPart.same_refl _ _, HubPart.same_refl _ _⟩ | exact (no_mask hmsk rfl hq).elim)))

theorem execReconcileMaskSend_touches {s₀ t : State} (cluster : Nat) (h : execReconcileMaskSend cluster s₀ = .next t) :
    Touches (.out :: ([.concs])) s₀ t := by
  refine Within.touches (m := 2314850208468434944) ?_ (by decide)
  generalize hmsk : 2314850208468434944 = msk
  have ho : msk.testBit Part.out.idx = true := by rw [← hmsk]; rfl
  replace hmsk : 2314850208468434944 &&& msk = 2314850208468434944 := by rw [← hmsk]; rfl
  unfold execReconcileMaskSend at h
  refine live_touches h ho ?_
  clear ho h
  intro u hk
  try dsimp only
  repeat' (first
    | with_reducible assumption
    | exact sub_mask hmsk rfl
    | with_reducible apply State.modConc_touches
    | split
    | intro _
    | (refine Within.lit ?_ (by intro q hq; cases q <;> first | exact rfl | exact ⟨HubPart.same_refl _ _, HubPart.same_refl _ _⟩ | exact (no_mask hmsk rfl hq).elim)))

theorem execReconcileCompare_touches {s₀ t : State} (hub : HubId) (cluster : Nat) (h : execReconcileCompare hub cluster s₀ = .next t) :
    Touches (.out :: (noteParts ++ [.hub .reconcile])) s₀ t := by
  refine Within.touches (m := 2035470922129392165458243997435) ?_ (by decide)
  generalize hmsk : 2035470922129392165458243997435 = msk
  have ho : msk.testBit Part.out.idx = true := by rw [← hmsk]; rfl
  replace hmsk : 2035470922129392165458243997435 &&& msk = 2035470922129392165458243997435 := by rw [← hmsk]; rfl
  unfold execReconcileCompare at h
  refine live_touches h ho ?_
  clear ho h
  intro u hk
  try dsimp only
  repeat' (first
    | with_reducible assumption
    | exact sub_mask hmsk rfl
    | with_reducible apply State.each_touches
    | with_reducible apply State.reconcileAgent_touches
    | split
    | intro _
    | (refine Within.lit ?_ (by intro q hq; cases q <;> first | exact rfl | exact ⟨HubPart.same_refl _ _, HubPart.same_refl _ _⟩ | exact (no_mask hmsk rfl hq).elim)))

theorem execTrotDue_touches {s₀ t : State} (agent : Nat) (h : execTrotDue agent s₀ = .next t) :
    Touches (.out :: (timeParts ++ [.hub .paddock, .agents, .test])) s₀ t := by
  refine Within.touches (m := 633825904578204451165310091264) ?_ (by decide)
  generalize hmsk : 633825904578204451165310091264 = msk
  have ho : msk.testBit Part.out.idx = true := by rw [← hmsk]; rfl
  replace hmsk : 633825904578204451165310091264 &&& msk = 633825904578204451165310091264 := by rw [← hmsk]; rfl
  unfold execTrotDue at h
  refine live_touches h ho ?_
  clear ho h
  intro u hk
  try dsimp only
  repeat' (first
    | with_reducible assumption
    | exact sub_mask hmsk rfl
    | with_reducible apply State.advanceClk_touches
    | with_reducible apply State.modPad_touches
    | with_reducible apply State.deferTrot_touches
    | with_reducible apply State.startTrot_touches
    | split
    | intro _
    | (refine Within.lit ?_ (by intro q hq; cases q <;> first | exact rfl | exact ⟨HubPart.same_refl _ _, HubPart.same_refl _ _⟩ | exact (no_mask hmsk rfl hq).elim)))

theorem execTrotIdleAfterExpiry_touches {s₀ t : State} (agent : Nat) (h : execTrotIdleAfterExpiry agent s₀ = .next t) :
    Touches (.out :: (timeParts ++ [.hub .paddock, .agents, .test])) s₀ t := by
  refine Within.touches (m := 633825904578204451165310091264) ?_ (by decide)
  generalize hmsk : 633825904578204451165310091264 = msk
  have ho : msk.testBit Part.out.idx = true := by rw [← hmsk]; rfl
  replace hmsk : 633825904578204451165310091264 &&& msk = 633825904578204451165310091264 := by rw [← hmsk]; rfl
  unfold execTrotIdleAfterExpiry at h
  refine live_touches h ho ?_
  clear ho h
  intro u hk
  try dsimp only
  repeat' (first
    | with_reducible assumption
    | exact sub_mask hmsk rfl
    | with_reducible apply State.advanceTo_touches
    | with_reducible apply State.startTrot_touches
    | split
    | intro _
    | (refine Within.lit ?_ (by intro q hq; cases q <;> first | exact rfl | exact ⟨HubPart.same_refl _ _, HubPart.same_refl _ _⟩ | exact (no_mask hmsk rfl hq).elim)))

theorem execScanDone_touches {s₀ t : State} (agent : Nat) (tileSet agentSet : List Checkpoint) (h : execScanDone agent tileSet agentSet s₀ = .next t) :
    Touches (.out :: (noteParts)) s₀ t := by
  refine Within.touches (m := 2035470922129392165453949030139) ?_ (by decide)
  generalize hmsk : 2035470922129392165453949030139 = msk
  have ho : msk.testBit Part.out.idx = true := by rw [← hmsk]; rfl
  replace hmsk : 2035470922129392165453949030139 &&& msk = 2035470922129392165453949030139 := by rw [← hmsk]; rfl
  unfold execScanDone at h
  refine live_touches h ho ?_
  clear ho h
  intro u hk
  try dsimp only
  repeat' (first
    | with_reducible assumption
    | exact sub_mask hmsk rfl
    | with_reducible apply State.modTrot_touches
    | with_reducible apply State.afterScan_touches
    | with_reducible apply State.noteLead_touches
    | split
    | intro _
    | (refine Within.lit ?_ (by intro q hq; cases q <;> first | exact rfl | exact ⟨HubPart.same_refl _ _, HubPart.same_refl _ _⟩ | exact (no_mask hmsk rfl hq).elim)))

theorem execSecretsCleared_touches {s₀ t : State} (region : Region) (h : execSecretsCleared region s₀ = .next t) :
    Touches (.out :: ([.hub .zeroised, .hub .secReq, .hub .secClr, .agents, .concs, .test])) s₀ t := by
  refine Within.touches (m := 633825300117582472521556426752) ?_ (by decide)
  generalize hmsk : 633825300117582472521556426752 = msk
  have ho : msk.testBit Part.out.idx = true := by rw [← hmsk]; rfl
  replace hmsk : 633825300117582472521556426752 &&& msk = 633825300117582472521556426752 := by rw [← hmsk]; rfl
  unfold execSecretsCleared at h
  refine live_touches h ho ?_
  clear ho h
  intro u hk
  try dsimp only
  repeat' (first
    | with_reducible assumption
    | exact sub_mask hmsk rfl
    | with_reducible apply State.modAgent_touches
    | with_reducible apply State.tryScan_touches
    | with_reducible apply State.tryGroup_touches
    | with_reducible apply State.modConc_touches
    | with_reducible apply State.modHub_touches
    | with_reducible exact HubWithin.refl _ _
    | split
    | intro (_ : Hub)
    | (refine ⟨?_⟩; intro q hq; cases q <;> first | exact rfl | exact (no_mask hmsk rfl hq).elim)
    | (refine HubWithin.lit ?_ (by intro q hq; cases q <;> first | exact rfl | exact (no_mask hmsk rfl hq).elim))
    | intro _
    | (refine Within.lit ?_ (by intro q hq; cases q <;> first | exact rfl | exact ⟨HubPart.same_refl _ _, HubPart.same_refl _ _⟩ | exact (no_mask hmsk rfl hq).elim)))

theorem execSecretsTimeoutExpiry_touches {s₀ t : State} (region : Region) (h : execSecretsTimeoutExpiry region s₀ = .next t) :
    Touches (.out :: (noteParts ++ timeParts ++ [.hub .zeroised, .hub .secReq, .hub .secClr])) s₀ t := by
  refine Within.touches (m := 2035471526592319987227175407355) ?_ (by decide)
  generalize hmsk : 2035471526592319987227175407355 = msk
  have ho : msk.testBit Part.out.idx = true := by rw [← hmsk]; rfl
  replace hmsk : 2035471526592319987227175407355 &&& msk = 2035471526592319987227175407355 := by rw [← hmsk]; rfl
  unfold execSecretsTimeoutExpiry at h
  refine live_touches h ho ?_
  clear ho h
  intro u hk
  try dsimp only
  repeat' (first
    | with_reducible assumption
    | exact sub_mask hmsk rfl
    | with_reducible apply State.secretsMissed_touches
    | with_reducible apply State.unitMissed_touches
    | split
    | intro _
    | (refine Within.lit ?_ (by intro q hq; cases q <;> first | exact rfl | exact ⟨HubPart.same_refl _ _, HubPart.same_refl _ _⟩ | exact (no_mask hmsk rfl hq).elim)))

theorem execTrotHostBoundMiss_touches {s₀ t : State} (agent : Nat) (h : execTrotHostBoundMiss agent s₀ = .next t) :
    Touches (.out :: (timeParts ++ endParts ++ [.hub .st, .hub .paddock, .hub .zeroised, .hub .secReq, .hub .secClr, .agents, .concs, .test, .mgmt])) s₀ t := by
  refine Within.touches (m := 1901476507169922937166180188161) ?_ (by decide)
  generalize hmsk : 1901476507169922937166180188161 = msk
  have ho : msk.testBit Part.out.idx = true := by rw [← hmsk]; rfl
  replace hmsk : 1901476507169922937166180188161 &&& msk = 1901476507169922937166180188161 := by rw [← hmsk]; rfl
  unfold execTrotHostBoundMiss at h
  refine live_touches h ho ?_
  clear ho h
  intro u hk
  repeat' (first
    | with_reducible assumption
    | exact sub_mask hmsk rfl
    | with_reducible apply State.advanceTo_touches
    | with_reducible apply State.scDrop_touches
    | with_reducible apply State.abandonTrot_touches
    | with_reducible apply State.askGroup_touches
    | with_reducible apply State.modTrot_touches
    | (extract_lets +onlyGivenNames zz; refine Within.cut (s := s₀) (t := zz) (m := msk) ?_ ?_; dsimp only [zz]; clear zz; rotate_left; clear_value zz; revert zz; intro _ _)
    | (extract_lets +onlyGivenNames zz; clear_value zz; revert zz; intro _)
    | split
    | intro _
    | (refine Within.lit ?_ (by intro q hq; cases q <;> first | exact rfl | exact ⟨HubPart.same_refl _ _, HubPart.same_refl _ _⟩ | exact (no_mask hmsk rfl hq).elim)))

theorem execTapGrantRise_touches {s₀ t : State} (once : Bool) (h : execTapGrantRise once s₀ = .next t) :
    Touches (.out :: ([.hub .zeroised, .hub .secReq, .hub .secClr, .agents, .concs, .test])) s₀ t := by
  refine Within.touches (m := 633825300117582472521556426752) ?_ (by decide)
  generalize hmsk : 633825300117582472521556426752 = msk
  have ho : msk.testBit Part.out.idx = true := by rw [← hmsk]; rfl
  replace hmsk : 633825300117582472521556426752 &&& msk = 633825300117582472521556426752 := by rw [← hmsk]; rfl
  unfold execTapGrantRise at h
  refine live_touches h ho ?_
  clear ho h
  intro u hk
  try dsimp only
  repeat' (first
    | with_reducible assumption
    | exact sub_mask hmsk rfl
    | with_reducible apply State.each_touches
    | with_reducible apply State.tryScan_touches
    | with_reducible apply State.tryGroup_touches
    | split
    | intro _
    | (refine Within.lit ?_ (by intro q hq; cases q <;> first | exact rfl | exact ⟨HubPart.same_refl _ _, HubPart.same_refl _ _⟩ | exact (no_mask hmsk rfl hq).elim)))

theorem execTapGrantWaitExpiry_touches {s₀ t : State}  (h : execTapGrantWaitExpiry  s₀ = .next t) :
    Touches (.out :: (timeParts ++ endParts ++ [.hub .st, .hub .paddock, .hub .zeroised, .hub .secReq, .hub .secClr, .agents, .concs, .test, .mgmt])) s₀ t := by
  refine Within.touches (m := 1901476507169922937166180188161) ?_ (by decide)
  generalize hmsk : 1901476507169922937166180188161 = msk
  have ho : msk.testBit Part.out.idx = true := by rw [← hmsk]; rfl
  replace hmsk : 1901476507169922937166180188161 &&& msk = 1901476507169922937166180188161 := by rw [← hmsk]; rfl
  unfold execTapGrantWaitExpiry at h
  refine live_touches h ho ?_
  clear ho h
  intro u hk
  try dsimp only
  repeat' (first
    | with_reducible assumption
    | exact sub_mask hmsk rfl
    | with_reducible apply State.advanceTo_touches
    | with_reducible apply State.abandonTrot_touches
    | with_reducible apply State.askGroup_touches
    | with_reducible apply State.endWrapGroup_touches
    | split
    | intro _
    | (refine Within.lit ?_ (by intro q hq; cases q <;> first | exact rfl | exact ⟨HubPart.same_refl _ _, HubPart.same_refl _ _⟩ | exact (no_mask hmsk rfl hq).elim)))

theorem execScAck_touches {s₀ t : State} (agent : Nat) (h : execScAck agent s₀ = .next t) :
    Touches (.out :: (noteParts ++ [.hub .fails, .hub .zeroised, .hub .secReq, .hub .secClr, .freeCtr, .retakesOrdered])) s₀ t := by
  refine Within.touches (m := 2035780407139285568176841543419) ?_ (by decide)
  generalize hmsk : 2035780407139285568176841543419 = msk
  have ho : msk.testBit Part.out.idx = true := by rw [← hmsk]; rfl
  replace hmsk : 2035780407139285568176841543419 &&& msk = 2035780407139285568176841543419 := by rw [← hmsk]; rfl
  unfold execScAck at h
  refine live_touches h ho ?_
  clear ho h
  intro u hk
  try dsimp only
  repeat' (first
    | with_reducible assumption
    | exact sub_mask hmsk rfl
    | with_reducible apply State.modAgent_touches
    | with_reducible apply State.scAcked_touches
    | with_reducible apply State.endRetire_touches
    | split
    | intro _
    | (refine Within.lit ?_ (by intro q hq; cases q <;> first | exact rfl | exact ⟨HubPart.same_refl _ _, HubPart.same_refl _ _⟩ | exact (no_mask hmsk rfl hq).elim)))

theorem execScAckFall_touches {s₀ t : State} (agent : Nat) (h : execScAckFall agent s₀ = .next t) :
    Touches (.out :: ([.agents])) s₀ t := by
  refine Within.touches (m := 1161928703861587968) ?_ (by decide)
  generalize hmsk : 1161928703861587968 = msk
  have ho : msk.testBit Part.out.idx = true := by rw [← hmsk]; rfl
  replace hmsk : 1161928703861587968 &&& msk = 1161928703861587968 := by rw [← hmsk]; rfl
  unfold execScAckFall at h
  refine live_touches h ho ?_
  clear ho h
  intro u hk
  try dsimp only
  repeat' (first
    | with_reducible assumption
    | exact sub_mask hmsk rfl
    | with_reducible apply State.modAgent_touches
    | with_reducible apply State.present_touches
    | split
    | intro _
    | (refine Within.lit ?_ (by intro q hq; cases q <;> first | exact rfl | exact ⟨HubPart.same_refl _ _, HubPart.same_refl _ _⟩ | exact (no_mask hmsk rfl hq).elim)))

theorem execPatternSetFetched_touches {s₀ t : State} (set : PatSet) (data : List Byte) (h : execPatternSetFetched set data s₀ = .next t) :
    Touches (.out :: (noteParts)) s₀ t := by
  refine Within.touches (m := 2035470922129392165453949030139) ?_ (by decide)
  generalize hmsk : 2035470922129392165453949030139 = msk
  have ho : msk.testBit Part.out.idx = true := by rw [← hmsk]; rfl
  replace hmsk : 2035470922129392165453949030139 &&& msk = 2035470922129392165453949030139 := by rw [← hmsk]; rfl
  unfold execPatternSetFetched at h
  refine live_touches h ho ?_
  clear ho h
  intro u hk
  try dsimp only
  repeat' (first
    | with_reducible assumption
    | exact sub_mask hmsk rfl
    | with_reducible apply State.present_touches
    | with_reducible apply State.setFailed_touches
    | split
    | intro _
    | (refine Within.lit ?_ (by intro q hq; cases q <;> first | exact rfl | exact ⟨HubPart.same_refl _ _, HubPart.same_refl _ _⟩ | exact (no_mask hmsk rfl hq).elim)))

theorem execCacheBlockBad_touches {s₀ t : State} (block : Nat) (set : PatSet) (at_ : Nat) (streaming : List Nat) (group : Bool) (reread : List Byte) (h : execCacheBlockBad block set at_ streaming group reread s₀ = .next t) :
    Touches (.out :: (noteParts ++ [.hub .zeroised, .hub .secReq, .hub .secClr])) s₀ t := by
  refine Within.touches (m := 2035470922129392165514078572283) ?_ (by decide)
  generalize hmsk : 2035470922129392165514078572283 = msk
  have ho : msk.testBit Part.out.idx = true := by rw [← hmsk]; rfl
  replace hmsk : 2035470922129392165514078572283 &&& msk = 2035470922129392165514078572283 := by rw [← hmsk]; rfl
  unfold execCacheBlockBad at h
  refine live_touches h ho ?_
  clear ho h
  intro u hk
  try dsimp only
  repeat' (first
    | with_reducible assumption
    | exact sub_mask hmsk rfl
    | with_reducible apply State.noteLead_touches
    | with_reducible apply State.present_touches
    | with_reducible apply State.setFailed_touches
    | with_reducible apply State.each_touches
    | with_reducible apply State.abandonTrot_touches
    | with_reducible apply State.askGroup_touches
    | split
    | intro _
    | (refine Within.lit ?_ (by intro q hq; cases q <;> first | exact rfl | exact ⟨HubPart.same_refl _ _, HubPart.same_refl _ _⟩ | exact (no_mask hmsk rfl hq).elim)))

theorem execWrapGroupDone_touches {s₀ t : State} (results : List (Nat × List Checkpoint × List Checkpoint)) (h : execWrapGroupDone results s₀ = .next t) :
    Touches (.out :: (noteParts ++ [.hub .zeroised, .hub .secReq, .hub .secClr])) s₀ t := by
  refine Within.touches (m := 2035470922129392165514078572283) ?_ (by decide)
  generalize hmsk : 2035470922129392165514078572283 = msk
  have ho : msk.testBit Part.out.idx = true := by rw [← hmsk]; rfl
  replace hmsk : 2035470922129392165514078572283 &&& msk = 2035470922129392165514078572283 := by rw [← hmsk]; rfl
  unfold execWrapGroupDone at h
  refine live_touches h ho ?_
  clear ho h
  intro u hk
  try dsimp only
  repeat' (first
    | with_reducible assumption
    | exact sub_mask hmsk rfl
    | with_reducible apply State.each_touches
    | with_reducible apply State.unitResult_touches
    | with_reducible apply State.endWrapGroup_touches
    | split
    | intro _
    | (refine Within.lit ?_ (by intro q hq; cases q <;> first | exact rfl | exact ⟨HubPart.same_refl _ _, HubPart.same_refl _ _⟩ | exact (no_mask hmsk rfl hq).elim)))

theorem execWrapRecordWritten_touches {s₀ t : State} (readBack : List Byte) (h : execWrapRecordWritten readBack s₀ = .next t) :
    Touches (.out :: (endParts ++ [.hub .st, .flash, .test, .mgmt])) s₀ t := by
  refine Within.touches (m := 1901475903293832161237838856193) ?_ (by decide)
  generalize hmsk : 1901475903293832161237838856193 = msk
  have ho : msk.testBit Part.out.idx = true := by rw [← hmsk]; rfl
  replace hmsk : 1901475903293832161237838856193 &&& msk = 1901475903293832161237838856193 := by rw [← hmsk]; rfl
  unfold execWrapRecordWritten at h
  refine live_touches h ho ?_
  clear ho h
  intro u hk
  try dsimp only
  repeat' (first
    | with_reducible assumption
    | exact sub_mask hmsk rfl
    | with_reducible apply State.present_touches
    | with_reducible apply State.endWrap_touches
    | split
    | intro _
    | (refine Within.lit ?_ (by intro q hq; cases q <;> first | exact rfl | exact ⟨HubPart.same_refl _ _, HubPart.same_refl _ _⟩ | exact (no_mask hmsk rfl hq).elim)))

theorem execPersistEraseDone_touches {s₀ t : State}  (h : execPersistEraseDone  s₀ = .next t) :
    Touches (.out :: ([.flash, .test])) s₀ t := by
  refine Within.touches (m := 633825300704419518306311995392) ?_ (by decide)
  generalize hmsk : 633825300704419518306311995392 = msk
  have ho : msk.testBit Part.out.idx = true := by rw [← hmsk]; rfl
  replace hmsk : 633825300704419518306311995392 &&& msk = 633825300704419518306311995392 := by rw [← hmsk]; rfl
  unfold execPersistEraseDone at h
  refine live_touches h ho ?_
  clear ho h
  intro u hk
  try dsimp only
  repeat' (first
    | with_reducible assumption
    | exact sub_mask hmsk rfl
    | split
    | intro _
    | (refine Within.lit ?_ (by intro q hq; cases q <;> first | exact rfl | exact ⟨HubPart.same_refl _ _, HubPart.same_refl _ _⟩ | exact (no_mask hmsk rfl hq).elim)))

theorem execTdDescriptor_touches {s₀ t : State} (agent : Nat) (handle : BitVec 5) (data : BitVec 256) (cyc : Nat) (h : execTdDescriptor agent handle data cyc s₀ = .next t) :
    Touches (.out :: (netParts ++ [.hub .paddock, .retakes])) s₀ t := by
  refine Within.touches (m := 19342830416663835152842752) ?_ (by decide)
  generalize hmsk : 19342830416663835152842752 = msk
  have ho : msk.testBit Part.out.idx = true := by rw [← hmsk]; rfl
  replace hmsk : 19342830416663835152842752 &&& msk = 19342830416663835152842752 := by rw [← hmsk]; rfl
  unfold execTdDescriptor at h
  refine live_touches h ho ?_
  clear ho h
  intro u hk
  try dsimp only
  repeat' (first
    | with_reducible assumption
    | exact sub_mask hmsk rfl
    | with_reducible apply State.passEmpty_touches
    | with_reducible apply State.fencedTask_touches
    | with_reducible apply State.bindRetake_touches
    | refine State.bindRetake_touchesOf (sub_mask hmsk rfl) (by assumption) ?_
    | with_reducible apply State.uncheckBound_touches
    | with_reducible apply State.loseRunOf_touches
    | with_reducible apply State.openInc_touches
    | with_reducible apply State.bindTwice_touches
    | with_reducible apply State.takeDescriptor_touches
    | split
    | intro _
    | (refine Within.lit ?_ (by intro q hq; cases q <;> first | exact rfl | exact ⟨HubPart.same_refl _ _, HubPart.same_refl _ _⟩ | exact (no_mask hmsk rfl hq).elim)))

theorem execTapElementBeat_touches {s₀ t : State} (agent : Nat) (beat : TapBeat) (h : execTapElementBeat agent beat s₀ = .next t) :
    Touches (.out :: (netParts ++ [.hub .paddock, .retakes])) s₀ t := by
  refine Within.touches (m := 19342830416663835152842752) ?_ (by decide)
  generalize hmsk : 19342830416663835152842752 = msk
  have ho : msk.testBit Part.out.idx = true := by rw [← hmsk]; rfl
  replace hmsk : 19342830416663835152842752 &&& msk = 19342830416663835152842752 := by rw [← hmsk]; rfl
  unfold execTapElementBeat at h
  refine liveIf_touches h ho ?_
  clear ho h
  intro u hk
  try dsimp only
  repeat' (first
    | with_reducible assumption
    | exact sub_mask hmsk rfl
    | with_reducible apply State.tapBeat_touches
    | split
    | intro _
    | (refine Within.lit ?_ (by intro q hq; cases q <;> first | exact rfl | exact ⟨HubPart.same_refl _ _, HubPart.same_refl _ _⟩ | exact (no_mask hmsk rfl hq).elim)))

theorem execPrjBeat_touches {s₀ t : State} (agent : Nat) (beat : PrjBeat) (h : execPrjBeat agent beat s₀ = .next t) :
    Touches (.out :: ([.hub .paddock, .agents, .retakes])) s₀ t := by
  refine Within.touches (m := 19342814275762770656952320) ?_ (by decide)
  generalize hmsk : 19342814275762770656952320 = msk
  have ho : msk.testBit Part.out.idx = true := by rw [← hmsk]; rfl
  replace hmsk : 19342814275762770656952320 &&& msk = 19342814275762770656952320 := by rw [← hmsk]; rfl
  unfold execPrjBeat at h
  refine liveIf_touches h ho ?_
  clear ho h
  intro u hk
  try dsimp only
  repeat' (first
    | with_reducible assumption
    | exact sub_mask hmsk rfl
    | with_reducible apply State.modAgent_touches
    | with_reducible apply State.admitFirst_touches
    | with_reducible apply State.prjCtx_touches
    | split
    | intro _
    | (refine Within.lit ?_ (by intro q hq; cases q <;> first | exact rfl | exact ⟨HubPart.same_refl _ _, HubPart.same_refl _ _⟩ | exact (no_mask hmsk rfl hq).elim)))

theorem execAuditBeat_touches {s₀ t : State} (agent : Nat) (tap : Tap) (handle : BitVec 5) (addr : Addr) (d : BitVec 31) (poison : Bool) (cyc : Nat) (h : execAuditBeat agent tap handle addr d poison cyc s₀ = .next t) :
    Touches (.out :: ([.agents])) s₀ t := by
  refine Within.touches (m := 1161928703861587968) ?_ (by decide)
  generalize hmsk : 1161928703861587968 = msk
  have ho : msk.testBit Part.out.idx = true := by rw [← hmsk]; rfl
  replace hmsk : 1161928703861587968 &&& msk = 1161928703861587968 := by rw [← hmsk]; rfl
  unfold execAuditBeat at h
  refine live_touches h ho ?_
  clear ho h
  intro u hk
  try dsimp only
  repeat' (first
    | with_reducible assumption
    | exact sub_mask hmsk rfl
    | with_reducible apply State.modAgent_touches
    | split
    | intro _
    | (refine Within.lit ?_ (by intro q hq; cases q <;> first | exact rfl | exact ⟨HubPart.same_refl _ _, HubPart.same_refl _ _⟩ | exact (no_mask hmsk rfl hq).elim)))

theorem execCLast_touches {s₀ t : State} (agent : Nat) (beat : TapBeat) (h : execCLast agent beat s₀ = .next t) :
    Touches (.out :: (netParts ++ endParts ++ [.hub .st, .hub .paddock, .retakes, .retakeLog, .logHead, .decCnt, .retakesOrdered, .mgmt])) s₀ t := by
  refine Within.touches (m := 1268250229813244328770538668033) ?_ (by decide)
  generalize hmsk : 1268250229813244328770538668033 = msk
  have ho : msk.testBit Part.out.idx = true := by rw [← hmsk]; rfl
  replace hmsk : 1268250229813244328770538668033 &&& msk = 1268250229813244328770538668033 := by rw [← hmsk]; rfl
  unfold execCLast at h
  refine liveIf_touches h ho ?_
  clear ho h
  intro u hk
  try dsimp only
  repeat' (first
    | with_reducible assumption
    | exact sub_mask hmsk rfl
    | with_reducible apply State.modAgent_touches
    | with_reducible apply State.tapBeat_touches
    | with_reducible apply State.lastC_touches
    | with_reducible apply State.startWaiting_touches
    | split
    | intro _
    | (refine Within.lit ?_ (by intro q hq; cases q <;> first | exact rfl | exact ⟨HubPart.same_refl _ _, HubPart.same_refl _ _⟩ | exact (no_mask hmsk rfl hq).elim)))

theorem execLaneSelfCheck_touches {s₀ t : State} (agent : Nat) (unit : KatUnit) (ok : Bool) (cyc : Nat) (h : execLaneSelfCheck agent unit ok cyc s₀ = .next t) :
    Touches (.out :: (netParts ++ [.retakes])) s₀ t := by
  refine Within.touches (m := 19342830416663835152777216) ?_ (by decide)
  generalize hmsk : 19342830416663835152777216 = msk
  have ho : msk.testBit Part.out.idx = true := by rw [← hmsk]; rfl
  replace hmsk : 19342830416663835152777216 &&& msk = 19342830416663835152777216 := by rw [← hmsk]; rfl
  unfold execLaneSelfCheck at h
  refine live_touches h ho ?_
  clear ho h
  intro u hk
  try dsimp only
  repeat' (first
    | with_reducible assumption
    | exact sub_mask hmsk rfl
    | with_reducible apply State.modAgent_touches
    | with_reducible apply State.report_touches
    | with_reducible apply State.failContexts_touches
    | split
    | intro _
    | (refine Within.lit ?_ (by intro q hq; cases q <;> first | exact rfl | exact ⟨HubPart.same_refl _ _, HubPart.same_refl _ _⟩ | exact (no_mask hmsk rfl hq).elim)))

theorem execVhHeader_touches {s₀ t : State} (agent : Nat) (gid : BitVec 3) (data : BitVec 110) (h : execVhHeader agent gid data s₀ = .next t) :
    Touches (.out :: (netParts)) s₀ t := by
  refine Within.touches (m := 17302829768357478400) ?_ (by decide)
  generalize hmsk : 17302829768357478400 = msk
  have ho : msk.testBit Part.out.idx = true := by rw [← hmsk]; rfl
  replace hmsk : 17302829768357478400 &&& msk = 17302829768357478400 := by rw [← hmsk]; rfl
  unfold execVhHeader at h
  refine live_touches h ho ?_
  clear ho h
  intro u hk
  try dsimp only
  repeat' (first
    | with_reducible assumption
    | exact sub_mask hmsk rfl
    | with_reducible apply State.endGroup_touches
    | with_reducible apply State.modAgent_touches
    | with_reducible apply State.fenceGroup_touches
    | with_reducible apply State.openInc_touches
    | split
    | intro _
    | (refine Within.lit ?_ (by intro q hq; cases q <;> first | exact rfl | exact ⟨HubPart.same_refl _ _, HubPart.same_refl _ _⟩ | exact (no_mask hmsk rfl hq).elim)))

theorem execVeBeat_touches {s₀ t : State} (agent : Nat) (beat : VeBeat) (h : execVeBeat agent beat s₀ = .next t) :
    Touches (.out :: (netParts)) s₀ t := by
  refine Within.touches (m := 17302829768357478400) ?_ (by decide)
  generalize hmsk : 17302829768357478400 = msk
  have ho : msk.testBit Part.out.idx = true := by rw [← hmsk]; rfl
  replace hmsk : 17302829768357478400 &&& msk = 17302829768357478400 := by rw [← hmsk]; rfl
  unfold execVeBeat at h
  refine liveIf_touches h ho ?_
  clear ho h
  intro u hk
  try dsimp only
  repeat' (first
    | with_reducible assumption
    | exact sub_mask hmsk rfl
    | with_reducible apply State.modAgent_touches
    | with_reducible apply State.endGroup_touches
    | split
    | intro _
    | (refine Within.lit ?_ (by intro q hq; cases q <;> first | exact rfl | exact ⟨HubPart.same_refl _ _, HubPart.same_refl _ _⟩ | exact (no_mask hmsk rfl hq).elim)))

theorem execVectorGroupVerdict_touches {s₀ t : State} (agent : Nat) (gid : BitVec 3) (h : execVectorGroupVerdict agent gid s₀ = .next t) :
    Touches (.out :: ([.agents, .concs])) s₀ t := by
  refine Within.touches (m := 3467771713075281920) ?_ (by decide)
  generalize hmsk : 3467771713075281920 = msk
  have ho : msk.testBit Part.out.idx = true := by rw [← hmsk]; rfl
  replace hmsk : 3467771713075281920 &&& msk = 3467771713075281920 := by rw [← hmsk]; rfl
  unfold execVectorGroupVerdict at h
  refine live_touches h ho ?_
  clear ho h
  intro u hk
  try dsimp only
  repeat' (first
    | with_reducible assumption
    | exact sub_mask hmsk rfl
    | with_reducible apply State.modAgent_touches
    | with_reducible apply State.groupVerdict_touches
    | split
    | intro _
    | (refine Within.lit ?_ (by intro q hq; cases q <;> first | exact rfl | exact ⟨HubPart.same_refl _ _, HubPart.same_refl _ _⟩ | exact (no_mask hmsk rfl hq).elim)))

theorem execSummaryJudge_touches {s₀ t : State} (cluster agent : Nat) (h : execSummaryJudge cluster agent s₀ = .next t) :
    Touches (.out :: (netParts)) s₀ t := by
  refine Within.touches (m := 17302829768357478400) ?_ (by decide)
  generalize hmsk : 17302829768357478400 = msk
  have ho : msk.testBit Part.out.idx = true := by rw [← hmsk]; rfl
  replace hmsk : 17302829768357478400 &&& msk = 17302829768357478400 := by rw [← hmsk]; rfl
  unfold execSummaryJudge at h
  refine live_touches h ho ?_
  clear ho h
  intro u hk
  try dsimp only
  repeat' (first
    | with_reducible assumption
    | exact sub_mask hmsk rfl
    | with_reducible apply State.modAgent_touches
    | with_reducible apply State.modConc_touches
    | with_reducible apply State.numbersOdd_touches
    | with_reducible apply State.openDec_touches
    | split
    | intro _
    | (refine Within.lit ?_ (by intro q hq; cases q <;> first | exact rfl | exact ⟨HubPart.same_refl _ _, HubPart.same_refl _ _⟩ | exact (no_mask hmsk rfl hq).elim)))

theorem execHandoffSlice_touches {s₀ t : State} (cluster agent : Nat) (h : execHandoffSlice cluster agent s₀ = .next t) :
    Touches (.out :: ([.agents, .concs])) s₀ t := by
  refine Within.touches (m := 3467771713075281920) ?_ (by decide)
  generalize hmsk : 3467771713075281920 = msk
  have ho : msk.testBit Part.out.idx = true := by rw [← hmsk]; rfl
  replace hmsk : 3467771713075281920 &&& msk = 3467771713075281920 := by rw [← hmsk]; rfl
  unfold execHandoffSlice at h
  refine live_touches h ho ?_
  clear ho h
  intro u hk
  try dsimp only
  repeat' (first
    | with_reducible assumption
    | exact sub_mask hmsk rfl
    | with_reducible apply State.each_touches
    | with_reducible apply State.handOff_touches
    | with_reducible apply State.modConc_touches
    | split
    | intro _
    | (refine Within.lit ?_ (by intro q hq; cases q <;> first | exact rfl | exact ⟨HubPart.same_refl _ _, HubPart.same_refl _ _⟩ | exact (no_mask hmsk rfl hq).elim)))

theorem execVerdict_touches {s₀ t : State} (cluster : Nat) (h : execVerdict cluster s₀ = .next t) :
    Touches (.out :: ([.agents, .concs, .retakes])) s₀ t := by
  refine Within.touches (m := 19342816581605779870580736) ?_ (by decide)
  generalize hmsk : 19342816581605779870580736 = msk
  have ho : msk.testBit Part.out.idx = true := by rw [← hmsk]; rfl
  replace hmsk : 19342816581605779870580736 &&& msk = 19342816581605779870580736 := by rw [← hmsk]; rfl
  unfold execVerdict at h
  refine live_touches h ho ?_
  clear ho h
  intro u hk
  try dsimp only
  repeat' (first
    | with_reducible assumption
    | exact sub_mask hmsk rfl
    | with_reducible apply State.modConc_touches
    | with_reducible apply State.engineVerdict_touches
    | split
    | intro _
    | (refine Within.lit ?_ (by intro q hq; cases q <;> first | exact rfl | exact ⟨HubPart.same_refl _ _, HubPart.same_refl _ _⟩ | exact (no_mask hmsk rfl hq).elim)))

theorem execVerdictAtAgent_touches {s₀ t : State} (agent : Nat) (h : execVerdictAtAgent agent s₀ = .next t) :
    Touches (.out :: (netParts ++ [.retakes, .retakesOrdered])) s₀ t := by
  refine Within.touches (m := 328827840238008903877558272) ?_ (by decide)
  generalize hmsk : 328827840238008903877558272 = msk
  have ho : msk.testBit Part.out.idx = true := by rw [← hmsk]; rfl
  replace hmsk : 328827840238008903877558272 &&& msk = 328827840238008903877558272 := by rw [← hmsk]; rfl
  unfold execVerdictAtAgent at h
  refine live_touches h ho ?_
  clear ho h
  intro u hk
  try dsimp only
  repeat' (first
    | with_reducible assumption
    | exact sub_mask hmsk rfl
    | with_reducible apply State.modAgent_touches
    | with_reducible apply State.originalVerdict_touches
    | with_reducible apply State.retakeVerdict_touches
    | with_reducible apply State.startWaiting_touches
    | split
    | intro _
    | (refine Within.lit ?_ (by intro q hq; cases q <;> first | exact rfl | exact ⟨HubPart.same_refl _ _, HubPart.same_refl _ _⟩ | exact (no_mask hmsk rfl hq).elim)))

theorem execCmtAccept_touches {s₀ t : State} (agent cycles : Nat) (h : execCmtAccept agent cycles s₀ = .next t) :
    Touches (.out :: ([.agents])) s₀ t := by
  refine Within.touches (m := 1161928703861587968) ?_ (by decide)
  generalize hmsk : 1161928703861587968 = msk
  have ho : msk.testBit Part.out.idx = true := by rw [← hmsk]; rfl
  replace hmsk : 1161928703861587968 &&& msk = 1161928703861587968 := by rw [← hmsk]; rfl
  unfold execCmtAccept at h
  refine live_touches h ho ?_
  clear ho h
  intro u hk
  try dsimp only
  repeat' (first
    | with_reducible assumption
    | exact sub_mask hmsk rfl
    | with_reducible apply State.modAgent_touches
    | with_reducible apply State.present_touches
    | split
    | intro _
    | (refine Within.lit ?_ (by intro q hq; cases q <;> first | exact rfl | exact ⟨HubPart.same_refl _ _, HubPart.same_refl _ _⟩ | exact (no_mask hmsk rfl hq).elim)))

theorem execFenceOrder_touches {s₀ t : State} (agent : Nat) (h : execFenceOrder agent s₀ = .next t) :
    Touches (.out :: (netParts ++ [.retakes, .retakesOrdered])) s₀ t := by
  refine Within.touches (m := 328827840238008903877558272) ?_ (by decide)
  generalize hmsk : 328827840238008903877558272 = msk
  have ho : msk.testBit Part.out.idx = true := by rw [← hmsk]; rfl
  replace hmsk : 328827840238008903877558272 &&& msk = 328827840238008903877558272 := by rw [← hmsk]; rfl
  unfold execFenceOrder at h
  refine live_touches h ho ?_
  clear ho h
  intro u hk
  try dsimp only
  repeat' (first
    | with_reducible assumption
    | exact sub_mask hmsk rfl
    | with_reducible apply State.modAgent_touches
    | with_reducible apply State.present_touches
    | with_reducible apply State.fenceContexts_touches
    | with_reducible apply State.each_touches
    | with_reducible apply State.fenceTask_touches
    | with_reducible apply State.fenceOpenGroup_touches
    | with_reducible apply State.fenceRequests_touches
    | split
    | intro _
    | (refine Within.lit ?_ (by intro q hq; cases q <;> first | exact rfl | exact ⟨HubPart.same_refl _ _, HubPart.same_refl _ _⟩ | exact (no_mask hmsk rfl hq).elim)))

theorem execFenceAckRise_touches {s₀ t : State} (agent : Nat) (h : execFenceAckRise agent s₀ = .next t) :
    Touches (.out :: ([.agents])) s₀ t := by
  refine Within.touches (m := 1161928703861587968) ?_ (by decide)
  generalize hmsk : 1161928703861587968 = msk
  have ho : msk.testBit Part.out.idx = true := by rw [← hmsk]; rfl
  replace hmsk : 1161928703861587968 &&& msk = 1161928703861587968 := by rw [← hmsk]; rfl
  unfold execFenceAckRise at h
  refine live_touches h ho ?_
  clear ho h
  intro u hk
  try dsimp only
  repeat' (first
    | with_reducible assumption
    | exact sub_mask hmsk rfl
    | with_reducible apply State.modAgent_touches
    | split
    | intro _
    | (refine Within.lit ?_ (by intro q hq; cases q <;> first | exact rfl | exact ⟨HubPart.same_refl _ _, HubPart.same_refl _ _⟩ | exact (no_mask hmsk rfl hq).elim)))

theorem execFenceEnd_touches {s₀ t : State} (agent : Nat) (h : execFenceEnd agent s₀ = .next t) :
    Touches (.out :: ([.agents, .retakes, .retakesOrdered])) s₀ t := by
  refine Within.touches (m := 328827824097107839381667840) ?_ (by decide)
  generalize hmsk : 328827824097107839381667840 = msk
  have ho : msk.testBit Part.out.idx = true := by rw [← hmsk]; rfl
  replace hmsk : 328827824097107839381667840 &&& msk = 328827824097107839381667840 := by rw [← hmsk]; rfl
  unfold execFenceEnd at h
  refine live_touches h ho ?_
  clear ho h
  intro u hk
  try dsimp only
  repeat' (first
    | with_reducible assumption
    | exact sub_mask hmsk rfl
    | with_reducible apply State.modAgent_touches
    | with_reducible apply State.lateGates_touches
    | with_reducible apply State.startWaiting_touches
    | with_reducible apply State.present_touches
    | split
    | intro _
    | (refine Within.lit ?_ (by intro q hq; cases q <;> first | exact rfl | exact ⟨HubPart.same_refl _ _, HubPart.same_refl _ _⟩ | exact (no_mask hmsk rfl hq).elim)))

theorem execFenceAckFall_touches {s₀ t : State} (agent : Nat) (h : execFenceAckFall agent s₀ = .next t) :
    Touches (.out :: ([.agents])) s₀ t := by
  refine Within.touches (m := 1161928703861587968) ?_ (by decide)
  generalize hmsk : 1161928703861587968 = msk
  have ho : msk.testBit Part.out.idx = true := by rw [← hmsk]; rfl
  replace hmsk : 1161928703861587968 &&& msk = 1161928703861587968 := by rw [← hmsk]; rfl
  unfold execFenceAckFall at h
  refine live_touches h ho ?_
  clear ho h
  intro u hk
  try dsimp only
  repeat' (first
    | with_reducible assumption
    | exact sub_mask hmsk rfl
    | with_reducible apply State.modAgent_touches
    | with_reducible apply State.present_touches
    | split
    | intro _
    | (refine Within.lit ?_ (by intro q hq; cases q <;> first | exact rfl | exact ⟨HubPart.same_refl _ _, HubPart.same_refl _ _⟩ | exact (no_mask hmsk rfl hq).elim)))

theorem execFenceTimeout_touches {s₀ t : State} (agent : Nat) (h : execFenceTimeout agent s₀ = .next t) :
    Touches (.out :: (noteParts ++ timeParts)) s₀ t := by
  refine Within.touches (m := 2035471526592319987167045865211) ?_ (by decide)
  generalize hmsk : 2035471526592319987167045865211 = msk
  have ho : msk.testBit Part.out.idx = true := by rw [← hmsk]; rfl
  replace hmsk : 2035471526592319987167045865211 &&& msk = 2035471526592319987167045865211 := by rw [← hmsk]; rfl
  unfold execFenceTimeout at h
  refine live_touches h ho ?_
  clear ho h
  intro u hk
  try dsimp only
  repeat' (first
    | with_reducible assumption
    | exact sub_mask hmsk rfl
    | with_reducible apply State.advanceTo_touches
    | with_reducible apply State.modAgent_touches
    | with_reducible apply State.noteAll_touches
    | split
    | intro _
    | (refine Within.lit ?_ (by intro q hq; cases q <;> first | exact rfl | exact ⟨HubPart.same_refl _ _, HubPart.same_refl _ _⟩ | exact (no_mask hmsk rfl hq).elim)))

theorem execSettleOrder_touches {s₀ t : State} (agent record : Nat) (h : execSettleOrder agent record s₀ = .next t) :
    Touches (.out :: (noteParts ++ [.hub .fails, .freeCtr, .retakesOrdered])) s₀ t := by
  refine Within.touches (m := 2035780407139285568116712001275) ?_ (by decide)
  generalize hmsk : 2035780407139285568116712001275 = msk
  have ho : msk.testBit Part.out.idx = true := by rw [← hmsk]; rfl
  replace hmsk : 2035780407139285568116712001275 &&& msk = 2035780407139285568116712001275 := by rw [← hmsk]; rfl
  unfold execSettleOrder at h
  refine live_touches h ho ?_
  clear ho h
  intro u hk
  try dsimp only
  repeat' (first
    | with_reducible assumption
    | exact sub_mask hmsk rfl
    | with_reducible apply State.commitCtx_touches
    | with_reducible apply State.closeRetake_touches
    | with_reducible apply State.startWaiting_touches
    | with_reducible apply State.endRetire_touches
    | split
    | intro _
    | (refine Within.lit ?_ (by intro q hq; cases q <;> first | exact rfl | exact ⟨HubPart.same_refl _ _, HubPart.same_refl _ _⟩ | exact (no_mask hmsk rfl hq).elim)))

theorem execPoisonOrder_touches {s₀ t : State} (agent record : Nat) (h : execPoisonOrder agent record s₀ = .next t) :
    Touches (.out :: (noteParts ++ [.hub .fails, .freeCtr, .retakesOrdered])) s₀ t := by
  refine Within.touches (m := 2035780407139285568116712001275) ?_ (by decide)
  generalize hmsk : 2035780407139285568116712001275 = msk
  have ho : msk.testBit Part.out.idx = true := by rw [← hmsk]; rfl
  replace hmsk : 2035780407139285568116712001275 &&& msk = 2035780407139285568116712001275 := by rw [← hmsk]; rfl
  unfold execPoisonOrder at h
  refine live_touches h ho ?_
  clear ho h
  intro u hk
  try dsimp only
  repeat' (first
    | with_reducible assumption
    | exact sub_mask hmsk rfl
    | with_reducible apply State.poisonOrdered_touches
    | with_reducible apply State.endRetire_touches
    | split
    | intro _
    | (refine Within.lit ?_ (by intro q hq; cases q <;> first | exact rfl | exact ⟨HubPart.same_refl _ _, HubPart.same_refl _ _⟩ | exact (no_mask hmsk rfl hq).elim)))

theorem execGateOpen_touches {s₀ t : State} (job : Job) (step : W64) (h : execGateOpen job step s₀ = .next t) :
    Touches (.out :: (noteParts ++ [.hub .fails, .freeCtr, .retakesOrdered])) s₀ t := by
  refine Within.touches (m := 2035780407139285568116712001275) ?_ (by decide)
  generalize hmsk : 2035780407139285568116712001275 = msk
  have ho : msk.testBit Part.out.idx = true := by rw [← hmsk]; rfl
  replace hmsk : 2035780407139285568116712001275 &&& msk = 2035780407139285568116712001275 := by rw [← hmsk]; rfl
  unfold execGateOpen at h
  refine live_touches h ho ?_
  clear ho h
  intro u hk
  try dsimp only
  repeat' (first
    | with_reducible assumption
    | exact sub_mask hmsk rfl
    | with_reducible apply State.modJob_touches
    | with_reducible apply State.each_touches
    | with_reducible apply State.openGates_touches
    | with_reducible apply State.modEnvelopes_touches
    | with_reducible apply State.endRetire_touches
    | split
    | intro _
    | (refine Within.lit ?_ (by intro q hq; cases q <;> first | exact rfl | exact ⟨HubPart.same_refl _ _, HubPart.same_refl _ _⟩ | exact (no_mask hmsk rfl hq).elim)))

theorem execJobAbortActions_touches {s₀ t : State} (job : Job) (h : execJobAbortActions job s₀ = .next t) :
    Touches (.out :: (noteParts ++ netParts ++ [.hub .fails, .freeCtr, .retakesOrdered])) s₀ t := by
  refine Within.touches (m := 2035780407153120626171994164987) ?_ (by decide)
  generalize hmsk : 2035780407153120626171994164987 = msk
  have ho : msk.testBit Part.out.idx = true := by rw [← hmsk]; rfl
  replace hmsk : 2035780407153120626171994164987 &&& msk = 2035780407153120626171994164987 := by rw [← hmsk]; rfl
  unfold execJobAbortActions at h
  refine live_touches h ho ?_
  clear ho h
  intro u hk
  try dsimp only
  repeat' (first
    | with_reducible assumption
    | exact sub_mask hmsk rfl
    | with_reducible apply State.each_touches
    | with_reducible apply State.abortAgent_touches
    | with_reducible apply State.abortConc_touches
    | with_reducible apply State.modEnvelopes_touches
    | with_reducible apply State.clearExcursions_touches
    | with_reducible apply State.endRetire_touches
    | split
    | intro _
    | (refine Within.lit ?_ (by intro q hq; cases q <;> first | exact rfl | exact ⟨HubPart.same_refl _ _, HubPart.same_refl _ _⟩ | exact (no_mask hmsk rfl hq).elim)))

theorem execEpochAnnounce_touches {s₀ t : State}  (h : execEpochAnnounce  s₀ = .next t) :
    Touches (.out :: (timeParts ++ [.hub .irq, .agents, .epoch])) s₀ t := by
  refine Within.touches (m := 1813389909365046134177792) ?_ (by decide)
  generalize hmsk : 1813389909365046134177792 = msk
  have ho : msk.testBit Part.out.idx = true := by rw [← hmsk]; rfl
  replace hmsk : 1813389909365046134177792 &&& msk = 1813389909365046134177792 := by rw [← hmsk]; rfl
  unfold execEpochAnnounce at h
  refine live_touches h ho ?_
  clear ho h
  intro u hk
  repeat' (first
    | with_reducible assumption
    | exact sub_mask hmsk rfl
    | with_reducible apply State.advanceTo_touches
    | with_reducible apply State.modHubs_touches
    | with_reducible apply State.each_touches
    | with_reducible apply State.modAgent_touches
    | with_reducible exact HubWithin.refl _ _
    | (extract_lets +onlyGivenNames zz; refine Within.cut (s := s₀) (t := zz) (m := msk) ?_ ?_; dsimp only [zz]; clear zz; rotate_left; clear_value zz; revert zz; intro _ _)
    | (extract_lets +onlyGivenNames zz; clear_value zz; revert zz; intro _)
    | split
    | intro (_ : Hub)
    | (refine ⟨?_⟩; intro q hq; cases q <;> first | exact rfl | exact (no_mask hmsk rfl hq).elim)
    | (refine HubWithin.lit ?_ (by intro q hq; cases q <;> first | exact rfl | exact (no_mask hmsk rfl hq).elim))
    | intro _
    | (refine Within.lit ?_ (by intro q hq; cases q <;> first | exact rfl | exact ⟨HubPart.same_refl _ _, HubPart.same_refl _ _⟩ | exact (no_mask hmsk rfl hq).elim)))

theorem execEpochActivation_touches {s₀ t : State}  (h : execEpochActivation  s₀ = .next t) :
    Touches (.out :: (timeParts ++ [.agents, .harness, .epoch])) s₀ t := by
  refine Within.touches (m := 2115621364268703426805760) ?_ (by decide)
  generalize hmsk : 2115621364268703426805760 = msk
  have ho : msk.testBit Part.out.idx = true := by rw [← hmsk]; rfl
  replace hmsk : 2115621364268703426805760 &&& msk = 2115621364268703426805760 := by rw [← hmsk]; rfl
  unfold execEpochActivation at h
  refine live_touches h ho ?_
  clear ho h
  intro u hk
  try dsimp only
  repeat' (first
    | with_reducible assumption
    | exact sub_mask hmsk rfl
    | with_reducible apply State.advanceClk_touches
    | with_reducible apply State.each_touches
    | with_reducible apply State.modAgent_touches
    | split
    | intro _
    | (refine Within.lit ?_ (by intro q hq; cases q <;> first | exact rfl | exact ⟨HubPart.same_refl _ _, HubPart.same_refl _ _⟩ | exact (no_mask hmsk rfl hq).elim)))

theorem execScrubAccess_touches {s₀ t : State} (unit : NetUnit) (macroNo : Byte) (word data : W32) (check : BitVec 7) (taskData : Bool)
    (contexts : List Nat) (h : execScrubAccess unit macroNo word data check taskData contexts s₀ = .next t) :
    Touches (.out :: (netParts ++ [.retakes])) s₀ t := by
  refine Within.touches (m := 19342830416663835152777216) ?_ (by decide)
  generalize hmsk : 19342830416663835152777216 = msk
  have ho : msk.testBit Part.out.idx = true := by rw [← hmsk]; rfl
  replace hmsk : 19342830416663835152777216 &&& msk = 19342830416663835152777216 := by rw [← hmsk]; rfl
  unfold execScrubAccess at h
  refine live_touches h ho ?_
  clear ho h
  intro u hk
  try dsimp only
  repeat' (first
    | with_reducible assumption
    | exact sub_mask hmsk rfl
    | with_reducible apply State.emit_touches
    | with_reducible apply State.failContexts_touches
    | split
    | intro _
    | (refine Within.lit ?_ (by intro q hq; cases q <;> first | exact rfl | exact ⟨HubPart.same_refl _ _, HubPart.same_refl _ _⟩ | exact (no_mask hmsk rfl hq).elim)))

end Sys2Proof.Machine
end

