-- ==== Sys2Proof/Laws/ExecTouchesCommands.lean ====
section
/-! SUPPORT. The parts that every command of a family may touch: Commands, Consent, Management, Ops. -/

namespace Sys2Proof.Machine

open Sys2Proof

theorem execEntdaa_touches {s₀ t : State} (addr : BitVec 7) (h : execEntdaa addr s₀ = .next t) :
    Touches (.out :: ([.mgmt])) s₀ t := by
  refine Within.touches (m := 1267650600228238408695957946368) ?_ (by decide)
  generalize hmsk : 1267650600228238408695957946368 = msk
  have ho : msk.testBit Part.out.idx = true := by rw [← hmsk]; rfl
  replace hmsk : 1267650600228238408695957946368 &&& msk = 1267650600228238408695957946368 := by rw [← hmsk]; rfl
  unfold execEntdaa at h
  refine live_touches h ho ?_
  clear ho h
  intro u hk
  try dsimp only
  repeat' (first
    | with_reducible assumption
    | exact sub_mask hmsk rfl
    | with_reducible apply State.modMgmt_touches
    | with_reducible apply State.present_touches
    | split
    | intro _
    | (refine Within.lit ?_ (by intro q hq; cases q <;> first | exact rfl | exact ⟨HubPart.same_refl _ _, HubPart.same_refl _ _⟩ | exact (no_mask hmsk rfl hq).elim)))

theorem execSetdasa_touches {s₀ t : State} (addr : BitVec 7) (h : execSetdasa addr s₀ = .next t) :
    Touches (.out :: ([.mgmt])) s₀ t := by
  refine Within.touches (m := 1267650600228238408695957946368) ?_ (by decide)
  generalize hmsk : 1267650600228238408695957946368 = msk
  have ho : msk.testBit Part.out.idx = true := by rw [← hmsk]; rfl
  replace hmsk : 1267650600228238408695957946368 &&& msk = 1267650600228238408695957946368 := by rw [← hmsk]; rfl
  unfold execSetdasa at h
  refine live_touches h ho ?_
  clear ho h
  intro u hk
  try dsimp only
  repeat' (first
    | with_reducible assumption
    | exact sub_mask hmsk rfl
    | with_reducible apply State.modMgmt_touches
    | with_reducible apply State.present_touches
    | split
    | intro _
    | (refine Within.lit ?_ (by intro q hq; cases q <;> first | exact rfl | exact ⟨HubPart.same_refl _ _, HubPart.same_refl _ _⟩ | exact (no_mask hmsk rfl hq).elim)))

theorem execRstdaa_touches {s₀ t : State}  (h : execRstdaa  s₀ = .next t) :
    Touches (.out :: ([.mgmt])) s₀ t := by
  refine Within.touches (m := 1267650600228238408695957946368) ?_ (by decide)
  generalize hmsk : 1267650600228238408695957946368 = msk
  have ho : msk.testBit Part.out.idx = true := by rw [← hmsk]; rfl
  replace hmsk : 1267650600228238408695957946368 &&& msk = 1267650600228238408695957946368 := by rw [← hmsk]; rfl
  unfold execRstdaa at h
  refine live_touches h ho ?_
  clear ho h
  intro u hk
  try dsimp only
  repeat' (first
    | with_reducible assumption
    | exact sub_mask hmsk rfl
    | with_reducible apply State.modMgmt_touches
    | with_reducible apply State.present_touches
    | split
    | intro _
    | (refine Within.lit ?_ (by intro q hq; cases q <;> first | exact rfl | exact ⟨HubPart.same_refl _ _, HubPart.same_refl _ _⟩ | exact (no_mask hmsk rfl hq).elim)))

theorem execEnec_touches {s₀ t : State} (events : Byte) (h : execEnec events s₀ = .next t) :
    Touches (.out :: ([.mgmt])) s₀ t := by
  refine Within.touches (m := 1267650600228238408695957946368) ?_ (by decide)
  generalize hmsk : 1267650600228238408695957946368 = msk
  have ho : msk.testBit Part.out.idx = true := by rw [← hmsk]; rfl
  replace hmsk : 1267650600228238408695957946368 &&& msk = 1267650600228238408695957946368 := by rw [← hmsk]; rfl
  unfold execEnec at h
  refine live_touches h ho ?_
  clear ho h
  intro u hk
  try dsimp only
  repeat' (first
    | with_reducible assumption
    | exact sub_mask hmsk rfl
    | with_reducible apply State.modMgmt_touches
    | split
    | intro _
    | (refine Within.lit ?_ (by intro q hq; cases q <;> first | exact rfl | exact ⟨HubPart.same_refl _ _, HubPart.same_refl _ _⟩ | exact (no_mask hmsk rfl hq).elim)))

theorem execDisec_touches {s₀ t : State} (events : Byte) (h : execDisec events s₀ = .next t) :
    Touches (.out :: ([.mgmt])) s₀ t := by
  refine Within.touches (m := 1267650600228238408695957946368) ?_ (by decide)
  generalize hmsk : 1267650600228238408695957946368 = msk
  have ho : msk.testBit Part.out.idx = true := by rw [← hmsk]; rfl
  replace hmsk : 1267650600228238408695957946368 &&& msk = 1267650600228238408695957946368 := by rw [← hmsk]; rfl
  unfold execDisec at h
  refine live_touches h ho ?_
  clear ho h
  intro u hk
  try dsimp only
  repeat' (first
    | with_reducible assumption
    | exact sub_mask hmsk rfl
    | with_reducible apply State.modMgmt_touches
    | split
    | intro _
    | (refine Within.lit ?_ (by intro q hq; cases q <;> first | exact rfl | exact ⟨HubPart.same_refl _ _, HubPart.same_refl _ _⟩ | exact (no_mask hmsk rfl hq).elim)))

theorem execGetpid_touches {s₀ t : State}  (h : execGetpid  s₀ = .next t) :
    Touches (.out :: ([.mgmt])) s₀ t := by
  refine Within.touches (m := 1267650600228238408695957946368) ?_ (by decide)
  generalize hmsk : 1267650600228238408695957946368 = msk
  have ho : msk.testBit Part.out.idx = true := by rw [← hmsk]; rfl
  replace hmsk : 1267650600228238408695957946368 &&& msk = 1267650600228238408695957946368 := by rw [← hmsk]; rfl
  unfold execGetpid at h
  refine live_touches h ho ?_
  clear ho h
  intro u hk
  try dsimp only
  repeat' (first
    | with_reducible assumption
    | exact sub_mask hmsk rfl
    | with_reducible apply State.answer_touches
    | split
    | intro _
    | (refine Within.lit ?_ (by intro q hq; cases q <;> first | exact rfl | exact ⟨HubPart.same_refl _ _, HubPart.same_refl _ _⟩ | exact (no_mask hmsk rfl hq).elim)))

theorem execGetbcr_touches {s₀ t : State}  (h : execGetbcr  s₀ = .next t) :
    Touches (.out :: ([.mgmt])) s₀ t := by
  refine Within.touches (m := 1267650600228238408695957946368) ?_ (by decide)
  generalize hmsk : 1267650600228238408695957946368 = msk
  have ho : msk.testBit Part.out.idx = true := by rw [← hmsk]; rfl
  replace hmsk : 1267650600228238408695957946368 &&& msk = 1267650600228238408695957946368 := by rw [← hmsk]; rfl
  unfold execGetbcr at h
  refine live_touches h ho ?_
  clear ho h
  intro u hk
  try dsimp only
  repeat' (first
    | with_reducible assumption
    | exact sub_mask hmsk rfl
    | with_reducible apply State.answer_touches
    | split
    | intro _
    | (refine Within.lit ?_ (by intro q hq; cases q <;> first | exact rfl | exact ⟨HubPart.same_refl _ _, HubPart.same_refl _ _⟩ | exact (no_mask hmsk rfl hq).elim)))

theorem execGetdcr_touches {s₀ t : State}  (h : execGetdcr  s₀ = .next t) :
    Touches (.out :: ([.mgmt])) s₀ t := by
  refine Within.touches (m := 1267650600228238408695957946368) ?_ (by decide)
  generalize hmsk : 1267650600228238408695957946368 = msk
  have ho : msk.testBit Part.out.idx = true := by rw [← hmsk]; rfl
  replace hmsk : 1267650600228238408695957946368 &&& msk = 1267650600228238408695957946368 := by rw [← hmsk]; rfl
  unfold execGetdcr at h
  refine live_touches h ho ?_
  clear ho h
  intro u hk
  try dsimp only
  repeat' (first
    | with_reducible assumption
    | exact sub_mask hmsk rfl
    | with_reducible apply State.answer_touches
    | split
    | intro _
    | (refine Within.lit ?_ (by intro q hq; cases q <;> first | exact rfl | exact ⟨HubPart.same_refl _ _, HubPart.same_refl _ _⟩ | exact (no_mask hmsk rfl hq).elim)))

theorem execGetstatus_touches {s₀ t : State}  (h : execGetstatus  s₀ = .next t) :
    Touches (.out :: ([.freeCtr])) s₀ t := by
  refine Within.touches (m := 81064793292668928) ?_ (by decide)
  generalize hmsk : 81064793292668928 = msk
  have ho : msk.testBit Part.out.idx = true := by rw [← hmsk]; rfl
  replace hmsk : 81064793292668928 &&& msk = 81064793292668928 := by rw [← hmsk]; rfl
  unfold execGetstatus at h
  refine live_touches h ho ?_
  clear ho h
  intro u hk
  try dsimp only
  repeat' (first
    | with_reducible assumption
    | exact sub_mask hmsk rfl
    | with_reducible apply State.present_touches
    | split
    | intro _
    | (refine Within.lit ?_ (by intro q hq; cases q <;> first | exact rfl | exact ⟨HubPart.same_refl _ _, HubPart.same_refl _ _⟩ | exact (no_mask hmsk rfl hq).elim)))

theorem execGetmrl_touches {s₀ t : State}  (h : execGetmrl  s₀ = .next t) :
    Touches (.out :: ([.mgmt])) s₀ t := by
  refine Within.touches (m := 1267650600228238408695957946368) ?_ (by decide)
  generalize hmsk : 1267650600228238408695957946368 = msk
  have ho : msk.testBit Part.out.idx = true := by rw [← hmsk]; rfl
  replace hmsk : 1267650600228238408695957946368 &&& msk = 1267650600228238408695957946368 := by rw [← hmsk]; rfl
  unfold execGetmrl at h
  refine live_touches h ho ?_
  clear ho h
  intro u hk
  try dsimp only
  repeat' (first
    | with_reducible assumption
    | exact sub_mask hmsk rfl
    | with_reducible apply State.answer_touches
    | split
    | intro _
    | (refine Within.lit ?_ (by intro q hq; cases q <;> first | exact rfl | exact ⟨HubPart.same_refl _ _, HubPart.same_refl _ _⟩ | exact (no_mask hmsk rfl hq).elim)))

theorem execGetmwl_touches {s₀ t : State}  (h : execGetmwl  s₀ = .next t) :
    Touches (.out :: ([.mgmt])) s₀ t := by
  refine Within.touches (m := 1267650600228238408695957946368) ?_ (by decide)
  generalize hmsk : 1267650600228238408695957946368 = msk
  have ho : msk.testBit Part.out.idx = true := by rw [← hmsk]; rfl
  replace hmsk : 1267650600228238408695957946368 &&& msk = 1267650600228238408695957946368 := by rw [← hmsk]; rfl
  unfold execGetmwl at h
  refine live_touches h ho ?_
  clear ho h
  intro u hk
  try dsimp only
  repeat' (first
    | with_reducible assumption
    | exact sub_mask hmsk rfl
    | with_reducible apply State.answer_touches
    | split
    | intro _
    | (refine Within.lit ?_ (by intro q hq; cases q <;> first | exact rfl | exact ⟨HubPart.same_refl _ _, HubPart.same_refl _ _⟩ | exact (no_mask hmsk rfl hq).elim)))

theorem execSetmrl_touches {s₀ t : State} (n : BitVec 16) (h : execSetmrl n s₀ = .next t) :
    Touches (.out :: ([.mgmt])) s₀ t := by
  refine Within.touches (m := 1267650600228238408695957946368) ?_ (by decide)
  generalize hmsk : 1267650600228238408695957946368 = msk
  have ho : msk.testBit Part.out.idx = true := by rw [← hmsk]; rfl
  replace hmsk : 1267650600228238408695957946368 &&& msk = 1267650600228238408695957946368 := by rw [← hmsk]; rfl
  unfold execSetmrl at h
  refine live_touches h ho ?_
  clear ho h
  intro u hk
  try dsimp only
  repeat' (first
    | with_reducible assumption
    | exact sub_mask hmsk rfl
    | with_reducible apply State.answer_touches
    | split
    | intro _
    | (refine Within.lit ?_ (by intro q hq; cases q <;> first | exact rfl | exact ⟨HubPart.same_refl _ _, HubPart.same_refl _ _⟩ | exact (no_mask hmsk rfl hq).elim)))

theorem execSetmwl_touches {s₀ t : State} (n : BitVec 16) (h : execSetmwl n s₀ = .next t) :
    Touches (.out :: ([.mgmt])) s₀ t := by
  refine Within.touches (m := 1267650600228238408695957946368) ?_ (by decide)
  generalize hmsk : 1267650600228238408695957946368 = msk
  have ho : msk.testBit Part.out.idx = true := by rw [← hmsk]; rfl
  replace hmsk : 1267650600228238408695957946368 &&& msk = 1267650600228238408695957946368 := by rw [← hmsk]; rfl
  unfold execSetmwl at h
  refine live_touches h ho ?_
  clear ho h
  intro u hk
  try dsimp only
  repeat' (first
    | with_reducible assumption
    | exact sub_mask hmsk rfl
    | with_reducible apply State.answer_touches
    | split
    | intro _
    | (refine Within.lit ?_ (by intro q hq; cases q <;> first | exact rfl | exact ⟨HubPart.same_refl _ _, HubPart.same_refl _ _⟩ | exact (no_mask hmsk rfl hq).elim)))

theorem execMctpDiscard_touches {s₀ t : State}  (h : execMctpDiscard  s₀ = .next t) :
    Touches (.out :: ([.hub .mctpDiscarded])) s₀ t := by
  refine Within.touches (m := 9288674231451648) ?_ (by decide)
  generalize hmsk : 9288674231451648 = msk
  have ho : msk.testBit Part.out.idx = true := by rw [← hmsk]; rfl
  replace hmsk : 9288674231451648 &&& msk = 9288674231451648 := by rw [← hmsk]; rfl
  unfold execMctpDiscard at h
  refine live_touches h ho ?_
  clear ho h
  intro u hk
  try dsimp only
  repeat' (first
    | with_reducible assumption
    | exact sub_mask hmsk rfl
    | with_reducible apply State.modHub_touches
    | with_reducible exact HubWithin.refl _ _
    | split
    | intro (_ : Hub)
    | (refine ⟨?_⟩; intro q hq; cases q <;> first | exact rfl | exact (no_mask hmsk rfl hq).elim)
    | (refine HubWithin.lit ?_ (by intro q hq; cases q <;> first | exact rfl | exact (no_mask hmsk rfl hq).elim))
    | intro _
    | (refine Within.lit ?_ (by intro q hq; cases q <;> first | exact rfl | exact ⟨HubPart.same_refl _ _, HubPart.same_refl _ _⟩ | exact (no_mask hmsk rfl hq).elim)))

theorem execSetEndpointId_touches {s₀ t : State} (eid : Byte) (h : execSetEndpointId eid s₀ = .next t) :
    Touches (.out :: ([.mgmt])) s₀ t := by
  refine Within.touches (m := 1267650600228238408695957946368) ?_ (by decide)
  generalize hmsk : 1267650600228238408695957946368 = msk
  have ho : msk.testBit Part.out.idx = true := by rw [← hmsk]; rfl
  replace hmsk : 1267650600228238408695957946368 &&& msk = 1267650600228238408695957946368 := by rw [← hmsk]; rfl
  unfold execSetEndpointId at h
  refine live_touches h ho ?_
  clear ho h
  intro u hk
  try dsimp only
  repeat' (first
    | with_reducible assumption
    | exact sub_mask hmsk rfl
    | with_reducible apply State.answer_touches
    | split
    | intro _
    | (refine Within.lit ?_ (by intro q hq; cases q <;> first | exact rfl | exact ⟨HubPart.same_refl _ _, HubPart.same_refl _ _⟩ | exact (no_mask hmsk rfl hq).elim)))

theorem execGetEndpointId_touches {s₀ t : State}  (h : execGetEndpointId  s₀ = .next t) :
    Touches (.out :: ([.mgmt])) s₀ t := by
  refine Within.touches (m := 1267650600228238408695957946368) ?_ (by decide)
  generalize hmsk : 1267650600228238408695957946368 = msk
  have ho : msk.testBit Part.out.idx = true := by rw [← hmsk]; rfl
  replace hmsk : 1267650600228238408695957946368 &&& msk = 1267650600228238408695957946368 := by rw [← hmsk]; rfl
  unfold execGetEndpointId at h
  refine live_touches h ho ?_
  clear ho h
  intro u hk
  try dsimp only
  repeat' (first
    | with_reducible assumption
    | exact sub_mask hmsk rfl
    | with_reducible apply State.answer_touches
    | split
    | intro _
    | (refine Within.lit ?_ (by intro q hq; cases q <;> first | exact rfl | exact ⟨HubPart.same_refl _ _, HubPart.same_refl _ _⟩ | exact (no_mask hmsk rfl hq).elim)))

theorem execGetEndpointUuid_touches {s₀ t : State}  (h : execGetEndpointUuid  s₀ = .next t) :
    Touches (.out :: ([.mgmt])) s₀ t := by
  refine Within.touches (m := 1267650600228238408695957946368) ?_ (by decide)
  generalize hmsk : 1267650600228238408695957946368 = msk
  have ho : msk.testBit Part.out.idx = true := by rw [← hmsk]; rfl
  replace hmsk : 1267650600228238408695957946368 &&& msk = 1267650600228238408695957946368 := by rw [← hmsk]; rfl
  unfold execGetEndpointUuid at h
  refine live_touches h ho ?_
  clear ho h
  intro u hk
  try dsimp only
  repeat' (first
    | with_reducible assumption
    | exact sub_mask hmsk rfl
    | with_reducible apply State.answer_touches
    | split
    | intro _
    | (refine Within.lit ?_ (by intro q hq; cases q <;> first | exact rfl | exact ⟨HubPart.same_refl _ _, HubPart.same_refl _ _⟩ | exact (no_mask hmsk rfl hq).elim)))

theorem execGetMctpVersionSupport_touches {s₀ t : State} (type : Byte) (h : execGetMctpVersionSupport type s₀ = .next t) :
    Touches (.out :: ([.mgmt])) s₀ t := by
  refine Within.touches (m := 1267650600228238408695957946368) ?_ (by decide)
  generalize hmsk : 1267650600228238408695957946368 = msk
  have ho : msk.testBit Part.out.idx = true := by rw [← hmsk]; rfl
  replace hmsk : 1267650600228238408695957946368 &&& msk = 1267650600228238408695957946368 := by rw [← hmsk]; rfl
  unfold execGetMctpVersionSupport at h
  refine live_touches h ho ?_
  clear ho h
  intro u hk
  try dsimp only
  repeat' (first
    | with_reducible assumption
    | exact sub_mask hmsk rfl
    | with_reducible apply State.answer_touches
    | split
    | intro _
    | (refine Within.lit ?_ (by intro q hq; cases q <;> first | exact rfl | exact ⟨HubPart.same_refl _ _, HubPart.same_refl _ _⟩ | exact (no_mask hmsk rfl hq).elim)))

theorem execGetMessageTypeSupport_touches {s₀ t : State}  (h : execGetMessageTypeSupport  s₀ = .next t) :
    Touches (.out :: ([.mgmt])) s₀ t := by
  refine Within.touches (m := 1267650600228238408695957946368) ?_ (by decide)
  generalize hmsk : 1267650600228238408695957946368 = msk
  have ho : msk.testBit Part.out.idx = true := by rw [← hmsk]; rfl
  replace hmsk : 1267650600228238408695957946368 &&& msk = 1267650600228238408695957946368 := by rw [← hmsk]; rfl
  unfold execGetMessageTypeSupport at h
  refine live_touches h ho ?_
  clear ho h
  intro u hk
  try dsimp only
  repeat' (first
    | with_reducible assumption
    | exact sub_mask hmsk rfl
    | with_reducible apply State.answer_touches
    | split
    | intro _
    | (refine Within.lit ?_ (by intro q hq; cases q <;> first | exact rfl | exact ⟨HubPart.same_refl _ _, HubPart.same_refl _ _⟩ | exact (no_mask hmsk rfl hq).elim)))

theorem execErrorUnsupportedCmd_touches {s₀ t : State} (code : Byte) (h : execErrorUnsupportedCmd code s₀ = .next t) :
    Touches (.out :: ([.mgmt])) s₀ t := by
  refine Within.touches (m := 1267650600228238408695957946368) ?_ (by decide)
  generalize hmsk : 1267650600228238408695957946368 = msk
  have ho : msk.testBit Part.out.idx = true := by rw [← hmsk]; rfl
  replace hmsk : 1267650600228238408695957946368 &&& msk = 1267650600228238408695957946368 := by rw [← hmsk]; rfl
  unfold execErrorUnsupportedCmd at h
  refine live_touches h ho ?_
  clear ho h
  intro u hk
  try dsimp only
  repeat' (first
    | with_reducible assumption
    | exact sub_mask hmsk rfl
    | with_reducible apply State.answer_touches
    | split
    | intro _
    | (refine Within.lit ?_ (by intro q hq; cases q <;> first | exact rfl | exact ⟨HubPart.same_refl _ _, HubPart.same_refl _ _⟩ | exact (no_mask hmsk rfl hq).elim)))

theorem execSetTid_touches {s₀ t : State} (tid : Byte) (h : execSetTid tid s₀ = .next t) :
    Touches (.out :: ([.mgmt])) s₀ t := by
  refine Within.touches (m := 1267650600228238408695957946368) ?_ (by decide)
  generalize hmsk : 1267650600228238408695957946368 = msk
  have ho : msk.testBit Part.out.idx = true := by rw [← hmsk]; rfl
  replace hmsk : 1267650600228238408695957946368 &&& msk = 1267650600228238408695957946368 := by rw [← hmsk]; rfl
  unfold execSetTid at h
  refine live_touches h ho ?_
  clear ho h
  intro u hk
  try dsimp only
  repeat' (first
    | with_reducible assumption
    | exact sub_mask hmsk rfl
    | with_reducible apply State.answer_touches
    | split
    | intro _
    | (refine Within.lit ?_ (by intro q hq; cases q <;> first | exact rfl | exact ⟨HubPart.same_refl _ _, HubPart.same_refl _ _⟩ | exact (no_mask hmsk rfl hq).elim)))

theorem execGetTid_touches {s₀ t : State}  (h : execGetTid  s₀ = .next t) :
    Touches (.out :: ([.mgmt])) s₀ t := by
  refine Within.touches (m := 1267650600228238408695957946368) ?_ (by decide)
  generalize hmsk : 1267650600228238408695957946368 = msk
  have ho : msk.testBit Part.out.idx = true := by rw [← hmsk]; rfl
  replace hmsk : 1267650600228238408695957946368 &&& msk = 1267650600228238408695957946368 := by rw [← hmsk]; rfl
  unfold execGetTid at h
  refine live_touches h ho ?_
  clear ho h
  intro u hk
  try dsimp only
  repeat' (first
    | with_reducible assumption
    | exact sub_mask hmsk rfl
    | with_reducible apply State.answer_touches
    | split
    | intro _
    | (refine Within.lit ?_ (by intro q hq; cases q <;> first | exact rfl | exact ⟨HubPart.same_refl _ _, HubPart.same_refl _ _⟩ | exact (no_mask hmsk rfl hq).elim)))

theorem execGetPldmVersion_touches {s₀ t : State} (type : Byte) (h : execGetPldmVersion type s₀ = .next t) :
    Touches (.out :: ([.mgmt])) s₀ t := by
  refine Within.touches (m := 1267650600228238408695957946368) ?_ (by decide)
  generalize hmsk : 1267650600228238408695957946368 = msk
  have ho : msk.testBit Part.out.idx = true := by rw [← hmsk]; rfl
  replace hmsk : 1267650600228238408695957946368 &&& msk = 1267650600228238408695957946368 := by rw [← hmsk]; rfl
  unfold execGetPldmVersion at h
  refine live_touches h ho ?_
  clear ho h
  intro u hk
  try dsimp only
  repeat' (first
    | with_reducible assumption
    | exact sub_mask hmsk rfl
    | with_reducible apply State.answer_touches
    | split
    | intro _
    | (refine Within.lit ?_ (by intro q hq; cases q <;> first | exact rfl | exact ⟨HubPart.same_refl _ _, HubPart.same_refl _ _⟩ | exact (no_mask hmsk rfl hq).elim)))

theorem execGetPldmTypes_touches {s₀ t : State}  (h : execGetPldmTypes  s₀ = .next t) :
    Touches (.out :: ([.mgmt])) s₀ t := by
  refine Within.touches (m := 1267650600228238408695957946368) ?_ (by decide)
  generalize hmsk : 1267650600228238408695957946368 = msk
  have ho : msk.testBit Part.out.idx = true := by rw [← hmsk]; rfl
  replace hmsk : 1267650600228238408695957946368 &&& msk = 1267650600228238408695957946368 := by rw [← hmsk]; rfl
  unfold execGetPldmTypes at h
  refine live_touches h ho ?_
  clear ho h
  intro u hk
  try dsimp only
  repeat' (first
    | with_reducible assumption
    | exact sub_mask hmsk rfl
    | with_reducible apply State.answer_touches
    | split
    | intro _
    | (refine Within.lit ?_ (by intro q hq; cases q <;> first | exact rfl | exact ⟨HubPart.same_refl _ _, HubPart.same_refl _ _⟩ | exact (no_mask hmsk rfl hq).elim)))

theorem execGetPldmCommands_touches {s₀ t : State} (type : Byte) (h : execGetPldmCommands type s₀ = .next t) :
    Touches (.out :: ([.mgmt])) s₀ t := by
  refine Within.touches (m := 1267650600228238408695957946368) ?_ (by decide)
  generalize hmsk : 1267650600228238408695957946368 = msk
  have ho : msk.testBit Part.out.idx = true := by rw [← hmsk]; rfl
  replace hmsk : 1267650600228238408695957946368 &&& msk = 1267650600228238408695957946368 := by rw [← hmsk]; rfl
  unfold execGetPldmCommands at h
  refine live_touches h ho ?_
  clear ho h
  intro u hk
  try dsimp only
  repeat' (first
    | with_reducible assumption
    | exact sub_mask hmsk rfl
    | with_reducible apply State.answer_touches
    | split
    | intro _
    | (refine Within.lit ?_ (by intro q hq; cases q <;> first | exact rfl | exact ⟨HubPart.same_refl _ _, HubPart.same_refl _ _⟩ | exact (no_mask hmsk rfl hq).elim)))

theorem execErrorUnsupportedPldmCmd_touches {s₀ t : State} (type code : Byte) (h : execErrorUnsupportedPldmCmd type code s₀ = .next t) :
    Touches (.out :: ([.mgmt])) s₀ t := by
  refine Within.touches (m := 1267650600228238408695957946368) ?_ (by decide)
  generalize hmsk : 1267650600228238408695957946368 = msk
  have ho : msk.testBit Part.out.idx = true := by rw [← hmsk]; rfl
  replace hmsk : 1267650600228238408695957946368 &&& msk = 1267650600228238408695957946368 := by rw [← hmsk]; rfl
  unfold execErrorUnsupportedPldmCmd at h
  refine live_touches h ho ?_
  clear ho h
  intro u hk
  try dsimp only
  repeat' (first
    | with_reducible assumption
    | exact sub_mask hmsk rfl
    | with_reducible apply State.answer_touches
    | split
    | intro _
    | (refine Within.lit ?_ (by intro q hq; cases q <;> first | exact rfl | exact ⟨HubPart.same_refl _ _, HubPart.same_refl _ _⟩ | exact (no_mask hmsk rfl hq).elim)))

theorem execSetEventReceiver_touches {s₀ t : State} (mode : EventMode) (eid : Byte) (heartbeat : Nat) (h : execSetEventReceiver mode eid heartbeat s₀ = .next t) :
    Touches (.out :: ([.mgmt])) s₀ t := by
  refine Within.touches (m := 1267650600228238408695957946368) ?_ (by decide)
  generalize hmsk : 1267650600228238408695957946368 = msk
  have ho : msk.testBit Part.out.idx = true := by rw [← hmsk]; rfl
  replace hmsk : 1267650600228238408695957946368 &&& msk = 1267650600228238408695957946368 := by rw [← hmsk]; rfl
  unfold execSetEventReceiver at h
  refine live_touches h ho ?_
  clear ho h
  intro u hk
  try dsimp only
  repeat' (first
    | with_reducible assumption
    | exact sub_mask hmsk rfl
    | with_reducible apply State.answer_touches
    | split
    | intro _
    | (refine Within.lit ?_ (by intro q hq; cases q <;> first | exact rfl | exact ⟨HubPart.same_refl _ _, HubPart.same_refl _ _⟩ | exact (no_mask hmsk rfl hq).elim)))

theorem execGetEventReceiver_touches {s₀ t : State}  (h : execGetEventReceiver  s₀ = .next t) :
    Touches (.out :: ([.mgmt])) s₀ t := by
  refine Within.touches (m := 1267650600228238408695957946368) ?_ (by decide)
  generalize hmsk : 1267650600228238408695957946368 = msk
  have ho : msk.testBit Part.out.idx = true := by rw [← hmsk]; rfl
  replace hmsk : 1267650600228238408695957946368 &&& msk = 1267650600228238408695957946368 := by rw [← hmsk]; rfl
  unfold execGetEventReceiver at h
  refine live_touches h ho ?_
  clear ho h
  intro u hk
  try dsimp only
  repeat' (first
    | with_reducible assumption
    | exact sub_mask hmsk rfl
    | with_reducible apply State.answer_touches
    | split
    | intro _
    | (refine Within.lit ?_ (by intro q hq; cases q <;> first | exact rfl | exact ⟨HubPart.same_refl _ _, HubPart.same_refl _ _⟩ | exact (no_mask hmsk rfl hq).elim)))

theorem execEventMessageSupported_touches {s₀ t : State}  (h : execEventMessageSupported  s₀ = .next t) :
    Touches (.out :: ([.mgmt])) s₀ t := by
  refine Within.touches (m := 1267650600228238408695957946368) ?_ (by decide)
  generalize hmsk : 1267650600228238408695957946368 = msk
  have ho : msk.testBit Part.out.idx = true := by rw [← hmsk]; rfl
  replace hmsk : 1267650600228238408695957946368 &&& msk = 1267650600228238408695957946368 := by rw [← hmsk]; rfl
  unfold execEventMessageSupported at h
  refine live_touches h ho ?_
  clear ho h
  intro u hk
  try dsimp only
  repeat' (first
    | with_reducible assumption
    | exact sub_mask hmsk rfl
    | with_reducible apply State.answer_touches
    | split
    | intro _
    | (refine Within.lit ?_ (by intro q hq; cases q <;> first | exact rfl | exact ⟨HubPart.same_refl _ _, HubPart.same_refl _ _⟩ | exact (no_mask hmsk rfl hq).elim)))

theorem execEventMessageBufferSize_touches {s₀ t : State} (n : Nat) (h : execEventMessageBufferSize n s₀ = .next t) :
    Touches (.out :: ([.mgmt])) s₀ t := by
  refine Within.touches (m := 1267650600228238408695957946368) ?_ (by decide)
  generalize hmsk : 1267650600228238408695957946368 = msk
  have ho : msk.testBit Part.out.idx = true := by rw [← hmsk]; rfl
  replace hmsk : 1267650600228238408695957946368 &&& msk = 1267650600228238408695957946368 := by rw [← hmsk]; rfl
  unfold execEventMessageBufferSize at h
  refine live_touches h ho ?_
  clear ho h
  intro u hk
  try dsimp only
  repeat' (first
    | with_reducible assumption
    | exact sub_mask hmsk rfl
    | with_reducible apply State.answer_touches
    | split
    | intro _
    | (refine Within.lit ?_ (by intro q hq; cases q <;> first | exact rfl | exact ⟨HubPart.same_refl _ _, HubPart.same_refl _ _⟩ | exact (no_mask hmsk rfl hq).elim)))

theorem execGetSensorReading_touches {s₀ t : State} (id : BitVec 16) (h : execGetSensorReading id s₀ = .next t) :
    Touches (.out :: ([.mgmt])) s₀ t := by
  refine Within.touches (m := 1267650600228238408695957946368) ?_ (by decide)
  generalize hmsk : 1267650600228238408695957946368 = msk
  have ho : msk.testBit Part.out.idx = true := by rw [← hmsk]; rfl
  replace hmsk : 1267650600228238408695957946368 &&& msk = 1267650600228238408695957946368 := by rw [← hmsk]; rfl
  unfold execGetSensorReading at h
  refine live_touches h ho ?_
  clear ho h
  intro u hk
  try dsimp only
  repeat' (first
    | with_reducible assumption
    | exact sub_mask hmsk rfl
    | with_reducible apply State.answer_touches
    | split
    | intro _
    | (refine Within.lit ?_ (by intro q hq; cases q <;> first | exact rfl | exact ⟨HubPart.same_refl _ _, HubPart.same_refl _ _⟩ | exact (no_mask hmsk rfl hq).elim)))

theorem execGetStateSensorReadings_touches {s₀ t : State} (id : BitVec 16) (h : execGetStateSensorReadings id s₀ = .next t) :
    Touches (.out :: ([.mgmt])) s₀ t := by
  refine Within.touches (m := 1267650600228238408695957946368) ?_ (by decide)
  generalize hmsk : 1267650600228238408695957946368 = msk
  have ho : msk.testBit Part.out.idx = true := by rw [← hmsk]; rfl
  replace hmsk : 1267650600228238408695957946368 &&& msk = 1267650600228238408695957946368 := by rw [← hmsk]; rfl
  unfold execGetStateSensorReadings at h
  refine live_touches h ho ?_
  clear ho h
  intro u hk
  try dsimp only
  repeat' (first
    | with_reducible assumption
    | exact sub_mask hmsk rfl
    | with_reducible apply State.answer_touches
    | split
    | intro _
    | (refine Within.lit ?_ (by intro q hq; cases q <;> first | exact rfl | exact ⟨HubPart.same_refl _ _, HubPart.same_refl _ _⟩ | exact (no_mask hmsk rfl hq).elim)))

theorem execGetPdrRepositoryInfo_touches {s₀ t : State}  (h : execGetPdrRepositoryInfo  s₀ = .next t) :
    Touches (.out :: ([.mgmt])) s₀ t := by
  refine Within.touches (m := 1267650600228238408695957946368) ?_ (by decide)
  generalize hmsk : 1267650600228238408695957946368 = msk
  have ho : msk.testBit Part.out.idx = true := by rw [← hmsk]; rfl
  replace hmsk : 1267650600228238408695957946368 &&& msk = 1267650600228238408695957946368 := by rw [← hmsk]; rfl
  unfold execGetPdrRepositoryInfo at h
  refine live_touches h ho ?_
  clear ho h
  intro u hk
  try dsimp only
  repeat' (first
    | with_reducible assumption
    | exact sub_mask hmsk rfl
    | with_reducible apply State.answer_touches
    | split
    | intro _
    | (refine Within.lit ?_ (by intro q hq; cases q <;> first | exact rfl | exact ⟨HubPart.same_refl _ _, HubPart.same_refl _ _⟩ | exact (no_mask hmsk rfl hq).elim)))

theorem execGetPdr_touches {s₀ t : State} (index : Nat) (h : execGetPdr index s₀ = .next t) :
    Touches (.out :: ([.mgmt])) s₀ t := by
  refine Within.touches (m := 1267650600228238408695957946368) ?_ (by decide)
  generalize hmsk : 1267650600228238408695957946368 = msk
  have ho : msk.testBit Part.out.idx = true := by rw [← hmsk]; rfl
  replace hmsk : 1267650600228238408695957946368 &&& msk = 1267650600228238408695957946368 := by rw [← hmsk]; rfl
  unfold execGetPdr at h
  refine live_touches h ho ?_
  clear ho h
  intro u hk
  try dsimp only
  repeat' (first
    | with_reducible assumption
    | exact sub_mask hmsk rfl
    | with_reducible apply State.answer_touches
    | split
    | intro _
    | (refine Within.lit ?_ (by intro q hq; cases q <;> first | exact rfl | exact ⟨HubPart.same_refl _ _, HubPart.same_refl _ _⟩ | exact (no_mask hmsk rfl hq).elim)))

theorem execEventSend_touches {s₀ t : State}  (h : execEventSend  s₀ = .next t) :
    Touches (.out :: ([.hub .dailies, .mgmt])) s₀ t := by
  refine Within.touches (m := 1267650600228238413094004457472) ?_ (by decide)
  generalize hmsk : 1267650600228238413094004457472 = msk
  have ho : msk.testBit Part.out.idx = true := by rw [← hmsk]; rfl
  replace hmsk : 1267650600228238413094004457472 &&& msk = 1267650600228238413094004457472 := by rw [← hmsk]; rfl
  unfold execEventSend at h
  refine live_touches h ho ?_
  clear ho h
  intro u hk
  try dsimp only
  repeat' (first
    | with_reducible assumption
    | exact sub_mask hmsk rfl
    | with_reducible apply State.modMgmt_touches
    | with_reducible apply State.holdPolled_touches
    | with_reducible apply State.markSending_touches
    | with_reducible apply State.interrupt_touches
    | with_reducible apply State.sendEvent_touches
    | split
    | intro _
    | (refine Within.lit ?_ (by intro q hq; cases q <;> first | exact rfl | exact ⟨HubPart.same_refl _ _, HubPart.same_refl _ _⟩ | exact (no_mask hmsk rfl hq).elim)))

theorem execEventAcknowledged_touches {s₀ t : State}  (h : execEventAcknowledged  s₀ = .next t) :
    Touches (.out :: ([.hub .dailies, .hub .dailiesSent, .mgmt])) s₀ t := by
  refine Within.touches (m := 1267650600228238448278376546304) ?_ (by decide)
  generalize hmsk : 1267650600228238448278376546304 = msk
  have ho : msk.testBit Part.out.idx = true := by rw [← hmsk]; rfl
  replace hmsk : 1267650600228238448278376546304 &&& msk = 1267650600228238448278376546304 := by rw [← hmsk]; rfl
  unfold execEventAcknowledged at h
  refine live_touches h ho ?_
  clear ho h
  intro u hk
  try dsimp only
  repeat' (first
    | with_reducible assumption
    | exact sub_mask hmsk rfl
    | with_reducible apply State.modMgmt_touches
    | with_reducible apply State.releaseDaily_touches
    | split
    | intro _
    | (refine Within.lit ?_ (by intro q hq; cases q <;> first | exact rfl | exact ⟨HubPart.same_refl _ _, HubPart.same_refl _ _⟩ | exact (no_mask hmsk rfl hq).elim)))

theorem execEventResendTimeout_touches {s₀ t : State}  (h : execEventResendTimeout  s₀ = .next t) :
    Touches (.out :: (timeParts ++ [.mgmt])) s₀ t := by
  refine Within.touches (m := 1267651204691166230409054781440) ?_ (by decide)
  generalize hmsk : 1267651204691166230409054781440 = msk
  have ho : msk.testBit Part.out.idx = true := by rw [← hmsk]; rfl
  replace hmsk : 1267651204691166230409054781440 &&& msk = 1267651204691166230409054781440 := by rw [← hmsk]; rfl
  unfold execEventResendTimeout at h
  refine live_touches h ho ?_
  clear ho h
  intro u hk
  try dsimp only
  repeat' (first
    | with_reducible assumption
    | exact sub_mask hmsk rfl
    | with_reducible apply State.advanceTo_touches
    | with_reducible apply State.modMgmt_touches
    | with_reducible apply State.interrupt_touches
    | with_reducible apply State.sendEvent_touches
    | with_reducible apply State.holdPolled_touches
    | split
    | intro _
    | (refine Within.lit ?_ (by intro q hq; cases q <;> first | exact rfl | exact ⟨HubPart.same_refl _ _, HubPart.same_refl _ _⟩ | exact (no_mask hmsk rfl hq).elim)))

theorem execHeartbeatTimer_touches {s₀ t : State}  (h : execHeartbeatTimer  s₀ = .next t) :
    Touches (.out :: (timeParts ++ [.mgmt])) s₀ t := by
  refine Within.touches (m := 1267651204691166230409054781440) ?_ (by decide)
  generalize hmsk : 1267651204691166230409054781440 = msk
  have ho : msk.testBit Part.out.idx = true := by rw [← hmsk]; rfl
  replace hmsk : 1267651204691166230409054781440 &&& msk = 1267651204691166230409054781440 := by rw [← hmsk]; rfl
  unfold execHeartbeatTimer at h
  refine live_touches h ho ?_
  clear ho h
  intro u hk
  try dsimp only
  repeat' (first
    | with_reducible assumption
    | exact sub_mask hmsk rfl
    | with_reducible apply State.advanceTo_touches
    | with_reducible apply State.modMgmt_touches
    | with_reducible apply State.mgmtPush_touches
    | split
    | intro _
    | (refine Within.lit ?_ (by intro q hq; cases q <;> first | exact rfl | exact ⟨HubPart.same_refl _ _, HubPart.same_refl _ _⟩ | exact (no_mask hmsk rfl hq).elim)))

theorem execPollForPlatformEventMessage_touches {s₀ t : State} (offset : Nat) (h : execPollForPlatformEventMessage offset s₀ = .next t) :
    Touches (.out :: ([.hub .dailies, .hub .dailiesSent, .mgmt])) s₀ t := by
  refine Within.touches (m := 1267650600228238448278376546304) ?_ (by decide)
  generalize hmsk : 1267650600228238448278376546304 = msk
  have ho : msk.testBit Part.out.idx = true := by rw [← hmsk]; rfl
  replace hmsk : 1267650600228238448278376546304 &&& msk = 1267650600228238448278376546304 := by rw [← hmsk]; rfl
  unfold execPollForPlatformEventMessage at h
  refine live_touches h ho ?_
  clear ho h
  intro u hk
  try dsimp only
  repeat' (first
    | with_reducible assumption
    | exact sub_mask hmsk rfl
    | with_reducible apply State.mgmtReply_touches
    | with_reducible apply State.releasePolled_touches
    | with_reducible apply State.modMgmt_touches
    | with_reducible apply State.markSending_touches
    | split
    | intro _
    | (refine Within.lit ?_ (by intro q hq; cases q <;> first | exact rfl | exact ⟨HubPart.same_refl _ _, HubPart.same_refl _ _⟩ | exact (no_mask hmsk rfl hq).elim)))

theorem execStart_touches {s₀ t : State} (tag : Byte) (h : execStart tag s₀ = .next t) :
    Touches (.out :: (endParts ++ [.hub .st, .twin, .xlink, .stage, .stageFrom, .stages, .image, .keyPort, .mgmt])) s₀ t := by
  refine Within.touches (m := 1267650749093463083532040536065) ?_ (by decide)
  generalize hmsk : 1267650749093463083532040536065 = msk
  have ho : msk.testBit Part.out.idx = true := by rw [← hmsk]; rfl
  replace hmsk : 1267650749093463083532040536065 &&& msk = 1267650749093463083532040536065 := by rw [← hmsk]; rfl
  unfold execStart at h
  refine live_touches h ho ?_
  clear ho h
  intro u hk
  try dsimp only
  repeat' (first
    | with_reducible assumption
    | exact sub_mask hmsk rfl
    | with_reducible apply State.portDo_touches
    | with_reducible apply State.issue_touches
    | with_reducible apply State.consented_touches
    | with_reducible apply State.startAct_touches
    | split
    | intro _
    | (refine Within.lit ?_ (by intro q hq; cases q <;> first | exact rfl | exact ⟨HubPart.same_refl _ _, HubPart.same_refl _ _⟩ | exact (no_mask hmsk rfl hq).elim)))

theorem execLoadHarness_touches {s₀ t : State} (tag : Byte) (h : execLoadHarness tag s₀ = .next t) :
    Touches (.out :: (endParts ++ [.twin, .xlink, .harness])) s₀ t := by
  refine Within.touches (m := 304703327616733629382656) ?_ (by decide)
  generalize hmsk : 304703327616733629382656 = msk
  have ho : msk.testBit Part.out.idx = true := by rw [← hmsk]; rfl
  replace hmsk : 304703327616733629382656 &&& msk = 304703327616733629382656 := by rw [← hmsk]; rfl
  unfold execLoadHarness at h
  refine live_touches h ho ?_
  clear ho h
  intro u hk
  try dsimp only
  repeat' (first
    | with_reducible assumption
    | exact sub_mask hmsk rfl
    | with_reducible apply State.portDo_touches
    | with_reducible apply State.issue_touches
    | with_reducible apply State.consented_touches
    | with_reducible apply State.loadHarnessAct_touches
    | split
    | intro _
    | (refine Within.lit ?_ (by intro q hq; cases q <;> first | exact rfl | exact ⟨HubPart.same_refl _ _, HubPart.same_refl _ _⟩ | exact (no_mask hmsk rfl hq).elim)))

theorem execRun_touches {s₀ t : State} (tag : Byte) (h : execRun tag s₀ = .next t) :
    Touches (.out :: (endParts ++ [.hub .st, .twin, .xlink, .mgmt])) s₀ t := by
  refine Within.touches (m := 1267650602700102114573038911489) ?_ (by decide)
  generalize hmsk : 1267650602700102114573038911489 = msk
  have ho : msk.testBit Part.out.idx = true := by rw [← hmsk]; rfl
  replace hmsk : 1267650602700102114573038911489 &&& msk = 1267650602700102114573038911489 := by rw [← hmsk]; rfl
  unfold execRun at h
  refine live_touches h ho ?_
  clear ho h
  intro u hk
  try dsimp only
  repeat' (first
    | with_reducible assumption
    | exact sub_mask hmsk rfl
    | with_reducible apply State.portDo_touches
    | with_reducible apply State.issue_touches
    | with_reducible apply State.consented_touches
    | with_reducible apply State.runAct_touches
    | split
    | intro _
    | (refine Within.lit ?_ (by intro q hq; cases q <;> first | exact rfl | exact ⟨HubPart.same_refl _ _, HubPart.same_refl _ _⟩ | exact (no_mask hmsk rfl hq).elim)))

theorem execQuiesce_touches {s₀ t : State} (tag : Byte) (h : execQuiesce tag s₀ = .next t) :
    Touches (.out :: (endParts ++ [.hub .st, .xlink, .mgmt])) s₀ t := by
  refine Within.touches (m := 1267650602663208626425619808257) ?_ (by decide)
  generalize hmsk : 1267650602663208626425619808257 = msk
  have ho : msk.testBit Part.out.idx = true := by rw [← hmsk]; rfl
  replace hmsk : 1267650602663208626425619808257 &&& msk = 1267650602663208626425619808257 := by rw [← hmsk]; rfl
  unfold execQuiesce at h
  refine live_touches h ho ?_
  clear ho h
  intro u hk
  try dsimp only
  repeat' (first
    | with_reducible assumption
    | exact sub_mask hmsk rfl
    | with_reducible apply State.portDo_touches
    | with_reducible apply State.issue_touches
    | with_reducible apply State.endQuiesce_touches
    | split
    | intro _
    | (refine Within.lit ?_ (by intro q hq; cases q <;> first | exact rfl | exact ⟨HubPart.same_refl _ _, HubPart.same_refl _ _⟩ | exact (no_mask hmsk rfl hq).elim)))

theorem execSave_touches {s₀ t : State} (tag : Byte) (h : execSave tag s₀ = .next t) :
    Touches (.out :: (endParts ++ [.hub .st, .twin, .xlink, .mgmt])) s₀ t := by
  refine Within.touches (m := 1267650602700102114573038911489) ?_ (by decide)
  generalize hmsk : 1267650602700102114573038911489 = msk
  have ho : msk.testBit Part.out.idx = true := by rw [← hmsk]; rfl
  replace hmsk : 1267650602700102114573038911489 &&& msk = 1267650602700102114573038911489 := by rw [← hmsk]; rfl
  unfold execSave at h
  refine live_touches h ho ?_
  clear ho h
  intro u hk
  try dsimp only
  repeat' (first
    | with_reducible assumption
    | exact sub_mask hmsk rfl
    | with_reducible apply State.portDo_touches
    | with_reducible apply State.issue_touches
    | with_reducible apply State.refuseWord_touches
    | with_reducible apply State.endCmd_touches
    | with_reducible apply State.consented_touches
    | with_reducible apply State.saveAct_touches
    | split
    | intro _
    | (refine Within.lit ?_ (by intro q hq; cases q <;> first | exact rfl | exact ⟨HubPart.same_refl _ _, HubPart.same_refl _ _⟩ | exact (no_mask hmsk rfl hq).elim)))

theorem execRestore_touches {s₀ t : State} (tag : Byte) (image : SaveImage) (h : execRestore tag image s₀ = .next t) :
    Touches (.out :: (endParts ++ [.hub .st, .hub .srcs, .hub .paddock, .hub .aborted, .agents, .concs, .twin, .xlink, .harness, .jobs, .ports, .inlog, .streams, .restoreSkipped, .test, .mgmt])) s₀ t := by
  refine Within.touches (m := 2322378236257799006216556576771) ?_ (by decide)
  generalize hmsk : 2322378236257799006216556576771 = msk
  have ho : msk.testBit Part.out.idx = true := by rw [← hmsk]; rfl
  replace hmsk : 2322378236257799006216556576771 &&& msk = 2322378236257799006216556576771 := by rw [← hmsk]; rfl
  unfold execRestore at h
  refine live_touches h ho ?_
  clear ho h
  intro u hk
  try dsimp only
  repeat' (first
    | with_reducible assumption
    | exact sub_mask hmsk rfl
    | with_reducible apply State.portDo_touches
    | with_reducible apply State.issue_touches
    | with_reducible apply State.consented_touches
    | with_reducible apply State.restoreAct_touches
    | split
    | intro _
    | (refine Within.lit ?_ (by intro q hq; cases q <;> first | exact rfl | exact ⟨HubPart.same_refl _ _, HubPart.same_refl _ _⟩ | exact (no_mask hmsk rfl hq).elim)))

theorem execTrotUp_touches {s₀ t : State} (tag : Byte) (h : execTrotUp tag s₀ = .next t) :
    Touches (.out :: (endParts ++ [.hub .st, .hub .srcs, .hub .s4, .hub .fences, .hub .sticky, .hub .reel, .hub .reelHead, .hub .reelWraps, .hub .reelStopped, .hub .afterS4, .hub .intake, .hub .paddock, .hub .thrEvt, .hub .thermal, .hub .snaps, .hub .roundMs, .hub .dailies, .hub .dailiesBuilt, .hub .dailiesDropped, .hub .dailyDropped, .agents, .concs, .twin, .xlink, .alive, .stage, .stages, .keyPort, .jobs, .abortFifo, .retakes, .retakeLog, .logHead, .decCnt, .test, .mgmt])) s₀ t := by
  refine Within.touches (m := 1901773397886571095764843466491) ?_ (by decide)
  generalize hmsk : 1901773397886571095764843466491 = msk
  have ho : msk.testBit Part.out.idx = true := by rw [← hmsk]; rfl
  replace hmsk : 1901773397886571095764843466491 &&& msk = 1901773397886571095764843466491 := by rw [← hmsk]; rfl
  unfold execTrotUp at h
  refine live_touches h ho ?_
  clear ho h
  intro u hk
  try dsimp only
  repeat' (first
    | with_reducible assumption
    | exact sub_mask hmsk rfl
    | with_reducible apply State.portDo_touches
    | with_reducible apply State.issue_touches
    | with_reducible apply State.eachHub_touches
    | with_reducible apply State.placeByDriver_touches
    | with_reducible apply State.endCmd_touches
    | split
    | intro _
    | (refine Within.lit ?_ (by intro q hq; cases q <;> first | exact rfl | exact ⟨HubPart.same_refl _ _, HubPart.same_refl _ _⟩ | exact (no_mask hmsk rfl hq).elim)))

theorem execClearSource_touches {s₀ t : State} (tag : Byte) (h : execClearSource tag s₀ = .next t) :
    Touches (.out :: (endParts ++ [.hub .st, .hub .srcs, .hub .lameSinceReady, .hub .s4, .hub .fences, .hub .sticky, .hub .reel, .hub .reelHead, .hub .reelWraps, .hub .reelStopped, .hub .afterS4, .hub .ctr, .hub .intake, .hub .paddock, .hub .thrEvt, .hub .thermal, .hub .snaps, .hub .roundMs, .hub .dailies, .hub .dailiesBuilt, .hub .dailiesDropped, .hub .dailyDropped, .agents, .concs, .links, .twin, .xlink, .alive, .stage, .stages, .keyPort, .jobs, .abortFifo, .retakes, .retakeLog, .logHead, .decCnt, .retakesOrdered, .test, .mgmt])) s₀ t := by
  refine Within.touches (m := 1902082882905615812870423039743) ?_ (by decide)
  generalize hmsk : 1902082882905615812870423039743 = msk
  have ho : msk.testBit Part.out.idx = true := by rw [← hmsk]; rfl
  replace hmsk : 1902082882905615812870423039743 &&& msk = 1902082882905615812870423039743 := by rw [← hmsk]; rfl
  unfold execClearSource at h
  refine live_touches h ho ?_
  clear ho h
  intro u hk
  try dsimp only
  repeat' (first
    | with_reducible assumption
    | exact sub_mask hmsk rfl
    | with_reducible apply State.portDo_touches
    | with_reducible apply State.issue_touches
    | with_reducible apply State.consented_touches
    | with_reducible apply State.clearSourceAct_touches
    | split
    | intro _
    | (refine Within.lit ?_ (by intro q hq; cases q <;> first | exact rfl | exact ⟨HubPart.same_refl _ _, HubPart.same_refl _ _⟩ | exact (no_mask hmsk rfl hq).elim)))

theorem execSetBand_touches {s₀ t : State} (tag : Byte) (h : execSetBand tag s₀ = .next t) :
    Touches (.out :: (endParts ++ [.twin, .xlink, .bands])) s₀ t := by
  refine Within.touches (m := 2475882550443473626133954560) ?_ (by decide)
  generalize hmsk : 2475882550443473626133954560 = msk
  have ho : msk.testBit Part.out.idx = true := by rw [← hmsk]; rfl
  replace hmsk : 2475882550443473626133954560 &&& msk = 2475882550443473626133954560 := by rw [← hmsk]; rfl
  unfold execSetBand at h
  refine live_touches h ho ?_
  clear ho h
  intro u hk
  try dsimp only
  repeat' (first
    | with_reducible assumption
    | exact sub_mask hmsk rfl
    | with_reducible apply State.portDo_touches
    | with_reducible apply State.issue_touches
    | with_reducible apply State.consented_touches
    | with_reducible apply State.setBandAct_touches
    | split
    | intro _
    | (refine Within.lit ?_ (by intro q hq; cases q <;> first | exact rfl | exact ⟨HubPart.same_refl _ _, HubPart.same_refl _ _⟩ | exact (no_mask hmsk rfl hq).elim)))

theorem execRetireTwin_touches {s₀ t : State} (tag : Byte) (h : execRetireTwin tag s₀ = .next t) :
    Touches (.out :: (noteParts ++ [.hub .lameSinceReady, .hub .fails, .hub .digestMiss, .hub .merging, .freeCtr, .retakesOrdered])) s₀ t := by
  refine Within.touches (m := 2035780407139285571415246884607) ?_ (by decide)
  generalize hmsk : 2035780407139285571415246884607 = msk
  have ho : msk.testBit Part.out.idx = true := by rw [← hmsk]; rfl
  replace hmsk : 2035780407139285571415246884607 &&& msk = 2035780407139285571415246884607 := by rw [← hmsk]; rfl
  unfold execRetireTwin at h
  refine live_touches h ho ?_
  clear ho h
  intro u hk
  try dsimp only
  repeat' (first
    | with_reducible assumption
    | exact sub_mask hmsk rfl
    | with_reducible apply State.portDo_touches
    | with_reducible apply State.issue_touches
    | with_reducible apply State.finishMerge_touches
    | with_reducible apply State.endRetire_touches
    | split
    | intro _
    | (refine Within.lit ?_ (by intro q hq; cases q <;> first | exact rfl | exact ⟨HubPart.same_refl _ _, HubPart.same_refl _ _⟩ | exact (no_mask hmsk rfl hq).elim)))

theorem execWrap_touches {s₀ t : State} (tag : Byte) (h : execWrap tag s₀ = .next t) :
    Touches (.out :: (endParts ++ [.hub .st, .hub .zeroised, .hub .secReq, .hub .secClr, .agents, .concs, .xlink, .test, .mgmt])) s₀ t := by
  refine Within.touches (m := 1901475902780782091747921494017) ?_ (by decide)
  generalize hmsk : 1901475902780782091747921494017 = msk
  have ho : msk.testBit Part.out.idx = true := by rw [← hmsk]; rfl
  replace hmsk : 1901475902780782091747921494017 &&& msk = 1901475902780782091747921494017 := by rw [← hmsk]; rfl
  unfold execWrap at h
  refine live_touches h ho ?_
  clear ho h
  intro u hk
  try dsimp only
  repeat' (first
    | with_reducible assumption
    | exact sub_mask hmsk rfl
    | with_reducible apply State.portDo_touches
    | with_reducible apply State.issue_touches
    | with_reducible apply State.endWrap_touches
    | with_reducible apply State.askGroup_touches
    | split
    | intro _
    | (refine Within.lit ?_ (by intro q hq; cases q <;> first | exact rfl | exact ⟨HubPart.same_refl _ _, HubPart.same_refl _ _⟩ | exact (no_mask hmsk rfl hq).elim)))

theorem execSignResultOpen_touches {s₀ t : State} (tag : Byte) (weights : List (List W32)) (h : execSignResultOpen tag weights s₀ = .next t) :
    Touches (.out :: (endParts ++ [.twin, .xlink, .streams, .sign])) s₀ t := by
  refine Within.touches (m := 237684490014665725856967557120) ?_ (by decide)
  generalize hmsk : 237684490014665725856967557120 = msk
  have ho : msk.testBit Part.out.idx = true := by rw [← hmsk]; rfl
  replace hmsk : 237684490014665725856967557120 &&& msk = 237684490014665725856967557120 := by rw [← hmsk]; rfl
  unfold execSignResultOpen at h
  refine live_touches h ho ?_
  clear ho h
  intro u hk
  try dsimp only
  repeat' (first
    | with_reducible assumption
    | exact sub_mask hmsk rfl
    | with_reducible apply State.signResult_touches
    | with_reducible apply State.signOpenAct_touches
    | split
    | intro _
    | (refine Within.lit ?_ (by intro q hq; cases q <;> first | exact rfl | exact ⟨HubPart.same_refl _ _, HubPart.same_refl _ _⟩ | exact (no_mask hmsk rfl hq).elim)))

theorem execSignResultSign_touches {s₀ t : State} (tag : Byte) (h : execSignResultSign tag s₀ = .next t) :
    Touches (.out :: (endParts ++ [.twin, .xlink, .streams, .sign])) s₀ t := by
  refine Within.touches (m := 237684490014665725856967557120) ?_ (by decide)
  generalize hmsk : 237684490014665725856967557120 = msk
  have ho : msk.testBit Part.out.idx = true := by rw [← hmsk]; rfl
  replace hmsk : 237684490014665725856967557120 &&& msk = 237684490014665725856967557120 := by rw [← hmsk]; rfl
  unfold execSignResultSign at h
  refine live_touches h ho ?_
  clear ho h
  intro u hk
  try dsimp only
  repeat' (first
    | with_reducible assumption
    | exact sub_mask hmsk rfl
    | with_reducible apply State.signResult_touches
    | with_reducible apply State.signAct_touches
    | split
    | intro _
    | (refine Within.lit ?_ (by intro q hq; cases q <;> first | exact rfl | exact ⟨HubPart.same_refl _ _, HubPart.same_refl _ _⟩ | exact (no_mask hmsk rfl hq).elim)))

theorem execSignResultClose_touches {s₀ t : State} (tag : Byte) (h : execSignResultClose tag s₀ = .next t) :
    Touches (.out :: (endParts ++ [.twin, .xlink, .streams, .sign])) s₀ t := by
  refine Within.touches (m := 237684490014665725856967557120) ?_ (by decide)
  generalize hmsk : 237684490014665725856967557120 = msk
  have ho : msk.testBit Part.out.idx = true := by rw [← hmsk]; rfl
  replace hmsk : 237684490014665725856967557120 &&& msk = 237684490014665725856967557120 := by rw [← hmsk]; rfl
  unfold execSignResultClose at h
  refine live_touches h ho ?_
  clear ho h
  intro u hk
  try dsimp only
  repeat' (first
    | with_reducible assumption
    | exact sub_mask hmsk rfl
    | with_reducible apply State.signResult_touches
    | with_reducible apply State.signAct_touches
    | split
    | intro _
    | (refine Within.lit ?_ (by intro q hq; cases q <;> first | exact rfl | exact ⟨HubPart.same_refl _ _, HubPart.same_refl _ _⟩ | exact (no_mask hmsk rfl hq).elim)))

theorem execLaunchAt_touches {s₀ t : State} (tag : Byte) (h : execLaunchAt tag s₀ = .next t) :
    Touches (.out :: (endParts ++ [.twin, .xlink, .jobs])) s₀ t := by
  refine Within.touches (m := 2420323511942334685118464) ?_ (by decide)
  generalize hmsk : 2420323511942334685118464 = msk
  have ho : msk.testBit Part.out.idx = true := by rw [← hmsk]; rfl
  replace hmsk : 2420323511942334685118464 &&& msk = 2420323511942334685118464 := by rw [← hmsk]; rfl
  unfold execLaunchAt at h
  refine live_touches h ho ?_
  clear ho h
  intro u hk
  try dsimp only
  repeat' (first
    | with_reducible assumption
    | exact sub_mask hmsk rfl
    | with_reducible apply State.portDo_touches
    | with_reducible apply State.issue_touches
    | with_reducible apply State.consented_touches
    | with_reducible apply State.launchAct_touches
    | split
    | intro _
    | (refine Within.lit ?_ (by intro q hq; cases q <;> first | exact rfl | exact ⟨HubPart.same_refl _ _, HubPart.same_refl _ _⟩ | exact (no_mask hmsk rfl hq).elim)))

theorem execHotUpdate_touches {s₀ t : State} (tag : Byte) (wordsA wordsB : List W32) (h : execHotUpdate tag wordsA wordsB s₀ = .next t) :
    Touches (.out :: (noteParts ++ [.hub .actionDisagree, .hub .harnessSts, .hub .harnessOver, .harness])) s₀ t := by
  refine Within.touches (m := 2035471224360848758098541924091) ?_ (by decide)
  generalize hmsk : 2035471224360848758098541924091 = msk
  have ho : msk.testBit Part.out.idx = true := by rw [← hmsk]; rfl
  replace hmsk : 2035471224360848758098541924091 &&& msk = 2035471224360848758098541924091 := by rw [← hmsk]; rfl
  unfold execHotUpdate at h
  refine live_touches h ho ?_
  clear ho h
  intro u hk
  try dsimp only
  repeat' (first
    | with_reducible assumption
    | exact sub_mask hmsk rfl
    | with_reducible apply State.portDo_touches
    | with_reducible apply State.issue_touches
    | with_reducible apply State.eachHub_touches
    | with_reducible apply State.recordCheck_touches
    | with_reducible apply State.consented_touches
    | with_reducible apply State.hotAct_touches
    | with_reducible apply State.endCmd_touches
    | with_reducible apply State.refusal_touches
    | split
    | intro _
    | (refine Within.lit ?_ (by intro q hq; cases q <;> first | exact rfl | exact ⟨HubPart.same_refl _ _, HubPart.same_refl _ _⟩ | exact (no_mask hmsk rfl hq).elim)))

theorem execReplay_touches {s₀ t : State} (tag : Byte) (recorded : List InlogEntry) (h : execReplay tag recorded s₀ = .next t) :
    Touches (.out :: (endParts ++ [.twin, .xlink, .replay])) s₀ t := by
  refine Within.touches (m := 39614083729004881873107681280) ?_ (by decide)
  generalize hmsk : 39614083729004881873107681280 = msk
  have ho : msk.testBit Part.out.idx = true := by rw [← hmsk]; rfl
  replace hmsk : 39614083729004881873107681280 &&& msk = 39614083729004881873107681280 := by rw [← hmsk]; rfl
  unfold execReplay at h
  refine live_touches h ho ?_
  clear ho h
  intro u hk
  try dsimp only
  repeat' (first
    | with_reducible assumption
    | exact sub_mask hmsk rfl
    | with_reducible apply State.portDo_touches
    | with_reducible apply State.issue_touches
    | with_reducible apply State.consented_touches
    | with_reducible apply State.replayAct_touches
    | split
    | intro _
    | (refine Within.lit ?_ (by intro q hq; cases q <;> first | exact rfl | exact ⟨HubPart.same_refl _ _, HubPart.same_refl _ _⟩ | exact (no_mask hmsk rfl hq).elim)))

theorem execCommandTimeout_touches {s₀ t : State}  (h : execCommandTimeout  s₀ = .next t) :
    Touches (.out :: (timeParts ++ endParts)) s₀ t := by
  refine Within.touches (m := 606824120070347175231488) ?_ (by decide)
  generalize hmsk : 606824120070347175231488 = msk
  have ho : msk.testBit Part.out.idx = true := by rw [← hmsk]; rfl
  replace hmsk : 606824120070347175231488 &&& msk = 606824120070347175231488 := by rw [← hmsk]; rfl
  unfold execCommandTimeout at h
  refine live_touches h ho ?_
  clear ho h
  intro u hk
  try dsimp only
  repeat' (first
    | with_reducible assumption
    | exact sub_mask hmsk rfl
    | with_reducible apply State.advanceTo_touches
    | with_reducible apply State.endCmd_touches
    | split
    | intro _
    | (refine Within.lit ?_ (by intro q hq; cases q <;> first | exact rfl | exact ⟨HubPart.same_refl _ _, HubPart.same_refl _ _⟩ | exact (no_mask hmsk rfl hq).elim)))

theorem execRegisterWrite_touches {s₀ t : State} (addr : BitVec 16) (data : W32) (h : execRegisterWrite addr data s₀ = .next t) :
    Touches (.out :: (endParts ++ [.hub .regs, .xlink])) s₀ t := by
  refine Within.touches (m := 2434979224928917127168) ?_ (by decide)
  generalize hmsk : 2434979224928917127168 = msk
  have ho : msk.testBit Part.out.idx = true := by rw [← hmsk]; rfl
  replace hmsk : 2434979224928917127168 &&& msk = 2434979224928917127168 := by rw [← hmsk]; rfl
  unfold execRegisterWrite at h
  refine live_touches h ho ?_
  clear ho h
  intro u hk
  try dsimp only
  repeat' (first
    | with_reducible assumption
    | exact sub_mask hmsk rfl
    | with_reducible apply State.portDo_touches
    | with_reducible apply State.reservedOp_touches
    | with_reducible apply State.regWriteServing_touches
    | with_reducible exact HubWithin.refl _ _
    | split
    | intro (_ : Hub)
    | (refine ⟨?_⟩; intro q hq; cases q <;> first | exact rfl | exact (no_mask hmsk rfl hq).elim)
    | (refine HubWithin.lit ?_ (by intro q hq; cases q <;> first | exact rfl | exact (no_mask hmsk rfl hq).elim))
    | intro _
    | (refine Within.lit ?_ (by intro q hq; cases q <;> first | exact rfl | exact ⟨HubPart.same_refl _ _, HubPart.same_refl _ _⟩ | exact (no_mask hmsk rfl hq).elim)))

theorem execPropose_touches {s₀ t : State} (action : RelaxAction) (own : Option Nat) (h : execPropose action own s₀ = .next t) :
    Touches (.out :: (noteParts ++ callParts ++ [.hub .lameSinceReady, .hub .harnessSts, .hub .harnessOver, .links, .harness, .retakesOrdered, .bands, .inlog, .sign, .restoreSkipped])) s₀ t := by
  refine Within.touches (m := 2533432652396281174272582602495) ?_ (by decide)
  generalize hmsk : 2533432652396281174272582602495 = msk
  have ho : msk.testBit Part.out.idx = true := by rw [← hmsk]; rfl
  replace hmsk : 2533432652396281174272582602495 &&& msk = 2533432652396281174272582602495 := by rw [← hmsk]; rfl
  unfold execPropose at h
  refine live_touches h ho ?_
  clear ho h
  intro u hk
  try dsimp only
  repeat' (first
    | with_reducible assumption
    | exact sub_mask hmsk rfl
    | with_reducible apply State.sendFrame_touches
    | with_reducible apply State.pump_touches
    | with_reducible apply State.clearProposal_touches
    | with_reducible apply State.takeAction_touches
    | split
    | intro _
    | (refine Within.lit ?_ (by intro q hq; cases q <;> first | exact rfl | exact ⟨HubPart.same_refl _ _, HubPart.same_refl _ _⟩ | exact (no_mask hmsk rfl hq).elim)))

theorem execConsent_touches {s₀ t : State}  (h : execConsent  s₀ = .next t) :
    Touches (.out :: (noteParts ++ callParts ++ [.hub .lameSinceReady, .hub .harnessSts, .hub .harnessOver, .links, .harness, .retakesOrdered, .bands, .inlog, .sign, .restoreSkipped])) s₀ t := by
  refine Within.touches (m := 2533432652396281174272582602495) ?_ (by decide)
  generalize hmsk : 2533432652396281174272582602495 = msk
  have ho : msk.testBit Part.out.idx = true := by rw [← hmsk]; rfl
  replace hmsk : 2533432652396281174272582602495 &&& msk = 2533432652396281174272582602495 := by rw [← hmsk]; rfl
  unfold execConsent at h
  refine live_touches h ho ?_
  clear ho h
  intro u hk
  try dsimp only
  repeat' (first
    | with_reducible assumption
    | exact sub_mask hmsk rfl
    | with_reducible apply State.clearProposal_touches
    | with_reducible apply State.takeAction_touches
    | split
    | intro _
    | (refine Within.lit ?_ (by intro q hq; cases q <;> first | exact rfl | exact ⟨HubPart.same_refl _ _, HubPart.same_refl _ _⟩ | exact (no_mask hmsk rfl hq).elim)))

theorem execRefuse_touches {s₀ t : State}  (h : execRefuse  s₀ = .next t) :
    Touches (.out :: (noteParts ++ [.hub .actionDisagree])) s₀ t := by
  refine Within.touches (m := 2035470922129392165591387983611) ?_ (by decide)
  generalize hmsk : 2035470922129392165591387983611 = msk
  have ho : msk.testBit Part.out.idx = true := by rw [← hmsk]; rfl
  replace hmsk : 2035470922129392165591387983611 &&& msk = 2035470922129392165591387983611 := by rw [← hmsk]; rfl
  unfold execRefuse at h
  refine live_touches h ho ?_
  clear ho h
  intro u hk
  try dsimp only
  repeat' (first
    | with_reducible assumption
    | exact sub_mask hmsk rfl
    | with_reducible apply State.clearProposal_touches
    | with_reducible apply State.refusal_touches
    | with_reducible apply State.refuseAction_touches
    | split
    | intro _
    | (refine Within.lit ?_ (by intro q hq; cases q <;> first | exact rfl | exact ⟨HubPart.same_refl _ _, HubPart.same_refl _ _⟩ | exact (no_mask hmsk rfl hq).elim)))

end Sys2Proof.Machine
end

