-- ==== Sys2Proof/Laws/ExecTouchesHubs.lean ====
section
/-! SUPPORT. The parts that every command of a family may touch: Registers, Indirect, Twin, HarnessCheck, BringUp, Stages, Sign. -/

namespace Sys2Proof.Machine

open Sys2Proof

theorem execStageBudgetExpiry_touches {s₀ t : State}  (h : execStageBudgetExpiry  s₀ = .next t) :
    Touches (.out :: (timeParts ++ endParts ++ [.hub .st, .hub .sticky, .hub .reel, .hub .reelHead, .hub .reelWraps, .hub .reelStopped, .hub .afterS4, .hub .intake, .hub .snaps, .stage, .stages, .keyPort, .mgmt])) s₀ t := by
  refine Within.touches (m := 1267651306222045612106444738273) ?_ (by decide)
  generalize hmsk : 1267651306222045612106444738273 = msk
  have ho : msk.testBit Part.out.idx = true := by rw [← hmsk]; rfl
  replace hmsk : 1267651306222045612106444738273 &&& msk = 1267651306222045612106444738273 := by rw [← hmsk]; rfl
  unfold execStageBudgetExpiry at h
  refine live_touches h ho ?_
  clear ho h
  intro u hk
  try dsimp only
  repeat' (first
    | with_reducible assumption
    | exact sub_mask hmsk rfl
    | with_reducible apply State.advanceTo_touches
    | with_reducible apply State.breakStage_touches
    | split
    | intro _
    | (refine Within.lit ?_ (by intro q hq; cases q <;> first | exact rfl | exact ⟨HubPart.same_refl _ _, HubPart.same_refl _ _⟩ | exact (no_mask hmsk rfl hq).elim)))

theorem execRegAccessLatch_touches {s₀ t : State} (addr : BitVec 16) (h : execRegAccessLatch addr s₀ = .next t) :
    Touches (.out :: ([.latch])) s₀ t := by
  refine Within.touches (m := 1180600627916666044416) ?_ (by decide)
  generalize hmsk : 1180600627916666044416 = msk
  have ho : msk.testBit Part.out.idx = true := by rw [← hmsk]; rfl
  replace hmsk : 1180600627916666044416 &&& msk = 1180600627916666044416 := by rw [← hmsk]; rfl
  unfold execRegAccessLatch at h
  refine live_touches h ho ?_
  clear ho h
  intro u hk
  try dsimp only
  repeat' (first
    | with_reducible assumption
    | exact sub_mask hmsk rfl
    | with_reducible apply State.latchWord_touches
    | with_reducible apply State.present_touches
    | split
    | intro _
    | (refine Within.lit ?_ (by intro q hq; cases q <;> first | exact rfl | exact ⟨HubPart.same_refl _ _, HubPart.same_refl _ _⟩ | exact (no_mask hmsk rfl hq).elim)))

theorem execStickyClear_touches {s₀ t : State} (w : Byte) (data : W32) (h : execStickyClear w data s₀ = .next t) :
    Touches (.out :: ([.hub .sticky, .xlink])) s₀ t := by
  refine Within.touches (m := 73795983494092947488) ?_ (by decide)
  generalize hmsk : 73795983494092947488 = msk
  have ho : msk.testBit Part.out.idx = true := by rw [← hmsk]; rfl
  replace hmsk : 73795983494092947488 &&& msk = 73795983494092947488 := by rw [← hmsk]; rfl
  unfold execStickyClear at h
  refine live_touches h ho ?_
  clear ho h
  intro u hk
  try dsimp only
  repeat' (first
    | with_reducible assumption
    | exact sub_mask hmsk rfl
    | with_reducible apply State.portDo_touches
    | with_reducible apply State.regWriteServing_touches
    | with_reducible apply Hub.clearSticky_touches
    | with_reducible exact HubWithin.refl _ _
    | split
    | intro (_ : Hub)
    | (refine ⟨?_⟩; intro q hq; cases q <;> first | exact rfl | exact (no_mask hmsk rfl hq).elim)
    | (refine HubWithin.lit ?_ (by intro q hq; cases q <;> first | exact rfl | exact (no_mask hmsk rfl hq).elim))
    | intro _
    | (refine Within.lit ?_ (by intro q hq; cases q <;> first | exact rfl | exact ⟨HubPart.same_refl _ _, HubPart.same_refl _ _⟩ | exact (no_mask hmsk rfl hq).elim)))

theorem execIrqStsClear_touches {s₀ t : State} (data : W32) (h : execIrqStsClear data s₀ = .next t) :
    Touches (.out :: ([.hub .irq, .xlink])) s₀ t := by
  refine Within.touches (m := 73795983494093996032) ?_ (by decide)
  generalize hmsk : 73795983494093996032 = msk
  have ho : msk.testBit Part.out.idx = true := by rw [← hmsk]; rfl
  replace hmsk : 73795983494093996032 &&& msk = 73795983494093996032 := by rw [← hmsk]; rfl
  unfold execIrqStsClear at h
  refine live_touches h ho ?_
  clear ho h
  intro u hk
  try dsimp only
  repeat' (first
    | with_reducible assumption
    | exact sub_mask hmsk rfl
    | with_reducible apply State.portDo_touches
    | with_reducible apply State.regWriteServing_touches
    | with_reducible exact HubWithin.refl _ _
    | split
    | intro (_ : Hub)
    | (refine ⟨?_⟩; intro q hq; cases q <;> first | exact rfl | exact (no_mask hmsk rfl hq).elim)
    | (refine HubWithin.lit ?_ (by intro q hq; cases q <;> first | exact rfl | exact (no_mask hmsk rfl hq).elim))
    | intro _
    | (refine Within.lit ?_ (by intro q hq; cases q <;> first | exact rfl | exact ⟨HubPart.same_refl _ _, HubPart.same_refl _ _⟩ | exact (no_mask hmsk rfl hq).elim)))

theorem execThrEvtClear_touches {s₀ t : State} (data : W32) (h : execThrEvtClear data s₀ = .next t) :
    Touches (.out :: ([.hub .thrEvt, .xlink])) s₀ t := by
  refine Within.touches (m := 73795983494095044608) ?_ (by decide)
  generalize hmsk : 73795983494095044608 = msk
  have ho : msk.testBit Part.out.idx = true := by rw [← hmsk]; rfl
  replace hmsk : 73795983494095044608 &&& msk = 73795983494095044608 := by rw [← hmsk]; rfl
  unfold execThrEvtClear at h
  refine live_touches h ho ?_
  clear ho h
  intro u hk
  try dsimp only
  repeat' (first
    | with_reducible assumption
    | exact sub_mask hmsk rfl
    | with_reducible apply State.portDo_touches
    | with_reducible apply State.regWriteServing_touches
    | with_reducible exact HubWithin.refl _ _
    | split
    | intro (_ : Hub)
    | (refine ⟨?_⟩; intro q hq; cases q <;> first | exact rfl | exact (no_mask hmsk rfl hq).elim)
    | (refine HubWithin.lit ?_ (by intro q hq; cases q <;> first | exact rfl | exact (no_mask hmsk rfl hq).elim))
    | intro _
    | (refine Within.lit ?_ (by intro q hq; cases q <;> first | exact rfl | exact ⟨HubPart.same_refl _ _, HubPart.same_refl _ _⟩ | exact (no_mask hmsk rfl hq).elim)))

theorem execOverrunClear_touches {s₀ t : State} (data : W32) (h : execOverrunClear data s₀ = .next t) :
    Touches (.out :: ([.xlink, .cmd])) s₀ t := by
  refine Within.touches (m := 2434979224928915554304) ?_ (by decide)
  generalize hmsk : 2434979224928915554304 = msk
  have ho : msk.testBit Part.out.idx = true := by rw [← hmsk]; rfl
  replace hmsk : 2434979224928915554304 &&& msk = 2434979224928915554304 := by rw [← hmsk]; rfl
  unfold execOverrunClear at h
  refine live_touches h ho ?_
  clear ho h
  intro u hk
  try dsimp only
  repeat' (first
    | with_reducible assumption
    | exact sub_mask hmsk rfl
    | with_reducible apply State.portDo_touches
    | with_reducible apply State.mirrorWrite_touches
    | split
    | intro _
    | (refine Within.lit ?_ (by intro q hq; cases q <;> first | exact rfl | exact ⟨HubPart.same_refl _ _, HubPart.same_refl _ _⟩ | exact (no_mask hmsk rfl hq).elim)))

theorem execAbortFifoPop_touches {s₀ t : State} (data : W32) (h : execAbortFifoPop data s₀ = .next t) :
    Touches (.out :: (netParts ++ endParts ++ [.hub .st, .hub .sticky, .hub .reel, .hub .reelHead, .hub .reelWraps, .hub .reelStopped, .hub .afterS4, .hub .ctr, .hub .aborted, .hub .snaps, .hub .dailies, .hub .dailiesBuilt, .hub .dailiesDropped, .hub .dailyDropped, .twin, .xlink, .jobs, .abortFifo, .retakes, .retakeLog, .logHead, .decCnt, .retakesOrdered, .ports, .slices, .replay, .streams, .mgmt])) s₀ t := by
  refine Within.touches (m := 1401955007721663774977338560225) ?_ (by decide)
  generalize hmsk : 1401955007721663774977338560225 = msk
  have ho : msk.testBit Part.out.idx = true := by rw [← hmsk]; rfl
  replace hmsk : 1401955007721663774977338560225 &&& msk = 1401955007721663774977338560225 := by rw [← hmsk]; rfl
  unfold execAbortFifoPop at h
  refine live_touches h ho ?_
  clear ho h
  intro u hk
  try dsimp only
  repeat' (first
    | with_reducible assumption
    | exact sub_mask hmsk rfl
    | with_reducible apply State.portDo_touches
    | with_reducible apply State.releaseJob_touches
    | with_reducible apply State.mirrorWrite_touches
    | split
    | intro _
    | (refine Within.lit ?_ (by intro q hq; cases q <;> first | exact rfl | exact ⟨HubPart.same_refl _ _, HubPart.same_refl _ _⟩ | exact (no_mask hmsk rfl hq).elim)))

theorem execForceWrite_touches {s₀ t : State} (w : Byte) (data : W32) (h : execForceWrite w data s₀ = .next t) :
    Touches (.out :: (netParts ++ [.hub .srcs, .hub .ctr, .xlink])) s₀ t := by
  refine Within.touches (m := 91089806063195701250) ?_ (by decide)
  generalize hmsk : 91089806063195701250 = msk
  have ho : msk.testBit Part.out.idx = true := by rw [← hmsk]; rfl
  replace hmsk : 91089806063195701250 &&& msk = 91089806063195701250 := by rw [← hmsk]; rfl
  unfold execForceWrite at h
  refine live_touches h ho ?_
  clear ho h
  intro u hk
  try dsimp only
  repeat' (first
    | with_reducible assumption
    | exact sub_mask hmsk rfl
    | with_reducible apply State.portDo_touches
    | with_reducible apply State.atServing_touches
    | with_reducible apply State.forceWord_touches
    | with_reducible apply State.mirrorWrite_touches
    | split
    | intro _
    | (refine Within.lit ?_ (by intro q hq; cases q <;> first | exact rfl | exact ⟨HubPart.same_refl _ _, HubPart.same_refl _ _⟩ | exact (no_mask hmsk rfl hq).elim)))

theorem execInjectionTimeout_touches {s₀ t : State} (pos : Nat) (h : execInjectionTimeout pos s₀ = .next t) :
    Touches (.out :: (timeParts ++ [.hub .srcs, .hub .ctr])) s₀ t := by
  refine Within.touches (m := 604462936828912351592450) ?_ (by decide)
  generalize hmsk : 604462936828912351592450 = msk
  have ho : msk.testBit Part.out.idx = true := by rw [← hmsk]; rfl
  replace hmsk : 604462936828912351592450 &&& msk = 604462936828912351592450 := by rw [← hmsk]; rfl
  unfold execInjectionTimeout at h
  refine live_touches h ho ?_
  clear ho h
  intro u hk
  try dsimp only
  repeat' (first
    | with_reducible assumption
    | exact sub_mask hmsk rfl
    | with_reducible apply State.eachHub_touches
    | with_reducible apply State.advanceTo_touches
    | with_reducible apply State.modHub_touches
    | with_reducible apply Hub.modSrc_touches
    | with_reducible apply Hub.count_touches
    | with_reducible exact HubWithin.refl _ _
    | split
    | intro (_ : Hub)
    | (refine ⟨?_⟩; intro q hq; cases q <;> first | exact rfl | exact (no_mask hmsk rfl hq).elim)
    | (refine HubWithin.lit ?_ (by intro q hq; cases q <;> first | exact rfl | exact (no_mask hmsk rfl hq).elim))
    | intro _
    | (refine Within.lit ?_ (by intro q hq; cases q <;> first | exact rfl | exact ⟨HubPart.same_refl _ _, HubPart.same_refl _ _⟩ | exact (no_mask hmsk rfl hq).elim)))

theorem execReelDataRead_touches {s₀ t : State} (i : BitVec 2) (h : execReelDataRead i s₀ = .next t) :
    Touches (.out :: ([.hub .regs, .latch])) s₀ t := by
  refine Within.touches (m := 1180600627916666568704) ?_ (by decide)
  generalize hmsk : 1180600627916666568704 = msk
  have ho : msk.testBit Part.out.idx = true := by rw [← hmsk]; rfl
  replace hmsk : 1180600627916666568704 &&& msk = 1180600627916666568704 := by rw [← hmsk]; rfl
  unfold execReelDataRead at h
  refine live_touches h ho ?_
  clear ho h
  intro u hk
  try dsimp only
  repeat' (first
    | with_reducible assumption
    | exact sub_mask hmsk rfl
    | with_reducible apply State.latchWord_touches
    | with_reducible apply State.present_touches
    | with_reducible apply State.modHubs_touches
    | with_reducible exact HubWithin.refl _ _
    | split
    | intro (_ : Hub)
    | (refine ⟨?_⟩; intro q hq; cases q <;> first | exact rfl | exact (no_mask hmsk rfl hq).elim)
    | (refine HubWithin.lit ?_ (by intro q hq; cases q <;> first | exact rfl | exact (no_mask hmsk rfl hq).elim))
    | intro _
    | (refine Within.lit ?_ (by intro q hq; cases q <;> first | exact rfl | exact ⟨HubPart.same_refl _ _, HubPart.same_refl _ _⟩ | exact (no_mask hmsk rfl hq).elim)))

theorem execIndSelect_touches {s₀ t : State} (isAddr : Bool) (data : W32) (h : execIndSelect isAddr data s₀ = .next t) :
    Touches (.out :: ([.hub .regs, .agents, .concs, .engines, .links, .xlink, .ind])) s₀ t := by
  refine Within.touches (m := 2535301200547548609056602587136) ?_ (by decide)
  generalize hmsk : 2535301200547548609056602587136 = msk
  have ho : msk.testBit Part.out.idx = true := by rw [← hmsk]; rfl
  replace hmsk : 2535301200547548609056602587136 &&& msk = 2535301200547548609056602587136 := by rw [← hmsk]; rfl
  unfold execIndSelect at h
  refine live_touches h ho ?_
  clear ho h
  intro u hk
  try dsimp only
  repeat' (first
    | with_reducible assumption
    | exact sub_mask hmsk rfl
    | with_reducible apply State.portDo_touches
    | with_reducible apply State.indSettle_touches
    | with_reducible apply State.regWriteServing_touches
    | with_reducible apply State.indFetch_touches
    | with_reducible exact HubWithin.refl _ _
    | split
    | intro (_ : Hub)
    | (refine ⟨?_⟩; intro q hq; cases q <;> first | exact rfl | exact (no_mask hmsk rfl hq).elim)
    | (refine HubWithin.lit ?_ (by intro q hq; cases q <;> first | exact rfl | exact (no_mask hmsk rfl hq).elim))
    | intro _
    | (refine Within.lit ?_ (by intro q hq; cases q <;> first | exact rfl | exact ⟨HubPart.same_refl _ _, HubPart.same_refl _ _⟩ | exact (no_mask hmsk rfl hq).elim)))

theorem execIndFetchDone_touches {s₀ t : State}  (h : execIndFetchDone  s₀ = .next t) :
    Touches (.out :: ([.hub .regs, .agents, .concs, .engines, .links, .ind])) s₀ t := by
  refine Within.touches (m := 2535301200473761632761764380672) ?_ (by decide)
  generalize hmsk : 2535301200473761632761764380672 = msk
  have ho : msk.testBit Part.out.idx = true := by rw [← hmsk]; rfl
  replace hmsk : 2535301200473761632761764380672 &&& msk = 2535301200473761632761764380672 := by rw [← hmsk]; rfl
  unfold execIndFetchDone at h
  refine live_touches h ho ?_
  clear ho h
  intro u hk
  try dsimp only
  repeat' (first
    | with_reducible assumption
    | exact sub_mask hmsk rfl
    | with_reducible apply State.indComplete_touches
    | split
    | intro _
    | (refine Within.lit ?_ (by intro q hq; cases q <;> first | exact rfl | exact ⟨HubPart.same_refl _ _, HubPart.same_refl _ _⟩ | exact (no_mask hmsk rfl hq).elim)))

theorem execIndDataRead_touches {s₀ t : State}  (h : execIndDataRead  s₀ = .next t) :
    Touches (.out :: ([.hub .regs, .ind])) s₀ t := by
  refine Within.touches (m := 2535301200456467810192661676032) ?_ (by decide)
  generalize hmsk : 2535301200456467810192661676032 = msk
  have ho : msk.testBit Part.out.idx = true := by rw [← hmsk]; rfl
  replace hmsk : 2535301200456467810192661676032 &&& msk = 2535301200456467810192661676032 := by rw [← hmsk]; rfl
  unfold execIndDataRead at h
  refine live_touches h ho ?_
  clear ho h
  intro u hk
  try dsimp only
  repeat' (first
    | with_reducible assumption
    | exact sub_mask hmsk rfl
    | with_reducible apply State.present_touches
    | with_reducible apply State.indAdvance_touches
    | with_reducible apply State.indFetch_touches
    | split
    | intro _
    | (refine Within.lit ?_ (by intro q hq; cases q <;> first | exact rfl | exact ⟨HubPart.same_refl _ _, HubPart.same_refl _ _⟩ | exact (no_mask hmsk rfl hq).elim)))

theorem execIndDataWrite_touches {s₀ t : State} (data : W32) (h : execIndDataWrite data s₀ = .next t) :
    Touches (.out :: ([.hub .regs, .agents, .concs, .engines, .links, .xlink, .ind])) s₀ t := by
  refine Within.touches (m := 2535301200547548609056602587136) ?_ (by decide)
  generalize hmsk : 2535301200547548609056602587136 = msk
  have ho : msk.testBit Part.out.idx = true := by rw [← hmsk]; rfl
  replace hmsk : 2535301200547548609056602587136 &&& msk = 2535301200547548609056602587136 := by rw [← hmsk]; rfl
  unfold execIndDataWrite at h
  refine live_touches h ho ?_
  clear ho h
  intro u hk
  try dsimp only
  repeat' (first
    | with_reducible assumption
    | exact sub_mask hmsk rfl
    | with_reducible apply State.portDo_touches
    | with_reducible apply State.indComplete_touches
    | with_reducible apply State.mirrorWrite_touches
    | split
    | intro _
    | (refine Within.lit ?_ (by intro q hq; cases q <;> first | exact rfl | exact ⟨HubPart.same_refl _ _, HubPart.same_refl _ _⟩ | exact (no_mask hmsk rfl hq).elim)))

theorem execHello_touches {s₀ t : State} (hub : HubId) (selfTest : Bool) (h : execHello hub selfTest s₀ = .next t) :
    Touches (.out :: ([.hub .selfTest, .twin, .xlink])) s₀ t := by
  refine Within.touches (m := 110689471710231527424) ?_ (by decide)
  generalize hmsk : 110689471710231527424 = msk
  have ho : msk.testBit Part.out.idx = true := by rw [← hmsk]; rfl
  replace hmsk : 110689471710231527424 &&& msk = 110689471710231527424 := by rw [← hmsk]; rfl
  unfold execHello at h
  refine live_touches h ho ?_
  clear ho h
  intro u hk
  try dsimp only
  repeat' (first
    | with_reducible assumption
    | exact sub_mask hmsk rfl
    | with_reducible apply State.sendFrame_touches
    | with_reducible apply State.modHub_touches
    | with_reducible exact HubWithin.refl _ _
    | split
    | intro (_ : Hub)
    | (refine ⟨?_⟩; intro q hq; cases q <;> first | exact rfl | exact (no_mask hmsk rfl hq).elim)
    | (refine HubWithin.lit ?_ (by intro q hq; cases q <;> first | exact rfl | exact (no_mask hmsk rfl hq).elim))
    | intro _
    | (refine Within.lit ?_ (by intro q hq; cases q <;> first | exact rfl | exact ⟨HubPart.same_refl _ _, HubPart.same_refl _ _⟩ | exact (no_mask hmsk rfl hq).elim)))

theorem execHeartSend_touches {s₀ t : State} (hub : HubId) (h : execHeartSend hub s₀ = .next t) :
    Touches (.out :: (timeParts ++ [.xlink])) s₀ t := by
  refine Within.touches (m := 604536723805207189782528) ?_ (by decide)
  generalize hmsk : 604536723805207189782528 = msk
  have ho : msk.testBit Part.out.idx = true := by rw [← hmsk]; rfl
  replace hmsk : 604536723805207189782528 &&& msk = 604536723805207189782528 := by rw [← hmsk]; rfl
  unfold execHeartSend at h
  refine live_touches h ho ?_
  clear ho h
  intro u hk
  try dsimp only
  repeat' (first
    | with_reducible assumption
    | exact sub_mask hmsk rfl
    | with_reducible apply State.advanceTo_touches
    | with_reducible apply State.sendFrame_touches
    | split
    | intro _
    | (refine Within.lit ?_ (by intro q hq; cases q <;> first | exact rfl | exact ⟨HubPart.same_refl _ _, HubPart.same_refl _ _⟩ | exact (no_mask hmsk rfl hq).elim)))

theorem execXlinkFrameReceive_touches {s₀ t : State} (hub : HubId) (frame : BitVec 256) (h : execXlinkFrameReceive hub frame s₀ = .next t) :
    Touches (.out :: ([.hub .xlinkBadFrames, .xlink])) s₀ t := by
  refine Within.touches (m := 73795984043848761344) ?_ (by decide)
  generalize hmsk : 73795984043848761344 = msk
  have ho : msk.testBit Part.out.idx = true := by rw [← hmsk]; rfl
  replace hmsk : 73795984043848761344 &&& msk = 73795984043848761344 := by rw [← hmsk]; rfl
  unfold execXlinkFrameReceive at h
  refine live_touches h ho ?_
  clear ho h
  intro u hk
  try dsimp only
  repeat' (first
    | with_reducible assumption
    | exact sub_mask hmsk rfl
    | with_reducible apply State.modX_touches
    | with_reducible apply State.pump_touches
    | with_reducible apply State.modHub_touches
    | with_reducible exact HubWithin.refl _ _
    | split
    | intro (_ : Hub)
    | (refine ⟨?_⟩; intro q hq; cases q <;> first | exact rfl | exact (no_mask hmsk rfl hq).elim)
    | (refine HubWithin.lit ?_ (by intro q hq; cases q <;> first | exact rfl | exact (no_mask hmsk rfl hq).elim))
    | intro _
    | (refine Within.lit ?_ (by intro q hq; cases q <;> first | exact rfl | exact ⟨HubPart.same_refl _ _, HubPart.same_refl _ _⟩ | exact (no_mask hmsk rfl hq).elim)))

theorem execXlinkResend_touches {s₀ t : State} (hub : HubId) (h : execXlinkResend hub s₀ = .next t) :
    Touches (.out :: (timeParts ++ [.xlink])) s₀ t := by
  refine Within.touches (m := 604536723805207189782528) ?_ (by decide)
  generalize hmsk : 604536723805207189782528 = msk
  have ho : msk.testBit Part.out.idx = true := by rw [← hmsk]; rfl
  replace hmsk : 604536723805207189782528 &&& msk = 604536723805207189782528 := by rw [← hmsk]; rfl
  unfold execXlinkResend at h
  refine live_touches h ho ?_
  clear ho h
  intro u hk
  try dsimp only
  repeat' (first
    | with_reducible assumption
    | exact sub_mask hmsk rfl
    | with_reducible apply State.advanceTo_touches
    | with_reducible apply State.modX_touches
    | with_reducible apply State.each_touches
    | with_reducible apply State.present_touches
    | split
    | intro _
    | (refine Within.lit ?_ (by intro q hq; cases q <;> first | exact rfl | exact ⟨HubPart.same_refl _ _, HubPart.same_refl _ _⟩ | exact (no_mask hmsk rfl hq).elim)))

theorem execCrossLinkRetrain_touches {s₀ t : State}  (h : execCrossLinkRetrain  s₀ = .next t) :
    Touches (.out :: ([.xlink])) s₀ t := by
  refine Within.touches (m := 73795983494092947456) ?_ (by decide)
  generalize hmsk : 73795983494092947456 = msk
  have ho : msk.testBit Part.out.idx = true := by rw [← hmsk]; rfl
  replace hmsk : 73795983494092947456 &&& msk = 73795983494092947456 := by rw [← hmsk]; rfl
  unfold execCrossLinkRetrain at h
  refine live_touches h ho ?_
  clear ho h
  intro u hk
  try dsimp only
  repeat' (first
    | with_reducible assumption
    | exact sub_mask hmsk rfl
    | split
    | intro _
    | (refine Within.lit ?_ (by intro q hq; cases q <;> first | exact rfl | exact ⟨HubPart.same_refl _ _, HubPart.same_refl _ _⟩ | exact (no_mask hmsk rfl hq).elim)))

theorem execDigestCut_touches {s₀ t : State}  (h : execDigestCut  s₀ = .next t) :
    Touches (.out :: (noteParts ++ timeParts ++ [.hub .fails, .freeCtr, .retakesOrdered])) s₀ t := by
  refine Within.touches (m := 2035781011602213389829808836347) ?_ (by decide)
  generalize hmsk : 2035781011602213389829808836347 = msk
  have ho : msk.testBit Part.out.idx = true := by rw [← hmsk]; rfl
  replace hmsk : 2035781011602213389829808836347 &&& msk = 2035781011602213389829808836347 := by rw [← hmsk]; rfl
  unfold execDigestCut at h
  refine live_touches h ho ?_
  clear ho h
  intro u hk
  try dsimp only
  repeat' (first
    | with_reducible assumption
    | exact sub_mask hmsk rfl
    | with_reducible apply State.advanceClk_touches
    | with_reducible apply State.showCmd_touches
    | with_reducible apply State.sendDigest_touches
    | with_reducible apply State.endRetire_touches
    | split
    | intro _
    | (refine Within.lit ?_ (by intro q hq; cases q <;> first | exact rfl | exact ⟨HubPart.same_refl _ _, HubPart.same_refl _ _⟩ | exact (no_mask hmsk rfl hq).elim)))

theorem execDigest_touches {s₀ t : State} (hub : HubId) (seq : W32) (value : W64) (h : execDigest hub seq value s₀ = .next t) :
    Touches (.out :: (noteParts ++ [.hub .digestMismatches, .hub .digestMiss, .hub .merging])) s₀ t := by
  refine Within.touches (m := 2035470922129392169027361820411) ?_ (by decide)
  generalize hmsk : 2035470922129392169027361820411 = msk
  have ho : msk.testBit Part.out.idx = true := by rw [← hmsk]; rfl
  replace hmsk : 2035470922129392169027361820411 &&& msk = 2035470922129392169027361820411 := by rw [← hmsk]; rfl
  unfold execDigest at h
  refine live_touches h ho ?_
  clear ho h
  intro u hk
  try dsimp only
  repeat' (first
    | with_reducible assumption
    | exact sub_mask hmsk rfl
    | with_reducible apply State.modHub_touches
    | with_reducible apply State.queueFrame_touches
    | with_reducible apply State.note_touches
    | with_reducible exact HubWithin.refl _ _
    | split
    | intro (_ : Hub)
    | (refine ⟨?_⟩; intro q hq; cases q <;> first | exact rfl | exact (no_mask hmsk rfl hq).elim)
    | (refine HubWithin.lit ?_ (by intro q hq; cases q <;> first | exact rfl | exact (no_mask hmsk rfl hq).elim))
    | intro _
    | (refine Within.lit ?_ (by intro q hq; cases q <;> first | exact rfl | exact ⟨HubPart.same_refl _ _, HubPart.same_refl _ _⟩ | exact (no_mask hmsk rfl hq).elim)))

theorem execSections_touches {s₀ t : State} (hub : HubId) (h : execSections hub s₀ = .next t) :
    Touches (.out :: ([.xlink])) s₀ t := by
  refine Within.touches (m := 73795983494092947456) ?_ (by decide)
  generalize hmsk : 73795983494092947456 = msk
  have ho : msk.testBit Part.out.idx = true := by rw [← hmsk]; rfl
  replace hmsk : 73795983494092947456 &&& msk = 73795983494092947456 := by rw [← hmsk]; rfl
  unfold execSections at h
  refine live_touches h ho ?_
  clear ho h
  intro u hk
  try dsimp only
  repeat' (first
    | with_reducible assumption
    | exact sub_mask hmsk rfl
    | with_reducible apply State.each_touches
    | with_reducible apply State.queueFrame_touches
    | split
    | intro _
    | (refine Within.lit ?_ (by intro q hq; cases q <;> first | exact rfl | exact ⟨HubPart.same_refl _ _, HubPart.same_refl _ _⟩ | exact (no_mask hmsk rfl hq).elim)))

theorem execItems_touches {s₀ t : State} (hub : HubId) (sec : DigestSection) (h : execItems hub sec s₀ = .next t) :
    Touches (.out :: (endParts ++ [.hub .st, .hub .srcs, .hub .lameSinceReady, .hub .s4, .hub .fences, .hub .sticky, .hub .reel, .hub .reelHead, .hub .reelWraps, .hub .reelStopped, .hub .afterS4, .hub .ctr, .hub .intake, .hub .paddock, .hub .aborted, .hub .thrEvt, .hub .thermal, .hub .snaps, .hub .roundMs, .hub .dailies, .hub .dailiesBuilt, .hub .dailiesDropped, .hub .dailyDropped, .agents, .concs, .twin, .xlink, .stage, .stages, .keyPort, .retakes, .retakeLog, .logHead, .decCnt, .test, .mgmt])) s₀ t := by
  refine Within.touches (m := 1901766144184079455400118963967) ?_ (by decide)
  generalize hmsk : 1901766144184079455400118963967 = msk
  have ho : msk.testBit Part.out.idx = true := by rw [← hmsk]; rfl
  replace hmsk : 1901766144184079455400118963967 &&& msk = 1901766144184079455400118963967 := by rw [← hmsk]; rfl
  unfold execItems at h
  refine live_touches h ho ?_
  clear ho h
  intro u hk
  try dsimp only
  repeat' (first
    | with_reducible assumption
    | exact sub_mask hmsk rfl
    | with_reducible apply State.mergeSection_touches
    | split
    | intro _
    | (refine Within.lit ?_ (by intro q hq; cases q <;> first | exact rfl | exact ⟨HubPart.same_refl _ _, HubPart.same_refl _ _⟩ | exact (no_mask hmsk rfl hq).elim)))

theorem execMirror_touches {s₀ t : State} (hub : HubId) (h : execMirror hub s₀ = .next t) :
    Touches (.out :: (noteParts ++ [.hub .lameSinceReady, .hub .fails, .freeCtr, .retakesOrdered])) s₀ t := by
  refine Within.touches (m := 2035780407139285568116712001279) ?_ (by decide)
  generalize hmsk : 2035780407139285568116712001279 = msk
  have ho : msk.testBit Part.out.idx = true := by rw [← hmsk]; rfl
  replace hmsk : 2035780407139285568116712001279 &&& msk = 2035780407139285568116712001279 := by rw [← hmsk]; rfl
  unfold execMirror at h
  refine live_touches h ho ?_
  clear ho h
  intro u hk
  try dsimp only
  repeat' (first
    | with_reducible assumption
    | exact sub_mask hmsk rfl
    | with_reducible apply State.modX_touches
    | with_reducible apply State.sendFrame_touches
    | with_reducible apply State.applyMirror_touches
    | with_reducible apply State.takeUpLead_touches
    | with_reducible apply State.fifoAbort_touches
    | with_reducible apply State.modHub_touches
    | with_reducible exact HubWithin.refl _ _
    | split
    | intro (_ : Hub)
    | (refine ⟨?_⟩; intro q hq; cases q <;> first | exact rfl | exact (no_mask hmsk rfl hq).elim)
    | (refine HubWithin.lit ?_ (by intro q hq; cases q <;> first | exact rfl | exact (no_mask hmsk rfl hq).elim))
    | intro _
    | (refine Within.lit ?_ (by intro q hq; cases q <;> first | exact rfl | exact ⟨HubPart.same_refl _ _, HubPart.same_refl _ _⟩ | exact (no_mask hmsk rfl hq).elim)))

theorem execRegWrite_touches {s₀ t : State} (hub : HubId) (h : execRegWrite hub s₀ = .next t) :
    Touches (.out :: (netParts ++ [.hub .srcs, .hub .sticky, .hub .ctr, .hub .regs, .hub .irq, .hub .thrEvt, .xlink])) s₀ t := by
  refine Within.touches (m := 91089806063199371298) ?_ (by decide)
  generalize hmsk : 91089806063199371298 = msk
  have ho : msk.testBit Part.out.idx = true := by rw [← hmsk]; rfl
  replace hmsk : 91089806063199371298 &&& msk = 91089806063199371298 := by rw [← hmsk]; rfl
  unfold execRegWrite at h
  refine live_touches h ho ?_
  clear ho h
  intro u hk
  try dsimp only
  repeat' (first
    | with_reducible assumption
    | exact sub_mask hmsk rfl
    | with_reducible apply State.modX_touches
    | with_reducible apply State.sendFrame_touches
    | with_reducible apply State.applyWrite_touches
    | split
    | intro _
    | (refine Within.lit ?_ (by intro q hq; cases q <;> first | exact rfl | exact ⟨HubPart.same_refl _ _, HubPart.same_refl _ _⟩ | exact (no_mask hmsk rfl hq).elim)))

theorem execTwinSilence_touches {s₀ t : State} (hub : HubId) (h : execTwinSilence hub s₀ = .next t) :
    Touches (.out :: (noteParts ++ timeParts)) s₀ t := by
  refine Within.touches (m := 2035471526592319987167045865211) ?_ (by decide)
  generalize hmsk : 2035471526592319987167045865211 = msk
  have ho : msk.testBit Part.out.idx = true := by rw [← hmsk]; rfl
  replace hmsk : 2035471526592319987167045865211 &&& msk = 2035471526592319987167045865211 := by rw [← hmsk]; rfl
  unfold execTwinSilence at h
  refine live_touches h ho ?_
  clear ho h
  intro u hk
  try dsimp only
  repeat' (first
    | with_reducible assumption
    | exact sub_mask hmsk rfl
    | with_reducible apply State.advanceTo_touches
    | with_reducible apply State.claim_touches
    | with_reducible apply State.note_touches
    | split
    | intro _
    | (refine Within.lit ?_ (by intro q hq; cases q <;> first | exact rfl | exact ⟨HubPart.same_refl _ _, HubPart.same_refl _ _⟩ | exact (no_mask hmsk rfl hq).elim)))

theorem execAliveClaimGrant_touches {s₀ t : State}  (h : execAliveClaimGrant  s₀ = .next t) :
    Touches (.out :: (noteParts ++ callParts ++ [.hub .fails, .freeCtr, .links, .retakesOrdered])) s₀ t := by
  refine Within.touches (m := 2035780454372173768850018914043) ?_ (by decide)
  generalize hmsk : 2035780454372173768850018914043 = msk
  have ho : msk.testBit Part.out.idx = true := by rw [← hmsk]; rfl
  replace hmsk : 2035780454372173768850018914043 &&& msk = 2035780454372173768850018914043 := by rw [← hmsk]; rfl
  unfold execAliveClaimGrant at h
  refine live_touches h ho ?_
  clear ho h
  intro u hk
  try dsimp only
  repeat' (first
    | with_reducible assumption
    | exact sub_mask hmsk rfl
    | with_reducible apply State.detach_touches
    | with_reducible apply State.takeUpLead_touches
    | with_reducible apply State.rerunStage_touches
    | split
    | intro _
    | (refine Within.lit ?_ (by intro q hq; cases q <;> first | exact rfl | exact ⟨HubPart.same_refl _ _, HubPart.same_refl _ _⟩ | exact (no_mask hmsk rfl hq).elim)))

theorem execTwinArbitration_touches {s₀ t : State} (passA passB : Bool) (h : execTwinArbitration passA passB s₀ = .next t) :
    Touches (.out :: (noteParts ++ [.hub .fails, .hub .selfTest, .freeCtr, .retakesOrdered])) s₀ t := by
  refine Within.touches (m := 2035780407139285568185431478011) ?_ (by decide)
  generalize hmsk : 2035780407139285568185431478011 = msk
  have ho : msk.testBit Part.out.idx = true := by rw [← hmsk]; rfl
  replace hmsk : 2035780407139285568185431478011 &&& msk = 2035780407139285568185431478011 := by rw [← hmsk]; rfl
  unfold execTwinArbitration at h
  refine live_touches h ho ?_
  clear ho h
  intro u hk
  try dsimp only
  repeat' (first
    | with_reducible assumption
    | exact sub_mask hmsk rfl
    | with_reducible apply State.selfTests_touches
    | with_reducible apply State.reportTest_touches
    | with_reducible apply State.detach_touches
    | with_reducible apply State.takeUpLead_touches
    | with_reducible apply State.eachHub_touches
    | with_reducible apply State.note_touches
    | split
    | intro _
    | (refine Within.lit ?_ (by intro q hq; cases q <;> first | exact rfl | exact ⟨HubPart.same_refl _ _, HubPart.same_refl _ _⟩ | exact (no_mask hmsk rfl hq).elim)))

theorem execHubStrobe_touches {s₀ t : State} (hub : HubId) (h : execHubStrobe hub s₀ = .next t) :
    Touches (.out :: ([.alive])) s₀ t := by
  refine Within.touches (m := 147582959788931153920) ?_ (by decide)
  generalize hmsk : 147582959788931153920 = msk
  have ho : msk.testBit Part.out.idx = true := by rw [← hmsk]; rfl
  replace hmsk : 147582959788931153920 &&& msk = 147582959788931153920 := by rw [← hmsk]; rfl
  unfold execHubStrobe at h
  refine live_touches h ho ?_
  clear ho h
  intro u hk
  try dsimp only
  repeat' (first
    | with_reducible assumption
    | exact sub_mask hmsk rfl
    | split
    | intro _
    | (refine Within.lit ?_ (by intro q hq; cases q <;> first | exact rfl | exact ⟨HubPart.same_refl _ _, HubPart.same_refl _ _⟩ | exact (no_mask hmsk rfl hq).elim)))

theorem execAliveBoundary_touches {s₀ t : State}  (h : execAliveBoundary  s₀ = .next t) :
    Touches (.out :: (timeParts ++ [.alive])) s₀ t := by
  refine Within.touches (m := 604610510781502027988992) ?_ (by decide)
  generalize hmsk : 604610510781502027988992 = msk
  have ho : msk.testBit Part.out.idx = true := by rw [← hmsk]; rfl
  replace hmsk : 604610510781502027988992 &&& msk = 604610510781502027988992 := by rw [← hmsk]; rfl
  unfold execAliveBoundary at h
  refine live_touches h ho ?_
  clear ho h
  intro u hk
  try dsimp only
  repeat' (first
    | with_reducible assumption
    | exact sub_mask hmsk rfl
    | with_reducible apply State.advanceTo_touches
    | with_reducible apply State.present_touches
    | split
    | intro _
    | (refine Within.lit ?_ (by intro q hq; cases q <;> first | exact rfl | exact ⟨HubPart.same_refl _ _, HubPart.same_refl _ _⟩ | exact (no_mask hmsk rfl hq).elim)))

theorem execStage0Identity_touches {s₀ t : State} (us : Nat) (badAgents badConcs : List Nat) (reports : List (Nat × Nat × Nat)) (hubAOk hubBOk : Bool) (h : execStage0Identity us badAgents badConcs reports hubAOk hubBOk s₀ = .next t) :
    Touches (.out :: (callParts ++ timeParts ++ [.hub .srcs, .hub .lameSinceReady, .hub .fences, .hub .ctr, .hub .paddock, .hub .selfTest, .hub .dailies, .hub .dailiesBuilt, .hub .dailiesDropped, .hub .dailyDropped, .agents, .xlink, .alive, .test])) s₀ t := by
  refine Within.touches (m := 1901476653782339216309461569271) ?_ (by decide)
  generalize hmsk : 1901476653782339216309461569271 = msk
  have ho : msk.testBit Part.out.idx = true := by rw [← hmsk]; rfl
  replace hmsk : 1901476653782339216309461569271 &&& msk = 1901476653782339216309461569271 := by rw [← hmsk]; rfl
  unfold execStage0Identity at h
  refine live_touches h ho ?_
  clear ho h
  intro u hk
  try dsimp only
  repeat' (first
    | with_reducible assumption
    | exact sub_mask hmsk rfl
    | with_reducible apply State.runStage_touches
    | with_reducible apply State.each_touches
    | with_reducible apply State.oddReport_touches
    | with_reducible apply State.lameEach_touches
    | with_reducible apply State.selfTests_touches
    | split
    | intro _
    | (refine Within.lit ?_ (by intro q hq; cases q <;> first | exact rfl | exact ⟨HubPart.same_refl _ _, HubPart.same_refl _ _⟩ | exact (no_mask hmsk rfl hq).elim)))

theorem execKeyPortBeat_touches {s₀ t : State} (data : W64) (last : Bool) (h : execKeyPortBeat data last s₀ = .next t) :
    Touches (.out :: (endParts ++ [.hub .st, .hub .sticky, .hub .reel, .hub .reelHead, .hub .reelWraps, .hub .reelStopped, .hub .afterS4, .hub .intake, .hub .snaps, .stage, .stages, .keyPort, .keys, .mgmt])) s₀ t := by
  refine Within.touches (m := 1267650852874845242221994741473) ?_ (by decide)
  generalize hmsk : 1267650852874845242221994741473 = msk
  have ho : msk.testBit Part.out.idx = true := by rw [← hmsk]; rfl
  replace hmsk : 1267650852874845242221994741473 &&& msk = 1267650852874845242221994741473 := by rw [← hmsk]; rfl
  unfold execKeyPortBeat at h
  refine live_touches h ho ?_
  clear ho h
  intro u hk
  try dsimp only
  repeat' (first
    | with_reducible assumption
    | exact sub_mask hmsk rfl
    | with_reducible apply State.refuseItem_touches
    | with_reducible apply State.present_touches
    | split
    | intro _
    | (refine Within.lit ?_ (by intro q hq; cases q <;> first | exact rfl | exact ⟨HubPart.same_refl _ _, HubPart.same_refl _ _⟩ | exact (no_mask hmsk rfl hq).elim)))

theorem execKeyPortBad_touches {s₀ t : State}  (h : execKeyPortBad  s₀ = .next t) :
    Touches (.out :: (endParts ++ [.hub .st, .hub .sticky, .hub .reel, .hub .reelHead, .hub .reelWraps, .hub .reelStopped, .hub .afterS4, .hub .intake, .hub .snaps, .stage, .stages, .keyPort, .mgmt])) s₀ t := by
  refine Within.touches (m := 1267650701759117790393347903201) ?_ (by decide)
  generalize hmsk : 1267650701759117790393347903201 = msk
  have ho : msk.testBit Part.out.idx = true := by rw [← hmsk]; rfl
  replace hmsk : 1267650701759117790393347903201 &&& msk = 1267650701759117790393347903201 := by rw [← hmsk]; rfl
  unfold execKeyPortBad at h
  refine live_touches h ho ?_
  clear ho h
  intro u hk
  try dsimp only
  repeat' (first
    | with_reducible assumption
    | exact sub_mask hmsk rfl
    | with_reducible apply State.refuseItem_touches
    | split
    | intro _
    | (refine Within.lit ?_ (by intro q hq; cases q <;> first | exact rfl | exact ⟨HubPart.same_refl _ _, HubPart.same_refl _ _⟩ | exact (no_mask hmsk rfl hq).elim)))

theorem execKeyItemTimeout_touches {s₀ t : State}  (h : execKeyItemTimeout  s₀ = .next t) :
    Touches (.out :: (timeParts ++ endParts ++ [.hub .st, .hub .sticky, .hub .reel, .hub .reelHead, .hub .reelWraps, .hub .reelStopped, .hub .afterS4, .hub .intake, .hub .snaps, .stage, .stages, .keyPort, .mgmt])) s₀ t := by
  refine Within.touches (m := 1267651306222045612106444738273) ?_ (by decide)
  generalize hmsk : 1267651306222045612106444738273 = msk
  have ho : msk.testBit Part.out.idx = true := by rw [← hmsk]; rfl
  replace hmsk : 1267651306222045612106444738273 &&& msk = 1267651306222045612106444738273 := by rw [← hmsk]; rfl
  unfold execKeyItemTimeout at h
  refine live_touches h ho ?_
  clear ho h
  intro u hk
  try dsimp only
  repeat' (first
    | with_reducible assumption
    | exact sub_mask hmsk rfl
    | with_reducible apply State.advanceTo_touches
    | with_reducible apply State.refuseItem_touches
    | split
    | intro _
    | (refine Within.lit ?_ (by intro q hq; cases q <;> first | exact rfl | exact ⟨HubPart.same_refl _ _, HubPart.same_refl _ _⟩ | exact (no_mask hmsk rfl hq).elim)))

theorem execStage1Keys_touches {s₀ t : State} (us : Nat) (h : execStage1Keys us s₀ = .next t) :
    Touches (.out :: (callParts ++ timeParts ++ [.keys])) s₀ t := by
  refine Within.touches (m := 1267651504561437892631543713505) ?_ (by decide)
  generalize hmsk : 1267651504561437892631543713505 = msk
  have ho : msk.testBit Part.out.idx = true := by rw [← hmsk]; rfl
  replace hmsk : 1267651504561437892631543713505 &&& msk = 1267651504561437892631543713505 := by rw [← hmsk]; rfl
  unfold execStage1Keys at h
  refine live_touches h ho ?_
  clear ho h
  intro u hk
  try dsimp only
  repeat' (first
    | with_reducible assumption
    | exact sub_mask hmsk rfl
    | with_reducible apply State.runStage_touches
    | split
    | intro _
    | (refine Within.lit ?_ (by intro q hq; cases q <;> first | exact rfl | exact ⟨HubPart.same_refl _ _, HubPart.same_refl _ _⟩ | exact (no_mask hmsk rfl hq).elim)))

theorem execStage2Pairing_touches {s₀ t : State} (us : Nat) (passA passB : Bool) (h : execStage2Pairing us passA passB s₀ = .next t) :
    Touches (.out :: (callParts ++ timeParts ++ [.hub .srcs, .twin, .xlink, .alive])) s₀ t := by
  refine Within.touches (m := 1267651353703964857834830597859) ?_ (by decide)
  generalize hmsk : 1267651353703964857834830597859 = msk
  have ho : msk.testBit Part.out.idx = true := by rw [← hmsk]; rfl
  replace hmsk : 1267651353703964857834830597859 &&& msk = 1267651353703964857834830597859 := by rw [← hmsk]; rfl
  unfold execStage2Pairing at h
  refine live_touches h ho ?_
  clear ho h
  intro u hk
  try dsimp only
  repeat' (first
    | with_reducible assumption
    | exact sub_mask hmsk rfl
    | with_reducible apply State.runStage_touches
    | with_reducible apply State.place2_touches
    | with_reducible apply State.selfTestFault_touches
    | split
    | intro _
    | (refine Within.lit ?_ (by intro q hq; cases q <;> first | exact rfl | exact ⟨HubPart.same_refl _ _, HubPart.same_refl _ _⟩ | exact (no_mask hmsk rfl hq).elim)))

theorem execLinkTrainAttemptEnd_touches {s₀ t : State} (l : TrainLink) (ok : Bool) (h : execLinkTrainAttemptEnd l ok s₀ = .next t) :
    Touches (.out :: (noteParts ++ [.hub .lameSinceReady, .links])) s₀ t := by
  refine Within.touches (m := 2035470922138615537490803805951) ?_ (by decide)
  generalize hmsk : 2035470922138615537490803805951 = msk
  have ho : msk.testBit Part.out.idx = true := by rw [← hmsk]; rfl
  replace hmsk : 2035470922138615537490803805951 &&& msk = 2035470922138615537490803805951 := by rw [← hmsk]; rfl
  unfold execLinkTrainAttemptEnd at h
  refine live_touches h ho ?_
  clear ho h
  intro u hk
  try dsimp only
  repeat' (first
    | with_reducible assumption
    | exact sub_mask hmsk rfl
    | with_reducible apply State.trainDie_touches
    | split
    | intro _
    | (refine Within.lit ?_ (by intro q hq; cases q <;> first | exact rfl | exact ⟨HubPart.same_refl _ _, HubPart.same_refl _ _⟩ | exact (no_mask hmsk rfl hq).elim)))

theorem execStage3DieLinks_touches {s₀ t : State} (us : Nat) (h : execStage3DieLinks us s₀ = .next t) :
    Touches (.out :: (noteParts ++ callParts ++ netParts ++ timeParts ++ [.hub .lameSinceReady])) s₀ t := by
  refine Within.touches (m := 2035471573829819873918780165887) ?_ (by decide)
  generalize hmsk : 2035471573829819873918780165887 = msk
  have ho : msk.testBit Part.out.idx = true := by rw [← hmsk]; rfl
  replace hmsk : 2035471573829819873918780165887 &&& msk = 2035471573829819873918780165887 := by rw [← hmsk]; rfl
  unfold execStage3DieLinks at h
  refine live_touches h ho ?_
  clear ho h
  intro u hk
  try dsimp only
  repeat' (first
    | with_reducible assumption
    | exact sub_mask hmsk rfl
    | with_reducible apply State.runStage_touches
    | with_reducible apply State.judgeDies_touches
    | split
    | intro _
    | (refine Within.lit ?_ (by intro q hq; cases q <;> first | exact rfl | exact ⟨HubPart.same_refl _ _, HubPart.same_refl _ _⟩ | exact (no_mask hmsk rfl hq).elim)))

theorem execStage4Harness_touches {s₀ t : State} (us : Nat) (wordsA wordsB : List W32) (h : execStage4Harness us wordsA wordsB s₀ = .next t) :
    Touches (.out :: (callParts ++ timeParts ++ [.hub .fences, .hub .regs, .hub .harnessSts, .hub .harnessOver, .concs, .harness])) s₀ t := by
  refine Within.touches (m := 1267651655679472876319265033969) ?_ (by decide)
  generalize hmsk : 1267651655679472876319265033969 = msk
  have ho : msk.testBit Part.out.idx = true := by rw [← hmsk]; rfl
  replace hmsk : 1267651655679472876319265033969 &&& msk = 1267651655679472876319265033969 := by rw [← hmsk]; rfl
  unfold execStage4Harness at h
  refine live_touches h ho ?_
  clear ho h
  intro u hk
  try dsimp only
  repeat' (first
    | with_reducible assumption
    | exact sub_mask hmsk rfl
    | with_reducible apply State.runStage_touches
    | with_reducible apply State.eachHub_touches
    | with_reducible apply State.recordCheck_touches
    | with_reducible apply State.acceptHarness_touches
    | split
    | intro _
    | (refine Within.lit ?_ (by intro q hq; cases q <;> first | exact rfl | exact ⟨HubPart.same_refl _ _, HubPart.same_refl _ _⟩ | exact (no_mask hmsk rfl hq).elim)))

theorem execStage5AgentImage_touches {s₀ t : State} (len : Nat) (h : execStage5AgentImage len s₀ = .next t) :
    Touches (.out :: ([.agents, .image])) s₀ t := by
  refine Within.touches (m := 37780093791661023297536) ?_ (by decide)
  generalize hmsk : 37780093791661023297536 = msk
  have ho : msk.testBit Part.out.idx = true := by rw [← hmsk]; rfl
  replace hmsk : 37780093791661023297536 &&& msk = 37780093791661023297536 := by rw [← hmsk]; rfl
  unfold execStage5AgentImage at h
  refine live_touches h ho ?_
  clear ho h
  intro u hk
  try dsimp only
  repeat' (first
    | with_reducible assumption
    | exact sub_mask hmsk rfl
    | with_reducible apply State.each_touches
    | with_reducible apply State.modAgent_touches
    | with_reducible apply State.sendPacket_touches
    | split
    | intro _
    | (refine Within.lit ?_ (by intro q hq; cases q <;> first | exact rfl | exact ⟨HubPart.same_refl _ _, HubPart.same_refl _ _⟩ | exact (no_mask hmsk rfl hq).elim)))

theorem execImagePacket_touches {s₀ t : State} (agent : Nat) (header : W64) (payload : List Byte) (h : execImagePacket agent header payload s₀ = .next t) :
    Touches (.out :: ([.agents])) s₀ t := by
  refine Within.touches (m := 1161928703861587968) ?_ (by decide)
  generalize hmsk : 1161928703861587968 = msk
  have ho : msk.testBit Part.out.idx = true := by rw [← hmsk]; rfl
  replace hmsk : 1161928703861587968 &&& msk = 1161928703861587968 := by rw [← hmsk]; rfl
  unfold execImagePacket at h
  refine live_touches h ho ?_
  clear ho h
  intro u hk
  try dsimp only
  repeat' (first
    | with_reducible assumption
    | exact sub_mask hmsk rfl
    | with_reducible apply State.modAgent_touches
    | split
    | intro _
    | (refine Within.lit ?_ (by intro q hq; cases q <;> first | exact rfl | exact ⟨HubPart.same_refl _ _, HubPart.same_refl _ _⟩ | exact (no_mask hmsk rfl hq).elim)))

theorem execImageCollect_touches {s₀ t : State} (silent : List Nat) (h : execImageCollect silent s₀ = .next t) :
    Touches (.out :: (callParts ++ timeParts ++ [.hub .srcs, .hub .lameSinceReady, .hub .fences, .hub .ctr, .hub .paddock, .hub .dailies, .hub .dailiesBuilt, .hub .dailiesDropped, .hub .dailyDropped, .agents, .xlink, .test])) s₀ t := by
  refine Within.touches (m := 1901476653634765263651065679607) ?_ (by decide)
  generalize hmsk : 1901476653634765263651065679607 = msk
  have ho : msk.testBit Part.out.idx = true := by rw [← hmsk]; rfl
  replace hmsk : 1901476653634765263651065679607 &&& msk = 1901476653634765263651065679607 := by rw [← hmsk]; rfl
  unfold execImageCollect at h
  refine live_touches h ho ?_
  clear ho h
  intro u hk
  try dsimp only
  repeat' (first
    | with_reducible assumption
    | exact sub_mask hmsk rfl
    | with_reducible apply State.advanceTo_touches
    | with_reducible apply State.breakStage_touches
    | with_reducible apply State.lameEach_touches
    | with_reducible apply State.endStage_touches
    | with_reducible apply State.each_touches
    | with_reducible apply State.sendPacket_touches
    | split
    | intro _
    | (refine Within.lit ?_ (by intro q hq; cases q <;> first | exact rfl | exact ⟨HubPart.same_refl _ _, HubPart.same_refl _ _⟩ | exact (no_mask hmsk rfl hq).elim)))

theorem execStage6LameList_touches {s₀ t : State} (us : Nat) (h : execStage6LameList us s₀ = .next t) :
    Touches (.out :: (callParts ++ timeParts ++ [.hub .srcs, .hub .lameSinceReady, .hub .fences, .hub .tailA, .hub .tailB, .hub .ctr, .hub .paddock, .hub .dailies, .hub .dailiesBuilt, .hub .dailiesDropped, .hub .dailyDropped, .agents, .xlink, .test])) s₀ t := by
  refine Within.touches (m := 1901476653634765263651065691895) ?_ (by decide)
  generalize hmsk : 1901476653634765263651065691895 = msk
  have ho : msk.testBit Part.out.idx = true := by rw [← hmsk]; rfl
  replace hmsk : 1901476653634765263651065691895 &&& msk = 1901476653634765263651065691895 := by rw [← hmsk]; rfl
  unfold execStage6LameList at h
  refine live_touches h ho ?_
  clear ho h
  intro u hk
  try dsimp only
  repeat' (first
    | with_reducible assumption
    | exact sub_mask hmsk rfl
    | with_reducible apply State.runStage_touches
    | with_reducible apply State.applyPersist_touches
    | refine State.applyPersist_touchesOf (sub_mask hmsk rfl) (by assumption) ?_
    | split
    | intro _
    | (refine Within.lit ?_ (by intro q hq; cases q <;> first | exact rfl | exact ⟨HubPart.same_refl _ _, HubPart.same_refl _ _⟩ | exact (no_mask hmsk rfl hq).elim)))

theorem execStage7Housekeeping_touches {s₀ t : State} (us : Nat) (crystalOk : Bool) (offset : Int) (counts : List (Nat × Nat)) (h : execStage7Housekeeping us crystalOk offset counts s₀ = .next t) :
    Touches (.out :: (noteParts ++ callParts ++ netParts ++ timeParts ++ [.hub .chans, .hub .roundAt, .hub .busWatch, .hub .oscOffset, .hub .trim])) s₀ t := by
  refine Within.touches (m := 2035471573829819873922211106555) ?_ (by decide)
  generalize hmsk : 2035471573829819873922211106555 = msk
  have ho : msk.testBit Part.out.idx = true := by rw [← hmsk]; rfl
  replace hmsk : 2035471573829819873922211106555 &&& msk = 2035471573829819873922211106555 := by rw [← hmsk]; rfl
  unfold execStage7Housekeeping at h
  refine live_touches h ho ?_
  clear ho h
  intro u hk
  try dsimp only
  repeat' (first
    | with_reducible assumption
    | exact sub_mask hmsk rfl
    | with_reducible apply State.runStage_touches
    | with_reducible apply State.eachHub_touches
    | with_reducible apply State.modHub_touches
    | with_reducible apply State.twoRounds_touches
    | with_reducible apply State.each_touches
    | with_reducible apply State.takeMargins_touches
    | with_reducible exact HubWithin.refl _ _
    | split
    | intro (_ : Hub)
    | (refine ⟨?_⟩; intro q hq; cases q <;> first | exact rfl | exact (no_mask hmsk rfl hq).elim)
    | (refine HubWithin.lit ?_ (by intro q hq; cases q <;> first | exact rfl | exact (no_mask hmsk rfl hq).elim))
    | intro _
    | (refine Within.lit ?_ (by intro q hq; cases q <;> first | exact rfl | exact ⟨HubPart.same_refl _ _, HubPart.same_refl _ _⟩ | exact (no_mask hmsk rfl hq).elim)))

theorem execStage8KnownAnswer_touches {s₀ t : State} (us : Nat) (lanes units : List (Nat × Nat)) (concs : List Nat) (h : execStage8KnownAnswer us lanes units concs s₀ = .next t) :
    Touches (.out :: (callParts ++ netParts ++ timeParts ++ [.hub .srcs, .hub .lameSinceReady, .hub .fences, .hub .ctr, .hub .paddock, .hub .dailies, .hub .dailiesBuilt, .hub .dailiesDropped, .hub .dailyDropped, .xlink, .test])) s₀ t := by
  refine Within.touches (m := 1901476653650906164715561537271) ?_ (by decide)
  generalize hmsk : 1901476653650906164715561537271 = msk
  have ho : msk.testBit Part.out.idx = true := by rw [← hmsk]; rfl
  replace hmsk : 1901476653650906164715561537271 &&& msk = 1901476653650906164715561537271 := by rw [← hmsk]; rfl
  unfold execStage8KnownAnswer at h
  refine live_touches h ho ?_
  clear ho h
  intro u hk
  try dsimp only
  repeat' (first
    | with_reducible assumption
    | exact sub_mask hmsk rfl
    | with_reducible apply State.runStage_touches
    | with_reducible apply State.each_touches
    | with_reducible apply State.laneFails_touches
    | with_reducible apply State.unitFails_touches
    | with_reducible apply State.lameEach_touches
    | with_reducible apply State.passTest_touches
    | split
    | intro _
    | (refine Within.lit ?_ (by intro q hq; cases q <;> first | exact rfl | exact ⟨HubPart.same_refl _ _, HubPart.same_refl _ _⟩ | exact (no_mask hmsk rfl hq).elim)))

theorem execStage10Ready_touches {s₀ t : State} (us : Nat) (h : execStage10Ready us s₀ = .next t) :
    Touches (.out :: (callParts ++ timeParts ++ [.hub .reelBase, .hub .paddock, .hub .dailyBase, .readyAt, .agents, .harness, .epoch])) s₀ t := by
  refine Within.touches (m := 1267652864604173926983177179105) ?_ (by decide)
  generalize hmsk : 1267652864604173926983177179105 = msk
  have ho : msk.testBit Part.out.idx = true := by rw [← hmsk]; rfl
  replace hmsk : 1267652864604173926983177179105 &&& msk = 1267652864604173926983177179105 := by rw [← hmsk]; rfl
  unfold execStage10Ready at h
  refine live_touches h ho ?_
  clear ho h
  intro u hk
  try dsimp only
  repeat' (first
    | with_reducible assumption
    | exact sub_mask hmsk rfl
    | with_reducible apply State.runStage_touches
    | with_reducible apply State.enterReady_touches
    | with_reducible apply State.endCmd_touches
    | split
    | intro _
    | (refine Within.lit ?_ (by intro q hq; cases q <;> first | exact rfl | exact ⟨HubPart.same_refl _ _, HubPart.same_refl _ _⟩ | exact (no_mask hmsk rfl hq).elim)))

end Sys2Proof.Machine
end

