-- ==== Sys2Proof/Laws/ExecTouchesTags.lean ====
section
/-! SUPPORT. The parts that every command of a family may touch: Tags, Steps, Beacons, Housekeeping, Links. -/

namespace Sys2Proof.Machine

open Sys2Proof

theorem execWriteChecked_touches {s₀ t : State} (engine : Nat) (stream : BitVec 7) (addr : Addr) (job : Job) (h : execWriteChecked engine stream addr job s₀ = .next t) :
    Touches (.out :: (netParts ++ endParts ++ [.streams, .sign])) s₀ t := by
  refine Within.touches (m := 237684489921279083983812984832) ?_ (by decide)
  generalize hmsk : 237684489921279083983812984832 = msk
  have ho : msk.testBit Part.out.idx = true := by rw [← hmsk]; rfl
  replace hmsk : 237684489921279083983812984832 &&& msk = 237684489921279083983812984832 := by rw [← hmsk]; rfl
  unfold execWriteChecked at h
  refine live_touches h ho ?_
  clear ho h
  intro u hk
  try dsimp only
  repeat' (first
    | with_reducible assumption
    | exact sub_mask hmsk rfl
    | with_reducible apply State.memOp_touches
    | split
    | intro _
    | (refine Within.lit ?_ (by intro q hq; cases q <;> first | exact rfl | exact ⟨HubPart.same_refl _ _, HubPart.same_refl _ _⟩ | exact (no_mask hmsk rfl hq).elim)))

theorem execWritePlain_touches {s₀ t : State} (engine : Nat) (stream : BitVec 7) (addr : Addr) (job : Job) (h : execWritePlain engine stream addr job s₀ = .next t) :
    Touches (.out :: (netParts ++ endParts ++ [.streams, .sign])) s₀ t := by
  refine Within.touches (m := 237684489921279083983812984832) ?_ (by decide)
  generalize hmsk : 237684489921279083983812984832 = msk
  have ho : msk.testBit Part.out.idx = true := by rw [← hmsk]; rfl
  replace hmsk : 237684489921279083983812984832 &&& msk = 237684489921279083983812984832 := by rw [← hmsk]; rfl
  unfold execWritePlain at h
  refine live_touches h ho ?_
  clear ho h
  intro u hk
  try dsimp only
  repeat' (first
    | with_reducible assumption
    | exact sub_mask hmsk rfl
    | with_reducible apply State.memOp_touches
    | split
    | intro _
    | (refine Within.lit ?_ (by intro q hq; cases q <;> first | exact rfl | exact ⟨HubPart.same_refl _ _, HubPart.same_refl _ _⟩ | exact (no_mask hmsk rfl hq).elim)))

theorem execWriteExpect_touches {s₀ t : State} (engine : Nat) (stream : BitVec 7) (addr : Addr) (job : Job) (d : BitVec 31) (h : execWriteExpect engine stream addr job d s₀ = .next t) :
    Touches (.out :: (netParts ++ endParts ++ [.streams, .sign])) s₀ t := by
  refine Within.touches (m := 237684489921279083983812984832) ?_ (by decide)
  generalize hmsk : 237684489921279083983812984832 = msk
  have ho : msk.testBit Part.out.idx = true := by rw [← hmsk]; rfl
  replace hmsk : 237684489921279083983812984832 &&& msk = 237684489921279083983812984832 := by rw [← hmsk]; rfl
  unfold execWriteExpect at h
  refine live_touches h ho ?_
  clear ho h
  intro u hk
  try dsimp only
  repeat' (first
    | with_reducible assumption
    | exact sub_mask hmsk rfl
    | with_reducible apply State.memOp_touches
    | split
    | intro _
    | (refine Within.lit ?_ (by intro q hq; cases q <;> first | exact rfl | exact ⟨HubPart.same_refl _ _, HubPart.same_refl _ _⟩ | exact (no_mask hmsk rfl hq).elim)))

theorem execWritePoison_touches {s₀ t : State} (engine : Nat) (stream : BitVec 7) (addr : Addr) (job : Job) (h : execWritePoison engine stream addr job s₀ = .next t) :
    Touches (.out :: (netParts ++ endParts ++ [.streams, .sign])) s₀ t := by
  refine Within.touches (m := 237684489921279083983812984832) ?_ (by decide)
  generalize hmsk : 237684489921279083983812984832 = msk
  have ho : msk.testBit Part.out.idx = true := by rw [← hmsk]; rfl
  replace hmsk : 237684489921279083983812984832 &&& msk = 237684489921279083983812984832 := by rw [← hmsk]; rfl
  unfold execWritePoison at h
  refine live_touches h ho ?_
  clear ho h
  intro u hk
  try dsimp only
  repeat' (first
    | with_reducible assumption
    | exact sub_mask hmsk rfl
    | with_reducible apply State.memOp_touches
    | split
    | intro _
    | (refine Within.lit ?_ (by intro q hq; cases q <;> first | exact rfl | exact ⟨HubPart.same_refl _ _, HubPart.same_refl _ _⟩ | exact (no_mask hmsk rfl hq).elim)))

theorem execWriteExternal_touches {s₀ t : State} (engine : Nat) (stream : BitVec 7) (addr : Addr) (job : Job) (h : execWriteExternal engine stream addr job s₀ = .next t) :
    Touches (.out :: (netParts ++ endParts ++ [.streams, .sign])) s₀ t := by
  refine Within.touches (m := 237684489921279083983812984832) ?_ (by decide)
  generalize hmsk : 237684489921279083983812984832 = msk
  have ho : msk.testBit Part.out.idx = true := by rw [← hmsk]; rfl
  replace hmsk : 237684489921279083983812984832 &&& msk = 237684489921279083983812984832 := by rw [← hmsk]; rfl
  unfold execWriteExternal at h
  refine live_touches h ho ?_
  clear ho h
  intro u hk
  try dsimp only
  repeat' (first
    | with_reducible assumption
    | exact sub_mask hmsk rfl
    | with_reducible apply State.memOp_touches
    | split
    | intro _
    | (refine Within.lit ?_ (by intro q hq; cases q <;> first | exact rfl | exact ⟨HubPart.same_refl _ _, HubPart.same_refl _ _⟩ | exact (no_mask hmsk rfl hq).elim)))

theorem execWritePartial_touches {s₀ t : State} (engine : Nat) (stream : BitVec 7) (addr : Addr) (job : Job) (first last : BitVec 16) (h : execWritePartial engine stream addr job first last s₀ = .next t) :
    Touches (.out :: (netParts ++ endParts ++ [.streams, .sign])) s₀ t := by
  refine Within.touches (m := 237684489921279083983812984832) ?_ (by decide)
  generalize hmsk : 237684489921279083983812984832 = msk
  have ho : msk.testBit Part.out.idx = true := by rw [← hmsk]; rfl
  replace hmsk : 237684489921279083983812984832 &&& msk = 237684489921279083983812984832 := by rw [← hmsk]; rfl
  unfold execWritePartial at h
  refine live_touches h ho ?_
  clear ho h
  intro u hk
  try dsimp only
  repeat' (first
    | with_reducible assumption
    | exact sub_mask hmsk rfl
    | with_reducible apply State.memOp_touches
    | split
    | intro _
    | (refine Within.lit ?_ (by intro q hq; cases q <;> first | exact rfl | exact ⟨HubPart.same_refl _ _, HubPart.same_refl _ _⟩ | exact (no_mask hmsk rfl hq).elim)))

theorem execRead_touches {s₀ t : State} (engine : Nat) (stream : BitVec 7) (addr : Addr) (job : Job) (whole : Bool) (h : execRead engine stream addr job whole s₀ = .next t) :
    Touches (.out :: (netParts ++ endParts ++ [.streams, .sign])) s₀ t := by
  refine Within.touches (m := 237684489921279083983812984832) ?_ (by decide)
  generalize hmsk : 237684489921279083983812984832 = msk
  have ho : msk.testBit Part.out.idx = true := by rw [← hmsk]; rfl
  replace hmsk : 237684489921279083983812984832 &&& msk = 237684489921279083983812984832 := by rw [← hmsk]; rfl
  unfold execRead at h
  refine live_touches h ho ?_
  clear ho h
  intro u hk
  try dsimp only
  repeat' (first
    | with_reducible assumption
    | exact sub_mask hmsk rfl
    | with_reducible apply State.memOp_touches
    | split
    | intro _
    | (refine Within.lit ?_ (by intro q hq; cases q <;> first | exact rfl | exact ⟨HubPart.same_refl _ _, HubPart.same_refl _ _⟩ | exact (no_mask hmsk rfl hq).elim)))

theorem execTgDataBeat_touches {s₀ t : State} (engine : Nat) (beat : TgBeat) (h : execTgDataBeat engine beat s₀ = .next t) :
    Touches (.out :: (netParts ++ endParts ++ [.jobs, .staleReleases, .inlog, .streams, .sign])) s₀ t := by
  refine Within.touches (m := 258731888440769777915447508992) ?_ (by decide)
  generalize hmsk : 258731888440769777915447508992 = msk
  have ho : msk.testBit Part.out.idx = true := by rw [← hmsk]; rfl
  replace hmsk : 258731888440769777915447508992 &&& msk = 258731888440769777915447508992 := by rw [← hmsk]; rfl
  unfold execTgDataBeat at h
  refine live_touches h ho ?_
  clear ho h
  intro u hk
  try dsimp only
  repeat' (first
    | with_reducible assumption
    | exact sub_mask hmsk rfl
    | with_reducible apply State.countTag_touches
    | with_reducible apply State.untaggedBeat_touches
    | with_reducible apply State.taggedBeat_touches
    | split
    | intro _
    | (refine Within.lit ?_ (by intro q hq; cases q <;> first | exact rfl | exact ⟨HubPart.same_refl _ _, HubPart.same_refl _ _⟩ | exact (no_mask hmsk rfl hq).elim)))

theorem execCommit_touches {s₀ t : State} (engine : Nat) (addr : Addr) (count : BitVec 16) (job : Job) (h : execCommit engine addr count job s₀ = .next t) :
    Touches (.out :: (netParts ++ endParts ++ [.staleReleases, .streams, .sign])) s₀ t := by
  refine Within.touches (m := 238922429960564464258712109056) ?_ (by decide)
  generalize hmsk : 238922429960564464258712109056 = msk
  have ho : msk.testBit Part.out.idx = true := by rw [← hmsk]; rfl
  replace hmsk : 238922429960564464258712109056 &&& msk = 238922429960564464258712109056 := by rw [← hmsk]; rfl
  unfold execCommit at h
  refine live_touches h ho ?_
  clear ho h
  intro u hk
  try dsimp only
  repeat' (first
    | with_reducible assumption
    | exact sub_mask hmsk rfl
    | with_reducible apply State.takeCommit_touches
    | with_reducible apply State.present_touches
    | split
    | intro _
    | (refine Within.lit ?_ (by intro q hq; cases q <;> first | exact rfl | exact ⟨HubPart.same_refl _ _, HubPart.same_refl _ _⟩ | exact (no_mask hmsk rfl hq).elim)))

theorem execPoison_touches {s₀ t : State} (engine : Nat) (addr : Addr) (count : BitVec 16) (job : Job) (h : execPoison engine addr count job s₀ = .next t) :
    Touches (.out :: (netParts ++ endParts ++ [.streams, .sign])) s₀ t := by
  refine Within.touches (m := 237684489921279083983812984832) ?_ (by decide)
  generalize hmsk : 237684489921279083983812984832 = msk
  have ho : msk.testBit Part.out.idx = true := by rw [← hmsk]; rfl
  replace hmsk : 237684489921279083983812984832 &&& msk = 237684489921279083983812984832 := by rw [← hmsk]; rfl
  unfold execPoison at h
  refine live_touches h ho ?_
  clear ho h
  intro u hk
  try dsimp only
  repeat' (first
    | with_reducible assumption
    | exact sub_mask hmsk rfl
    | with_reducible apply State.poisonRange_touches
    | with_reducible apply State.present_touches
    | split
    | intro _
    | (refine Within.lit ?_ (by intro q hq; cases q <;> first | exact rfl | exact ⟨HubPart.same_refl _ _, HubPart.same_refl _ _⟩ | exact (no_mask hmsk rfl hq).elim)))

theorem execCommitBufferFree_touches {s₀ t : State} (engine : Nat) (h : execCommitBufferFree engine s₀ = .next t) :
    Touches (.out :: (netParts ++ endParts ++ [.staleReleases, .streams, .sign])) s₀ t := by
  refine Within.touches (m := 238922429960564464258712109056) ?_ (by decide)
  generalize hmsk : 238922429960564464258712109056 = msk
  have ho : msk.testBit Part.out.idx = true := by rw [← hmsk]; rfl
  replace hmsk : 238922429960564464258712109056 &&& msk = 238922429960564464258712109056 := by rw [← hmsk]; rfl
  unfold execCommitBufferFree at h
  refine live_touches h ho ?_
  clear ho h
  intro u hk
  try dsimp only
  repeat' (first
    | with_reducible assumption
    | exact sub_mask hmsk rfl
    | with_reducible apply State.modEngine_touches
    | with_reducible apply State.each_touches
    | with_reducible apply State.commitEffect_touches
    | split
    | intro _
    | (refine Within.lit ?_ (by intro q hq; cases q <;> first | exact rfl | exact ⟨HubPart.same_refl _ _, HubPart.same_refl _ _⟩ | exact (no_mask hmsk rfl hq).elim)))

theorem execSideAck_touches {s₀ t : State} (engine : Nat) (id : BitVec 4) (rdata : W32) (ue : Bool) (h : execSideAck engine id rdata ue s₀ = .next t) :
    Touches (.out :: (netParts ++ endParts ++ [.staleReleases, .streams, .sign])) s₀ t := by
  refine Within.touches (m := 238922429960564464258712109056) ?_ (by decide)
  generalize hmsk : 238922429960564464258712109056 = msk
  have ho : msk.testBit Part.out.idx = true := by rw [← hmsk]; rfl
  replace hmsk : 238922429960564464258712109056 &&& msk = 238922429960564464258712109056 := by rw [← hmsk]; rfl
  unfold execSideAck at h
  refine live_touches h ho ?_
  clear ho h
  intro u hk
  try dsimp only
  repeat' (first
    | with_reducible assumption
    | exact sub_mask hmsk rfl
    | with_reducible apply State.modEngine_touches
    | with_reducible apply State.issueWaiting_touches
    | with_reducible apply State.sideDone_touches
    | split
    | intro _
    | (refine Within.lit ?_ (by intro q hq; cases q <;> first | exact rfl | exact ⟨HubPart.same_refl _ _, HubPart.same_refl _ _⟩ | exact (no_mask hmsk rfl hq).elim)))

theorem execSidecarTimeout_touches {s₀ t : State} (engine : Nat) (id : BitVec 4) (h : execSidecarTimeout engine id s₀ = .next t) :
    Touches (.out :: (netParts ++ timeParts ++ endParts ++ [.staleReleases, .streams, .sign])) s₀ t := by
  refine Within.touches (m := 238923034423492285971808944128) ?_ (by decide)
  generalize hmsk : 238923034423492285971808944128 = msk
  have ho : msk.testBit Part.out.idx = true := by rw [← hmsk]; rfl
  replace hmsk : 238923034423492285971808944128 &&& msk = 238923034423492285971808944128 := by rw [← hmsk]; rfl
  unfold execSidecarTimeout at h
  refine live_touches h ho ?_
  clear ho h
  intro u hk
  try dsimp only
  repeat' (first
    | with_reducible assumption
    | exact sub_mask hmsk rfl
    | with_reducible apply State.advanceTo_touches
    | with_reducible apply State.modEngine_touches
    | with_reducible apply State.sideDone_touches
    | split
    | intro _
    | (refine Within.lit ?_ (by intro q hq; cases q <;> first | exact rfl | exact ⟨HubPart.same_refl _ _, HubPart.same_refl _ _⟩ | exact (no_mask hmsk rfl hq).elim)))

theorem execTgSourceReply_touches {s₀ t : State} (engine : Nat) (code : BitVec 4) (d : BitVec 31) (addr : Addr) (uses : List SrcUse) (h : execTgSourceReply engine code d addr uses s₀ = .next t) :
    Touches (.out :: ([.engines])) s₀ t := by
  refine Within.touches (m := 4620693217682128896) ?_ (by decide)
  generalize hmsk : 4620693217682128896 = msk
  have ho : msk.testBit Part.out.idx = true := by rw [← hmsk]; rfl
  replace hmsk : 4620693217682128896 &&& msk = 4620693217682128896 := by rw [← hmsk]; rfl
  unfold execTgSourceReply at h
  refine live_touches h ho ?_
  clear ho h
  intro u hk
  try dsimp only
  repeat' (first
    | with_reducible assumption
    | exact sub_mask hmsk rfl
    | with_reducible apply State.each_touches
    | with_reducible apply State.packetUse_touches
    | with_reducible apply State.destUse_touches
    | split
    | intro _
    | (refine Within.lit ?_ (by intro q hq; cases q <;> first | exact rfl | exact ⟨HubPart.same_refl _ _, HubPart.same_refl _ _⟩ | exact (no_mask hmsk rfl hq).elim)))

theorem execLinkPacketSend_touches {s₀ t : State} (engine : Nat) (packet : LinkPacket) (ledger : Option (BitVec 128)) (h : execLinkPacketSend engine packet ledger s₀ = .next t) :
    Touches (.out :: (netParts)) s₀ t := by
  refine Within.touches (m := 17302829768357478400) ?_ (by decide)
  generalize hmsk : 17302829768357478400 = msk
  have ho : msk.testBit Part.out.idx = true := by rw [← hmsk]; rfl
  replace hmsk : 17302829768357478400 &&& msk = 17302829768357478400 := by rw [← hmsk]; rfl
  unfold execLinkPacketSend at h
  refine live_touches h ho ?_
  clear ho h
  intro u hk
  try dsimp only
  repeat' (first
    | with_reducible assumption
    | exact sub_mask hmsk rfl
    | with_reducible apply State.addRows_touches
    | with_reducible apply State.modEngine_touches
    | with_reducible apply State.present_touches
    | with_reducible apply State.mismatch_touches
    | split
    | intro _
    | (refine Within.lit ?_ (by intro q hq; cases q <;> first | exact rfl | exact ⟨HubPart.same_refl _ _, HubPart.same_refl _ _⟩ | exact (no_mask hmsk rfl hq).elim)))

theorem execLinkPacketReceive_touches {s₀ t : State} (engine : Nat) (packet : LinkPacket) (tag : W32) (h : execLinkPacketReceive engine packet tag s₀ = .next t) :
    Touches (.out :: (netParts)) s₀ t := by
  refine Within.touches (m := 17302829768357478400) ?_ (by decide)
  generalize hmsk : 17302829768357478400 = msk
  have ho : msk.testBit Part.out.idx = true := by rw [← hmsk]; rfl
  replace hmsk : 17302829768357478400 &&& msk = 17302829768357478400 := by rw [← hmsk]; rfl
  unfold execLinkPacketReceive at h
  refine live_touches h ho ?_
  clear ho h
  intro u hk
  try dsimp only
  repeat' (first
    | with_reducible assumption
    | exact sub_mask hmsk rfl
    | with_reducible apply State.each_touches
    | with_reducible apply State.present_touches
    | with_reducible apply State.mismatch_touches
    | split
    | intro _
    | (refine Within.lit ?_ (by intro q hq; cases q <;> first | exact rfl | exact ⟨HubPart.same_refl _ _, HubPart.same_refl _ _⟩ | exact (no_mask hmsk rfl hq).elim)))

theorem execLedgerOpen_touches {s₀ t : State} (engine : Nat) (receiver : Bool) (addr : Addr) (count : BitVec 16) (job : Job) (round : BitVec 16) (value : W32) (h : execLedgerOpen engine receiver addr count job round value s₀ = .next t) :
    Touches (.out :: ([.concs, .engines])) s₀ t := by
  refine Within.touches (m := 6926536226895822848) ?_ (by decide)
  generalize hmsk : 6926536226895822848 = msk
  have ho : msk.testBit Part.out.idx = true := by rw [← hmsk]; rfl
  replace hmsk : 6926536226895822848 &&& msk = 6926536226895822848 := by rw [← hmsk]; rfl
  unfold execLedgerOpen at h
  refine live_touches h ho ?_
  clear ho h
  intro u hk
  try dsimp only
  repeat' (first
    | with_reducible assumption
    | exact sub_mask hmsk rfl
    | with_reducible apply State.modEngine_touches
    | with_reducible apply State.modConc_touches
    | with_reducible apply State.present_touches
    | split
    | intro _
    | (refine Within.lit ?_ (by intro q hq; cases q <;> first | exact rfl | exact ⟨HubPart.same_refl _ _, HubPart.same_refl _ _⟩ | exact (no_mask hmsk rfl hq).elim)))

theorem execLedgerClose_touches {s₀ t : State} (engine : Nat) (receiver : Bool) (job : Job) (round : BitVec 16) (h : execLedgerClose engine receiver job round s₀ = .next t) :
    Touches (.out :: (netParts ++ endParts ++ [.staleReleases, .streams, .sign])) s₀ t := by
  refine Within.touches (m := 238922429960564464258712109056) ?_ (by decide)
  generalize hmsk : 238922429960564464258712109056 = msk
  have ho : msk.testBit Part.out.idx = true := by rw [← hmsk]; rfl
  replace hmsk : 238922429960564464258712109056 &&& msk = 238922429960564464258712109056 := by rw [← hmsk]; rfl
  unfold execLedgerClose at h
  refine live_touches h ho ?_
  clear ho h
  intro u hk
  try dsimp only
  repeat' (first
    | with_reducible assumption
    | exact sub_mask hmsk rfl
    | with_reducible apply State.closeReceiver_touches
    | with_reducible apply State.closeSender_touches
    | with_reducible apply State.present_touches
    | split
    | intro _
    | (refine Within.lit ?_ (by intro q hq; cases q <;> first | exact rfl | exact ⟨HubPart.same_refl _ _, HubPart.same_refl _ _⟩ | exact (no_mask hmsk rfl hq).elim)))

theorem execLedgerPacket_touches {s₀ t : State} (engine : Nat) (packet : DispatchPacket) (h : execLedgerPacket engine packet s₀ = .next t) :
    Touches (.out :: (netParts ++ endParts ++ [.jobs, .staleReleases, .inlog, .streams, .sign])) s₀ t := by
  refine Within.touches (m := 258731888440769777915447508992) ?_ (by decide)
  generalize hmsk : 258731888440769777915447508992 = msk
  have ho : msk.testBit Part.out.idx = true := by rw [← hmsk]; rfl
  replace hmsk : 258731888440769777915447508992 &&& msk = 258731888440769777915447508992 := by rw [← hmsk]; rfl
  unfold execLedgerPacket at h
  refine live_touches h ho ?_
  clear ho h
  intro u hk
  try dsimp only
  repeat' (first
    | with_reducible assumption
    | exact sub_mask hmsk rfl
    | with_reducible apply State.modRound_touches
    | with_reducible apply State.layPacket_touches
    | with_reducible apply State.packetFails_touches
    | split
    | intro _
    | (refine Within.lit ?_ (by intro q hq; cases q <;> first | exact rfl | exact ⟨HubPart.same_refl _ _, HubPart.same_refl _ _⟩ | exact (no_mask hmsk rfl hq).elim)))

theorem execHostReport_touches {s₀ t : State} (engine : Nat) (line : BitVec 4) (kind : Byte) (addr : Addr) (dests : List Addr) (h : execHostReport engine line kind addr dests s₀ = .next t) :
    Touches (.out :: (netParts ++ endParts ++ [.hub .ctr, .streams, .sign])) s₀ t := by
  refine Within.touches (m := 237684489921279083983813001216) ?_ (by decide)
  generalize hmsk : 237684489921279083983813001216 = msk
  have ho : msk.testBit Part.out.idx = true := by rw [← hmsk]; rfl
  replace hmsk : 237684489921279083983813001216 &&& msk = 237684489921279083983813001216 := by rw [← hmsk]; rfl
  unfold execHostReport at h
  refine live_touches h ho ?_
  clear ho h
  intro u hk
  try dsimp only
  repeat' (first
    | with_reducible assumption
    | exact sub_mask hmsk rfl
    | with_reducible apply State.eachHub_touches
    | with_reducible apply State.modHub_touches
    | with_reducible apply State.emit_touches
    | with_reducible apply State.poisonOwned_touches
    | with_reducible apply State.each_touches
    | with_reducible apply State.present_touches
    | with_reducible apply Hub.count_touches
    | with_reducible exact HubWithin.refl _ _
    | split
    | intro (_ : Hub)
    | (refine ⟨?_⟩; intro q hq; cases q <;> first | exact rfl | exact (no_mask hmsk rfl hq).elim)
    | (refine HubWithin.lit ?_ (by intro q hq; cases q <;> first | exact rfl | exact (no_mask hmsk rfl hq).elim))
    | intro _
    | (refine Within.lit ?_ (by intro q hq; cases q <;> first | exact rfl | exact ⟨HubPart.same_refl _ _, HubPart.same_refl _ _⟩ | exact (no_mask hmsk rfl hq).elim)))

theorem execInlogEntryWrite_touches {s₀ t : State}  (h : execInlogEntryWrite  s₀ = .next t) :
    Touches (.out :: ([.inlog])) s₀ t := by
  refine Within.touches (m := 19807040628575091597640728576) ?_ (by decide)
  generalize hmsk : 19807040628575091597640728576 = msk
  have ho : msk.testBit Part.out.idx = true := by rw [← hmsk]; rfl
  replace hmsk : 19807040628575091597640728576 &&& msk = 19807040628575091597640728576 := by rw [← hmsk]; rfl
  unfold execInlogEntryWrite at h
  refine live_touches h ho ?_
  clear ho h
  intro u hk
  try dsimp only
  repeat' (first
    | with_reducible assumption
    | exact sub_mask hmsk rfl
    | with_reducible apply State.present_touches
    | split
    | intro _
    | (refine Within.lit ?_ (by intro q hq; cases q <;> first | exact rfl | exact ⟨HubPart.same_refl _ _, HubPart.same_refl _ _⟩ | exact (no_mask hmsk rfl hq).elim)))

theorem execStepSync_touches {s₀ t : State} (time : W64) (h : execStepSync time s₀ = .next t) :
    Touches (.out :: (noteParts ++ [.clock])) s₀ t := by
  refine Within.touches (m := 2035471526592301972768536383227) ?_ (by decide)
  generalize hmsk : 2035471526592301972768536383227 = msk
  have ho : msk.testBit Part.out.idx = true := by rw [← hmsk]; rfl
  replace hmsk : 2035471526592301972768536383227 &&& msk = 2035471526592301972768536383227 := by rw [← hmsk]; rfl
  unfold execStepSync at h
  refine live_touches h ho ?_
  clear ho h
  intro u hk
  try dsimp only
  repeat' (first
    | with_reducible assumption
    | exact sub_mask hmsk rfl
    | with_reducible apply State.eachHub_touches
    | with_reducible apply State.note_touches
    | with_reducible apply Hub.count_touches
    | split
    | intro _
    | (refine Within.lit ?_ (by intro q hq; cases q <;> first | exact rfl | exact ⟨HubPart.same_refl _ _, HubPart.same_refl _ _⟩ | exact (no_mask hmsk rfl hq).elim)))

theorem execSyncMissing_touches {s₀ t : State}  (h : execSyncMissing  s₀ = .next t) :
    Touches (.out :: (noteParts ++ timeParts)) s₀ t := by
  refine Within.touches (m := 2035471526592319987167045865211) ?_ (by decide)
  generalize hmsk : 2035471526592319987167045865211 = msk
  have ho : msk.testBit Part.out.idx = true := by rw [← hmsk]; rfl
  replace hmsk : 2035471526592319987167045865211 &&& msk = 2035471526592319987167045865211 := by rw [← hmsk]; rfl
  unfold execSyncMissing at h
  refine live_touches h ho ?_
  clear ho h
  intro u hk
  try dsimp only
  repeat' (first
    | with_reducible assumption
    | exact sub_mask hmsk rfl
    | with_reducible apply State.advanceTo_touches
    | with_reducible apply State.loseSync_touches
    | with_reducible apply State.eachHub_touches
    | with_reducible apply State.note_touches
    | split
    | intro _
    | (refine Within.lit ?_ (by intro q hq; cases q <;> first | exact rfl | exact ⟨HubPart.same_refl _ _, HubPart.same_refl _ _⟩ | exact (no_mask hmsk rfl hq).elim)))

theorem execSlateBegin_touches {s₀ t : State} (data : W32) (h : execSlateBegin data s₀ = .next t) :
    Touches (.out :: ([.agents, .xlink, .cmd, .jobs, .ports])) s₀ t := by
  refine Within.touches (m := 4954180444912896791468310528) ?_ (by decide)
  generalize hmsk : 4954180444912896791468310528 = msk
  have ho : msk.testBit Part.out.idx = true := by rw [← hmsk]; rfl
  replace hmsk : 4954180444912896791468310528 &&& msk = 4954180444912896791468310528 := by rw [← hmsk]; rfl
  unfold execSlateBegin at h
  refine live_touches h ho ?_
  clear ho h
  intro u hk
  try dsimp only
  repeat' (first
    | with_reducible assumption
    | exact sub_mask hmsk rfl
    | with_reducible apply State.portDo_touches
    | with_reducible apply State.mirrorWrite_touches
    | with_reducible apply State.clearChoices_touches
    | with_reducible apply State.dropHeld_touches
    | with_reducible apply State.modJob_touches
    | with_reducible apply State.refuseWord_touches
    | split
    | intro _
    | (refine Within.lit ?_ (by intro q hq; cases q <;> first | exact rfl | exact ⟨HubPart.same_refl _ _, HubPart.same_refl _ _⟩ | exact (no_mask hmsk rfl hq).elim)))

theorem execSlateWaitExpiry_touches {s₀ t : State} (job : Job) (step : W64) (port : Nat) (h : execSlateWaitExpiry job step port s₀ = .next t) :
    Touches (.out :: (noteParts ++ timeParts)) s₀ t := by
  refine Within.touches (m := 2035471526592319987167045865211) ?_ (by decide)
  generalize hmsk : 2035471526592319987167045865211 = msk
  have ho : msk.testBit Part.out.idx = true := by rw [← hmsk]; rfl
  replace hmsk : 2035471526592319987167045865211 &&& msk = 2035471526592319987167045865211 := by rw [← hmsk]; rfl
  unfold execSlateWaitExpiry at h
  refine live_touches h ho ?_
  clear ho h
  intro u hk
  try dsimp only
  repeat' (first
    | with_reducible assumption
    | exact sub_mask hmsk rfl
    | with_reducible apply State.advanceClk_touches
    | with_reducible apply State.slateMismatch_touches
    | split
    | intro _
    | (refine Within.lit ?_ (by intro q hq; cases q <;> first | exact rfl | exact ⟨HubPart.same_refl _ _, HubPart.same_refl _ _⟩ | exact (no_mask hmsk rfl hq).elim)))

theorem execLaunchCountReached_touches {s₀ t : State} (job : Job) (h : execLaunchCountReached job s₀ = .next t) :
    Touches (.out :: (noteParts ++ timeParts)) s₀ t := by
  refine Within.touches (m := 2035471526592319987167045865211) ?_ (by decide)
  generalize hmsk : 2035471526592319987167045865211 = msk
  have ho : msk.testBit Part.out.idx = true := by rw [← hmsk]; rfl
  replace hmsk : 2035471526592319987167045865211 &&& msk = 2035471526592319987167045865211 := by rw [← hmsk]; rfl
  unfold execLaunchCountReached at h
  refine live_touches h ho ?_
  clear ho h
  intro u hk
  try dsimp only
  repeat' (first
    | with_reducible assumption
    | exact sub_mask hmsk rfl
    | with_reducible apply State.advanceClk_touches
    | with_reducible apply State.launchPulse_touches
    | split
    | intro _
    | (refine Within.lit ?_ (by intro q hq; cases q <;> first | exact rfl | exact ⟨HubPart.same_refl _ _, HubPart.same_refl _ _⟩ | exact (no_mask hmsk rfl hq).elim)))

theorem execChoiceStrobe_touches {s₀ t : State} (agent : Nat) (job : Job) (h : execChoiceStrobe agent job s₀ = .next t) :
    Touches (.out :: ([.agents, .jobs, .tccOrphan])) s₀ t := by
  refine Within.touches (m := 12089259358074995608649728) ?_ (by decide)
  generalize hmsk : 12089259358074995608649728 = msk
  have ho : msk.testBit Part.out.idx = true := by rw [← hmsk]; rfl
  replace hmsk : 12089259358074995608649728 &&& msk = 12089259358074995608649728 := by rw [← hmsk]; rfl
  unfold execChoiceStrobe at h
  refine live_touches h ho ?_
  clear ho h
  intro u hk
  try dsimp only
  repeat' (first
    | with_reducible assumption
    | exact sub_mask hmsk rfl
    | with_reducible apply State.modAgent_touches
    | with_reducible apply State.modJob_touches
    | split
    | intro _
    | (refine Within.lit ?_ (by intro q hq; cases q <;> first | exact rfl | exact ⟨HubPart.same_refl _ _, HubPart.same_refl _ _⟩ | exact (no_mask hmsk rfl hq).elim)))

theorem execStepEnd_touches {s₀ t : State} (data : W32) (h : execStepEnd data s₀ = .next t) :
    Touches (.out :: ([.xlink, .cmd, .jobs])) s₀ t := by
  refine Within.touches (m := 2420286618454187264966656) ?_ (by decide)
  generalize hmsk : 2420286618454187264966656 = msk
  have ho : msk.testBit Part.out.idx = true := by rw [← hmsk]; rfl
  replace hmsk : 2420286618454187264966656 &&& msk = 2420286618454187264966656 := by rw [← hmsk]; rfl
  unfold execStepEnd at h
  refine live_touches h ho ?_
  clear ho h
  intro u hk
  try dsimp only
  repeat' (first
    | with_reducible assumption
    | exact sub_mask hmsk rfl
    | with_reducible apply State.portDo_touches
    | with_reducible apply State.mirrorWrite_touches
    | with_reducible apply State.modJob_touches
    | with_reducible apply State.refuseWord_touches
    | split
    | intro _
    | (refine Within.lit ?_ (by intro q hq; cases q <;> first | exact rfl | exact ⟨HubPart.same_refl _ _, HubPart.same_refl _ _⟩ | exact (no_mask hmsk rfl hq).elim)))

theorem execConcStepAnswer_touches {s₀ t : State} (cluster : Nat) (job : Job) (step : W64) (h : execConcStepAnswer cluster job step s₀ = .next t) :
    Touches (.out :: ([.agents, .jobs])) s₀ t := by
  refine Within.touches (m := 2417852801157962211000320) ?_ (by decide)
  generalize hmsk : 2417852801157962211000320 = msk
  have ho : msk.testBit Part.out.idx = true := by rw [← hmsk]; rfl
  replace hmsk : 2417852801157962211000320 &&& msk = 2417852801157962211000320 := by rw [← hmsk]; rfl
  unfold execConcStepAnswer at h
  refine live_touches h ho ?_
  clear ho h
  intro u hk
  try dsimp only
  repeat' (first
    | with_reducible assumption
    | exact sub_mask hmsk rfl
    | with_reducible apply State.each_touches
    | with_reducible apply State.modAgent_touches
    | with_reducible apply State.modJob_touches
    | split
    | intro _
    | (refine Within.lit ?_ (by intro q hq; cases q <;> first | exact rfl | exact ⟨HubPart.same_refl _ _, HubPart.same_refl _ _⟩ | exact (no_mask hmsk rfl hq).elim)))

theorem execGateDecision_touches {s₀ t : State} (job : Job) (h : execGateDecision job s₀ = .next t) :
    Touches (.out :: (endParts ++ [.hub .st, .twin, .jobs, .replay, .streams, .sign, .mgmt])) s₀ t := by
  refine Within.touches (m := 1544951589277879549113953943553) ?_ (by decide)
  generalize hmsk : 1544951589277879549113953943553 = msk
  have ho : msk.testBit Part.out.idx = true := by rw [← hmsk]; rfl
  replace hmsk : 1544951589277879549113953943553 &&& msk = 1544951589277879549113953943553 := by rw [← hmsk]; rfl
  unfold execGateDecision at h
  refine live_touches h ho ?_
  clear ho h
  intro u hk
  try dsimp only
  repeat' (first
    | with_reducible assumption
    | exact sub_mask hmsk rfl
    | with_reducible apply State.relax_touches
    | with_reducible apply State.openGateAct_touches
    | split
    | intro _
    | (refine Within.lit ?_ (by intro q hq; cases q <;> first | exact rfl | exact ⟨HubPart.same_refl _ _, HubPart.same_refl _ _⟩ | exact (no_mask hmsk rfl hq).elim)))

theorem execDiscWindowEnd_touches {s₀ t : State}  (h : execDiscWindowEnd  s₀ = .next t) :
    Touches (.out :: (noteParts ++ callParts ++ timeParts)) s₀ t := by
  refine Within.touches (m := 2035471573815984815863498002171) ?_ (by decide)
  generalize hmsk : 2035471573815984815863498002171 = msk
  have ho : msk.testBit Part.out.idx = true := by rw [← hmsk]; rfl
  replace hmsk : 2035471573815984815863498002171 &&& msk = 2035471573815984815863498002171 := by rw [← hmsk]; rfl
  unfold execDiscWindowEnd at h
  refine live_touches h ho ?_
  clear ho h
  intro u hk
  try dsimp only
  repeat' (first
    | with_reducible assumption
    | exact sub_mask hmsk rfl
    | with_reducible apply State.windowEnd_touches
    | split
    | intro _
    | (refine Within.lit ?_ (by intro q hq; cases q <;> first | exact rfl | exact ⟨HubPart.same_refl _ _, HubPart.same_refl _ _⟩ | exact (no_mask hmsk rfl hq).elim)))

theorem execStage9Discovery_touches {s₀ t : State} (us : Nat) (h : execStage9Discovery us s₀ = .next t) :
    Touches (.out :: (noteParts ++ callParts ++ timeParts)) s₀ t := by
  refine Within.touches (m := 2035471573815984815863498002171) ?_ (by decide)
  generalize hmsk : 2035471573815984815863498002171 = msk
  have ho : msk.testBit Part.out.idx = true := by rw [← hmsk]; rfl
  replace hmsk : 2035471573815984815863498002171 &&& msk = 2035471573815984815863498002171 := by rw [← hmsk]; rfl
  unfold execStage9Discovery at h
  refine live_touches h ho ?_
  clear ho h
  intro u hk
  try dsimp only
  repeat' (first
    | with_reducible assumption
    | exact sub_mask hmsk rfl
    | with_reducible apply State.windowEnd_touches
    | with_reducible apply State.advanceTo_touches
    | with_reducible apply State.endDiscovery_touches
    | split
    | intro _
    | (refine Within.lit ?_ (by intro q hq; cases q <;> first | exact rfl | exact ⟨HubPart.same_refl _ _, HubPart.same_refl _ _⟩ | exact (no_mask hmsk rfl hq).elim)))

theorem execBeaconSend_touches {s₀ t : State} (port : Nat) (width : Byte) (h : execBeaconSend port width s₀ = .next t) :
    Touches (.out :: (timeParts ++ [.ports])) s₀ t := by
  refine Within.touches (m := 4952364620078350011948072960) ?_ (by decide)
  generalize hmsk : 4952364620078350011948072960 = msk
  have ho : msk.testBit Part.out.idx = true := by rw [← hmsk]; rfl
  replace hmsk : 4952364620078350011948072960 &&& msk = 4952364620078350011948072960 := by rw [← hmsk]; rfl
  unfold execBeaconSend at h
  refine live_touches h ho ?_
  clear ho h
  intro u hk
  try dsimp only
  repeat' (first
    | with_reducible assumption
    | exact sub_mask hmsk rfl
    | with_reducible apply State.modPort_touches
    | with_reducible apply State.advanceTo_touches
    | with_reducible apply State.sendBeacon_touches
    | split
    | intro _
    | (refine Within.lit ?_ (by intro q hq; cases q <;> first | exact rfl | exact ⟨HubPart.same_refl _ _, HubPart.same_refl _ _⟩ | exact (no_mask hmsk rfl hq).elim)))

theorem execBeaconTxReady_touches {s₀ t : State} (port : Nat) (h : execBeaconTxReady port s₀ = .next t) :
    Touches (.out :: ([.ports])) s₀ t := by
  refine Within.touches (m := 4951760157150528298851237888) ?_ (by decide)
  generalize hmsk : 4951760157150528298851237888 = msk
  have ho : msk.testBit Part.out.idx = true := by rw [← hmsk]; rfl
  replace hmsk : 4951760157150528298851237888 &&& msk = 4951760157150528298851237888 := by rw [← hmsk]; rfl
  unfold execBeaconTxReady at h
  refine live_touches h ho ?_
  clear ho h
  intro u hk
  try dsimp only
  repeat' (first
    | with_reducible assumption
    | exact sub_mask hmsk rfl
    | with_reducible apply State.modPort_touches
    | with_reducible apply State.present_touches
    | split
    | intro _
    | (refine Within.lit ?_ (by intro q hq; cases q <;> first | exact rfl | exact ⟨HubPart.same_refl _ _, HubPart.same_refl _ _⟩ | exact (no_mask hmsk rfl hq).elim)))

theorem execBeaconReceive_touches {s₀ t : State} (port : Nat) (frame : List Byte) (width : Byte) (h : execBeaconReceive port frame width s₀ = .next t) :
    Touches (.out :: (noteParts ++ callParts)) s₀ t := by
  refine Within.touches (m := 2035470969353056994150401167099) ?_ (by decide)
  generalize hmsk : 2035470969353056994150401167099 = msk
  have ho : msk.testBit Part.out.idx = true := by rw [← hmsk]; rfl
  replace hmsk : 2035470969353056994150401167099 &&& msk = 2035470969353056994150401167099 := by rw [← hmsk]; rfl
  unfold execBeaconReceive at h
  refine live_touches h ho ?_
  clear ho h
  intro u hk
  try dsimp only
  repeat' (first
    | with_reducible assumption
    | exact sub_mask hmsk rfl
    | with_reducible apply State.modPort_touches
    | with_reducible apply State.eachHub_touches
    | with_reducible apply State.note_touches
    | with_reducible apply State.goodBeacon_touches
    | with_reducible apply State.endDiscovery_touches
    | split
    | intro _
    | (refine Within.lit ?_ (by intro q hq; cases q <;> first | exact rfl | exact ⟨HubPart.same_refl _ _, HubPart.same_refl _ _⟩ | exact (no_mask hmsk rfl hq).elim)))

theorem execPortSilence_touches {s₀ t : State} (port : Nat) (h : execPortSilence port s₀ = .next t) :
    Touches (.out :: (noteParts ++ timeParts)) s₀ t := by
  refine Within.touches (m := 2035471526592319987167045865211) ?_ (by decide)
  generalize hmsk : 2035471526592319987167045865211 = msk
  have ho : msk.testBit Part.out.idx = true := by rw [← hmsk]; rfl
  replace hmsk : 2035471526592319987167045865211 &&& msk = 2035471526592319987167045865211 := by rw [← hmsk]; rfl
  unfold execPortSilence at h
  refine live_touches h ho ?_
  clear ho h
  intro u hk
  try dsimp only
  repeat' (first
    | with_reducible assumption
    | exact sub_mask hmsk rfl
    | with_reducible apply State.advanceTo_touches
    | with_reducible apply State.modPort_touches
    | with_reducible apply State.setResult_touches
    | split
    | intro _
    | (refine Within.lit ?_ (by intro q hq; cases q <;> first | exact rfl | exact ⟨HubPart.same_refl _ _, HubPart.same_refl _ _⟩ | exact (no_mask hmsk rfl hq).elim)))

theorem execSensorSample_touches {s₀ t : State} (chan : BitVec 9) (data : BitVec 16) (h : execSensorSample chan data s₀ = .next t) :
    Touches (.out :: ([.hub .chans])) s₀ t := by
  refine Within.touches (m := 9007199263129600) ?_ (by decide)
  generalize hmsk : 9007199263129600 = msk
  have ho : msk.testBit Part.out.idx = true := by rw [← hmsk]; rfl
  replace hmsk : 9007199263129600 &&& msk = 9007199263129600 := by rw [← hmsk]; rfl
  unfold execSensorSample at h
  refine live_touches h ho ?_
  clear ho h
  intro u hk
  try dsimp only
  repeat' (first
    | with_reducible assumption
    | exact sub_mask hmsk rfl
    | with_reducible apply State.eachHub_touches
    | with_reducible apply State.modChan_touches
    | split
    | intro _
    | (refine Within.lit ?_ (by intro q hq; cases q <;> first | exact rfl | exact ⟨HubPart.same_refl _ _, HubPart.same_refl _ _⟩ | exact (no_mask hmsk rfl hq).elim)))

theorem execHkRound_touches {s₀ t : State}  (h : execHkRound  s₀ = .next t) :
    Touches (.out :: (noteParts ++ timeParts ++ [.hub .fails, .hub .chans, .hub .roundAt, .hub .trim, .freeCtr, .retakesOrdered, .bands])) s₀ t := by
  refine Within.touches (m := 2038256891680784150381830065915) ?_ (by decide)
  generalize hmsk : 2038256891680784150381830065915 = msk
  have ho : msk.testBit Part.out.idx = true := by rw [← hmsk]; rfl
  replace hmsk : 2038256891680784150381830065915 &&& msk = 2038256891680784150381830065915 := by rw [← hmsk]; rfl
  unfold execHkRound at h
  refine live_touches h ho ?_
  clear ho h
  intro u hk
  try dsimp only
  repeat' (first
    | with_reducible assumption
    | exact sub_mask hmsk rfl
    | with_reducible apply State.advanceTo_touches
    | with_reducible apply State.eachHub_touches
    | with_reducible apply State.hkRound_touches
    | with_reducible apply State.settleBand_touches
    | with_reducible apply State.takeUpLead_touches
    | split
    | intro _
    | (refine Within.lit ?_ (by intro q hq; cases q <;> first | exact rfl | exact ⟨HubPart.same_refl _ _, HubPart.same_refl _ _⟩ | exact (no_mask hmsk rfl hq).elim)))

theorem execCurbCombine_touches {s₀ t : State}  (h : execCurbCombine  s₀ = .next t) :
    Touches (.out :: ([.curbPort, .mgmt])) s₀ t := by
  refine Within.touches (m := 1267650600523386313875310772224) ?_ (by decide)
  generalize hmsk : 1267650600523386313875310772224 = msk
  have ho : msk.testBit Part.out.idx = true := by rw [← hmsk]; rfl
  replace hmsk : 1267650600523386313875310772224 &&& msk = 1267650600523386313875310772224 := by rw [← hmsk]; rfl
  unfold execCurbCombine at h
  refine live_touches h ho ?_
  clear ho h
  intro u hk
  try dsimp only
  repeat' (first
    | with_reducible assumption
    | exact sub_mask hmsk rfl
    | with_reducible apply State.present_touches
    | with_reducible apply State.each_touches
    | with_reducible apply State.mgmtPush_touches
    | split
    | intro _
    | (refine Within.lit ?_ (by intro q hq; cases q <;> first | exact rfl | exact ⟨HubPart.same_refl _ _, HubPart.same_refl _ _⟩ | exact (no_mask hmsk rfl hq).elim)))

theorem execBusSample_touches {s₀ t : State} (chan : BitVec 9) (h : execBusSample chan s₀ = .next t) :
    Touches (.out :: (noteParts ++ timeParts ++ [.hub .chans])) s₀ t := by
  refine Within.touches (m := 2035471526592319987167054253819) ?_ (by decide)
  generalize hmsk : 2035471526592319987167054253819 = msk
  have ho : msk.testBit Part.out.idx = true := by rw [← hmsk]; rfl
  replace hmsk : 2035471526592319987167054253819 &&& msk = 2035471526592319987167054253819 := by rw [← hmsk]; rfl
  unfold execBusSample at h
  refine live_touches h ho ?_
  clear ho h
  intro u hk
  try dsimp only
  repeat' (first
    | with_reducible assumption
    | exact sub_mask hmsk rfl
    | with_reducible apply State.advanceTo_touches
    | with_reducible apply State.eachHub_touches
    | with_reducible apply State.busStep_touches
    | with_reducible apply State.busSensor_touches
    | split
    | intro _
    | (refine Within.lit ?_ (by intro q hq; cases q <;> first | exact rfl | exact ⟨HubPart.same_refl _ _, HubPart.same_refl _ _⟩ | exact (no_mask hmsk rfl hq).elim)))

theorem execMarginWindowDone_touches {s₀ t : State} (cluster : Nat) (counts : List (Nat × Nat)) (h : execMarginWindowDone cluster counts s₀ = .next t) :
    Touches (.out :: (netParts ++ [.mgmt])) s₀ t := by
  refine Within.touches (m := 1267650600245532231265060683776) ?_ (by decide)
  generalize hmsk : 1267650600245532231265060683776 = msk
  have ho : msk.testBit Part.out.idx = true := by rw [← hmsk]; rfl
  replace hmsk : 1267650600245532231265060683776 &&& msk = 1267650600245532231265060683776 := by rw [← hmsk]; rfl
  unfold execMarginWindowDone at h
  refine live_touches h ho ?_
  clear ho h
  intro u hk
  try dsimp only
  repeat' (first
    | with_reducible assumption
    | exact sub_mask hmsk rfl
    | with_reducible apply State.takeMargins_touches
    | split
    | intro _
    | (refine Within.lit ?_ (by intro q hq; cases q <;> first | exact rfl | exact ⟨HubPart.same_refl _ _, HubPart.same_refl _ _⟩ | exact (no_mask hmsk rfl hq).elim)))

theorem execKclkCheckWindow_touches {s₀ t : State} (hub : HubId) (count : Nat) (h : execKclkCheckWindow hub count s₀ = .next t) :
    Touches (.out :: (noteParts ++ [.hub .fallback, .hub .badKclk])) s₀ t := by
  refine Within.touches (m := 2035470922129392165454754336507) ?_ (by decide)
  generalize hmsk : 2035470922129392165454754336507 = msk
  have ho : msk.testBit Part.out.idx = true := by rw [← hmsk]; rfl
  replace hmsk : 2035470922129392165454754336507 &&& msk = 2035470922129392165454754336507 := by rw [← hmsk]; rfl
  unfold execKclkCheckWindow at h
  refine live_touches h ho ?_
  clear ho h
  intro u hk
  try dsimp only
  repeat' (first
    | with_reducible assumption
    | exact sub_mask hmsk rfl
    | with_reducible apply State.modHub_touches
    | with_reducible apply State.note_touches
    | with_reducible exact HubWithin.refl _ _
    | split
    | intro (_ : Hub)
    | (refine ⟨?_⟩; intro q hq; cases q <;> first | exact rfl | exact (no_mask hmsk rfl hq).elim)
    | (refine HubWithin.lit ?_ (by intro q hq; cases q <;> first | exact rfl | exact (no_mask hmsk rfl hq).elim))
    | intro _
    | (refine Within.lit ?_ (by intro q hq; cases q <;> first | exact rfl | exact ⟨HubPart.same_refl _ _, HubPart.same_refl _ _⟩ | exact (no_mask hmsk rfl hq).elim)))

theorem execDieLinkLockLoss_touches {s₀ t : State} (link : Nat) (h : execDieLinkLockLoss link s₀ = .next t) :
    Touches (.out :: ([.links])) s₀ t := by
  refine Within.touches (m := 9232379236109516800) ?_ (by decide)
  generalize hmsk : 9232379236109516800 = msk
  have ho : msk.testBit Part.out.idx = true := by rw [← hmsk]; rfl
  replace hmsk : 9232379236109516800 &&& msk = 9232379236109516800 := by rw [← hmsk]; rfl
  unfold execDieLinkLockLoss at h
  refine live_touches h ho ?_
  clear ho h
  intro u hk
  try dsimp only
  repeat' (first
    | with_reducible assumption
    | exact sub_mask hmsk rfl
    | with_reducible apply State.startRetrain_touches
    | split
    | intro _
    | (refine Within.lit ?_ (by intro q hq; cases q <;> first | exact rfl | exact ⟨HubPart.same_refl _ _, HubPart.same_refl _ _⟩ | exact (no_mask hmsk rfl hq).elim)))

theorem execDieLinkResendLimit_touches {s₀ t : State} (link : Nat) (h : execDieLinkResendLimit link s₀ = .next t) :
    Touches (.out :: ([.links])) s₀ t := by
  refine Within.touches (m := 9232379236109516800) ?_ (by decide)
  generalize hmsk : 9232379236109516800 = msk
  have ho : msk.testBit Part.out.idx = true := by rw [← hmsk]; rfl
  replace hmsk : 9232379236109516800 &&& msk = 9232379236109516800 := by rw [← hmsk]; rfl
  unfold execDieLinkResendLimit at h
  refine live_touches h ho ?_
  clear ho h
  intro u hk
  try dsimp only
  repeat' (first
    | with_reducible assumption
    | exact sub_mask hmsk rfl
    | with_reducible apply State.startRetrain_touches
    | split
    | intro _
    | (refine Within.lit ?_ (by intro q hq; cases q <;> first | exact rfl | exact ⟨HubPart.same_refl _ _, HubPart.same_refl _ _⟩ | exact (no_mask hmsk rfl hq).elim)))

theorem execDieLinkRetrainDone_touches {s₀ t : State} (link lanes : Nat) (h : execDieLinkRetrainDone link lanes s₀ = .next t) :
    Touches (.out :: (noteParts ++ netParts ++ [.hub .lameSinceReady])) s₀ t := by
  refine Within.touches (m := 2035470922143227223509231193855) ?_ (by decide)
  generalize hmsk : 2035470922143227223509231193855 = msk
  have ho : msk.testBit Part.out.idx = true := by rw [← hmsk]; rfl
  replace hmsk : 2035470922143227223509231193855 &&& msk = 2035470922143227223509231193855 := by rw [← hmsk]; rfl
  unfold execDieLinkRetrainDone at h
  refine live_touches h ho ?_
  clear ho h
  intro u hk
  try dsimp only
  repeat' (first
    | with_reducible assumption
    | exact sub_mask hmsk rfl
    | with_reducible apply State.modLink_touches
    | with_reducible apply State.reportTrained_touches
    | with_reducible apply State.judgeDies_touches
    | split
    | intro _
    | (refine Within.lit ?_ (by intro q hq; cases q <;> first | exact rfl | exact ⟨HubPart.same_refl _ _, HubPart.same_refl _ _⟩ | exact (no_mask hmsk rfl hq).elim)))

end Sys2Proof.Machine
end

