-- ==== Sys2Proof/Laws/SMap.lean ====
section
/-! SUPPORT. The sparse store: a read after a write, and the canonical form that every write keeps. -/

namespace Sys2Proof

variable {α : Type}

theorem SMap.lookup_drop_self (k : Nat) (l : List (Nat × α)) : SMap.lookup k (SMap.drop k l) = none := by
  induction l with
  | nil => rfl
  | cons p r ih =>
    obtain ⟨j, v⟩ := p
    unfold SMap.drop
    split
    · exact ih
    · rename_i h
      unfold SMap.lookup
      rw [if_neg h]
      exact ih

theorem SMap.lookup_drop_other {k j : Nat} (h : j ≠ k) (l : List (Nat × α)) :
    SMap.lookup j (SMap.drop k l) = SMap.lookup j l := by
  induction l with
  | nil => rfl
  | cons p r ih =>
    obtain ⟨i, v⟩ := p
    unfold SMap.drop
    split
    · rename_i e
      rw [ih]
      conv => rhs; unfold SMap.lookup
      rw [if_neg (fun x => h (x.symm.trans e))]
    · unfold SMap.lookup
      split
      · rfl
      · exact ih

theorem SMap.lookup_ins_self (k : Nat) (v : α) (l : List (Nat × α)) (h : SMap.lookup k l = none) :
    SMap.lookup k (SMap.ins k v l) = some v := by
  induction l with
  | nil => simp [SMap.ins, SMap.lookup]
  | cons p r ih =>
    obtain ⟨j, w⟩ := p
    unfold SMap.lookup at h
    split at h
    · cases h
    · rename_i e
      unfold SMap.ins
      split
      · simp [SMap.lookup]
      · unfold SMap.lookup
        rw [if_neg e]
        exact ih h

theorem SMap.lookup_ins_other {k j : Nat} (h : j ≠ k) (v : α) (l : List (Nat × α)) :
    SMap.lookup j (SMap.ins k v l) = SMap.lookup j l := by
  induction l with
  | nil => simp [SMap.ins, SMap.lookup, Ne.symm h]
  | cons p r ih =>
    obtain ⟨i, w⟩ := p
    unfold SMap.ins
    split
    · conv => lhs; unfold SMap.lookup
      rw [if_neg (Ne.symm h)]
    · unfold SMap.lookup
      split
      · rfl
      · exact ih

variable [DecidableEq α]

@[simp] theorem SMap.get_set_self (d : α) (m : SMap α) (k : Nat) (v : α) : (m.set d k v).get d k = v := by
  unfold SMap.set SMap.get
  split
  · rename_i e
    simp [SMap.lookup_drop_self, e]
  · simp [SMap.lookup_ins_self k v _ (SMap.lookup_drop_self k m.entries)]

theorem SMap.get_set_other (d : α) (m : SMap α) {k j : Nat} (h : j ≠ k) (v : α) : (m.set d k v).get d j = m.get d j := by
  unfold SMap.set SMap.get
  split
  · simp [SMap.lookup_drop_other h]
  · simp [SMap.lookup_ins_other h, SMap.lookup_drop_other h]

@[simp] theorem SMap.get_mod_self (d : α) (m : SMap α) (k : Nat) (f : α → α) : (m.mod d k f).get d k = f (m.get d k) :=
  SMap.get_set_self d m k _

theorem SMap.get_mod_other (d : α) (m : SMap α) {k j : Nat} (h : j ≠ k) (f : α → α) : (m.mod d k f).get d j = m.get d j :=
  SMap.get_set_other d m h _

omit [DecidableEq α] in
@[simp] theorem SMap.get_empty (d : α) (k : Nat) : (⟨[]⟩ : SMap α).get d k = d := rfl

/-! ### The canonical form -/

/-- Every key of a list is above `k`. -/
def SMap.above (k : Nat) (l : List (Nat × α)) : Prop := ∀ p ∈ l, k < p.1

omit [DecidableEq α] in
theorem SMap.rising_cons {k : Nat} {v : α} {l : List (Nat × α)} :
    SMap.rising ((k, v) :: l) = true ↔ SMap.above k l ∧ SMap.rising l = true := by
  induction l generalizing k v with
  | nil => simp [SMap.rising, SMap.above]
  | cons p r ih =>
    obtain ⟨j, w⟩ := p
    rw [show SMap.rising ((k, v) :: (j, w) :: r) = (decide (k < j) && SMap.rising ((j, w) :: r)) from rfl,
      Bool.and_eq_true, decide_eq_true_eq, ih]
    constructor
    · rintro ⟨h, ha, hr⟩
      refine ⟨?_, ha, hr⟩
      intro q hq
      rcases List.mem_cons.mp hq with rfl | hq
      · exact h
      · exact Nat.lt_trans h (ha q hq)
    · rintro ⟨h, ha, hr⟩
      exact ⟨h (j, w) List.mem_cons_self, ha, hr⟩

omit [DecidableEq α] in
theorem SMap.above_drop {k i : Nat} {l : List (Nat × α)} (h : SMap.above i l) : SMap.above i (SMap.drop k l) := by
  induction l with
  | nil => exact h
  | cons p r ih =>
    obtain ⟨j, w⟩ := p
    have hr : SMap.above i r := fun q hq => h q (List.mem_cons_of_mem _ hq)
    unfold SMap.drop
    split
    · exact ih hr
    · intro q hq
      rcases List.mem_cons.mp hq with rfl | hq
      · exact h _ List.mem_cons_self
      · exact ih hr q hq

omit [DecidableEq α] in
theorem SMap.rising_drop {k : Nat} {l : List (Nat × α)} (h : SMap.rising l = true) : SMap.rising (SMap.drop k l) = true := by
  induction l with
  | nil => exact h
  | cons p r ih =>
    obtain ⟨j, w⟩ := p
    obtain ⟨ha, hr⟩ := SMap.rising_cons.mp h
    unfold SMap.drop
    split
    · exact ih hr
    · exact SMap.rising_cons.mpr ⟨SMap.above_drop ha, ih hr⟩

omit [DecidableEq α] in
theorem SMap.above_ins {k i : Nat} {v : α} {l : List (Nat × α)} (hk : i < k) (h : SMap.above i l) :
    SMap.above i (SMap.ins k v l) := by
  induction l with
  | nil => intro q hq; rcases List.mem_cons.mp hq with rfl | hq; exact hk; cases hq
  | cons p r ih =>
    obtain ⟨j, w⟩ := p
    have hr : SMap.above i r := fun q hq => h q (List.mem_cons_of_mem _ hq)
    unfold SMap.ins
    split
    · intro q hq
      rcases List.mem_cons.mp hq with rfl | hq
      · exact hk
      · exact h q hq
    · intro q hq
      rcases List.mem_cons.mp hq with rfl | hq
      · exact h _ List.mem_cons_self
      · exact ih hr q hq

omit [DecidableEq α] in
theorem SMap.rising_ins {k : Nat} {v : α} {l : List (Nat × α)} (h : SMap.rising l = true) (hk : ∀ p ∈ l, p.1 ≠ k) :
    SMap.rising (SMap.ins k v l) = true := by
  induction l with
  | nil => rfl
  | cons p r ih =>
    obtain ⟨j, w⟩ := p
    obtain ⟨ha, hr⟩ := SMap.rising_cons.mp h
    have hne : j ≠ k := hk (j, w) List.mem_cons_self
    unfold SMap.ins
    split
    · rename_i hlt
      refine SMap.rising_cons.mpr ⟨?_, h⟩
      intro q hq
      rcases List.mem_cons.mp hq with rfl | hq
      · exact hlt
      · exact Nat.lt_trans hlt (ha q hq)
    · rename_i hlt
      exact SMap.rising_cons.mpr ⟨SMap.above_ins (by omega) ha, ih hr (fun q hq => hk q (List.mem_cons_of_mem _ hq))⟩

omit [DecidableEq α] in
theorem SMap.key_drop {k : Nat} {l : List (Nat × α)} : ∀ p ∈ SMap.drop k l, p.1 ≠ k ∧ p ∈ l := by
  induction l with
  | nil => intro p hp; cases hp
  | cons q r ih =>
    obtain ⟨j, w⟩ := q
    intro p hp
    unfold SMap.drop at hp
    split at hp
    · exact ⟨(ih p hp).1, List.mem_cons_of_mem _ (ih p hp).2⟩
    · rename_i h
      rcases List.mem_cons.mp hp with rfl | hp
      · exact ⟨h, List.mem_cons_self⟩
      · exact ⟨(ih p hp).1, List.mem_cons_of_mem _ (ih p hp).2⟩

omit [DecidableEq α] in
theorem SMap.mem_ins {k : Nat} {v : α} {l : List (Nat × α)} : ∀ p ∈ SMap.ins k v l, p = (k, v) ∨ p ∈ l := by
  induction l with
  | nil => intro p hp; rcases List.mem_cons.mp hp with rfl | hp; exact Or.inl rfl; cases hp
  | cons q r ih =>
    obtain ⟨j, w⟩ := q
    intro p hp
    unfold SMap.ins at hp
    split at hp
    · rcases List.mem_cons.mp hp with rfl | hp
      · exact Or.inl rfl
      · exact Or.inr hp
    · rcases List.mem_cons.mp hp with rfl | hp
      · exact Or.inr List.mem_cons_self
      · rcases ih p hp with h | h
        · exact Or.inl h
        · exact Or.inr (List.mem_cons_of_mem _ h)

/-- Every write keeps the canonical form. -/
theorem SMap.wf_set {d : α} {m : SMap α} (h : m.wf d = true) (k : Nat) (v : α) : (m.set d k v).wf d = true := by
  unfold SMap.wf at h ⊢
  rw [Bool.and_eq_true, List.all_eq_true] at h ⊢
  obtain ⟨hr, hd⟩ := h
  unfold SMap.set
  split
  · exact ⟨SMap.rising_drop hr, fun p hp => hd p (SMap.key_drop p hp).2⟩
  · rename_i hv
    refine ⟨SMap.rising_ins (SMap.rising_drop hr) (fun p hp => (SMap.key_drop p hp).1), ?_⟩
    intro p hp
    rcases SMap.mem_ins p hp with rfl | hp
    · exact decide_eq_true hv
    · exact hd p (SMap.key_drop p hp).2

/-- Every change keeps the canonical form. -/
theorem SMap.wf_mod {d : α} {m : SMap α} (h : m.wf d = true) (k : Nat) (f : α → α) : (m.mod d k f).wf d = true :=
  SMap.wf_set h k _

/-- So does a change at every key. -/
theorem SMap.wf_map {d : α} {m : SMap α} (h : m.wf d = true) (f : α → α) : (m.map d f).wf d = true := by
  unfold SMap.map
  generalize m.keys = l
  induction l generalizing m with
  | nil => exact h
  | cons k l ih => exact ih (SMap.wf_mod h k f)

/-- The empty store is canonical. -/
theorem SMap.wf_empty (d : α) : (⟨[]⟩ : SMap α).wf d = true := rfl

end Sys2Proof
end

