-- ==== Sys2Proof/Laws/State.lean ====
section
/-! SUPPORT. One lemma for each field and each change of a part: what the change leaves alone, and what reading the part
back gives. -/

namespace Sys2Proof.Machine

open Sys2Proof

/-! ### modHub -/

section modHub
variable (s : State) (h : HubId) (f : Hub → Hub)

@[simp] theorem State.modHub_pending : (s.modHub h f).pending = s.pending := by cases h <;> rfl
@[simp] theorem State.modHub_out : (s.modHub h f).out = s.out := by cases h <;> rfl
@[simp] theorem State.modHub_now : (s.modHub h f).now = s.now := by cases h <;> rfl
@[simp] theorem State.modHub_readyAt : (s.modHub h f).readyAt = s.readyAt := by cases h <;> rfl
@[simp] theorem State.modHub_freeCtr : (s.modHub h f).freeCtr = s.freeCtr := by cases h <;> rfl
@[simp] theorem State.modHub_build : (s.modHub h f).build = s.build := by cases h <;> rfl
@[simp] theorem State.modHub_rstL : (s.modHub h f).rstL = s.rstL := by cases h <;> rfl
@[simp] theorem State.modHub_agents : (s.modHub h f).agents = s.agents := by cases h <;> rfl
@[simp] theorem State.modHub_concs : (s.modHub h f).concs = s.concs := by cases h <;> rfl
@[simp] theorem State.modHub_engines : (s.modHub h f).engines = s.engines := by cases h <;> rfl
@[simp] theorem State.modHub_links : (s.modHub h f).links = s.links := by cases h <;> rfl
@[simp] theorem State.modHub_ways : (s.modHub h f).ways = s.ways := by cases h <;> rfl
@[simp] theorem State.modHub_twin : (s.modHub h f).twin = s.twin := by cases h <;> rfl
@[simp] theorem State.modHub_xlink : (s.modHub h f).xlink = s.xlink := by cases h <;> rfl
@[simp] theorem State.modHub_alive : (s.modHub h f).alive = s.alive := by cases h <;> rfl
@[simp] theorem State.modHub_curbPort : (s.modHub h f).curbPort = s.curbPort := by cases h <;> rfl
@[simp] theorem State.modHub_flash : (s.modHub h f).flash = s.flash := by cases h <;> rfl
@[simp] theorem State.modHub_latch : (s.modHub h f).latch = s.latch := by cases h <;> rfl
@[simp] theorem State.modHub_cmd : (s.modHub h f).cmd = s.cmd := by cases h <;> rfl
@[simp] theorem State.modHub_stage : (s.modHub h f).stage = s.stage := by cases h <;> rfl
@[simp] theorem State.modHub_stageFrom : (s.modHub h f).stageFrom = s.stageFrom := by cases h <;> rfl
@[simp] theorem State.modHub_stages : (s.modHub h f).stages = s.stages := by cases h <;> rfl
@[simp] theorem State.modHub_image : (s.modHub h f).image = s.image := by cases h <;> rfl
@[simp] theorem State.modHub_keyPort : (s.modHub h f).keyPort = s.keyPort := by cases h <;> rfl
@[simp] theorem State.modHub_keys : (s.modHub h f).keys = s.keys := by cases h <;> rfl
@[simp] theorem State.modHub_harness : (s.modHub h f).harness = s.harness := by cases h <;> rfl
@[simp] theorem State.modHub_clock : (s.modHub h f).clock = s.clock := by cases h <;> rfl
@[simp] theorem State.modHub_epoch : (s.modHub h f).epoch = s.epoch := by cases h <;> rfl
@[simp] theorem State.modHub_jobs : (s.modHub h f).jobs = s.jobs := by cases h <;> rfl
@[simp] theorem State.modHub_abortFifo : (s.modHub h f).abortFifo = s.abortFifo := by cases h <;> rfl
@[simp] theorem State.modHub_tccOrphan : (s.modHub h f).tccOrphan = s.tccOrphan := by cases h <;> rfl
@[simp] theorem State.modHub_retakes : (s.modHub h f).retakes = s.retakes := by cases h <;> rfl
@[simp] theorem State.modHub_retakeLog : (s.modHub h f).retakeLog = s.retakeLog := by cases h <;> rfl
@[simp] theorem State.modHub_logHead : (s.modHub h f).logHead = s.logHead := by cases h <;> rfl
@[simp] theorem State.modHub_decCnt : (s.modHub h f).decCnt = s.decCnt := by cases h <;> rfl
@[simp] theorem State.modHub_retakesOrdered : (s.modHub h f).retakesOrdered = s.retakesOrdered := by cases h <;> rfl
@[simp] theorem State.modHub_retakeTimeouts : (s.modHub h f).retakeTimeouts = s.retakeTimeouts := by cases h <;> rfl
@[simp] theorem State.modHub_staleReleases : (s.modHub h f).staleReleases = s.staleReleases := by cases h <;> rfl
@[simp] theorem State.modHub_bands : (s.modHub h f).bands = s.bands := by cases h <;> rfl
@[simp] theorem State.modHub_ports : (s.modHub h f).ports = s.ports := by cases h <;> rfl
@[simp] theorem State.modHub_slices : (s.modHub h f).slices = s.slices := by cases h <;> rfl
@[simp] theorem State.modHub_inlog : (s.modHub h f).inlog = s.inlog := by cases h <;> rfl
@[simp] theorem State.modHub_replay : (s.modHub h f).replay = s.replay := by cases h <;> rfl
@[simp] theorem State.modHub_streams : (s.modHub h f).streams = s.streams := by cases h <;> rfl
@[simp] theorem State.modHub_sign : (s.modHub h f).sign = s.sign := by cases h <;> rfl
@[simp] theorem State.modHub_restoreSkipped : (s.modHub h f).restoreSkipped = s.restoreSkipped := by cases h <;> rfl
@[simp] theorem State.modHub_leakAt : (s.modHub h f).leakAt = s.leakAt := by cases h <;> rfl
@[simp] theorem State.modHub_test : (s.modHub h f).test = s.test := by cases h <;> rfl
@[simp] theorem State.modHub_mgmt : (s.modHub h f).mgmt = s.mgmt := by cases h <;> rfl
@[simp] theorem State.modHub_ind : (s.modHub h f).ind = s.ind := by cases h <;> rfl

end modHub

/-! ### modHubs -/

section modHubs
variable (s : State) (f : Hub → Hub)

@[simp] theorem State.modHubs_pending : (s.modHubs f).pending = s.pending := rfl
@[simp] theorem State.modHubs_out : (s.modHubs f).out = s.out := rfl
@[simp] theorem State.modHubs_now : (s.modHubs f).now = s.now := rfl
@[simp] theorem State.modHubs_readyAt : (s.modHubs f).readyAt = s.readyAt := rfl
@[simp] theorem State.modHubs_freeCtr : (s.modHubs f).freeCtr = s.freeCtr := rfl
@[simp] theorem State.modHubs_build : (s.modHubs f).build = s.build := rfl
@[simp] theorem State.modHubs_rstL : (s.modHubs f).rstL = s.rstL := rfl
@[simp] theorem State.modHubs_agents : (s.modHubs f).agents = s.agents := rfl
@[simp] theorem State.modHubs_concs : (s.modHubs f).concs = s.concs := rfl
@[simp] theorem State.modHubs_engines : (s.modHubs f).engines = s.engines := rfl
@[simp] theorem State.modHubs_links : (s.modHubs f).links = s.links := rfl
@[simp] theorem State.modHubs_ways : (s.modHubs f).ways = s.ways := rfl
@[simp] theorem State.modHubs_twin : (s.modHubs f).twin = s.twin := rfl
@[simp] theorem State.modHubs_xlink : (s.modHubs f).xlink = s.xlink := rfl
@[simp] theorem State.modHubs_alive : (s.modHubs f).alive = s.alive := rfl
@[simp] theorem State.modHubs_curbPort : (s.modHubs f).curbPort = s.curbPort := rfl
@[simp] theorem State.modHubs_flash : (s.modHubs f).flash = s.flash := rfl
@[simp] theorem State.modHubs_latch : (s.modHubs f).latch = s.latch := rfl
@[simp] theorem State.modHubs_cmd : (s.modHubs f).cmd = s.cmd := rfl
@[simp] theorem State.modHubs_stage : (s.modHubs f).stage = s.stage := rfl
@[simp] theorem State.modHubs_stageFrom : (s.modHubs f).stageFrom = s.stageFrom := rfl
@[simp] theorem State.modHubs_stages : (s.modHubs f).stages = s.stages := rfl
@[simp] theorem State.modHubs_image : (s.modHubs f).image = s.image := rfl
@[simp] theorem State.modHubs_keyPort : (s.modHubs f).keyPort = s.keyPort := rfl
@[simp] theorem State.modHubs_keys : (s.modHubs f).keys = s.keys := rfl
@[simp] theorem State.modHubs_harness : (s.modHubs f).harness = s.harness := rfl
@[simp] theorem State.modHubs_clock : (s.modHubs f).clock = s.clock := rfl
@[simp] theorem State.modHubs_epoch : (s.modHubs f).epoch = s.epoch := rfl
@[simp] theorem State.modHubs_jobs : (s.modHubs f).jobs = s.jobs := rfl
@[simp] theorem State.modHubs_abortFifo : (s.modHubs f).abortFifo = s.abortFifo := rfl
@[simp] theorem State.modHubs_tccOrphan : (s.modHubs f).tccOrphan = s.tccOrphan := rfl
@[simp] theorem State.modHubs_retakes : (s.modHubs f).retakes = s.retakes := rfl
@[simp] theorem State.modHubs_retakeLog : (s.modHubs f).retakeLog = s.retakeLog := rfl
@[simp] theorem State.modHubs_logHead : (s.modHubs f).logHead = s.logHead := rfl
@[simp] theorem State.modHubs_decCnt : (s.modHubs f).decCnt = s.decCnt := rfl
@[simp] theorem State.modHubs_retakesOrdered : (s.modHubs f).retakesOrdered = s.retakesOrdered := rfl
@[simp] theorem State.modHubs_retakeTimeouts : (s.modHubs f).retakeTimeouts = s.retakeTimeouts := rfl
@[simp] theorem State.modHubs_staleReleases : (s.modHubs f).staleReleases = s.staleReleases := rfl
@[simp] theorem State.modHubs_bands : (s.modHubs f).bands = s.bands := rfl
@[simp] theorem State.modHubs_ports : (s.modHubs f).ports = s.ports := rfl
@[simp] theorem State.modHubs_slices : (s.modHubs f).slices = s.slices := rfl
@[simp] theorem State.modHubs_inlog : (s.modHubs f).inlog = s.inlog := rfl
@[simp] theorem State.modHubs_replay : (s.modHubs f).replay = s.replay := rfl
@[simp] theorem State.modHubs_streams : (s.modHubs f).streams = s.streams := rfl
@[simp] theorem State.modHubs_sign : (s.modHubs f).sign = s.sign := rfl
@[simp] theorem State.modHubs_restoreSkipped : (s.modHubs f).restoreSkipped = s.restoreSkipped := rfl
@[simp] theorem State.modHubs_leakAt : (s.modHubs f).leakAt = s.leakAt := rfl
@[simp] theorem State.modHubs_test : (s.modHubs f).test = s.test := rfl
@[simp] theorem State.modHubs_mgmt : (s.modHubs f).mgmt = s.mgmt := rfl
@[simp] theorem State.modHubs_ind : (s.modHubs f).ind = s.ind := rfl

end modHubs

/-! ### modAgent -/

section modAgent
variable (s : State) (i : Nat) (f : Agent → Agent)

@[simp] theorem State.modAgent_pending : (s.modAgent i f).pending = s.pending := rfl
@[simp] theorem State.modAgent_out : (s.modAgent i f).out = s.out := rfl
@[simp] theorem State.modAgent_now : (s.modAgent i f).now = s.now := rfl
@[simp] theorem State.modAgent_readyAt : (s.modAgent i f).readyAt = s.readyAt := rfl
@[simp] theorem State.modAgent_freeCtr : (s.modAgent i f).freeCtr = s.freeCtr := rfl
@[simp] theorem State.modAgent_build : (s.modAgent i f).build = s.build := rfl
@[simp] theorem State.modAgent_rstL : (s.modAgent i f).rstL = s.rstL := rfl
@[simp] theorem State.modAgent_hubA : (s.modAgent i f).hubA = s.hubA := rfl
@[simp] theorem State.modAgent_hubB : (s.modAgent i f).hubB = s.hubB := rfl
@[simp] theorem State.modAgent_concs : (s.modAgent i f).concs = s.concs := rfl
@[simp] theorem State.modAgent_engines : (s.modAgent i f).engines = s.engines := rfl
@[simp] theorem State.modAgent_links : (s.modAgent i f).links = s.links := rfl
@[simp] theorem State.modAgent_ways : (s.modAgent i f).ways = s.ways := rfl
@[simp] theorem State.modAgent_twin : (s.modAgent i f).twin = s.twin := rfl
@[simp] theorem State.modAgent_xlink : (s.modAgent i f).xlink = s.xlink := rfl
@[simp] theorem State.modAgent_alive : (s.modAgent i f).alive = s.alive := rfl
@[simp] theorem State.modAgent_curbPort : (s.modAgent i f).curbPort = s.curbPort := rfl
@[simp] theorem State.modAgent_flash : (s.modAgent i f).flash = s.flash := rfl
@[simp] theorem State.modAgent_latch : (s.modAgent i f).latch = s.latch := rfl
@[simp] theorem State.modAgent_cmd : (s.modAgent i f).cmd = s.cmd := rfl
@[simp] theorem State.modAgent_stage : (s.modAgent i f).stage = s.stage := rfl
@[simp] theorem State.modAgent_stageFrom : (s.modAgent i f).stageFrom = s.stageFrom := rfl
@[simp] theorem State.modAgent_stages : (s.modAgent i f).stages = s.stages := rfl
@[simp] theorem State.modAgent_image : (s.modAgent i f).image = s.image := rfl
@[simp] theorem State.modAgent_keyPort : (s.modAgent i f).keyPort = s.keyPort := rfl
@[simp] theorem State.modAgent_keys : (s.modAgent i f).keys = s.keys := rfl
@[simp] theorem State.modAgent_harness : (s.modAgent i f).harness = s.harness := rfl
@[simp] theorem State.modAgent_clock : (s.modAgent i f).clock = s.clock := rfl
@[simp] theorem State.modAgent_epoch : (s.modAgent i f).epoch = s.epoch := rfl
@[simp] theorem State.modAgent_jobs : (s.modAgent i f).jobs = s.jobs := rfl
@[simp] theorem State.modAgent_abortFifo : (s.modAgent i f).abortFifo = s.abortFifo := rfl
@[simp] theorem State.modAgent_tccOrphan : (s.modAgent i f).tccOrphan = s.tccOrphan := rfl
@[simp] theorem State.modAgent_retakes : (s.modAgent i f).retakes = s.retakes := rfl
@[simp] theorem State.modAgent_retakeLog : (s.modAgent i f).retakeLog = s.retakeLog := rfl
@[simp] theorem State.modAgent_logHead : (s.modAgent i f).logHead = s.logHead := rfl
@[simp] theorem State.modAgent_decCnt : (s.modAgent i f).decCnt = s.decCnt := rfl
@[simp] theorem State.modAgent_retakesOrdered : (s.modAgent i f).retakesOrdered = s.retakesOrdered := rfl
@[simp] theorem State.modAgent_retakeTimeouts : (s.modAgent i f).retakeTimeouts = s.retakeTimeouts := rfl
@[simp] theorem State.modAgent_staleReleases : (s.modAgent i f).staleReleases = s.staleReleases := rfl
@[simp] theorem State.modAgent_bands : (s.modAgent i f).bands = s.bands := rfl
@[simp] theorem State.modAgent_ports : (s.modAgent i f).ports = s.ports := rfl
@[simp] theorem State.modAgent_slices : (s.modAgent i f).slices = s.slices := rfl
@[simp] theorem State.modAgent_inlog : (s.modAgent i f).inlog = s.inlog := rfl
@[simp] theorem State.modAgent_replay : (s.modAgent i f).replay = s.replay := rfl
@[simp] theorem State.modAgent_streams : (s.modAgent i f).streams = s.streams := rfl
@[simp] theorem State.modAgent_sign : (s.modAgent i f).sign = s.sign := rfl
@[simp] theorem State.modAgent_restoreSkipped : (s.modAgent i f).restoreSkipped = s.restoreSkipped := rfl
@[simp] theorem State.modAgent_leakAt : (s.modAgent i f).leakAt = s.leakAt := rfl
@[simp] theorem State.modAgent_test : (s.modAgent i f).test = s.test := rfl
@[simp] theorem State.modAgent_mgmt : (s.modAgent i f).mgmt = s.mgmt := rfl
@[simp] theorem State.modAgent_ind : (s.modAgent i f).ind = s.ind := rfl

end modAgent

/-! ### modConc -/

section modConc
variable (s : State) (i : Nat) (f : Conc → Conc)

@[simp] theorem State.modConc_pending : (s.modConc i f).pending = s.pending := rfl
@[simp] theorem State.modConc_out : (s.modConc i f).out = s.out := rfl
@[simp] theorem State.modConc_now : (s.modConc i f).now = s.now := rfl
@[simp] theorem State.modConc_readyAt : (s.modConc i f).readyAt = s.readyAt := rfl
@[simp] theorem State.modConc_freeCtr : (s.modConc i f).freeCtr = s.freeCtr := rfl
@[simp] theorem State.modConc_build : (s.modConc i f).build = s.build := rfl
@[simp] theorem State.modConc_rstL : (s.modConc i f).rstL = s.rstL := rfl
@[simp] theorem State.modConc_hubA : (s.modConc i f).hubA = s.hubA := rfl
@[simp] theorem State.modConc_hubB : (s.modConc i f).hubB = s.hubB := rfl
@[simp] theorem State.modConc_agents : (s.modConc i f).agents = s.agents := rfl
@[simp] theorem State.modConc_engines : (s.modConc i f).engines = s.engines := rfl
@[simp] theorem State.modConc_links : (s.modConc i f).links = s.links := rfl
@[simp] theorem State.modConc_ways : (s.modConc i f).ways = s.ways := rfl
@[simp] theorem State.modConc_twin : (s.modConc i f).twin = s.twin := rfl
@[simp] theorem State.modConc_xlink : (s.modConc i f).xlink = s.xlink := rfl
@[simp] theorem State.modConc_alive : (s.modConc i f).alive = s.alive := rfl
@[simp] theorem State.modConc_curbPort : (s.modConc i f).curbPort = s.curbPort := rfl
@[simp] theorem State.modConc_flash : (s.modConc i f).flash = s.flash := rfl
@[simp] theorem State.modConc_latch : (s.modConc i f).latch = s.latch := rfl
@[simp] theorem State.modConc_cmd : (s.modConc i f).cmd = s.cmd := rfl
@[simp] theorem State.modConc_stage : (s.modConc i f).stage = s.stage := rfl
@[simp] theorem State.modConc_stageFrom : (s.modConc i f).stageFrom = s.stageFrom := rfl
@[simp] theorem State.modConc_stages : (s.modConc i f).stages = s.stages := rfl
@[simp] theorem State.modConc_image : (s.modConc i f).image = s.image := rfl
@[simp] theorem State.modConc_keyPort : (s.modConc i f).keyPort = s.keyPort := rfl
@[simp] theorem State.modConc_keys : (s.modConc i f).keys = s.keys := rfl
@[simp] theorem State.modConc_harness : (s.modConc i f).harness = s.harness := rfl
@[simp] theorem State.modConc_clock : (s.modConc i f).clock = s.clock := rfl
@[simp] theorem State.modConc_epoch : (s.modConc i f).epoch = s.epoch := rfl
@[simp] theorem State.modConc_jobs : (s.modConc i f).jobs = s.jobs := rfl
@[simp] theorem State.modConc_abortFifo : (s.modConc i f).abortFifo = s.abortFifo := rfl
@[simp] theorem State.modConc_tccOrphan : (s.modConc i f).tccOrphan = s.tccOrphan := rfl
@[simp] theorem State.modConc_retakes : (s.modConc i f).retakes = s.retakes := rfl
@[simp] theorem State.modConc_retakeLog : (s.modConc i f).retakeLog = s.retakeLog := rfl
@[simp] theorem State.modConc_logHead : (s.modConc i f).logHead = s.logHead := rfl
@[simp] theorem State.modConc_decCnt : (s.modConc i f).decCnt = s.decCnt := rfl
@[simp] theorem State.modConc_retakesOrdered : (s.modConc i f).retakesOrdered = s.retakesOrdered := rfl
@[simp] theorem State.modConc_retakeTimeouts : (s.modConc i f).retakeTimeouts = s.retakeTimeouts := rfl
@[simp] theorem State.modConc_staleReleases : (s.modConc i f).staleReleases = s.staleReleases := rfl
@[simp] theorem State.modConc_bands : (s.modConc i f).bands = s.bands := rfl
@[simp] theorem State.modConc_ports : (s.modConc i f).ports = s.ports := rfl
@[simp] theorem State.modConc_slices : (s.modConc i f).slices = s.slices := rfl
@[simp] theorem State.modConc_inlog : (s.modConc i f).inlog = s.inlog := rfl
@[simp] theorem State.modConc_replay : (s.modConc i f).replay = s.replay := rfl
@[simp] theorem State.modConc_streams : (s.modConc i f).streams = s.streams := rfl
@[simp] theorem State.modConc_sign : (s.modConc i f).sign = s.sign := rfl
@[simp] theorem State.modConc_restoreSkipped : (s.modConc i f).restoreSkipped = s.restoreSkipped := rfl
@[simp] theorem State.modConc_leakAt : (s.modConc i f).leakAt = s.leakAt := rfl
@[simp] theorem State.modConc_test : (s.modConc i f).test = s.test := rfl
@[simp] theorem State.modConc_mgmt : (s.modConc i f).mgmt = s.mgmt := rfl
@[simp] theorem State.modConc_ind : (s.modConc i f).ind = s.ind := rfl

end modConc

/-! ### modEngine -/

section modEngine
variable (s : State) (i : Nat) (f : Engine → Engine)

@[simp] theorem State.modEngine_pending : (s.modEngine i f).pending = s.pending := rfl
@[simp] theorem State.modEngine_out : (s.modEngine i f).out = s.out := rfl
@[simp] theorem State.modEngine_now : (s.modEngine i f).now = s.now := rfl
@[simp] theorem State.modEngine_readyAt : (s.modEngine i f).readyAt = s.readyAt := rfl
@[simp] theorem State.modEngine_freeCtr : (s.modEngine i f).freeCtr = s.freeCtr := rfl
@[simp] theorem State.modEngine_build : (s.modEngine i f).build = s.build := rfl
@[simp] theorem State.modEngine_rstL : (s.modEngine i f).rstL = s.rstL := rfl
@[simp] theorem State.modEngine_hubA : (s.modEngine i f).hubA = s.hubA := rfl
@[simp] theorem State.modEngine_hubB : (s.modEngine i f).hubB = s.hubB := rfl
@[simp] theorem State.modEngine_agents : (s.modEngine i f).agents = s.agents := rfl
@[simp] theorem State.modEngine_concs : (s.modEngine i f).concs = s.concs := rfl
@[simp] theorem State.modEngine_links : (s.modEngine i f).links = s.links := rfl
@[simp] theorem State.modEngine_ways : (s.modEngine i f).ways = s.ways := rfl
@[simp] theorem State.modEngine_twin : (s.modEngine i f).twin = s.twin := rfl
@[simp] theorem State.modEngine_xlink : (s.modEngine i f).xlink = s.xlink := rfl
@[simp] theorem State.modEngine_alive : (s.modEngine i f).alive = s.alive := rfl
@[simp] theorem State.modEngine_curbPort : (s.modEngine i f).curbPort = s.curbPort := rfl
@[simp] theorem State.modEngine_flash : (s.modEngine i f).flash = s.flash := rfl
@[simp] theorem State.modEngine_latch : (s.modEngine i f).latch = s.latch := rfl
@[simp] theorem State.modEngine_cmd : (s.modEngine i f).cmd = s.cmd := rfl
@[simp] theorem State.modEngine_stage : (s.modEngine i f).stage = s.stage := rfl
@[simp] theorem State.modEngine_stageFrom : (s.modEngine i f).stageFrom = s.stageFrom := rfl
@[simp] theorem State.modEngine_stages : (s.modEngine i f).stages = s.stages := rfl
@[simp] theorem State.modEngine_image : (s.modEngine i f).image = s.image := rfl
@[simp] theorem State.modEngine_keyPort : (s.modEngine i f).keyPort = s.keyPort := rfl
@[simp] theorem State.modEngine_keys : (s.modEngine i f).keys = s.keys := rfl
@[simp] theorem State.modEngine_harness : (s.modEngine i f).harness = s.harness := rfl
@[simp] theorem State.modEngine_clock : (s.modEngine i f).clock = s.clock := rfl
@[simp] theorem State.modEngine_epoch : (s.modEngine i f).epoch = s.epoch := rfl
@[simp] theorem State.modEngine_jobs : (s.modEngine i f).jobs = s.jobs := rfl
@[simp] theorem State.modEngine_abortFifo : (s.modEngine i f).abortFifo = s.abortFifo := rfl
@[simp] theorem State.modEngine_tccOrphan : (s.modEngine i f).tccOrphan = s.tccOrphan := rfl
@[simp] theorem State.modEngine_retakes : (s.modEngine i f).retakes = s.retakes := rfl
@[simp] theorem State.modEngine_retakeLog : (s.modEngine i f).retakeLog = s.retakeLog := rfl
@[simp] theorem State.modEngine_logHead : (s.modEngine i f).logHead = s.logHead := rfl
@[simp] theorem State.modEngine_decCnt : (s.modEngine i f).decCnt = s.decCnt := rfl
@[simp] theorem State.modEngine_retakesOrdered : (s.modEngine i f).retakesOrdered = s.retakesOrdered := rfl
@[simp] theorem State.modEngine_retakeTimeouts : (s.modEngine i f).retakeTimeouts = s.retakeTimeouts := rfl
@[simp] theorem State.modEngine_staleReleases : (s.modEngine i f).staleReleases = s.staleReleases := rfl
@[simp] theorem State.modEngine_bands : (s.modEngine i f).bands = s.bands := rfl
@[simp] theorem State.modEngine_ports : (s.modEngine i f).ports = s.ports := rfl
@[simp] theorem State.modEngine_slices : (s.modEngine i f).slices = s.slices := rfl
@[simp] theorem State.modEngine_inlog : (s.modEngine i f).inlog = s.inlog := rfl
@[simp] theorem State.modEngine_replay : (s.modEngine i f).replay = s.replay := rfl
@[simp] theorem State.modEngine_streams : (s.modEngine i f).streams = s.streams := rfl
@[simp] theorem State.modEngine_sign : (s.modEngine i f).sign = s.sign := rfl
@[simp] theorem State.modEngine_restoreSkipped : (s.modEngine i f).restoreSkipped = s.restoreSkipped := rfl
@[simp] theorem State.modEngine_leakAt : (s.modEngine i f).leakAt = s.leakAt := rfl
@[simp] theorem State.modEngine_test : (s.modEngine i f).test = s.test := rfl
@[simp] theorem State.modEngine_mgmt : (s.modEngine i f).mgmt = s.mgmt := rfl
@[simp] theorem State.modEngine_ind : (s.modEngine i f).ind = s.ind := rfl

end modEngine

/-! ### modLink -/

section modLink
variable (s : State) (i : Nat) (f : LinkEnd → LinkEnd)

@[simp] theorem State.modLink_pending : (s.modLink i f).pending = s.pending := rfl
@[simp] theorem State.modLink_out : (s.modLink i f).out = s.out := rfl
@[simp] theorem State.modLink_now : (s.modLink i f).now = s.now := rfl
@[simp] theorem State.modLink_readyAt : (s.modLink i f).readyAt = s.readyAt := rfl
@[simp] theorem State.modLink_freeCtr : (s.modLink i f).freeCtr = s.freeCtr := rfl
@[simp] theorem State.modLink_build : (s.modLink i f).build = s.build := rfl
@[simp] theorem State.modLink_rstL : (s.modLink i f).rstL = s.rstL := rfl
@[simp] theorem State.modLink_hubA : (s.modLink i f).hubA = s.hubA := rfl
@[simp] theorem State.modLink_hubB : (s.modLink i f).hubB = s.hubB := rfl
@[simp] theorem State.modLink_agents : (s.modLink i f).agents = s.agents := rfl
@[simp] theorem State.modLink_concs : (s.modLink i f).concs = s.concs := rfl
@[simp] theorem State.modLink_engines : (s.modLink i f).engines = s.engines := rfl
@[simp] theorem State.modLink_ways : (s.modLink i f).ways = s.ways := rfl
@[simp] theorem State.modLink_twin : (s.modLink i f).twin = s.twin := rfl
@[simp] theorem State.modLink_xlink : (s.modLink i f).xlink = s.xlink := rfl
@[simp] theorem State.modLink_alive : (s.modLink i f).alive = s.alive := rfl
@[simp] theorem State.modLink_curbPort : (s.modLink i f).curbPort = s.curbPort := rfl
@[simp] theorem State.modLink_flash : (s.modLink i f).flash = s.flash := rfl
@[simp] theorem State.modLink_latch : (s.modLink i f).latch = s.latch := rfl
@[simp] theorem State.modLink_cmd : (s.modLink i f).cmd = s.cmd := rfl
@[simp] theorem State.modLink_stage : (s.modLink i f).stage = s.stage := rfl
@[simp] theorem State.modLink_stageFrom : (s.modLink i f).stageFrom = s.stageFrom := rfl
@[simp] theorem State.modLink_stages : (s.modLink i f).stages = s.stages := rfl
@[simp] theorem State.modLink_image : (s.modLink i f).image = s.image := rfl
@[simp] theorem State.modLink_keyPort : (s.modLink i f).keyPort = s.keyPort := rfl
@[simp] theorem State.modLink_keys : (s.modLink i f).keys = s.keys := rfl
@[simp] theorem State.modLink_harness : (s.modLink i f).harness = s.harness := rfl
@[simp] theorem State.modLink_clock : (s.modLink i f).clock = s.clock := rfl
@[simp] theorem State.modLink_epoch : (s.modLink i f).epoch = s.epoch := rfl
@[simp] theorem State.modLink_jobs : (s.modLink i f).jobs = s.jobs := rfl
@[simp] theorem State.modLink_abortFifo : (s.modLink i f).abortFifo = s.abortFifo := rfl
@[simp] theorem State.modLink_tccOrphan : (s.modLink i f).tccOrphan = s.tccOrphan := rfl
@[simp] theorem State.modLink_retakes : (s.modLink i f).retakes = s.retakes := rfl
@[simp] theorem State.modLink_retakeLog : (s.modLink i f).retakeLog = s.retakeLog := rfl
@[simp] theorem State.modLink_logHead : (s.modLink i f).logHead = s.logHead := rfl
@[simp] theorem State.modLink_decCnt : (s.modLink i f).decCnt = s.decCnt := rfl
@[simp] theorem State.modLink_retakesOrdered : (s.modLink i f).retakesOrdered = s.retakesOrdered := rfl
@[simp] theorem State.modLink_retakeTimeouts : (s.modLink i f).retakeTimeouts = s.retakeTimeouts := rfl
@[simp] theorem State.modLink_staleReleases : (s.modLink i f).staleReleases = s.staleReleases := rfl
@[simp] theorem State.modLink_bands : (s.modLink i f).bands = s.bands := rfl
@[simp] theorem State.modLink_ports : (s.modLink i f).ports = s.ports := rfl
@[simp] theorem State.modLink_slices : (s.modLink i f).slices = s.slices := rfl
@[simp] theorem State.modLink_inlog : (s.modLink i f).inlog = s.inlog := rfl
@[simp] theorem State.modLink_replay : (s.modLink i f).replay = s.replay := rfl
@[simp] theorem State.modLink_streams : (s.modLink i f).streams = s.streams := rfl
@[simp] theorem State.modLink_sign : (s.modLink i f).sign = s.sign := rfl
@[simp] theorem State.modLink_restoreSkipped : (s.modLink i f).restoreSkipped = s.restoreSkipped := rfl
@[simp] theorem State.modLink_leakAt : (s.modLink i f).leakAt = s.leakAt := rfl
@[simp] theorem State.modLink_test : (s.modLink i f).test = s.test := rfl
@[simp] theorem State.modLink_mgmt : (s.modLink i f).mgmt = s.mgmt := rfl
@[simp] theorem State.modLink_ind : (s.modLink i f).ind = s.ind := rfl

end modLink

/-! ### modJob -/

section modJob
variable (s : State) (j : Nat) (f : JobSt → JobSt)

@[simp] theorem State.modJob_pending : (s.modJob j f).pending = s.pending := rfl
@[simp] theorem State.modJob_out : (s.modJob j f).out = s.out := rfl
@[simp] theorem State.modJob_now : (s.modJob j f).now = s.now := rfl
@[simp] theorem State.modJob_readyAt : (s.modJob j f).readyAt = s.readyAt := rfl
@[simp] theorem State.modJob_freeCtr : (s.modJob j f).freeCtr = s.freeCtr := rfl
@[simp] theorem State.modJob_build : (s.modJob j f).build = s.build := rfl
@[simp] theorem State.modJob_rstL : (s.modJob j f).rstL = s.rstL := rfl
@[simp] theorem State.modJob_hubA : (s.modJob j f).hubA = s.hubA := rfl
@[simp] theorem State.modJob_hubB : (s.modJob j f).hubB = s.hubB := rfl
@[simp] theorem State.modJob_agents : (s.modJob j f).agents = s.agents := rfl
@[simp] theorem State.modJob_concs : (s.modJob j f).concs = s.concs := rfl
@[simp] theorem State.modJob_engines : (s.modJob j f).engines = s.engines := rfl
@[simp] theorem State.modJob_links : (s.modJob j f).links = s.links := rfl
@[simp] theorem State.modJob_ways : (s.modJob j f).ways = s.ways := rfl
@[simp] theorem State.modJob_twin : (s.modJob j f).twin = s.twin := rfl
@[simp] theorem State.modJob_xlink : (s.modJob j f).xlink = s.xlink := rfl
@[simp] theorem State.modJob_alive : (s.modJob j f).alive = s.alive := rfl
@[simp] theorem State.modJob_curbPort : (s.modJob j f).curbPort = s.curbPort := rfl
@[simp] theorem State.modJob_flash : (s.modJob j f).flash = s.flash := rfl
@[simp] theorem State.modJob_latch : (s.modJob j f).latch = s.latch := rfl
@[simp] theorem State.modJob_cmd : (s.modJob j f).cmd = s.cmd := rfl
@[simp] theorem State.modJob_stage : (s.modJob j f).stage = s.stage := rfl
@[simp] theorem State.modJob_stageFrom : (s.modJob j f).stageFrom = s.stageFrom := rfl
@[simp] theorem State.modJob_stages : (s.modJob j f).stages = s.stages := rfl
@[simp] theorem State.modJob_image : (s.modJob j f).image = s.image := rfl
@[simp] theorem State.modJob_keyPort : (s.modJob j f).keyPort = s.keyPort := rfl
@[simp] theorem State.modJob_keys : (s.modJob j f).keys = s.keys := rfl
@[simp] theorem State.modJob_harness : (s.modJob j f).harness = s.harness := rfl
@[simp] theorem State.modJob_clock : (s.modJob j f).clock = s.clock := rfl
@[simp] theorem State.modJob_epoch : (s.modJob j f).epoch = s.epoch := rfl
@[simp] theorem State.modJob_abortFifo : (s.modJob j f).abortFifo = s.abortFifo := rfl
@[simp] theorem State.modJob_tccOrphan : (s.modJob j f).tccOrphan = s.tccOrphan := rfl
@[simp] theorem State.modJob_retakes : (s.modJob j f).retakes = s.retakes := rfl
@[simp] theorem State.modJob_retakeLog : (s.modJob j f).retakeLog = s.retakeLog := rfl
@[simp] theorem State.modJob_logHead : (s.modJob j f).logHead = s.logHead := rfl
@[simp] theorem State.modJob_decCnt : (s.modJob j f).decCnt = s.decCnt := rfl
@[simp] theorem State.modJob_retakesOrdered : (s.modJob j f).retakesOrdered = s.retakesOrdered := rfl
@[simp] theorem State.modJob_retakeTimeouts : (s.modJob j f).retakeTimeouts = s.retakeTimeouts := rfl
@[simp] theorem State.modJob_staleReleases : (s.modJob j f).staleReleases = s.staleReleases := rfl
@[simp] theorem State.modJob_bands : (s.modJob j f).bands = s.bands := rfl
@[simp] theorem State.modJob_ports : (s.modJob j f).ports = s.ports := rfl
@[simp] theorem State.modJob_slices : (s.modJob j f).slices = s.slices := rfl
@[simp] theorem State.modJob_inlog : (s.modJob j f).inlog = s.inlog := rfl
@[simp] theorem State.modJob_replay : (s.modJob j f).replay = s.replay := rfl
@[simp] theorem State.modJob_streams : (s.modJob j f).streams = s.streams := rfl
@[simp] theorem State.modJob_sign : (s.modJob j f).sign = s.sign := rfl
@[simp] theorem State.modJob_restoreSkipped : (s.modJob j f).restoreSkipped = s.restoreSkipped := rfl
@[simp] theorem State.modJob_leakAt : (s.modJob j f).leakAt = s.leakAt := rfl
@[simp] theorem State.modJob_test : (s.modJob j f).test = s.test := rfl
@[simp] theorem State.modJob_mgmt : (s.modJob j f).mgmt = s.mgmt := rfl
@[simp] theorem State.modJob_ind : (s.modJob j f).ind = s.ind := rfl

end modJob

/-! ### modRetake -/

section modRetake
variable (s : State) (r : Nat) (f : Retake → Retake)

@[simp] theorem State.modRetake_pending : (s.modRetake r f).pending = s.pending := rfl
@[simp] theorem State.modRetake_out : (s.modRetake r f).out = s.out := rfl
@[simp] theorem State.modRetake_now : (s.modRetake r f).now = s.now := rfl
@[simp] theorem State.modRetake_readyAt : (s.modRetake r f).readyAt = s.readyAt := rfl
@[simp] theorem State.modRetake_freeCtr : (s.modRetake r f).freeCtr = s.freeCtr := rfl
@[simp] theorem State.modRetake_build : (s.modRetake r f).build = s.build := rfl
@[simp] theorem State.modRetake_rstL : (s.modRetake r f).rstL = s.rstL := rfl
@[simp] theorem State.modRetake_hubA : (s.modRetake r f).hubA = s.hubA := rfl
@[simp] theorem State.modRetake_hubB : (s.modRetake r f).hubB = s.hubB := rfl
@[simp] theorem State.modRetake_agents : (s.modRetake r f).agents = s.agents := rfl
@[simp] theorem State.modRetake_concs : (s.modRetake r f).concs = s.concs := rfl
@[simp] theorem State.modRetake_engines : (s.modRetake r f).engines = s.engines := rfl
@[simp] theorem State.modRetake_links : (s.modRetake r f).links = s.links := rfl
@[simp] theorem State.modRetake_ways : (s.modRetake r f).ways = s.ways := rfl
@[simp] theorem State.modRetake_twin : (s.modRetake r f).twin = s.twin := rfl
@[simp] theorem State.modRetake_xlink : (s.modRetake r f).xlink = s.xlink := rfl
@[simp] theorem State.modRetake_alive : (s.modRetake r f).alive = s.alive := rfl
@[simp] theorem State.modRetake_curbPort : (s.modRetake r f).curbPort = s.curbPort := rfl
@[simp] theorem State.modRetake_flash : (s.modRetake r f).flash = s.flash := rfl
@[simp] theorem State.modRetake_latch : (s.modRetake r f).latch = s.latch := rfl
@[simp] theorem State.modRetake_cmd : (s.modRetake r f).cmd = s.cmd := rfl
@[simp] theorem State.modRetake_stage : (s.modRetake r f).stage = s.stage := rfl
@[simp] theorem State.modRetake_stageFrom : (s.modRetake r f).stageFrom = s.stageFrom := rfl
@[simp] theorem State.modRetake_stages : (s.modRetake r f).stages = s.stages := rfl
@[simp] theorem State.modRetake_image : (s.modRetake r f).image = s.image := rfl
@[simp] theorem State.modRetake_keyPort : (s.modRetake r f).keyPort = s.keyPort := rfl
@[simp] theorem State.modRetake_keys : (s.modRetake r f).keys = s.keys := rfl
@[simp] theorem State.modRetake_harness : (s.modRetake r f).harness = s.harness := rfl
@[simp] theorem State.modRetake_clock : (s.modRetake r f).clock = s.clock := rfl
@[simp] theorem State.modRetake_epoch : (s.modRetake r f).epoch = s.epoch := rfl
@[simp] theorem State.modRetake_jobs : (s.modRetake r f).jobs = s.jobs := rfl
@[simp] theorem State.modRetake_abortFifo : (s.modRetake r f).abortFifo = s.abortFifo := rfl
@[simp] theorem State.modRetake_tccOrphan : (s.modRetake r f).tccOrphan = s.tccOrphan := rfl
@[simp] theorem State.modRetake_retakeLog : (s.modRetake r f).retakeLog = s.retakeLog := rfl
@[simp] theorem State.modRetake_logHead : (s.modRetake r f).logHead = s.logHead := rfl
@[simp] theorem State.modRetake_decCnt : (s.modRetake r f).decCnt = s.decCnt := rfl
@[simp] theorem State.modRetake_retakesOrdered : (s.modRetake r f).retakesOrdered = s.retakesOrdered := rfl
@[simp] theorem State.modRetake_retakeTimeouts : (s.modRetake r f).retakeTimeouts = s.retakeTimeouts := rfl
@[simp] theorem State.modRetake_staleReleases : (s.modRetake r f).staleReleases = s.staleReleases := rfl
@[simp] theorem State.modRetake_bands : (s.modRetake r f).bands = s.bands := rfl
@[simp] theorem State.modRetake_ports : (s.modRetake r f).ports = s.ports := rfl
@[simp] theorem State.modRetake_slices : (s.modRetake r f).slices = s.slices := rfl
@[simp] theorem State.modRetake_inlog : (s.modRetake r f).inlog = s.inlog := rfl
@[simp] theorem State.modRetake_replay : (s.modRetake r f).replay = s.replay := rfl
@[simp] theorem State.modRetake_streams : (s.modRetake r f).streams = s.streams := rfl
@[simp] theorem State.modRetake_sign : (s.modRetake r f).sign = s.sign := rfl
@[simp] theorem State.modRetake_restoreSkipped : (s.modRetake r f).restoreSkipped = s.restoreSkipped := rfl
@[simp] theorem State.modRetake_leakAt : (s.modRetake r f).leakAt = s.leakAt := rfl
@[simp] theorem State.modRetake_test : (s.modRetake r f).test = s.test := rfl
@[simp] theorem State.modRetake_mgmt : (s.modRetake r f).mgmt = s.mgmt := rfl
@[simp] theorem State.modRetake_ind : (s.modRetake r f).ind = s.ind := rfl

end modRetake

/-! ### modPort -/

section modPort
variable (s : State) (p : Nat) (f : Port → Port)

@[simp] theorem State.modPort_pending : (s.modPort p f).pending = s.pending := rfl
@[simp] theorem State.modPort_out : (s.modPort p f).out = s.out := rfl
@[simp] theorem State.modPort_now : (s.modPort p f).now = s.now := rfl
@[simp] theorem State.modPort_readyAt : (s.modPort p f).readyAt = s.readyAt := rfl
@[simp] theorem State.modPort_freeCtr : (s.modPort p f).freeCtr = s.freeCtr := rfl
@[simp] theorem State.modPort_build : (s.modPort p f).build = s.build := rfl
@[simp] theorem State.modPort_rstL : (s.modPort p f).rstL = s.rstL := rfl
@[simp] theorem State.modPort_hubA : (s.modPort p f).hubA = s.hubA := rfl
@[simp] theorem State.modPort_hubB : (s.modPort p f).hubB = s.hubB := rfl
@[simp] theorem State.modPort_agents : (s.modPort p f).agents = s.agents := rfl
@[simp] theorem State.modPort_concs : (s.modPort p f).concs = s.concs := rfl
@[simp] theorem State.modPort_engines : (s.modPort p f).engines = s.engines := rfl
@[simp] theorem State.modPort_links : (s.modPort p f).links = s.links := rfl
@[simp] theorem State.modPort_ways : (s.modPort p f).ways = s.ways := rfl
@[simp] theorem State.modPort_twin : (s.modPort p f).twin = s.twin := rfl
@[simp] theorem State.modPort_xlink : (s.modPort p f).xlink = s.xlink := rfl
@[simp] theorem State.modPort_alive : (s.modPort p f).alive = s.alive := rfl
@[simp] theorem State.modPort_curbPort : (s.modPort p f).curbPort = s.curbPort := rfl
@[simp] theorem State.modPort_flash : (s.modPort p f).flash = s.flash := rfl
@[simp] theorem State.modPort_latch : (s.modPort p f).latch = s.latch := rfl
@[simp] theorem State.modPort_cmd : (s.modPort p f).cmd = s.cmd := rfl
@[simp] theorem State.modPort_stage : (s.modPort p f).stage = s.stage := rfl
@[simp] theorem State.modPort_stageFrom : (s.modPort p f).stageFrom = s.stageFrom := rfl
@[simp] theorem State.modPort_stages : (s.modPort p f).stages = s.stages := rfl
@[simp] theorem State.modPort_image : (s.modPort p f).image = s.image := rfl
@[simp] theorem State.modPort_keyPort : (s.modPort p f).keyPort = s.keyPort := rfl
@[simp] theorem State.modPort_keys : (s.modPort p f).keys = s.keys := rfl
@[simp] theorem State.modPort_harness : (s.modPort p f).harness = s.harness := rfl
@[simp] theorem State.modPort_clock : (s.modPort p f).clock = s.clock := rfl
@[simp] theorem State.modPort_epoch : (s.modPort p f).epoch = s.epoch := rfl
@[simp] theorem State.modPort_jobs : (s.modPort p f).jobs = s.jobs := rfl
@[simp] theorem State.modPort_abortFifo : (s.modPort p f).abortFifo = s.abortFifo := rfl
@[simp] theorem State.modPort_tccOrphan : (s.modPort p f).tccOrphan = s.tccOrphan := rfl
@[simp] theorem State.modPort_retakes : (s.modPort p f).retakes = s.retakes := rfl
@[simp] theorem State.modPort_retakeLog : (s.modPort p f).retakeLog = s.retakeLog := rfl
@[simp] theorem State.modPort_logHead : (s.modPort p f).logHead = s.logHead := rfl
@[simp] theorem State.modPort_decCnt : (s.modPort p f).decCnt = s.decCnt := rfl
@[simp] theorem State.modPort_retakesOrdered : (s.modPort p f).retakesOrdered = s.retakesOrdered := rfl
@[simp] theorem State.modPort_retakeTimeouts : (s.modPort p f).retakeTimeouts = s.retakeTimeouts := rfl
@[simp] theorem State.modPort_staleReleases : (s.modPort p f).staleReleases = s.staleReleases := rfl
@[simp] theorem State.modPort_bands : (s.modPort p f).bands = s.bands := rfl
@[simp] theorem State.modPort_inlog : (s.modPort p f).inlog = s.inlog := rfl
@[simp] theorem State.modPort_replay : (s.modPort p f).replay = s.replay := rfl
@[simp] theorem State.modPort_streams : (s.modPort p f).streams = s.streams := rfl
@[simp] theorem State.modPort_sign : (s.modPort p f).sign = s.sign := rfl
@[simp] theorem State.modPort_restoreSkipped : (s.modPort p f).restoreSkipped = s.restoreSkipped := rfl
@[simp] theorem State.modPort_leakAt : (s.modPort p f).leakAt = s.leakAt := rfl
@[simp] theorem State.modPort_test : (s.modPort p f).test = s.test := rfl
@[simp] theorem State.modPort_mgmt : (s.modPort p f).mgmt = s.mgmt := rfl
@[simp] theorem State.modPort_ind : (s.modPort p f).ind = s.ind := rfl

end modPort

/-! ### present -/

section present
variable (s : State) (o : PortOut)

@[simp] theorem State.present_pending : (s.present o).pending = s.pending := rfl
@[simp] theorem State.present_now : (s.present o).now = s.now := rfl
@[simp] theorem State.present_readyAt : (s.present o).readyAt = s.readyAt := rfl
@[simp] theorem State.present_freeCtr : (s.present o).freeCtr = s.freeCtr := rfl
@[simp] theorem State.present_build : (s.present o).build = s.build := rfl
@[simp] theorem State.present_rstL : (s.present o).rstL = s.rstL := rfl
@[simp] theorem State.present_hubA : (s.present o).hubA = s.hubA := rfl
@[simp] theorem State.present_hubB : (s.present o).hubB = s.hubB := rfl
@[simp] theorem State.present_agents : (s.present o).agents = s.agents := rfl
@[simp] theorem State.present_concs : (s.present o).concs = s.concs := rfl
@[simp] theorem State.present_engines : (s.present o).engines = s.engines := rfl
@[simp] theorem State.present_links : (s.present o).links = s.links := rfl
@[simp] theorem State.present_ways : (s.present o).ways = s.ways := rfl
@[simp] theorem State.present_twin : (s.present o).twin = s.twin := rfl
@[simp] theorem State.present_xlink : (s.present o).xlink = s.xlink := rfl
@[simp] theorem State.present_alive : (s.present o).alive = s.alive := rfl
@[simp] theorem State.present_curbPort : (s.present o).curbPort = s.curbPort := rfl
@[simp] theorem State.present_flash : (s.present o).flash = s.flash := rfl
@[simp] theorem State.present_latch : (s.present o).latch = s.latch := rfl
@[simp] theorem State.present_cmd : (s.present o).cmd = s.cmd := rfl
@[simp] theorem State.present_stage : (s.present o).stage = s.stage := rfl
@[simp] theorem State.present_stageFrom : (s.present o).stageFrom = s.stageFrom := rfl
@[simp] theorem State.present_stages : (s.present o).stages = s.stages := rfl
@[simp] theorem State.present_image : (s.present o).image = s.image := rfl
@[simp] theorem State.present_keyPort : (s.present o).keyPort = s.keyPort := rfl
@[simp] theorem State.present_keys : (s.present o).keys = s.keys := rfl
@[simp] theorem State.present_harness : (s.present o).harness = s.harness := rfl
@[simp] theorem State.present_clock : (s.present o).clock = s.clock := rfl
@[simp] theorem State.present_epoch : (s.present o).epoch = s.epoch := rfl
@[simp] theorem State.present_jobs : (s.present o).jobs = s.jobs := rfl
@[simp] theorem State.present_abortFifo : (s.present o).abortFifo = s.abortFifo := rfl
@[simp] theorem State.present_tccOrphan : (s.present o).tccOrphan = s.tccOrphan := rfl
@[simp] theorem State.present_retakes : (s.present o).retakes = s.retakes := rfl
@[simp] theorem State.present_retakeLog : (s.present o).retakeLog = s.retakeLog := rfl
@[simp] theorem State.present_logHead : (s.present o).logHead = s.logHead := rfl
@[simp] theorem State.present_decCnt : (s.present o).decCnt = s.decCnt := rfl
@[simp] theorem State.present_retakesOrdered : (s.present o).retakesOrdered = s.retakesOrdered := rfl
@[simp] theorem State.present_retakeTimeouts : (s.present o).retakeTimeouts = s.retakeTimeouts := rfl
@[simp] theorem State.present_staleReleases : (s.present o).staleReleases = s.staleReleases := rfl
@[simp] theorem State.present_bands : (s.present o).bands = s.bands := rfl
@[simp] theorem State.present_ports : (s.present o).ports = s.ports := rfl
@[simp] theorem State.present_slices : (s.present o).slices = s.slices := rfl
@[simp] theorem State.present_inlog : (s.present o).inlog = s.inlog := rfl
@[simp] theorem State.present_replay : (s.present o).replay = s.replay := rfl
@[simp] theorem State.present_streams : (s.present o).streams = s.streams := rfl
@[simp] theorem State.present_sign : (s.present o).sign = s.sign := rfl
@[simp] theorem State.present_restoreSkipped : (s.present o).restoreSkipped = s.restoreSkipped := rfl
@[simp] theorem State.present_leakAt : (s.present o).leakAt = s.leakAt := rfl
@[simp] theorem State.present_test : (s.present o).test = s.test := rfl
@[simp] theorem State.present_mgmt : (s.present o).mgmt = s.mgmt := rfl
@[simp] theorem State.present_ind : (s.present o).ind = s.ind := rfl

end present

/-! ### advanceTo -/

section advanceTo
variable (s : State) (t : Nat)

@[simp] theorem State.advanceTo_pending : (s.advanceTo t).pending = s.pending := by unfold State.advanceTo; split <;> rfl
@[simp] theorem State.advanceTo_out : (s.advanceTo t).out = s.out := by unfold State.advanceTo; split <;> rfl
@[simp] theorem State.advanceTo_readyAt : (s.advanceTo t).readyAt = s.readyAt := by unfold State.advanceTo; split <;> rfl
@[simp] theorem State.advanceTo_freeCtr : (s.advanceTo t).freeCtr = s.freeCtr := by unfold State.advanceTo; split <;> rfl
@[simp] theorem State.advanceTo_build : (s.advanceTo t).build = s.build := by unfold State.advanceTo; split <;> rfl
@[simp] theorem State.advanceTo_rstL : (s.advanceTo t).rstL = s.rstL := by unfold State.advanceTo; split <;> rfl
@[simp] theorem State.advanceTo_hubA : (s.advanceTo t).hubA = s.hubA := by unfold State.advanceTo; split <;> rfl
@[simp] theorem State.advanceTo_hubB : (s.advanceTo t).hubB = s.hubB := by unfold State.advanceTo; split <;> rfl
@[simp] theorem State.advanceTo_agents : (s.advanceTo t).agents = s.agents := by unfold State.advanceTo; split <;> rfl
@[simp] theorem State.advanceTo_concs : (s.advanceTo t).concs = s.concs := by unfold State.advanceTo; split <;> rfl
@[simp] theorem State.advanceTo_engines : (s.advanceTo t).engines = s.engines := by unfold State.advanceTo; split <;> rfl
@[simp] theorem State.advanceTo_links : (s.advanceTo t).links = s.links := by unfold State.advanceTo; split <;> rfl
@[simp] theorem State.advanceTo_ways : (s.advanceTo t).ways = s.ways := by unfold State.advanceTo; split <;> rfl
@[simp] theorem State.advanceTo_twin : (s.advanceTo t).twin = s.twin := by unfold State.advanceTo; split <;> rfl
@[simp] theorem State.advanceTo_xlink : (s.advanceTo t).xlink = s.xlink := by unfold State.advanceTo; split <;> rfl
@[simp] theorem State.advanceTo_alive : (s.advanceTo t).alive = s.alive := by unfold State.advanceTo; split <;> rfl
@[simp] theorem State.advanceTo_curbPort : (s.advanceTo t).curbPort = s.curbPort := by unfold State.advanceTo; split <;> rfl
@[simp] theorem State.advanceTo_flash : (s.advanceTo t).flash = s.flash := by unfold State.advanceTo; split <;> rfl
@[simp] theorem State.advanceTo_latch : (s.advanceTo t).latch = s.latch := by unfold State.advanceTo; split <;> rfl
@[simp] theorem State.advanceTo_cmd : (s.advanceTo t).cmd = s.cmd := by unfold State.advanceTo; split <;> rfl
@[simp] theorem State.advanceTo_stage : (s.advanceTo t).stage = s.stage := by unfold State.advanceTo; split <;> rfl
@[simp] theorem State.advanceTo_stageFrom : (s.advanceTo t).stageFrom = s.stageFrom := by unfold State.advanceTo; split <;> rfl
@[simp] theorem State.advanceTo_stages : (s.advanceTo t).stages = s.stages := by unfold State.advanceTo; split <;> rfl
@[simp] theorem State.advanceTo_image : (s.advanceTo t).image = s.image := by unfold State.advanceTo; split <;> rfl
@[simp] theorem State.advanceTo_keyPort : (s.advanceTo t).keyPort = s.keyPort := by unfold State.advanceTo; split <;> rfl
@[simp] theorem State.advanceTo_keys : (s.advanceTo t).keys = s.keys := by unfold State.advanceTo; split <;> rfl
@[simp] theorem State.advanceTo_harness : (s.advanceTo t).harness = s.harness := by unfold State.advanceTo; split <;> rfl
@[simp] theorem State.advanceTo_epoch : (s.advanceTo t).epoch = s.epoch := by unfold State.advanceTo; split <;> rfl
@[simp] theorem State.advanceTo_jobs : (s.advanceTo t).jobs = s.jobs := by unfold State.advanceTo; split <;> rfl
@[simp] theorem State.advanceTo_abortFifo : (s.advanceTo t).abortFifo = s.abortFifo := by unfold State.advanceTo; split <;> rfl
@[simp] theorem State.advanceTo_tccOrphan : (s.advanceTo t).tccOrphan = s.tccOrphan := by unfold State.advanceTo; split <;> rfl
@[simp] theorem State.advanceTo_retakes : (s.advanceTo t).retakes = s.retakes := by unfold State.advanceTo; split <;> rfl
@[simp] theorem State.advanceTo_retakeLog : (s.advanceTo t).retakeLog = s.retakeLog := by unfold State.advanceTo; split <;> rfl
@[simp] theorem State.advanceTo_logHead : (s.advanceTo t).logHead = s.logHead := by unfold State.advanceTo; split <;> rfl
@[simp] theorem State.advanceTo_decCnt : (s.advanceTo t).decCnt = s.decCnt := by unfold State.advanceTo; split <;> rfl
@[simp] theorem State.advanceTo_retakesOrdered : (s.advanceTo t).retakesOrdered = s.retakesOrdered := by unfold State.advanceTo; split <;> rfl
@[simp] theorem State.advanceTo_retakeTimeouts : (s.advanceTo t).retakeTimeouts = s.retakeTimeouts := by unfold State.advanceTo; split <;> rfl
@[simp] theorem State.advanceTo_staleReleases : (s.advanceTo t).staleReleases = s.staleReleases := by unfold State.advanceTo; split <;> rfl
@[simp] theorem State.advanceTo_bands : (s.advanceTo t).bands = s.bands := by unfold State.advanceTo; split <;> rfl
@[simp] theorem State.advanceTo_ports : (s.advanceTo t).ports = s.ports := by unfold State.advanceTo; split <;> rfl
@[simp] theorem State.advanceTo_slices : (s.advanceTo t).slices = s.slices := by unfold State.advanceTo; split <;> rfl
@[simp] theorem State.advanceTo_inlog : (s.advanceTo t).inlog = s.inlog := by unfold State.advanceTo; split <;> rfl
@[simp] theorem State.advanceTo_replay : (s.advanceTo t).replay = s.replay := by unfold State.advanceTo; split <;> rfl
@[simp] theorem State.advanceTo_streams : (s.advanceTo t).streams = s.streams := by unfold State.advanceTo; split <;> rfl
@[simp] theorem State.advanceTo_sign : (s.advanceTo t).sign = s.sign := by unfold State.advanceTo; split <;> rfl
@[simp] theorem State.advanceTo_restoreSkipped : (s.advanceTo t).restoreSkipped = s.restoreSkipped := by unfold State.advanceTo; split <;> rfl
@[simp] theorem State.advanceTo_leakAt : (s.advanceTo t).leakAt = s.leakAt := by unfold State.advanceTo; split <;> rfl
@[simp] theorem State.advanceTo_test : (s.advanceTo t).test = s.test := by unfold State.advanceTo; split <;> rfl
@[simp] theorem State.advanceTo_mgmt : (s.advanceTo t).mgmt = s.mgmt := by unfold State.advanceTo; split <;> rfl
@[simp] theorem State.advanceTo_ind : (s.advanceTo t).ind = s.ind := by unfold State.advanceTo; split <;> rfl

end advanceTo

/-! ### modX -/

section modX
variable (s : State) (h : HubId) (f : XSend → XSend)

@[simp] theorem State.modX_pending : (s.modX h f).pending = s.pending := by cases h <;> rfl
@[simp] theorem State.modX_out : (s.modX h f).out = s.out := by cases h <;> rfl
@[simp] theorem State.modX_now : (s.modX h f).now = s.now := by cases h <;> rfl
@[simp] theorem State.modX_readyAt : (s.modX h f).readyAt = s.readyAt := by cases h <;> rfl
@[simp] theorem State.modX_freeCtr : (s.modX h f).freeCtr = s.freeCtr := by cases h <;> rfl
@[simp] theorem State.modX_build : (s.modX h f).build = s.build := by cases h <;> rfl
@[simp] theorem State.modX_rstL : (s.modX h f).rstL = s.rstL := by cases h <;> rfl
@[simp] theorem State.modX_hubA : (s.modX h f).hubA = s.hubA := by cases h <;> rfl
@[simp] theorem State.modX_hubB : (s.modX h f).hubB = s.hubB := by cases h <;> rfl
@[simp] theorem State.modX_agents : (s.modX h f).agents = s.agents := by cases h <;> rfl
@[simp] theorem State.modX_concs : (s.modX h f).concs = s.concs := by cases h <;> rfl
@[simp] theorem State.modX_engines : (s.modX h f).engines = s.engines := by cases h <;> rfl
@[simp] theorem State.modX_links : (s.modX h f).links = s.links := by cases h <;> rfl
@[simp] theorem State.modX_ways : (s.modX h f).ways = s.ways := by cases h <;> rfl
@[simp] theorem State.modX_twin : (s.modX h f).twin = s.twin := by cases h <;> rfl
@[simp] theorem State.modX_alive : (s.modX h f).alive = s.alive := by cases h <;> rfl
@[simp] theorem State.modX_curbPort : (s.modX h f).curbPort = s.curbPort := by cases h <;> rfl
@[simp] theorem State.modX_flash : (s.modX h f).flash = s.flash := by cases h <;> rfl
@[simp] theorem State.modX_latch : (s.modX h f).latch = s.latch := by cases h <;> rfl
@[simp] theorem State.modX_cmd : (s.modX h f).cmd = s.cmd := by cases h <;> rfl
@[simp] theorem State.modX_stage : (s.modX h f).stage = s.stage := by cases h <;> rfl
@[simp] theorem State.modX_stageFrom : (s.modX h f).stageFrom = s.stageFrom := by cases h <;> rfl
@[simp] theorem State.modX_stages : (s.modX h f).stages = s.stages := by cases h <;> rfl
@[simp] theorem State.modX_image : (s.modX h f).image = s.image := by cases h <;> rfl
@[simp] theorem State.modX_keyPort : (s.modX h f).keyPort = s.keyPort := by cases h <;> rfl
@[simp] theorem State.modX_keys : (s.modX h f).keys = s.keys := by cases h <;> rfl
@[simp] theorem State.modX_harness : (s.modX h f).harness = s.harness := by cases h <;> rfl
@[simp] theorem State.modX_clock : (s.modX h f).clock = s.clock := by cases h <;> rfl
@[simp] theorem State.modX_epoch : (s.modX h f).epoch = s.epoch := by cases h <;> rfl
@[simp] theorem State.modX_jobs : (s.modX h f).jobs = s.jobs := by cases h <;> rfl
@[simp] theorem State.modX_abortFifo : (s.modX h f).abortFifo = s.abortFifo := by cases h <;> rfl
@[simp] theorem State.modX_tccOrphan : (s.modX h f).tccOrphan = s.tccOrphan := by cases h <;> rfl
@[simp] theorem State.modX_retakes : (s.modX h f).retakes = s.retakes := by cases h <;> rfl
@[simp] theorem State.modX_retakeLog : (s.modX h f).retakeLog = s.retakeLog := by cases h <;> rfl
@[simp] theorem State.modX_logHead : (s.modX h f).logHead = s.logHead := by cases h <;> rfl
@[simp] theorem State.modX_decCnt : (s.modX h f).decCnt = s.decCnt := by cases h <;> rfl
@[simp] theorem State.modX_retakesOrdered : (s.modX h f).retakesOrdered = s.retakesOrdered := by cases h <;> rfl
@[simp] theorem State.modX_retakeTimeouts : (s.modX h f).retakeTimeouts = s.retakeTimeouts := by cases h <;> rfl
@[simp] theorem State.modX_staleReleases : (s.modX h f).staleReleases = s.staleReleases := by cases h <;> rfl
@[simp] theorem State.modX_bands : (s.modX h f).bands = s.bands := by cases h <;> rfl
@[simp] theorem State.modX_ports : (s.modX h f).ports = s.ports := by cases h <;> rfl
@[simp] theorem State.modX_slices : (s.modX h f).slices = s.slices := by cases h <;> rfl
@[simp] theorem State.modX_inlog : (s.modX h f).inlog = s.inlog := by cases h <;> rfl
@[simp] theorem State.modX_replay : (s.modX h f).replay = s.replay := by cases h <;> rfl
@[simp] theorem State.modX_streams : (s.modX h f).streams = s.streams := by cases h <;> rfl
@[simp] theorem State.modX_sign : (s.modX h f).sign = s.sign := by cases h <;> rfl
@[simp] theorem State.modX_restoreSkipped : (s.modX h f).restoreSkipped = s.restoreSkipped := by cases h <;> rfl
@[simp] theorem State.modX_leakAt : (s.modX h f).leakAt = s.leakAt := by cases h <;> rfl
@[simp] theorem State.modX_test : (s.modX h f).test = s.test := by cases h <;> rfl
@[simp] theorem State.modX_mgmt : (s.modX h f).mgmt = s.mgmt := by cases h <;> rfl
@[simp] theorem State.modX_ind : (s.modX h f).ind = s.ind := by cases h <;> rfl

end modX

/-! ### Reading a part back -/

section read
variable (s : State)

@[simp] theorem State.hub_modHub_self (h : HubId) (f : Hub → Hub) : (s.modHub h f).hub h = f (s.hub h) := by cases h <;> rfl
theorem State.hub_modHub_other {h k : HubId} (e : k ≠ h) (f : Hub → Hub) : (s.modHub h f).hub k = s.hub k := by
  cases h <;> cases k <;> first | rfl | exact absurd rfl e
@[simp] theorem State.hub_modHubs (h : HubId) (f : Hub → Hub) : (s.modHubs f).hub h = f (s.hub h) := by cases h <;> rfl
@[simp] theorem State.agent_modAgent_self (i : Nat) (f : Agent → Agent) : (s.modAgent i f).agent i = f (s.agent i) :=
  SMap.get_mod_self _ _ _ _
theorem State.agent_modAgent_other {i j : Nat} (e : j ≠ i) (f : Agent → Agent) : (s.modAgent i f).agent j = s.agent j :=
  SMap.get_mod_other _ _ e _
@[simp] theorem State.conc_modConc_self (i : Nat) (f : Conc → Conc) : (s.modConc i f).conc i = f (s.conc i) :=
  SMap.get_mod_self _ _ _ _
theorem State.conc_modConc_other {i j : Nat} (e : j ≠ i) (f : Conc → Conc) : (s.modConc i f).conc j = s.conc j :=
  SMap.get_mod_other _ _ e _
@[simp] theorem State.engine_modEngine_self (i : Nat) (f : Engine → Engine) : (s.modEngine i f).engine i = f (s.engine i) :=
  SMap.get_mod_self _ _ _ _
theorem State.engine_modEngine_other {i j : Nat} (e : j ≠ i) (f : Engine → Engine) :
    (s.modEngine i f).engine j = s.engine j := SMap.get_mod_other _ _ e _
@[simp] theorem State.linkEnd_modLink_self (i : Nat) (f : LinkEnd → LinkEnd) :
    (s.modLink i f).linkEnd i = f (s.linkEnd i) := SMap.get_mod_self _ _ _ _
theorem State.linkEnd_modLink_other {i j : Nat} (e : j ≠ i) (f : LinkEnd → LinkEnd) :
    (s.modLink i f).linkEnd j = s.linkEnd j := SMap.get_mod_other _ _ e _
@[simp] theorem State.job_modJob_self (j : Nat) (f : JobSt → JobSt) : (s.modJob j f).job j = f (s.job j) :=
  SMap.get_mod_self _ _ _ _
theorem State.job_modJob_other {i j : Nat} (e : j ≠ i) (f : JobSt → JobSt) : (s.modJob i f).job j = s.job j :=
  SMap.get_mod_other _ _ e _
@[simp] theorem State.retake_modRetake_self (n : Nat) (f : Retake → Retake) :
    (s.modRetake n f).retake n = f (s.retake n) := SMap.get_mod_self _ _ _ _
theorem State.retake_modRetake_other {i j : Nat} (e : j ≠ i) (f : Retake → Retake) :
    (s.modRetake i f).retake j = s.retake j := SMap.get_mod_other _ _ e _
@[simp] theorem State.port_modPort_self (p : Nat) (f : Port → Port) : (s.modPort p f).port p = f (s.port p) :=
  SMap.get_mod_self _ _ _ _
theorem State.port_modPort_other {i j : Nat} (e : j ≠ i) (f : Port → Port) : (s.modPort i f).port j = s.port j :=
  SMap.get_mod_other _ _ e _
@[simp] theorem State.xsend_modX_self (h : HubId) (f : XSend → XSend) : (s.modX h f).xsend h = f (s.xsend h) := by
  cases h <;> rfl

/-! The parts that a change of another part leaves alone. -/

@[simp] theorem State.agent_modHub (h : HubId) (f : Hub → Hub) (k : Nat) : (s.modHub h f).agent k = s.agent k := by cases h <;> rfl
@[simp] theorem State.conc_modHub (h : HubId) (f : Hub → Hub) (k : Nat) : (s.modHub h f).conc k = s.conc k := by cases h <;> rfl
@[simp] theorem State.engine_modHub (h : HubId) (f : Hub → Hub) (k : Nat) : (s.modHub h f).engine k = s.engine k := by cases h <;> rfl
@[simp] theorem State.linkEnd_modHub (h : HubId) (f : Hub → Hub) (k : Nat) : (s.modHub h f).linkEnd k = s.linkEnd k := by cases h <;> rfl
@[simp] theorem State.job_modHub (h : HubId) (f : Hub → Hub) (k : Nat) : (s.modHub h f).job k = s.job k := by cases h <;> rfl
@[simp] theorem State.retake_modHub (h : HubId) (f : Hub → Hub) (k : Nat) : (s.modHub h f).retake k = s.retake k := by cases h <;> rfl
@[simp] theorem State.port_modHub (h : HubId) (f : Hub → Hub) (k : Nat) : (s.modHub h f).port k = s.port k := by cases h <;> rfl
@[simp] theorem State.agent_modHubs (f : Hub → Hub) (k : Nat) : (s.modHubs f).agent k = s.agent k := rfl
@[simp] theorem State.conc_modHubs (f : Hub → Hub) (k : Nat) : (s.modHubs f).conc k = s.conc k := rfl
@[simp] theorem State.engine_modHubs (f : Hub → Hub) (k : Nat) : (s.modHubs f).engine k = s.engine k := rfl
@[simp] theorem State.linkEnd_modHubs (f : Hub → Hub) (k : Nat) : (s.modHubs f).linkEnd k = s.linkEnd k := rfl
@[simp] theorem State.job_modHubs (f : Hub → Hub) (k : Nat) : (s.modHubs f).job k = s.job k := rfl
@[simp] theorem State.retake_modHubs (f : Hub → Hub) (k : Nat) : (s.modHubs f).retake k = s.retake k := rfl
@[simp] theorem State.port_modHubs (f : Hub → Hub) (k : Nat) : (s.modHubs f).port k = s.port k := rfl
@[simp] theorem State.hub_modAgent (i : Nat) (f : Agent → Agent) (k : HubId) : (s.modAgent i f).hub k = s.hub k := by cases k <;> rfl
@[simp] theorem State.conc_modAgent (i : Nat) (f : Agent → Agent) (k : Nat) : (s.modAgent i f).conc k = s.conc k := rfl
@[simp] theorem State.engine_modAgent (i : Nat) (f : Agent → Agent) (k : Nat) : (s.modAgent i f).engine k = s.engine k := rfl
@[simp] theorem State.linkEnd_modAgent (i : Nat) (f : Agent → Agent) (k : Nat) : (s.modAgent i f).linkEnd k = s.linkEnd k := rfl
@[simp] theorem State.job_modAgent (i : Nat) (f : Agent → Agent) (k : Nat) : (s.modAgent i f).job k = s.job k := rfl
@[simp] theorem State.retake_modAgent (i : Nat) (f : Agent → Agent) (k : Nat) : (s.modAgent i f).retake k = s.retake k := rfl
@[simp] theorem State.port_modAgent (i : Nat) (f : Agent → Agent) (k : Nat) : (s.modAgent i f).port k = s.port k := rfl
@[simp] theorem State.hub_modConc (i : Nat) (f : Conc → Conc) (k : HubId) : (s.modConc i f).hub k = s.hub k := by cases k <;> rfl
@[simp] theorem State.agent_modConc (i : Nat) (f : Conc → Conc) (k : Nat) : (s.modConc i f).agent k = s.agent k := rfl
@[simp] theorem State.engine_modConc (i : Nat) (f : Conc → Conc) (k : Nat) : (s.modConc i f).engine k = s.engine k := rfl
@[simp] theorem State.linkEnd_modConc (i : Nat) (f : Conc → Conc) (k : Nat) : (s.modConc i f).linkEnd k = s.linkEnd k := rfl
@[simp] theorem State.job_modConc (i : Nat) (f : Conc → Conc) (k : Nat) : (s.modConc i f).job k = s.job k := rfl
@[simp] theorem State.retake_modConc (i : Nat) (f : Conc → Conc) (k : Nat) : (s.modConc i f).retake k = s.retake k := rfl
@[simp] theorem State.port_modConc (i : Nat) (f : Conc → Conc) (k : Nat) : (s.modConc i f).port k = s.port k := rfl
@[simp] theorem State.hub_modEngine (i : Nat) (f : Engine → Engine) (k : HubId) : (s.modEngine i f).hub k = s.hub k := by cases k <;> rfl
@[simp] theorem State.agent_modEngine (i : Nat) (f : Engine → Engine) (k : Nat) : (s.modEngine i f).agent k = s.agent k := rfl
@[simp] theorem State.conc_modEngine (i : Nat) (f : Engine → Engine) (k : Nat) : (s.modEngine i f).conc k = s.conc k := rfl
@[simp] theorem State.linkEnd_modEngine (i : Nat) (f : Engine → Engine) (k : Nat) : (s.modEngine i f).linkEnd k = s.linkEnd k := rfl
@[simp] theorem State.job_modEngine (i : Nat) (f : Engine → Engine) (k : Nat) : (s.modEngine i f).job k = s.job k := rfl
@[simp] theorem State.retake_modEngine (i : Nat) (f : Engine → Engine) (k : Nat) : (s.modEngine i f).retake k = s.retake k := rfl
@[simp] theorem State.port_modEngine (i : Nat) (f : Engine → Engine) (k : Nat) : (s.modEngine i f).port k = s.port k := rfl
@[simp] theorem State.hub_modLink (i : Nat) (f : LinkEnd → LinkEnd) (k : HubId) : (s.modLink i f).hub k = s.hub k := by cases k <;> rfl
@[simp] theorem State.agent_modLink (i : Nat) (f : LinkEnd → LinkEnd) (k : Nat) : (s.modLink i f).agent k = s.agent k := rfl
@[simp] theorem State.conc_modLink (i : Nat) (f : LinkEnd → LinkEnd) (k : Nat) : (s.modLink i f).conc k = s.conc k := rfl
@[simp] theorem State.engine_modLink (i : Nat) (f : LinkEnd → LinkEnd) (k : Nat) : (s.modLink i f).engine k = s.engine k := rfl
@[simp] theorem State.job_modLink (i : Nat) (f : LinkEnd → LinkEnd) (k : Nat) : (s.modLink i f).job k = s.job k := rfl
@[simp] theorem State.retake_modLink (i : Nat) (f : LinkEnd → LinkEnd) (k : Nat) : (s.modLink i f).retake k = s.retake k := rfl
@[simp] theorem State.port_modLink (i : Nat) (f : LinkEnd → LinkEnd) (k : Nat) : (s.modLink i f).port k = s.port k := rfl
@[simp] theorem State.hub_modJob (j : Nat) (f : JobSt → JobSt) (k : HubId) : (s.modJob j f).hub k = s.hub k := by cases k <;> rfl
@[simp] theorem State.agent_modJob (j : Nat) (f : JobSt → JobSt) (k : Nat) : (s.modJob j f).agent k = s.agent k := rfl
@[simp] theorem State.conc_modJob (j : Nat) (f : JobSt → JobSt) (k : Nat) : (s.modJob j f).conc k = s.conc k := rfl
@[simp] theorem State.engine_modJob (j : Nat) (f : JobSt → JobSt) (k : Nat) : (s.modJob j f).engine k = s.engine k := rfl
@[simp] theorem State.linkEnd_modJob (j : Nat) (f : JobSt → JobSt) (k : Nat) : (s.modJob j f).linkEnd k = s.linkEnd k := rfl
@[simp] theorem State.retake_modJob (j : Nat) (f : JobSt → JobSt) (k : Nat) : (s.modJob j f).retake k = s.retake k := rfl
@[simp] theorem State.port_modJob (j : Nat) (f : JobSt → JobSt) (k : Nat) : (s.modJob j f).port k = s.port k := rfl
@[simp] theorem State.hub_modRetake (r : Nat) (f : Retake → Retake) (k : HubId) : (s.modRetake r f).hub k = s.hub k := by cases k <;> rfl
@[simp] theorem State.agent_modRetake (r : Nat) (f : Retake → Retake) (k : Nat) : (s.modRetake r f).agent k = s.agent k := rfl
@[simp] theorem State.conc_modRetake (r : Nat) (f : Retake → Retake) (k : Nat) : (s.modRetake r f).conc k = s.conc k := rfl
@[simp] theorem State.engine_modRetake (r : Nat) (f : Retake → Retake) (k : Nat) : (s.modRetake r f).engine k = s.engine k := rfl
@[simp] theorem State.linkEnd_modRetake (r : Nat) (f : Retake → Retake) (k : Nat) : (s.modRetake r f).linkEnd k = s.linkEnd k := rfl
@[simp] theorem State.job_modRetake (r : Nat) (f : Retake → Retake) (k : Nat) : (s.modRetake r f).job k = s.job k := rfl
@[simp] theorem State.port_modRetake (r : Nat) (f : Retake → Retake) (k : Nat) : (s.modRetake r f).port k = s.port k := rfl
@[simp] theorem State.hub_modPort (p : Nat) (f : Port → Port) (k : HubId) : (s.modPort p f).hub k = s.hub k := by cases k <;> rfl
@[simp] theorem State.agent_modPort (p : Nat) (f : Port → Port) (k : Nat) : (s.modPort p f).agent k = s.agent k := rfl
@[simp] theorem State.conc_modPort (p : Nat) (f : Port → Port) (k : Nat) : (s.modPort p f).conc k = s.conc k := rfl
@[simp] theorem State.engine_modPort (p : Nat) (f : Port → Port) (k : Nat) : (s.modPort p f).engine k = s.engine k := rfl
@[simp] theorem State.linkEnd_modPort (p : Nat) (f : Port → Port) (k : Nat) : (s.modPort p f).linkEnd k = s.linkEnd k := rfl
@[simp] theorem State.job_modPort (p : Nat) (f : Port → Port) (k : Nat) : (s.modPort p f).job k = s.job k := rfl
@[simp] theorem State.retake_modPort (p : Nat) (f : Port → Port) (k : Nat) : (s.modPort p f).retake k = s.retake k := rfl
@[simp] theorem State.hub_present (o : PortOut) (k : HubId) : (s.present o).hub k = s.hub k := by cases k <;> rfl
@[simp] theorem State.agent_present (o : PortOut) (k : Nat) : (s.present o).agent k = s.agent k := rfl
@[simp] theorem State.conc_present (o : PortOut) (k : Nat) : (s.present o).conc k = s.conc k := rfl
@[simp] theorem State.engine_present (o : PortOut) (k : Nat) : (s.present o).engine k = s.engine k := rfl
@[simp] theorem State.linkEnd_present (o : PortOut) (k : Nat) : (s.present o).linkEnd k = s.linkEnd k := rfl
@[simp] theorem State.job_present (o : PortOut) (k : Nat) : (s.present o).job k = s.job k := rfl
@[simp] theorem State.retake_present (o : PortOut) (k : Nat) : (s.present o).retake k = s.retake k := rfl
@[simp] theorem State.port_present (o : PortOut) (k : Nat) : (s.present o).port k = s.port k := rfl
@[simp] theorem State.hub_advanceTo (t : Nat) (k : HubId) : (s.advanceTo t).hub k = s.hub k := by
  unfold State.advanceTo; split <;> cases k <;> rfl
@[simp] theorem State.agent_advanceTo (t : Nat) (k : Nat) : (s.advanceTo t).agent k = s.agent k := by unfold State.advanceTo; split <;> rfl
@[simp] theorem State.conc_advanceTo (t : Nat) (k : Nat) : (s.advanceTo t).conc k = s.conc k := by unfold State.advanceTo; split <;> rfl
@[simp] theorem State.engine_advanceTo (t : Nat) (k : Nat) : (s.advanceTo t).engine k = s.engine k := by unfold State.advanceTo; split <;> rfl
@[simp] theorem State.linkEnd_advanceTo (t : Nat) (k : Nat) : (s.advanceTo t).linkEnd k = s.linkEnd k := by unfold State.advanceTo; split <;> rfl
@[simp] theorem State.job_advanceTo (t : Nat) (k : Nat) : (s.advanceTo t).job k = s.job k := by unfold State.advanceTo; split <;> rfl
@[simp] theorem State.retake_advanceTo (t : Nat) (k : Nat) : (s.advanceTo t).retake k = s.retake k := by unfold State.advanceTo; split <;> rfl
@[simp] theorem State.port_advanceTo (t : Nat) (k : Nat) : (s.advanceTo t).port k = s.port k := by unfold State.advanceTo; split <;> rfl
@[simp] theorem State.hub_modX (h : HubId) (f : XSend → XSend) (k : HubId) : (s.modX h f).hub k = s.hub k := by cases h <;> cases k <;> rfl
@[simp] theorem State.agent_modX (h : HubId) (f : XSend → XSend) (k : Nat) : (s.modX h f).agent k = s.agent k := by cases h <;> rfl
@[simp] theorem State.conc_modX (h : HubId) (f : XSend → XSend) (k : Nat) : (s.modX h f).conc k = s.conc k := by cases h <;> rfl
@[simp] theorem State.engine_modX (h : HubId) (f : XSend → XSend) (k : Nat) : (s.modX h f).engine k = s.engine k := by cases h <;> rfl
@[simp] theorem State.linkEnd_modX (h : HubId) (f : XSend → XSend) (k : Nat) : (s.modX h f).linkEnd k = s.linkEnd k := by cases h <;> rfl
@[simp] theorem State.job_modX (h : HubId) (f : XSend → XSend) (k : Nat) : (s.modX h f).job k = s.job k := by cases h <;> rfl
@[simp] theorem State.retake_modX (h : HubId) (f : XSend → XSend) (k : Nat) : (s.modX h f).retake k = s.retake k := by cases h <;> rfl
@[simp] theorem State.port_modX (h : HubId) (f : XSend → XSend) (k : Nat) : (s.modX h f).port k = s.port k := by cases h <;> rfl

@[simp] theorem State.present_out (o : PortOut) : (s.present o).out = s.out ++ [o] := rfl
@[simp] theorem State.advanceTo_now (t : Nat) : (s.advanceTo t).now = max s.now t := by
  unfold State.advanceTo; split <;> (try dsimp only) <;> omega

end read

/-! ### Running a command -/

theorem live_held {s : State} (h : s.rstL = true) (f : State → State) : live s f = .next s := by
  unfold live
  rw [if_pos h]

theorem live_next {s : State} (h : s.rstL = false) (f : State → State) : live s f = .next (f { s with out := [] }) := by
  unfold live
  rw [h, if_neg Bool.false_ne_true]

end Sys2Proof.Machine
end

