-- ==== Sys2Proof/Laws/Fields.lean ====
section
/-! SUPPORT. What the operations of Ops.lean that change one part leave alone, field by field. -/

namespace Sys2Proof.Machine

open Sys2Proof

/-! ### mirrorWrite -/

section mirrorWrite
variable (s : State) (a : Nat) (d : W32)

@[simp] theorem State.mirrorWrite_pending : (s.mirrorWrite a d).pending = s.pending := by unfold State.mirrorWrite; split <;> simp
@[simp] theorem State.mirrorWrite_out : (s.mirrorWrite a d).out = s.out := by unfold State.mirrorWrite; split <;> simp
@[simp] theorem State.mirrorWrite_now : (s.mirrorWrite a d).now = s.now := by unfold State.mirrorWrite; split <;> simp
@[simp] theorem State.mirrorWrite_readyAt : (s.mirrorWrite a d).readyAt = s.readyAt := by unfold State.mirrorWrite; split <;> simp
@[simp] theorem State.mirrorWrite_freeCtr : (s.mirrorWrite a d).freeCtr = s.freeCtr := by unfold State.mirrorWrite; split <;> simp
@[simp] theorem State.mirrorWrite_build : (s.mirrorWrite a d).build = s.build := by unfold State.mirrorWrite; split <;> simp
@[simp] theorem State.mirrorWrite_rstL : (s.mirrorWrite a d).rstL = s.rstL := by unfold State.mirrorWrite; split <;> simp
@[simp] theorem State.mirrorWrite_hubA : (s.mirrorWrite a d).hubA = s.hubA := by unfold State.mirrorWrite; split <;> simp
@[simp] theorem State.mirrorWrite_hubB : (s.mirrorWrite a d).hubB = s.hubB := by unfold State.mirrorWrite; split <;> simp
@[simp] theorem State.mirrorWrite_agents : (s.mirrorWrite a d).agents = s.agents := by unfold State.mirrorWrite; split <;> simp
@[simp] theorem State.mirrorWrite_concs : (s.mirrorWrite a d).concs = s.concs := by unfold State.mirrorWrite; split <;> simp
@[simp] theorem State.mirrorWrite_engines : (s.mirrorWrite a d).engines = s.engines := by unfold State.mirrorWrite; split <;> simp
@[simp] theorem State.mirrorWrite_links : (s.mirrorWrite a d).links = s.links := by unfold State.mirrorWrite; split <;> simp
@[simp] theorem State.mirrorWrite_ways : (s.mirrorWrite a d).ways = s.ways := by unfold State.mirrorWrite; split <;> simp
@[simp] theorem State.mirrorWrite_twin : (s.mirrorWrite a d).twin = s.twin := by unfold State.mirrorWrite; split <;> simp
@[simp] theorem State.mirrorWrite_alive : (s.mirrorWrite a d).alive = s.alive := by unfold State.mirrorWrite; split <;> simp
@[simp] theorem State.mirrorWrite_curbPort : (s.mirrorWrite a d).curbPort = s.curbPort := by unfold State.mirrorWrite; split <;> simp
@[simp] theorem State.mirrorWrite_flash : (s.mirrorWrite a d).flash = s.flash := by unfold State.mirrorWrite; split <;> simp
@[simp] theorem State.mirrorWrite_latch : (s.mirrorWrite a d).latch = s.latch := by unfold State.mirrorWrite; split <;> simp
@[simp] theorem State.mirrorWrite_cmd : (s.mirrorWrite a d).cmd = s.cmd := by unfold State.mirrorWrite; split <;> simp
@[simp] theorem State.mirrorWrite_stage : (s.mirrorWrite a d).stage = s.stage := by unfold State.mirrorWrite; split <;> simp
@[simp] theorem State.mirrorWrite_stageFrom : (s.mirrorWrite a d).stageFrom = s.stageFrom := by unfold State.mirrorWrite; split <;> simp
@[simp] theorem State.mirrorWrite_stages : (s.mirrorWrite a d).stages = s.stages := by unfold State.mirrorWrite; split <;> simp
@[simp] theorem State.mirrorWrite_image : (s.mirrorWrite a d).image = s.image := by unfold State.mirrorWrite; split <;> simp
@[simp] theorem State.mirrorWrite_keyPort : (s.mirrorWrite a d).keyPort = s.keyPort := by unfold State.mirrorWrite; split <;> simp
@[simp] theorem State.mirrorWrite_keys : (s.mirrorWrite a d).keys = s.keys := by unfold State.mirrorWrite; split <;> simp
@[simp] theorem State.mirrorWrite_harness : (s.mirrorWrite a d).harness = s.harness := by unfold State.mirrorWrite; split <;> simp
@[simp] theorem State.mirrorWrite_clock : (s.mirrorWrite a d).clock = s.clock := by unfold State.mirrorWrite; split <;> simp
@[simp] theorem State.mirrorWrite_epoch : (s.mirrorWrite a d).epoch = s.epoch := by unfold State.mirrorWrite; split <;> simp
@[simp] theorem State.mirrorWrite_jobs : (s.mirrorWrite a d).jobs = s.jobs := by unfold State.mirrorWrite; split <;> simp
@[simp] theorem State.mirrorWrite_abortFifo : (s.mirrorWrite a d).abortFifo = s.abortFifo := by unfold State.mirrorWrite; split <;> simp
@[simp] theorem State.mirrorWrite_tccOrphan : (s.mirrorWrite a d).tccOrphan = s.tccOrphan := by unfold State.mirrorWrite; split <;> simp
@[simp] theorem State.mirrorWrite_retakes : (s.mirrorWrite a d).retakes = s.retakes := by unfold State.mirrorWrite; split <;> simp
@[simp] theorem State.mirrorWrite_retakeLog : (s.mirrorWrite a d).retakeLog = s.retakeLog := by unfold State.mirrorWrite; split <;> simp
@[simp] theorem State.mirrorWrite_logHead : (s.mirrorWrite a d).logHead = s.logHead := by unfold State.mirrorWrite; split <;> simp
@[simp] theorem State.mirrorWrite_decCnt : (s.mirrorWrite a d).decCnt = s.decCnt := by unfold State.mirrorWrite; split <;> simp
@[simp] theorem State.mirrorWrite_retakesOrdered : (s.mirrorWrite a d).retakesOrdered = s.retakesOrdered := by unfold State.mirrorWrite; split <;> simp
@[simp] theorem State.mirrorWrite_retakeTimeouts : (s.mirrorWrite a d).retakeTimeouts = s.retakeTimeouts := by unfold State.mirrorWrite; split <;> simp
@[simp] theorem State.mirrorWrite_staleReleases : (s.mirrorWrite a d).staleReleases = s.staleReleases := by unfold State.mirrorWrite; split <;> simp
@[simp] theorem State.mirrorWrite_bands : (s.mirrorWrite a d).bands = s.bands := by unfold State.mirrorWrite; split <;> simp
@[simp] theorem State.mirrorWrite_ports : (s.mirrorWrite a d).ports = s.ports := by unfold State.mirrorWrite; split <;> simp
@[simp] theorem State.mirrorWrite_slices : (s.mirrorWrite a d).slices = s.slices := by unfold State.mirrorWrite; split <;> simp
@[simp] theorem State.mirrorWrite_inlog : (s.mirrorWrite a d).inlog = s.inlog := by unfold State.mirrorWrite; split <;> simp
@[simp] theorem State.mirrorWrite_replay : (s.mirrorWrite a d).replay = s.replay := by unfold State.mirrorWrite; split <;> simp
@[simp] theorem State.mirrorWrite_streams : (s.mirrorWrite a d).streams = s.streams := by unfold State.mirrorWrite; split <;> simp
@[simp] theorem State.mirrorWrite_sign : (s.mirrorWrite a d).sign = s.sign := by unfold State.mirrorWrite; split <;> simp
@[simp] theorem State.mirrorWrite_restoreSkipped : (s.mirrorWrite a d).restoreSkipped = s.restoreSkipped := by unfold State.mirrorWrite; split <;> simp
@[simp] theorem State.mirrorWrite_leakAt : (s.mirrorWrite a d).leakAt = s.leakAt := by unfold State.mirrorWrite; split <;> simp
@[simp] theorem State.mirrorWrite_test : (s.mirrorWrite a d).test = s.test := by unfold State.mirrorWrite; split <;> simp
@[simp] theorem State.mirrorWrite_mgmt : (s.mirrorWrite a d).mgmt = s.mgmt := by unfold State.mirrorWrite; split <;> simp
@[simp] theorem State.mirrorWrite_ind : (s.mirrorWrite a d).ind = s.ind := by unfold State.mirrorWrite; split <;> simp

end mirrorWrite

/-! ### mirrorOut -/

section mirrorOut
variable (s : State) (h : HubId) (m : Msg)

@[simp] theorem State.mirrorOut_pending : (s.mirrorOut h m).pending = s.pending := by unfold State.mirrorOut; split <;> simp
@[simp] theorem State.mirrorOut_out : (s.mirrorOut h m).out = s.out := by unfold State.mirrorOut; split <;> simp
@[simp] theorem State.mirrorOut_now : (s.mirrorOut h m).now = s.now := by unfold State.mirrorOut; split <;> simp
@[simp] theorem State.mirrorOut_readyAt : (s.mirrorOut h m).readyAt = s.readyAt := by unfold State.mirrorOut; split <;> simp
@[simp] theorem State.mirrorOut_freeCtr : (s.mirrorOut h m).freeCtr = s.freeCtr := by unfold State.mirrorOut; split <;> simp
@[simp] theorem State.mirrorOut_build : (s.mirrorOut h m).build = s.build := by unfold State.mirrorOut; split <;> simp
@[simp] theorem State.mirrorOut_rstL : (s.mirrorOut h m).rstL = s.rstL := by unfold State.mirrorOut; split <;> simp
@[simp] theorem State.mirrorOut_hubA : (s.mirrorOut h m).hubA = s.hubA := by unfold State.mirrorOut; split <;> simp
@[simp] theorem State.mirrorOut_hubB : (s.mirrorOut h m).hubB = s.hubB := by unfold State.mirrorOut; split <;> simp
@[simp] theorem State.mirrorOut_agents : (s.mirrorOut h m).agents = s.agents := by unfold State.mirrorOut; split <;> simp
@[simp] theorem State.mirrorOut_concs : (s.mirrorOut h m).concs = s.concs := by unfold State.mirrorOut; split <;> simp
@[simp] theorem State.mirrorOut_engines : (s.mirrorOut h m).engines = s.engines := by unfold State.mirrorOut; split <;> simp
@[simp] theorem State.mirrorOut_links : (s.mirrorOut h m).links = s.links := by unfold State.mirrorOut; split <;> simp
@[simp] theorem State.mirrorOut_ways : (s.mirrorOut h m).ways = s.ways := by unfold State.mirrorOut; split <;> simp
@[simp] theorem State.mirrorOut_twin : (s.mirrorOut h m).twin = s.twin := by unfold State.mirrorOut; split <;> simp
@[simp] theorem State.mirrorOut_alive : (s.mirrorOut h m).alive = s.alive := by unfold State.mirrorOut; split <;> simp
@[simp] theorem State.mirrorOut_curbPort : (s.mirrorOut h m).curbPort = s.curbPort := by unfold State.mirrorOut; split <;> simp
@[simp] theorem State.mirrorOut_flash : (s.mirrorOut h m).flash = s.flash := by unfold State.mirrorOut; split <;> simp
@[simp] theorem State.mirrorOut_latch : (s.mirrorOut h m).latch = s.latch := by unfold State.mirrorOut; split <;> simp
@[simp] theorem State.mirrorOut_cmd : (s.mirrorOut h m).cmd = s.cmd := by unfold State.mirrorOut; split <;> simp
@[simp] theorem State.mirrorOut_stage : (s.mirrorOut h m).stage = s.stage := by unfold State.mirrorOut; split <;> simp
@[simp] theorem State.mirrorOut_stageFrom : (s.mirrorOut h m).stageFrom = s.stageFrom := by unfold State.mirrorOut; split <;> simp
@[simp] theorem State.mirrorOut_stages : (s.mirrorOut h m).stages = s.stages := by unfold State.mirrorOut; split <;> simp
@[simp] theorem State.mirrorOut_image : (s.mirrorOut h m).image = s.image := by unfold State.mirrorOut; split <;> simp
@[simp] theorem State.mirrorOut_keyPort : (s.mirrorOut h m).keyPort = s.keyPort := by unfold State.mirrorOut; split <;> simp
@[simp] theorem State.mirrorOut_keys : (s.mirrorOut h m).keys = s.keys := by unfold State.mirrorOut; split <;> simp
@[simp] theorem State.mirrorOut_harness : (s.mirrorOut h m).harness = s.harness := by unfold State.mirrorOut; split <;> simp
@[simp] theorem State.mirrorOut_clock : (s.mirrorOut h m).clock = s.clock := by unfold State.mirrorOut; split <;> simp
@[simp] theorem State.mirrorOut_epoch : (s.mirrorOut h m).epoch = s.epoch := by unfold State.mirrorOut; split <;> simp
@[simp] theorem State.mirrorOut_jobs : (s.mirrorOut h m).jobs = s.jobs := by unfold State.mirrorOut; split <;> simp
@[simp] theorem State.mirrorOut_abortFifo : (s.mirrorOut h m).abortFifo = s.abortFifo := by unfold State.mirrorOut; split <;> simp
@[simp] theorem State.mirrorOut_tccOrphan : (s.mirrorOut h m).tccOrphan = s.tccOrphan := by unfold State.mirrorOut; split <;> simp
@[simp] theorem State.mirrorOut_retakes : (s.mirrorOut h m).retakes = s.retakes := by unfold State.mirrorOut; split <;> simp
@[simp] theorem State.mirrorOut_retakeLog : (s.mirrorOut h m).retakeLog = s.retakeLog := by unfold State.mirrorOut; split <;> simp
@[simp] theorem State.mirrorOut_logHead : (s.mirrorOut h m).logHead = s.logHead := by unfold State.mirrorOut; split <;> simp
@[simp] theorem State.mirrorOut_decCnt : (s.mirrorOut h m).decCnt = s.decCnt := by unfold State.mirrorOut; split <;> simp
@[simp] theorem State.mirrorOut_retakesOrdered : (s.mirrorOut h m).retakesOrdered = s.retakesOrdered := by unfold State.mirrorOut; split <;> simp
@[simp] theorem State.mirrorOut_retakeTimeouts : (s.mirrorOut h m).retakeTimeouts = s.retakeTimeouts := by unfold State.mirrorOut; split <;> simp
@[simp] theorem State.mirrorOut_staleReleases : (s.mirrorOut h m).staleReleases = s.staleReleases := by unfold State.mirrorOut; split <;> simp
@[simp] theorem State.mirrorOut_bands : (s.mirrorOut h m).bands = s.bands := by unfold State.mirrorOut; split <;> simp
@[simp] theorem State.mirrorOut_ports : (s.mirrorOut h m).ports = s.ports := by unfold State.mirrorOut; split <;> simp
@[simp] theorem State.mirrorOut_slices : (s.mirrorOut h m).slices = s.slices := by unfold State.mirrorOut; split <;> simp
@[simp] theorem State.mirrorOut_inlog : (s.mirrorOut h m).inlog = s.inlog := by unfold State.mirrorOut; split <;> simp
@[simp] theorem State.mirrorOut_replay : (s.mirrorOut h m).replay = s.replay := by unfold State.mirrorOut; split <;> simp
@[simp] theorem State.mirrorOut_streams : (s.mirrorOut h m).streams = s.streams := by unfold State.mirrorOut; split <;> simp
@[simp] theorem State.mirrorOut_sign : (s.mirrorOut h m).sign = s.sign := by unfold State.mirrorOut; split <;> simp
@[simp] theorem State.mirrorOut_restoreSkipped : (s.mirrorOut h m).restoreSkipped = s.restoreSkipped := by unfold State.mirrorOut; split <;> simp
@[simp] theorem State.mirrorOut_leakAt : (s.mirrorOut h m).leakAt = s.leakAt := by unfold State.mirrorOut; split <;> simp
@[simp] theorem State.mirrorOut_test : (s.mirrorOut h m).test = s.test := by unfold State.mirrorOut; split <;> simp
@[simp] theorem State.mirrorOut_mgmt : (s.mirrorOut h m).mgmt = s.mgmt := by unfold State.mirrorOut; split <;> simp
@[simp] theorem State.mirrorOut_ind : (s.mirrorOut h m).ind = s.ind := by unfold State.mirrorOut; split <;> simp

end mirrorOut

/-! ### mgmtPush -/

section mgmtPush
variable (s : State) (e : MgmtEvent)

@[simp] theorem State.mgmtPush_pending : (s.mgmtPush e).pending = s.pending := by unfold State.mgmtPush; dsimp only; generalize (_ && _) = c; cases c <;> rfl
@[simp] theorem State.mgmtPush_out : (s.mgmtPush e).out = s.out := by unfold State.mgmtPush; dsimp only; generalize (_ && _) = c; cases c <;> rfl
@[simp] theorem State.mgmtPush_now : (s.mgmtPush e).now = s.now := by unfold State.mgmtPush; dsimp only; generalize (_ && _) = c; cases c <;> rfl
@[simp] theorem State.mgmtPush_readyAt : (s.mgmtPush e).readyAt = s.readyAt := by unfold State.mgmtPush; dsimp only; generalize (_ && _) = c; cases c <;> rfl
@[simp] theorem State.mgmtPush_freeCtr : (s.mgmtPush e).freeCtr = s.freeCtr := by unfold State.mgmtPush; dsimp only; generalize (_ && _) = c; cases c <;> rfl
@[simp] theorem State.mgmtPush_build : (s.mgmtPush e).build = s.build := by unfold State.mgmtPush; dsimp only; generalize (_ && _) = c; cases c <;> rfl
@[simp] theorem State.mgmtPush_rstL : (s.mgmtPush e).rstL = s.rstL := by unfold State.mgmtPush; dsimp only; generalize (_ && _) = c; cases c <;> rfl
@[simp] theorem State.mgmtPush_hubA : (s.mgmtPush e).hubA = s.hubA := by unfold State.mgmtPush; dsimp only; generalize (_ && _) = c; cases c <;> rfl
@[simp] theorem State.mgmtPush_hubB : (s.mgmtPush e).hubB = s.hubB := by unfold State.mgmtPush; dsimp only; generalize (_ && _) = c; cases c <;> rfl
@[simp] theorem State.mgmtPush_agents : (s.mgmtPush e).agents = s.agents := by unfold State.mgmtPush; dsimp only; generalize (_ && _) = c; cases c <;> rfl
@[simp] theorem State.mgmtPush_concs : (s.mgmtPush e).concs = s.concs := by unfold State.mgmtPush; dsimp only; generalize (_ && _) = c; cases c <;> rfl
@[simp] theorem State.mgmtPush_engines : (s.mgmtPush e).engines = s.engines := by unfold State.mgmtPush; dsimp only; generalize (_ && _) = c; cases c <;> rfl
@[simp] theorem State.mgmtPush_links : (s.mgmtPush e).links = s.links := by unfold State.mgmtPush; dsimp only; generalize (_ && _) = c; cases c <;> rfl
@[simp] theorem State.mgmtPush_ways : (s.mgmtPush e).ways = s.ways := by unfold State.mgmtPush; dsimp only; generalize (_ && _) = c; cases c <;> rfl
@[simp] theorem State.mgmtPush_twin : (s.mgmtPush e).twin = s.twin := by unfold State.mgmtPush; dsimp only; generalize (_ && _) = c; cases c <;> rfl
@[simp] theorem State.mgmtPush_xlink : (s.mgmtPush e).xlink = s.xlink := by unfold State.mgmtPush; dsimp only; generalize (_ && _) = c; cases c <;> rfl
@[simp] theorem State.mgmtPush_alive : (s.mgmtPush e).alive = s.alive := by unfold State.mgmtPush; dsimp only; generalize (_ && _) = c; cases c <;> rfl
@[simp] theorem State.mgmtPush_curbPort : (s.mgmtPush e).curbPort = s.curbPort := by unfold State.mgmtPush; dsimp only; generalize (_ && _) = c; cases c <;> rfl
@[simp] theorem State.mgmtPush_flash : (s.mgmtPush e).flash = s.flash := by unfold State.mgmtPush; dsimp only; generalize (_ && _) = c; cases c <;> rfl
@[simp] theorem State.mgmtPush_latch : (s.mgmtPush e).latch = s.latch := by unfold State.mgmtPush; dsimp only; generalize (_ && _) = c; cases c <;> rfl
@[simp] theorem State.mgmtPush_cmd : (s.mgmtPush e).cmd = s.cmd := by unfold State.mgmtPush; dsimp only; generalize (_ && _) = c; cases c <;> rfl
@[simp] theorem State.mgmtPush_stage : (s.mgmtPush e).stage = s.stage := by unfold State.mgmtPush; dsimp only; generalize (_ && _) = c; cases c <;> rfl
@[simp] theorem State.mgmtPush_stageFrom : (s.mgmtPush e).stageFrom = s.stageFrom := by unfold State.mgmtPush; dsimp only; generalize (_ && _) = c; cases c <;> rfl
@[simp] theorem State.mgmtPush_stages : (s.mgmtPush e).stages = s.stages := by unfold State.mgmtPush; dsimp only; generalize (_ && _) = c; cases c <;> rfl
@[simp] theorem State.mgmtPush_image : (s.mgmtPush e).image = s.image := by unfold State.mgmtPush; dsimp only; generalize (_ && _) = c; cases c <;> rfl
@[simp] theorem State.mgmtPush_keyPort : (s.mgmtPush e).keyPort = s.keyPort := by unfold State.mgmtPush; dsimp only; generalize (_ && _) = c; cases c <;> rfl
@[simp] theorem State.mgmtPush_keys : (s.mgmtPush e).keys = s.keys := by unfold State.mgmtPush; dsimp only; generalize (_ && _) = c; cases c <;> rfl
@[simp] theorem State.mgmtPush_harness : (s.mgmtPush e).harness = s.harness := by unfold State.mgmtPush; dsimp only; generalize (_ && _) = c; cases c <;> rfl
@[simp] theorem State.mgmtPush_clock : (s.mgmtPush e).clock = s.clock := by unfold State.mgmtPush; dsimp only; generalize (_ && _) = c; cases c <;> rfl
@[simp] theorem State.mgmtPush_epoch : (s.mgmtPush e).epoch = s.epoch := by unfold State.mgmtPush; dsimp only; generalize (_ && _) = c; cases c <;> rfl
@[simp] theorem State.mgmtPush_jobs : (s.mgmtPush e).jobs = s.jobs := by unfold State.mgmtPush; dsimp only; generalize (_ && _) = c; cases c <;> rfl
@[simp] theorem State.mgmtPush_abortFifo : (s.mgmtPush e).abortFifo = s.abortFifo := by unfold State.mgmtPush; dsimp only; generalize (_ && _) = c; cases c <;> rfl
@[simp] theorem State.mgmtPush_tccOrphan : (s.mgmtPush e).tccOrphan = s.tccOrphan := by unfold State.mgmtPush; dsimp only; generalize (_ && _) = c; cases c <;> rfl
@[simp] theorem State.mgmtPush_retakes : (s.mgmtPush e).retakes = s.retakes := by unfold State.mgmtPush; dsimp only; generalize (_ && _) = c; cases c <;> rfl
@[simp] theorem State.mgmtPush_retakeLog : (s.mgmtPush e).retakeLog = s.retakeLog := by unfold State.mgmtPush; dsimp only; generalize (_ && _) = c; cases c <;> rfl
@[simp] theorem State.mgmtPush_logHead : (s.mgmtPush e).logHead = s.logHead := by unfold State.mgmtPush; dsimp only; generalize (_ && _) = c; cases c <;> rfl
@[simp] theorem State.mgmtPush_decCnt : (s.mgmtPush e).decCnt = s.decCnt := by unfold State.mgmtPush; dsimp only; generalize (_ && _) = c; cases c <;> rfl
@[simp] theorem State.mgmtPush_retakesOrdered : (s.mgmtPush e).retakesOrdered = s.retakesOrdered := by unfold State.mgmtPush; dsimp only; generalize (_ && _) = c; cases c <;> rfl
@[simp] theorem State.mgmtPush_retakeTimeouts : (s.mgmtPush e).retakeTimeouts = s.retakeTimeouts := by unfold State.mgmtPush; dsimp only; generalize (_ && _) = c; cases c <;> rfl
@[simp] theorem State.mgmtPush_staleReleases : (s.mgmtPush e).staleReleases = s.staleReleases := by unfold State.mgmtPush; dsimp only; generalize (_ && _) = c; cases c <;> rfl
@[simp] theorem State.mgmtPush_bands : (s.mgmtPush e).bands = s.bands := by unfold State.mgmtPush; dsimp only; generalize (_ && _) = c; cases c <;> rfl
@[simp] theorem State.mgmtPush_ports : (s.mgmtPush e).ports = s.ports := by unfold State.mgmtPush; dsimp only; generalize (_ && _) = c; cases c <;> rfl
@[simp] theorem State.mgmtPush_slices : (s.mgmtPush e).slices = s.slices := by unfold State.mgmtPush; dsimp only; generalize (_ && _) = c; cases c <;> rfl
@[simp] theorem State.mgmtPush_inlog : (s.mgmtPush e).inlog = s.inlog := by unfold State.mgmtPush; dsimp only; generalize (_ && _) = c; cases c <;> rfl
@[simp] theorem State.mgmtPush_replay : (s.mgmtPush e).replay = s.replay := by unfold State.mgmtPush; dsimp only; generalize (_ && _) = c; cases c <;> rfl
@[simp] theorem State.mgmtPush_streams : (s.mgmtPush e).streams = s.streams := by unfold State.mgmtPush; dsimp only; generalize (_ && _) = c; cases c <;> rfl
@[simp] theorem State.mgmtPush_sign : (s.mgmtPush e).sign = s.sign := by unfold State.mgmtPush; dsimp only; generalize (_ && _) = c; cases c <;> rfl
@[simp] theorem State.mgmtPush_restoreSkipped : (s.mgmtPush e).restoreSkipped = s.restoreSkipped := by unfold State.mgmtPush; dsimp only; generalize (_ && _) = c; cases c <;> rfl
@[simp] theorem State.mgmtPush_leakAt : (s.mgmtPush e).leakAt = s.leakAt := by unfold State.mgmtPush; dsimp only; generalize (_ && _) = c; cases c <;> rfl
@[simp] theorem State.mgmtPush_test : (s.mgmtPush e).test = s.test := by unfold State.mgmtPush; dsimp only; generalize (_ && _) = c; cases c <;> rfl
@[simp] theorem State.mgmtPush_ind : (s.mgmtPush e).ind = s.ind := by unfold State.mgmtPush; dsimp only; generalize (_ && _) = c; cases c <;> rfl

end mgmtPush

/-! ### setSt -/

section setSt
variable (s : State) (h : HubId) (x : HubSt)

@[simp] theorem State.setSt_pending : (s.setSt h x).pending = s.pending := by unfold State.setSt; dsimp only; split <;> simp
@[simp] theorem State.setSt_out : (s.setSt h x).out = s.out := by unfold State.setSt; dsimp only; split <;> simp
@[simp] theorem State.setSt_now : (s.setSt h x).now = s.now := by unfold State.setSt; dsimp only; split <;> simp
@[simp] theorem State.setSt_readyAt : (s.setSt h x).readyAt = s.readyAt := by unfold State.setSt; dsimp only; split <;> simp
@[simp] theorem State.setSt_freeCtr : (s.setSt h x).freeCtr = s.freeCtr := by unfold State.setSt; dsimp only; split <;> simp
@[simp] theorem State.setSt_build : (s.setSt h x).build = s.build := by unfold State.setSt; dsimp only; split <;> simp
@[simp] theorem State.setSt_rstL : (s.setSt h x).rstL = s.rstL := by unfold State.setSt; dsimp only; split <;> simp
@[simp] theorem State.setSt_agents : (s.setSt h x).agents = s.agents := by unfold State.setSt; dsimp only; split <;> simp
@[simp] theorem State.setSt_concs : (s.setSt h x).concs = s.concs := by unfold State.setSt; dsimp only; split <;> simp
@[simp] theorem State.setSt_engines : (s.setSt h x).engines = s.engines := by unfold State.setSt; dsimp only; split <;> simp
@[simp] theorem State.setSt_links : (s.setSt h x).links = s.links := by unfold State.setSt; dsimp only; split <;> simp
@[simp] theorem State.setSt_ways : (s.setSt h x).ways = s.ways := by unfold State.setSt; dsimp only; split <;> simp
@[simp] theorem State.setSt_twin : (s.setSt h x).twin = s.twin := by unfold State.setSt; dsimp only; split <;> simp
@[simp] theorem State.setSt_xlink : (s.setSt h x).xlink = s.xlink := by unfold State.setSt; dsimp only; split <;> simp
@[simp] theorem State.setSt_alive : (s.setSt h x).alive = s.alive := by unfold State.setSt; dsimp only; split <;> simp
@[simp] theorem State.setSt_curbPort : (s.setSt h x).curbPort = s.curbPort := by unfold State.setSt; dsimp only; split <;> simp
@[simp] theorem State.setSt_flash : (s.setSt h x).flash = s.flash := by unfold State.setSt; dsimp only; split <;> simp
@[simp] theorem State.setSt_latch : (s.setSt h x).latch = s.latch := by unfold State.setSt; dsimp only; split <;> simp
@[simp] theorem State.setSt_cmd : (s.setSt h x).cmd = s.cmd := by unfold State.setSt; dsimp only; split <;> simp
@[simp] theorem State.setSt_stage : (s.setSt h x).stage = s.stage := by unfold State.setSt; dsimp only; split <;> simp
@[simp] theorem State.setSt_stageFrom : (s.setSt h x).stageFrom = s.stageFrom := by unfold State.setSt; dsimp only; split <;> simp
@[simp] theorem State.setSt_stages : (s.setSt h x).stages = s.stages := by unfold State.setSt; dsimp only; split <;> simp
@[simp] theorem State.setSt_image : (s.setSt h x).image = s.image := by unfold State.setSt; dsimp only; split <;> simp
@[simp] theorem State.setSt_keyPort : (s.setSt h x).keyPort = s.keyPort := by unfold State.setSt; dsimp only; split <;> simp
@[simp] theorem State.setSt_keys : (s.setSt h x).keys = s.keys := by unfold State.setSt; dsimp only; split <;> simp
@[simp] theorem State.setSt_harness : (s.setSt h x).harness = s.harness := by unfold State.setSt; dsimp only; split <;> simp
@[simp] theorem State.setSt_clock : (s.setSt h x).clock = s.clock := by unfold State.setSt; dsimp only; split <;> simp
@[simp] theorem State.setSt_epoch : (s.setSt h x).epoch = s.epoch := by unfold State.setSt; dsimp only; split <;> simp
@[simp] theorem State.setSt_jobs : (s.setSt h x).jobs = s.jobs := by unfold State.setSt; dsimp only; split <;> simp
@[simp] theorem State.setSt_abortFifo : (s.setSt h x).abortFifo = s.abortFifo := by unfold State.setSt; dsimp only; split <;> simp
@[simp] theorem State.setSt_tccOrphan : (s.setSt h x).tccOrphan = s.tccOrphan := by unfold State.setSt; dsimp only; split <;> simp
@[simp] theorem State.setSt_retakes : (s.setSt h x).retakes = s.retakes := by unfold State.setSt; dsimp only; split <;> simp
@[simp] theorem State.setSt_retakeLog : (s.setSt h x).retakeLog = s.retakeLog := by unfold State.setSt; dsimp only; split <;> simp
@[simp] theorem State.setSt_logHead : (s.setSt h x).logHead = s.logHead := by unfold State.setSt; dsimp only; split <;> simp
@[simp] theorem State.setSt_decCnt : (s.setSt h x).decCnt = s.decCnt := by unfold State.setSt; dsimp only; split <;> simp
@[simp] theorem State.setSt_retakesOrdered : (s.setSt h x).retakesOrdered = s.retakesOrdered := by unfold State.setSt; dsimp only; split <;> simp
@[simp] theorem State.setSt_retakeTimeouts : (s.setSt h x).retakeTimeouts = s.retakeTimeouts := by unfold State.setSt; dsimp only; split <;> simp
@[simp] theorem State.setSt_staleReleases : (s.setSt h x).staleReleases = s.staleReleases := by unfold State.setSt; dsimp only; split <;> simp
@[simp] theorem State.setSt_bands : (s.setSt h x).bands = s.bands := by unfold State.setSt; dsimp only; split <;> simp
@[simp] theorem State.setSt_ports : (s.setSt h x).ports = s.ports := by unfold State.setSt; dsimp only; split <;> simp
@[simp] theorem State.setSt_slices : (s.setSt h x).slices = s.slices := by unfold State.setSt; dsimp only; split <;> simp
@[simp] theorem State.setSt_inlog : (s.setSt h x).inlog = s.inlog := by unfold State.setSt; dsimp only; split <;> simp
@[simp] theorem State.setSt_replay : (s.setSt h x).replay = s.replay := by unfold State.setSt; dsimp only; split <;> simp
@[simp] theorem State.setSt_streams : (s.setSt h x).streams = s.streams := by unfold State.setSt; dsimp only; split <;> simp
@[simp] theorem State.setSt_sign : (s.setSt h x).sign = s.sign := by unfold State.setSt; dsimp only; split <;> simp
@[simp] theorem State.setSt_restoreSkipped : (s.setSt h x).restoreSkipped = s.restoreSkipped := by unfold State.setSt; dsimp only; split <;> simp
@[simp] theorem State.setSt_leakAt : (s.setSt h x).leakAt = s.leakAt := by unfold State.setSt; dsimp only; split <;> simp
@[simp] theorem State.setSt_test : (s.setSt h x).test = s.test := by unfold State.setSt; dsimp only; split <;> simp
@[simp] theorem State.setSt_ind : (s.setSt h x).ind = s.ind := by unfold State.setSt; dsimp only; split <;> simp

end setSt

/-! ### endCmd -/

section endCmd
variable (s : State) (c : Nat)

@[simp] theorem State.endCmd_pending : (s.endCmd c).pending = s.pending := rfl
@[simp] theorem State.endCmd_out : (s.endCmd c).out = s.out := rfl
@[simp] theorem State.endCmd_now : (s.endCmd c).now = s.now := rfl
@[simp] theorem State.endCmd_readyAt : (s.endCmd c).readyAt = s.readyAt := rfl
@[simp] theorem State.endCmd_freeCtr : (s.endCmd c).freeCtr = s.freeCtr := rfl
@[simp] theorem State.endCmd_build : (s.endCmd c).build = s.build := rfl
@[simp] theorem State.endCmd_rstL : (s.endCmd c).rstL = s.rstL := rfl
@[simp] theorem State.endCmd_agents : (s.endCmd c).agents = s.agents := rfl
@[simp] theorem State.endCmd_concs : (s.endCmd c).concs = s.concs := rfl
@[simp] theorem State.endCmd_engines : (s.endCmd c).engines = s.engines := rfl
@[simp] theorem State.endCmd_links : (s.endCmd c).links = s.links := rfl
@[simp] theorem State.endCmd_ways : (s.endCmd c).ways = s.ways := rfl
@[simp] theorem State.endCmd_twin : (s.endCmd c).twin = s.twin := rfl
@[simp] theorem State.endCmd_xlink : (s.endCmd c).xlink = s.xlink := rfl
@[simp] theorem State.endCmd_alive : (s.endCmd c).alive = s.alive := rfl
@[simp] theorem State.endCmd_curbPort : (s.endCmd c).curbPort = s.curbPort := rfl
@[simp] theorem State.endCmd_flash : (s.endCmd c).flash = s.flash := rfl
@[simp] theorem State.endCmd_latch : (s.endCmd c).latch = s.latch := rfl
@[simp] theorem State.endCmd_stage : (s.endCmd c).stage = s.stage := rfl
@[simp] theorem State.endCmd_stageFrom : (s.endCmd c).stageFrom = s.stageFrom := rfl
@[simp] theorem State.endCmd_stages : (s.endCmd c).stages = s.stages := rfl
@[simp] theorem State.endCmd_image : (s.endCmd c).image = s.image := rfl
@[simp] theorem State.endCmd_keyPort : (s.endCmd c).keyPort = s.keyPort := rfl
@[simp] theorem State.endCmd_keys : (s.endCmd c).keys = s.keys := rfl
@[simp] theorem State.endCmd_harness : (s.endCmd c).harness = s.harness := rfl
@[simp] theorem State.endCmd_clock : (s.endCmd c).clock = s.clock := rfl
@[simp] theorem State.endCmd_epoch : (s.endCmd c).epoch = s.epoch := rfl
@[simp] theorem State.endCmd_jobs : (s.endCmd c).jobs = s.jobs := rfl
@[simp] theorem State.endCmd_abortFifo : (s.endCmd c).abortFifo = s.abortFifo := rfl
@[simp] theorem State.endCmd_tccOrphan : (s.endCmd c).tccOrphan = s.tccOrphan := rfl
@[simp] theorem State.endCmd_retakes : (s.endCmd c).retakes = s.retakes := rfl
@[simp] theorem State.endCmd_retakeLog : (s.endCmd c).retakeLog = s.retakeLog := rfl
@[simp] theorem State.endCmd_logHead : (s.endCmd c).logHead = s.logHead := rfl
@[simp] theorem State.endCmd_decCnt : (s.endCmd c).decCnt = s.decCnt := rfl
@[simp] theorem State.endCmd_retakesOrdered : (s.endCmd c).retakesOrdered = s.retakesOrdered := rfl
@[simp] theorem State.endCmd_retakeTimeouts : (s.endCmd c).retakeTimeouts = s.retakeTimeouts := rfl
@[simp] theorem State.endCmd_staleReleases : (s.endCmd c).staleReleases = s.staleReleases := rfl
@[simp] theorem State.endCmd_bands : (s.endCmd c).bands = s.bands := rfl
@[simp] theorem State.endCmd_ports : (s.endCmd c).ports = s.ports := rfl
@[simp] theorem State.endCmd_slices : (s.endCmd c).slices = s.slices := rfl
@[simp] theorem State.endCmd_inlog : (s.endCmd c).inlog = s.inlog := rfl
@[simp] theorem State.endCmd_replay : (s.endCmd c).replay = s.replay := rfl
@[simp] theorem State.endCmd_streams : (s.endCmd c).streams = s.streams := rfl
@[simp] theorem State.endCmd_sign : (s.endCmd c).sign = s.sign := rfl
@[simp] theorem State.endCmd_restoreSkipped : (s.endCmd c).restoreSkipped = s.restoreSkipped := rfl
@[simp] theorem State.endCmd_leakAt : (s.endCmd c).leakAt = s.leakAt := rfl
@[simp] theorem State.endCmd_test : (s.endCmd c).test = s.test := rfl
@[simp] theorem State.endCmd_mgmt : (s.endCmd c).mgmt = s.mgmt := rfl
@[simp] theorem State.endCmd_ind : (s.endCmd c).ind = s.ind := rfl

end endCmd

/-! ### orderFences -/

section orderFences
variable (s : State) (h : HubId) (l : List Nat)

@[simp] theorem State.orderFences_pending : (s.orderFences h l).pending = s.pending := by simp [State.orderFences]
@[simp] theorem State.orderFences_out : (s.orderFences h l).out = s.out := by simp [State.orderFences]
@[simp] theorem State.orderFences_now : (s.orderFences h l).now = s.now := by simp [State.orderFences]
@[simp] theorem State.orderFences_readyAt : (s.orderFences h l).readyAt = s.readyAt := by simp [State.orderFences]
@[simp] theorem State.orderFences_freeCtr : (s.orderFences h l).freeCtr = s.freeCtr := by simp [State.orderFences]
@[simp] theorem State.orderFences_build : (s.orderFences h l).build = s.build := by simp [State.orderFences]
@[simp] theorem State.orderFences_rstL : (s.orderFences h l).rstL = s.rstL := by simp [State.orderFences]
@[simp] theorem State.orderFences_agents : (s.orderFences h l).agents = s.agents := by simp [State.orderFences]
@[simp] theorem State.orderFences_concs : (s.orderFences h l).concs = s.concs := by simp [State.orderFences]
@[simp] theorem State.orderFences_engines : (s.orderFences h l).engines = s.engines := by simp [State.orderFences]
@[simp] theorem State.orderFences_links : (s.orderFences h l).links = s.links := by simp [State.orderFences]
@[simp] theorem State.orderFences_ways : (s.orderFences h l).ways = s.ways := by simp [State.orderFences]
@[simp] theorem State.orderFences_twin : (s.orderFences h l).twin = s.twin := by simp [State.orderFences]
@[simp] theorem State.orderFences_xlink : (s.orderFences h l).xlink = s.xlink := by simp [State.orderFences]
@[simp] theorem State.orderFences_alive : (s.orderFences h l).alive = s.alive := by simp [State.orderFences]
@[simp] theorem State.orderFences_curbPort : (s.orderFences h l).curbPort = s.curbPort := by simp [State.orderFences]
@[simp] theorem State.orderFences_flash : (s.orderFences h l).flash = s.flash := by simp [State.orderFences]
@[simp] theorem State.orderFences_latch : (s.orderFences h l).latch = s.latch := by simp [State.orderFences]
@[simp] theorem State.orderFences_cmd : (s.orderFences h l).cmd = s.cmd := by simp [State.orderFences]
@[simp] theorem State.orderFences_stage : (s.orderFences h l).stage = s.stage := by simp [State.orderFences]
@[simp] theorem State.orderFences_stageFrom : (s.orderFences h l).stageFrom = s.stageFrom := by simp [State.orderFences]
@[simp] theorem State.orderFences_stages : (s.orderFences h l).stages = s.stages := by simp [State.orderFences]
@[simp] theorem State.orderFences_image : (s.orderFences h l).image = s.image := by simp [State.orderFences]
@[simp] theorem State.orderFences_keyPort : (s.orderFences h l).keyPort = s.keyPort := by simp [State.orderFences]
@[simp] theorem State.orderFences_keys : (s.orderFences h l).keys = s.keys := by simp [State.orderFences]
@[simp] theorem State.orderFences_harness : (s.orderFences h l).harness = s.harness := by simp [State.orderFences]
@[simp] theorem State.orderFences_clock : (s.orderFences h l).clock = s.clock := by simp [State.orderFences]
@[simp] theorem State.orderFences_epoch : (s.orderFences h l).epoch = s.epoch := by simp [State.orderFences]
@[simp] theorem State.orderFences_jobs : (s.orderFences h l).jobs = s.jobs := by simp [State.orderFences]
@[simp] theorem State.orderFences_abortFifo : (s.orderFences h l).abortFifo = s.abortFifo := by simp [State.orderFences]
@[simp] theorem State.orderFences_tccOrphan : (s.orderFences h l).tccOrphan = s.tccOrphan := by simp [State.orderFences]
@[simp] theorem State.orderFences_retakes : (s.orderFences h l).retakes = s.retakes := by simp [State.orderFences]
@[simp] theorem State.orderFences_retakeLog : (s.orderFences h l).retakeLog = s.retakeLog := by simp [State.orderFences]
@[simp] theorem State.orderFences_logHead : (s.orderFences h l).logHead = s.logHead := by simp [State.orderFences]
@[simp] theorem State.orderFences_decCnt : (s.orderFences h l).decCnt = s.decCnt := by simp [State.orderFences]
@[simp] theorem State.orderFences_retakesOrdered : (s.orderFences h l).retakesOrdered = s.retakesOrdered := by simp [State.orderFences]
@[simp] theorem State.orderFences_retakeTimeouts : (s.orderFences h l).retakeTimeouts = s.retakeTimeouts := by simp [State.orderFences]
@[simp] theorem State.orderFences_staleReleases : (s.orderFences h l).staleReleases = s.staleReleases := by simp [State.orderFences]
@[simp] theorem State.orderFences_bands : (s.orderFences h l).bands = s.bands := by simp [State.orderFences]
@[simp] theorem State.orderFences_ports : (s.orderFences h l).ports = s.ports := by simp [State.orderFences]
@[simp] theorem State.orderFences_slices : (s.orderFences h l).slices = s.slices := by simp [State.orderFences]
@[simp] theorem State.orderFences_inlog : (s.orderFences h l).inlog = s.inlog := by simp [State.orderFences]
@[simp] theorem State.orderFences_replay : (s.orderFences h l).replay = s.replay := by simp [State.orderFences]
@[simp] theorem State.orderFences_streams : (s.orderFences h l).streams = s.streams := by simp [State.orderFences]
@[simp] theorem State.orderFences_sign : (s.orderFences h l).sign = s.sign := by simp [State.orderFences]
@[simp] theorem State.orderFences_restoreSkipped : (s.orderFences h l).restoreSkipped = s.restoreSkipped := by simp [State.orderFences]
@[simp] theorem State.orderFences_leakAt : (s.orderFences h l).leakAt = s.leakAt := by simp [State.orderFences]
@[simp] theorem State.orderFences_test : (s.orderFences h l).test = s.test := by simp [State.orderFences]
@[simp] theorem State.orderFences_mgmt : (s.orderFences h l).mgmt = s.mgmt := by simp [State.orderFences]
@[simp] theorem State.orderFences_ind : (s.orderFences h l).ind = s.ind := by simp [State.orderFences]

end orderFences

/-! ### endFences -/

section endFences
variable (s : State) (h : HubId) (l : List Nat)

@[simp] theorem State.endFences_pending : (s.endFences h l).pending = s.pending := by simp [State.endFences]
@[simp] theorem State.endFences_out : (s.endFences h l).out = s.out := by simp [State.endFences]
@[simp] theorem State.endFences_now : (s.endFences h l).now = s.now := by simp [State.endFences]
@[simp] theorem State.endFences_readyAt : (s.endFences h l).readyAt = s.readyAt := by simp [State.endFences]
@[simp] theorem State.endFences_freeCtr : (s.endFences h l).freeCtr = s.freeCtr := by simp [State.endFences]
@[simp] theorem State.endFences_build : (s.endFences h l).build = s.build := by simp [State.endFences]
@[simp] theorem State.endFences_rstL : (s.endFences h l).rstL = s.rstL := by simp [State.endFences]
@[simp] theorem State.endFences_agents : (s.endFences h l).agents = s.agents := by simp [State.endFences]
@[simp] theorem State.endFences_concs : (s.endFences h l).concs = s.concs := by simp [State.endFences]
@[simp] theorem State.endFences_engines : (s.endFences h l).engines = s.engines := by simp [State.endFences]
@[simp] theorem State.endFences_links : (s.endFences h l).links = s.links := by simp [State.endFences]
@[simp] theorem State.endFences_ways : (s.endFences h l).ways = s.ways := by simp [State.endFences]
@[simp] theorem State.endFences_twin : (s.endFences h l).twin = s.twin := by simp [State.endFences]
@[simp] theorem State.endFences_xlink : (s.endFences h l).xlink = s.xlink := by simp [State.endFences]
@[simp] theorem State.endFences_alive : (s.endFences h l).alive = s.alive := by simp [State.endFences]
@[simp] theorem State.endFences_curbPort : (s.endFences h l).curbPort = s.curbPort := by simp [State.endFences]
@[simp] theorem State.endFences_flash : (s.endFences h l).flash = s.flash := by simp [State.endFences]
@[simp] theorem State.endFences_latch : (s.endFences h l).latch = s.latch := by simp [State.endFences]
@[simp] theorem State.endFences_cmd : (s.endFences h l).cmd = s.cmd := by simp [State.endFences]
@[simp] theorem State.endFences_stage : (s.endFences h l).stage = s.stage := by simp [State.endFences]
@[simp] theorem State.endFences_stageFrom : (s.endFences h l).stageFrom = s.stageFrom := by simp [State.endFences]
@[simp] theorem State.endFences_stages : (s.endFences h l).stages = s.stages := by simp [State.endFences]
@[simp] theorem State.endFences_image : (s.endFences h l).image = s.image := by simp [State.endFences]
@[simp] theorem State.endFences_keyPort : (s.endFences h l).keyPort = s.keyPort := by simp [State.endFences]
@[simp] theorem State.endFences_keys : (s.endFences h l).keys = s.keys := by simp [State.endFences]
@[simp] theorem State.endFences_harness : (s.endFences h l).harness = s.harness := by simp [State.endFences]
@[simp] theorem State.endFences_clock : (s.endFences h l).clock = s.clock := by simp [State.endFences]
@[simp] theorem State.endFences_epoch : (s.endFences h l).epoch = s.epoch := by simp [State.endFences]
@[simp] theorem State.endFences_jobs : (s.endFences h l).jobs = s.jobs := by simp [State.endFences]
@[simp] theorem State.endFences_abortFifo : (s.endFences h l).abortFifo = s.abortFifo := by simp [State.endFences]
@[simp] theorem State.endFences_tccOrphan : (s.endFences h l).tccOrphan = s.tccOrphan := by simp [State.endFences]
@[simp] theorem State.endFences_retakes : (s.endFences h l).retakes = s.retakes := by simp [State.endFences]
@[simp] theorem State.endFences_retakeLog : (s.endFences h l).retakeLog = s.retakeLog := by simp [State.endFences]
@[simp] theorem State.endFences_logHead : (s.endFences h l).logHead = s.logHead := by simp [State.endFences]
@[simp] theorem State.endFences_decCnt : (s.endFences h l).decCnt = s.decCnt := by simp [State.endFences]
@[simp] theorem State.endFences_retakesOrdered : (s.endFences h l).retakesOrdered = s.retakesOrdered := by simp [State.endFences]
@[simp] theorem State.endFences_retakeTimeouts : (s.endFences h l).retakeTimeouts = s.retakeTimeouts := by simp [State.endFences]
@[simp] theorem State.endFences_staleReleases : (s.endFences h l).staleReleases = s.staleReleases := by simp [State.endFences]
@[simp] theorem State.endFences_bands : (s.endFences h l).bands = s.bands := by simp [State.endFences]
@[simp] theorem State.endFences_ports : (s.endFences h l).ports = s.ports := by simp [State.endFences]
@[simp] theorem State.endFences_slices : (s.endFences h l).slices = s.slices := by simp [State.endFences]
@[simp] theorem State.endFences_inlog : (s.endFences h l).inlog = s.inlog := by simp [State.endFences]
@[simp] theorem State.endFences_replay : (s.endFences h l).replay = s.replay := by simp [State.endFences]
@[simp] theorem State.endFences_streams : (s.endFences h l).streams = s.streams := by simp [State.endFences]
@[simp] theorem State.endFences_sign : (s.endFences h l).sign = s.sign := by simp [State.endFences]
@[simp] theorem State.endFences_restoreSkipped : (s.endFences h l).restoreSkipped = s.restoreSkipped := by simp [State.endFences]
@[simp] theorem State.endFences_leakAt : (s.endFences h l).leakAt = s.leakAt := by simp [State.endFences]
@[simp] theorem State.endFences_test : (s.endFences h l).test = s.test := by simp [State.endFences]
@[simp] theorem State.endFences_mgmt : (s.endFences h l).mgmt = s.mgmt := by simp [State.endFences]
@[simp] theorem State.endFences_ind : (s.endFences h l).ind = s.ind := by simp [State.endFences]

end endFences

/-! ### Reading a hub back -/

@[simp] theorem State.modX_hub (s : State) (h k : HubId) (f : XSend → XSend) : (s.modX h f).hub k = s.hub k := by
  cases h <;> cases k <;> rfl
@[simp] theorem State.mirrorWrite_hub (s : State) (a : Nat) (d : W32) (k : HubId) : (s.mirrorWrite a d).hub k = s.hub k := by
  unfold State.mirrorWrite; split <;> simp
@[simp] theorem State.mirrorOut_hub (s : State) (h : HubId) (m : Msg) (k : HubId) : (s.mirrorOut h m).hub k = s.hub k := by
  unfold State.mirrorOut; split <;> simp
@[simp] theorem State.mgmtPush_hub (s : State) (e : MgmtEvent) (k : HubId) : (s.mgmtPush e).hub k = s.hub k := by
  cases k <;> simp [State.hub]
@[simp] theorem State.present_hub (s : State) (o : PortOut) (k : HubId) : (s.present o).hub k = s.hub k := rfl
@[simp] theorem State.advanceTo_hub (s : State) (n : Nat) (k : HubId) : (s.advanceTo n).hub k = s.hub k := by unfold State.advanceTo; split <;> rfl
@[simp] theorem State.setSt_hub_self (s : State) (h : HubId) (x : HubSt) : (s.setSt h x).hub h = { s.hub h with st := x } := by
  unfold State.setSt; dsimp only; split <;> simp
theorem State.setSt_hub_other (s : State) {h k : HubId} (e : k ≠ h) (x : HubSt) : (s.setSt h x).hub k = s.hub k := by
  unfold State.setSt; dsimp only; split <;> simp [State.hub_modHub_other s e]
@[simp] theorem State.endCmd_hub (s : State) (c : Nat) (k : HubId) :
    (s.endCmd c).hub k = { s.hub k with irq := (s.hub k).irq ||| 8#32 } := by cases k <;> rfl
@[simp] theorem State.endCmd_cmd (s : State) (c : Nat) : (s.endCmd c).cmd = { s.cmd with code := c } := rfl

/-! ### The acting hubs in turn -/

/-- What is done at every acting hub is done at hub A first and then at hub B. -/
theorem State.eachHub_eq (s : State) (f : HubId → State → State) :
    s.eachHub f = (if s.hubUp .b then f .b else id) ((if s.hubUp .a then f .a else id) s) := by
  unfold State.eachHub State.upHubs
  cases ha : s.hubUp .a <;> cases hb : s.hubUp .b <;> simp [List.filter, ha, hb]

end Sys2Proof.Machine
end

