-- ==== Sys2Proof/Laws/Images.lean ====
section
/-! SUPPORT. The packets of the agent image and the bytes of a save image. -/

namespace Sys2Proof.Machine

open Sys2Proof

/-- A packet's header names its index (R332). -/
theorem imageHeader_index (c i : Nat) (pl : List Byte) (h : i < 256) : bits (imageHeader c i pl) 47 40 = i := by
  have k := (crc32c (bytesBE 4 (0x1A6E * 2 ^ 16 + i % 256 * 2 ^ 8 + c % 256) ++ pl)).isLt
  simp only [bits, imageHeader, BitVec.toNat_ofNat]
  omega

/-- Every packet that the leader sends is good where it arrives unaltered (R332, R333). -/
theorem imageGood_imageHeader (c i : Nat) (pl : List Byte) (h : i < c) (hc : c ≤ 64) : imageGood c (imageHeader c i pl) pl = true := by
  simp [imageGood, imageHeader_index c i pl (by omega), h]

/-- A sealed image carries the SHA-384 of its bytes (R370). -/
theorem sealSave_digest (i : SaveImage) : (sealSave i).digest = sha384 (imageBytes (sealSave i)) := rfl

/-- A number in `n` bytes has `n` bytes. -/
theorem bytesBE_length (n x : Nat) : (bytesBE n x).length = n := by
  induction n with
  | zero => rfl
  | succ n ih => simp [bytesBE, ih]

/-- Bytes filled up to a length have it. -/
theorem padTo_length (n : Nat) (l : List Byte) : (padTo n l).length = n := by simp [padTo]

/-- The sections of a save image have the lengths of R370. -/
theorem imageBytes_length (i : SaveImage) :
    (imageBytes i).length = 128 + 184 * i.slates.length + 16 * i.envelopes.length + 1024 + 16 + 80 * i.streams.length + 8192 + 4096 + 512 := by
  simp only [imageBytes, imageBody, List.length_append, padTo_length, bytesBE_length, List.length_map, List.length_range,
    List.length_flatMap, List.map_const', List.sum_replicate_nat]
  omega

end Sys2Proof.Machine
end

