-- ==== Sys2Proof/Laws/PerInstr.lean ====
section
/-! SUPPORT. One lemma for each command: operands that fit some build lie within the bounds of R4. -/

namespace Sys2Proof

/-- The bounds that R4 puts on the parameters that operands depend on. -/
theorem Build.wf_bounds {b : Build} (h : b.wf = true) :
    b.agents ≤ 4096 ∧ b.clusters ≤ 256 ∧ b.dies ≤ 8 ∧ b.lanes ≤ 64 ∧ b.contexts ≤ 16 ∧ b.hubs ≤ 2 ∧ b.tagEngines ≤ 64
      ∧ b.hkChannels ≤ 512 := by
  unfold Build.wf at h
  obtain ⟨_, h1, _, _, _, h2, _, h3, h4, h5, h6, _, h7, _, h8, _⟩ := of_decide_eq_true h
  refine ⟨h1, h2, h3, ?_, ?_, ?_, h7, h8⟩
  · simp only [List.mem_cons, List.not_mem_nil, or_false] at h4; omega
  · simp only [List.mem_cons, List.not_mem_nil, or_false] at h5; omega
  · simp only [List.mem_cons, List.not_mem_nil, or_false] at h6; omega

/-- Every hub is built in the largest build. -/
theorem Build.largest_hasHub (h : HubId) : Build.largest.hasHub h = true := by cases h <;> rfl

theorem Build.hasLinkEnd_largest {b : Build} (hb : b.wf = true) {i : Nat} (h : b.hasLinkEnd i = true) :
    Build.largest.hasLinkEnd i = true := by
  have := Build.wf_bounds hb
  simp only [Build.hasLinkEnd, decide_eq_true_eq] at h ⊢
  exact ⟨by decide, by show i < 2 * 8; omega⟩

theorem NetUnit.wf_largest {b : Build} (hb : b.wf = true) {u : NetUnit} (h : u.wf b = true) : u.wf Build.largest = true := by
  have := Build.wf_bounds hb
  cases u with
  | agent i => simp only [NetUnit.wf, decide_eq_true_eq] at h ⊢; show i < 4096; omega
  | conc i => simp only [NetUnit.wf, decide_eq_true_eq] at h ⊢; show i < 256; omega
  | engine i => simp only [NetUnit.wf, decide_eq_true_eq] at h ⊢; show i < 64; omega
  | linkEnd i => exact Build.hasLinkEnd_largest hb h
  | hub x => exact Build.largest_hasHub x

theorem Region.wf_largest {b : Build} (hb : b.wf = true) {r : Region} (h : r.wf b = true) : r.wf Build.largest = true := by
  have := Build.wf_bounds hb
  cases r with
  | tile i => simp only [Region.wf, decide_eq_true_eq] at h ⊢; show i < 4096; omega
  | agent i => simp only [Region.wf, decide_eq_true_eq] at h ⊢; show i < 4096; omega
  | conc i => simp only [Region.wf, decide_eq_true_eq] at h ⊢; show i < 256; omega
  | hub x => exact Build.largest_hasHub x

theorem TrainLink.wf_largest {b : Build} (hb : b.wf = true) {l : TrainLink} (h : l.wf b = true) : l.wf Build.largest = true := by
  have := Build.wf_bounds hb
  cases l with
  | die d => simp only [TrainLink.wf, decide_eq_true_eq] at h ⊢; exact ⟨by decide, by show d < 8; omega⟩
  | cross => rfl

theorem KatUnit.wf_largest {b : Build} (hb : b.wf = true) {u : KatUnit} (h : u.wf b = true) : u.wf Build.largest = true := by
  have := Build.wf_bounds hb
  cases u with
  | lane l => simp only [KatUnit.wf, decide_eq_true_eq] at h ⊢; show l < 64; omega
  | reducer => rfl
  | generator g => exact h

/-- A list check that follows from a wider one. -/
theorem all_of_all {α : Type} {l : List α} {p q : α → Bool} (h : l.all p = true) (k : ∀ x, p x = true → q x = true) :
    l.all q = true := by
  rw [List.all_eq_true] at h ⊢
  exact fun x hx => k x (h x hx)

theorem SaveImage.wf_largest {b : Build} (hb : b.wf = true) {x : SaveImage} (h : x.wf b = true) :
    x.wf Build.largest = true := by
  have := Build.wf_bounds hb
  simp only [SaveImage.wf, Bool.and_eq_true] at h ⊢
  obtain ⟨⟨⟨h1, h2⟩, h3⟩, h4⟩ := h
  refine ⟨⟨⟨all_of_all h1 ?_, all_of_all h2 ?_⟩, h3⟩, h4⟩
  · intro e he
    simp only [decide_eq_true_eq] at he ⊢
    exact ⟨by show e.cluster < 256; omega, he.2⟩
  · intro e he
    simp only [decide_eq_true_eq] at he ⊢
    exact ⟨by show e.1 < 256; omega, he.2⟩

namespace Laws.WithinLargest

/-- Operands that some legal build admits are within the bounds of R4. -/
def Statement (i : Instr) : Prop := ∀ b : Build, b.wf = true → i.wf b = true → i.wf Build.largest = true

theorem rstLAssert : Statement (.rstLAssert) := fun _ _ _ => rfl
theorem rstLDeassert : Statement (.rstLDeassert) := fun _ _ _ => rfl
theorem registerWrite (addr : BitVec 16) (data : W32) : Statement (.registerWrite addr data) := by
  intro b hb h
  simp only [Instr.wf, decide_eq_true_eq] at h ⊢
  exact h
theorem regAccessLatch (addr : BitVec 16) : Statement (.regAccessLatch addr) := by
  intro b hb h
  simp only [Instr.wf, decide_eq_true_eq] at h ⊢
  exact h
theorem start (tag : Byte) : Statement (.start tag) := fun _ _ _ => rfl
theorem loadHarness (tag : Byte) : Statement (.loadHarness tag) := fun _ _ _ => rfl
theorem run (tag : Byte) : Statement (.run tag) := fun _ _ _ => rfl
theorem quiesce (tag : Byte) : Statement (.quiesce tag) := fun _ _ _ => rfl
theorem save (tag : Byte) : Statement (.save tag) := fun _ _ _ => rfl
theorem restore (tag : Byte) (image : SaveImage) : Statement (.restore tag image) := by
  intro b hb h
  simp only [Instr.wf] at h ⊢
  exact SaveImage.wf_largest hb h
theorem trotUp (tag : Byte) : Statement (.trotUp tag) := fun _ _ _ => rfl
theorem clearSource (tag : Byte) : Statement (.clearSource tag) := fun _ _ _ => rfl
theorem setBand (tag : Byte) : Statement (.setBand tag) := fun _ _ _ => rfl
theorem retireTwin (tag : Byte) : Statement (.retireTwin tag) := fun _ _ _ => rfl
theorem wrap (tag : Byte) : Statement (.wrap tag) := fun _ _ _ => rfl
theorem signResultOpen (tag : Byte) (weights : List (List W32)) : Statement (.signResultOpen tag weights) := fun _ _ _ => rfl
theorem signResultSign (tag : Byte) : Statement (.signResultSign tag) := fun _ _ _ => rfl
theorem signResultClose (tag : Byte) : Statement (.signResultClose tag) := fun _ _ _ => rfl
theorem launchAt (tag : Byte) : Statement (.launchAt tag) := fun _ _ _ => rfl
theorem hotUpdate (tag : Byte) (wordsA wordsB : List W32) : Statement (.hotUpdate tag wordsA wordsB) := fun _ _ _ => rfl
theorem replay (tag : Byte) (recorded : List InlogEntry) : Statement (.replay tag recorded) := fun _ _ _ => rfl
theorem commandTimeout : Statement (.commandTimeout) := fun _ _ _ => rfl
theorem stepEnd (data : W32) : Statement (.stepEnd data) := fun _ _ _ => rfl
theorem slateBegin (data : W32) : Statement (.slateBegin data) := fun _ _ _ => rfl
theorem abortFifoPop (data : W32) : Statement (.abortFifoPop data) := fun _ _ _ => rfl
theorem stickyClear (w : Byte) (data : W32) : Statement (.stickyClear w data) := fun _ _ _ => rfl
theorem irqStsClear (data : W32) : Statement (.irqStsClear data) := fun _ _ _ => rfl
theorem thrEvtClear (data : W32) : Statement (.thrEvtClear data) := fun _ _ _ => rfl
theorem overrunClear (data : W32) : Statement (.overrunClear data) := fun _ _ _ => rfl
theorem forceWrite (w : Byte) (data : W32) : Statement (.forceWrite w data) := fun _ _ _ => rfl
theorem injectionTimeout (pos : Nat) : Statement (.injectionTimeout pos) := by
  intro b hb h
  simp only [Instr.wf, decide_eq_true_eq] at h ⊢
  exact h
theorem indSelect (isAddr : Bool) (data : W32) : Statement (.indSelect isAddr data) := fun _ _ _ => rfl
theorem indFetchDone : Statement (.indFetchDone) := fun _ _ _ => rfl
theorem indDataRead : Statement (.indDataRead) := fun _ _ _ => rfl
theorem indDataWrite (data : W32) : Statement (.indDataWrite data) := fun _ _ _ => rfl
theorem reelDataRead (word : BitVec 2) : Statement (.reelDataRead word) := fun _ _ _ => rfl
theorem stage0Identity (us : Nat) (badAgents badConcs : List Nat) (reports : List (Nat × Nat × Nat)) (hubAOk hubBOk : Bool) :
    Statement (.stage0Identity us badAgents badConcs reports hubAOk hubBOk) := by
  intro b hb h
  have lim := Build.wf_bounds hb
  simp only [Instr.wf, Bool.and_eq_true] at h ⊢
  exact ⟨⟨all_of_all h.1.1 (fun a q => by simp only [decide_eq_true_eq] at q ⊢; exact (by have k := q; show a < 4096; omega)),
      all_of_all h.1.2 (fun c q => by simp only [decide_eq_true_eq] at q ⊢; exact (by have k := q; show c < 256; omega))⟩,
    all_of_all h.2 (fun x q => by simp only [decide_eq_true_eq] at q ⊢; exact (by have k := q; show x.1 < 4096; omega))⟩
theorem stage1Keys (us : Nat) : Statement (.stage1Keys us) := fun _ _ _ => rfl
theorem stage2Pairing (us : Nat) (passA passB : Bool) : Statement (.stage2Pairing us passA passB) := fun _ _ _ => rfl
theorem stage3DieLinks (us : Nat) : Statement (.stage3DieLinks us) := fun _ _ _ => rfl
theorem stage4Harness (us : Nat) (wordsA wordsB : List W32) : Statement (.stage4Harness us wordsA wordsB) := fun _ _ _ => rfl
theorem stage5AgentImage (packets : Nat) : Statement (.stage5AgentImage packets) := fun _ _ _ => rfl
theorem stage6LameList (us : Nat) : Statement (.stage6LameList us) := fun _ _ _ => rfl
theorem stage7Housekeeping (us : Nat) (crystalOk : Bool) (offset : Int) (counts : List (Nat × Nat)) :
    Statement (.stage7Housekeeping us crystalOk offset counts) := fun _ _ _ => rfl
theorem stage8KnownAnswer (us : Nat) (lanes units : List (Nat × Nat)) (concs : List Nat) : Statement (.stage8KnownAnswer us lanes units concs) := by
  intro b hb h
  have lim := Build.wf_bounds hb
  simp only [Instr.wf, Bool.and_eq_true] at h ⊢
  exact ⟨⟨all_of_all h.1.1 (fun e q => by simp only [decide_eq_true_eq] at q ⊢; exact ⟨(by have k := q.1; show e.1 < 4096; omega), (by have k := q.2; show e.2 < 64; omega)⟩), all_of_all h.1.2 (fun e q => by simp only [decide_eq_true_eq] at q ⊢; exact (by have k := q; show e.1 < 4096; omega))⟩, all_of_all h.2 (fun c q => by simp only [decide_eq_true_eq] at q ⊢; exact (by have k := q; show c < 256; omega))⟩
theorem stage9Discovery (us : Nat) : Statement (.stage9Discovery us) := fun _ _ _ => rfl
theorem discWindowEnd : Statement (.discWindowEnd) := fun _ _ _ => rfl
theorem stage10Ready (us : Nat) : Statement (.stage10Ready us) := fun _ _ _ => rfl
theorem stageBudgetExpiry : Statement (.stageBudgetExpiry) := fun _ _ _ => rfl
theorem keyPortBeat (data : W64) (last : Bool) : Statement (.keyPortBeat data last) := fun _ _ _ => rfl
theorem keyPortBad : Statement (.keyPortBad) := fun _ _ _ => rfl
theorem keyItemTimeout : Statement (.keyItemTimeout) := fun _ _ _ => rfl
theorem linkTrainAttemptEnd (l : TrainLink) (ok : Bool) : Statement (.linkTrainAttemptEnd l ok) := by
  intro b hb h
  simp only [Instr.wf] at h ⊢
  exact TrainLink.wf_largest hb h
theorem imagePacket (agent : Nat) (header : W64) (payload : List Byte) : Statement (.imagePacket agent header payload) := by
  intro b hb h
  have lim := Build.wf_bounds hb
  simp only [Instr.wf, decide_eq_true_eq] at h ⊢
  exact ⟨by have k := h.1; show agent < 4096; omega, h.2⟩
theorem imageCollect (silent : List Nat) : Statement (.imageCollect silent) := by
  intro b hb h
  have lim := Build.wf_bounds hb
  simp only [Instr.wf] at h ⊢
  exact all_of_all h (fun c q => by simp only [decide_eq_true_eq] at q ⊢; exact (by have k := q; show c < 256; omega))
theorem tdDescriptor (agent : Nat) (handle : BitVec 5) (data : BitVec 256) (cyc : Nat) : Statement (.tdDescriptor agent handle data cyc) := by
  intro b hb h
  have lim := Build.wf_bounds hb
  simp only [Instr.wf, decide_eq_true_eq] at h ⊢
  exact (by have k := h; show agent < 4096; omega)
theorem tapElementBeat (agent : Nat) (beat : TapBeat) : Statement (.tapElementBeat agent beat) := by
  intro b hb h
  have lim := Build.wf_bounds hb
  simp only [Instr.wf, Bool.and_eq_true, decide_eq_true_eq] at h ⊢
  exact ⟨(by have k := h.1; show agent < 4096; omega), h.2⟩
theorem prjBeat (agent : Nat) (beat : PrjBeat) : Statement (.prjBeat agent beat) := by
  intro b hb h
  have lim := Build.wf_bounds hb
  simp only [Instr.wf, Bool.and_eq_true, decide_eq_true_eq] at h ⊢
  exact ⟨(by have k := h.1; show agent < 4096; omega), h.2⟩
theorem auditBeat (agent : Nat) (tap : Tap) (handle : BitVec 5) (addr : Addr) (d : BitVec 31) (poison : Bool) (cyc : Nat) : Statement (.auditBeat agent tap handle addr d poison cyc) := by
  intro b hb h
  have lim := Build.wf_bounds hb
  simp only [Instr.wf, decide_eq_true_eq] at h ⊢
  exact ⟨(by have k := h.1; show agent < 4096; omega), h.2⟩
theorem cLast (agent : Nat) (beat : TapBeat) : Statement (.cLast agent beat) := by
  intro b hb h
  have lim := Build.wf_bounds hb
  simp only [Instr.wf, Bool.and_eq_true, decide_eq_true_eq] at h ⊢
  exact ⟨⟨(by have k := h.1.1; show agent < 4096; omega), h.1.2⟩, h.2⟩
theorem handoffSlice (cluster agent : Nat) : Statement (.handoffSlice cluster agent) := by
  intro b hb h
  have lim := Build.wf_bounds hb
  simp only [Instr.wf, decide_eq_true_eq] at h ⊢
  exact ⟨(by have k := h.1; show cluster < 256; omega), (by have k := h.2; show agent < 4096; omega)⟩
theorem verdict (cluster : Nat) : Statement (.verdict cluster) := by
  intro b hb h
  have lim := Build.wf_bounds hb
  simp only [Instr.wf, decide_eq_true_eq] at h ⊢
  exact (by have k := h; show cluster < 256; omega)
theorem verdictAtAgent (agent : Nat) : Statement (.verdictAtAgent agent) := by
  intro b hb h
  have lim := Build.wf_bounds hb
  simp only [Instr.wf, decide_eq_true_eq] at h ⊢
  exact (by have k := h; show agent < 4096; omega)
theorem cmtAccept (agent cycles : Nat) : Statement (.cmtAccept agent cycles) := by
  intro b hb h
  have lim := Build.wf_bounds hb
  simp only [Instr.wf, decide_eq_true_eq] at h ⊢
  exact ⟨(by have k := h.1; show agent < 4096; omega), h.2⟩
theorem vhHeader (agent : Nat) (gid : BitVec 3) (data : BitVec 110) : Statement (.vhHeader agent gid data) := by
  intro b hb h
  have lim := Build.wf_bounds hb
  simp only [Instr.wf, decide_eq_true_eq] at h ⊢
  exact (by have k := h; show agent < 4096; omega)
theorem veBeat (agent : Nat) (beat : VeBeat) : Statement (.veBeat agent beat) := by
  intro b hb h
  have lim := Build.wf_bounds hb
  simp only [Instr.wf, Bool.and_eq_true, decide_eq_true_eq] at h ⊢
  exact ⟨(by have k := h.1; show agent < 4096; omega), h.2⟩
theorem vectorGroupVerdict (agent : Nat) (gid : BitVec 3) : Statement (.vectorGroupVerdict agent gid) := by
  intro b hb h
  have lim := Build.wf_bounds hb
  simp only [Instr.wf, decide_eq_true_eq] at h ⊢
  exact (by have k := h; show agent < 4096; omega)
theorem choiceStrobe (agent : Nat) (job : Job) : Statement (.choiceStrobe agent job) := by
  intro b hb h
  have lim := Build.wf_bounds hb
  simp only [Instr.wf, decide_eq_true_eq] at h ⊢
  exact (by have k := h; show agent < 4096; omega)
theorem fenceOrder (agent : Nat) : Statement (.fenceOrder agent) := by
  intro b hb h
  have lim := Build.wf_bounds hb
  simp only [Instr.wf, decide_eq_true_eq] at h ⊢
  exact (by have k := h; show agent < 4096; omega)
theorem fenceAckRise (agent : Nat) : Statement (.fenceAckRise agent) := by
  intro b hb h
  have lim := Build.wf_bounds hb
  simp only [Instr.wf, decide_eq_true_eq] at h ⊢
  exact (by have k := h; show agent < 4096; omega)
theorem fenceEnd (agent : Nat) : Statement (.fenceEnd agent) := by
  intro b hb h
  have lim := Build.wf_bounds hb
  simp only [Instr.wf, decide_eq_true_eq] at h ⊢
  exact (by have k := h; show agent < 4096; omega)
theorem fenceAckFall (agent : Nat) : Statement (.fenceAckFall agent) := by
  intro b hb h
  have lim := Build.wf_bounds hb
  simp only [Instr.wf, decide_eq_true_eq] at h ⊢
  exact (by have k := h; show agent < 4096; omega)
theorem fenceTimeout (agent : Nat) : Statement (.fenceTimeout agent) := by
  intro b hb h
  have lim := Build.wf_bounds hb
  simp only [Instr.wf, decide_eq_true_eq] at h ⊢
  exact (by have k := h; show agent < 4096; omega)
theorem scAck (agent : Nat) : Statement (.scAck agent) := by
  intro b hb h
  have lim := Build.wf_bounds hb
  simp only [Instr.wf, decide_eq_true_eq] at h ⊢
  exact (by have k := h; show agent < 4096; omega)
theorem settleOrder (agent record : Nat) : Statement (.settleOrder agent record) := by
  intro b hb h
  have lim := Build.wf_bounds hb
  simp only [Instr.wf, decide_eq_true_eq] at h ⊢
  exact ⟨(by have k := h.1; show agent < 4096; omega), h.2⟩
theorem poisonOrder (agent record : Nat) : Statement (.poisonOrder agent record) := by
  intro b hb h
  have lim := Build.wf_bounds hb
  simp only [Instr.wf, decide_eq_true_eq] at h ⊢
  exact (by have k := h; show agent < 4096; omega)
theorem gateOpen (job : Job) (step : W64) : Statement (.gateOpen job step) := fun _ _ _ => rfl
theorem jobAbortActions (job : Job) : Statement (.jobAbortActions job) := fun _ _ _ => rfl
theorem epochAnnounce : Statement (.epochAnnounce) := fun _ _ _ => rfl
theorem epochActivation : Statement (.epochActivation) := fun _ _ _ => rfl
theorem laneSelfCheck (agent : Nat) (unit : KatUnit) (ok : Bool) (cyc : Nat) : Statement (.laneSelfCheck agent unit ok cyc) := by
  intro b hb h
  have lim := Build.wf_bounds hb
  simp only [Instr.wf, Bool.and_eq_true, decide_eq_true_eq] at h ⊢
  exact ⟨(by have k := h.1; show agent < 4096; omega), KatUnit.wf_largest hb h.2⟩
theorem scrubAccess (unit : NetUnit) (macroNo : Byte) (word data : W32) (check : BitVec 7) (taskData : Bool) (contexts : List Nat) : Statement (.scrubAccess unit macroNo word data check taskData contexts) := by
  intro b hb h
  have lim := Build.wf_bounds hb
  simp only [Instr.wf, Bool.and_eq_true] at h ⊢
  exact ⟨NetUnit.wf_largest hb h.1, all_of_all h.2 (fun x q => by simp only [decide_eq_true_eq] at q ⊢; exact (by have k := q; show x < 16; omega))⟩
theorem summaryJudge (cluster agent : Nat) : Statement (.summaryJudge cluster agent) := by
  intro b hb h
  have lim := Build.wf_bounds hb
  simp only [Instr.wf, decide_eq_true_eq] at h ⊢
  exact ⟨(by have k := h.1; show cluster < 256; omega), (by have k := h.2; show agent < 4096; omega)⟩
theorem concStepAnswer (cluster : Nat) (job : Job) (step : W64) : Statement (.concStepAnswer cluster job step) := by
  intro b hb h
  have lim := Build.wf_bounds hb
  simp only [Instr.wf, decide_eq_true_eq] at h ⊢
  exact (by have k := h; show cluster < 256; omega)
theorem gateDecision (job : Job) : Statement (.gateDecision job) := fun _ _ _ => rfl
theorem messageOrigin (unit : NetUnit) (src : BitVec 16) (kind : Byte) (sev : BitVec 3) (addr : Addr) (job : Job) : Statement (.messageOrigin unit src kind sev addr job) := by
  intro b hb h
  simp only [Instr.wf, Bool.and_eq_true, decide_eq_true_eq] at h ⊢
  exact ⟨NetUnit.wf_largest hb h.1, h.2⟩
theorem messageHop (unit : NetUnit) (dest : HubId) : Statement (.messageHop unit dest) := by
  intro b hb h
  simp only [Instr.wf, Bool.and_eq_true] at h ⊢
  exact ⟨NetUnit.wf_largest hb h.1, Build.largest_hasHub dest⟩
theorem hopBadCrc (unit : NetUnit) (dest : HubId) : Statement (.hopBadCrc unit dest) := by
  intro b hb h
  simp only [Instr.wf, Bool.and_eq_true] at h ⊢
  exact ⟨NetUnit.wf_largest hb h.1, Build.largest_hasHub dest⟩
theorem mergedS2Send (unit : NetUnit) : Statement (.mergedS2Send unit) := by
  intro b hb h
  simp only [Instr.wf] at h ⊢
  exact NetUnit.wf_largest hb h
theorem hubAcceptMessage (hub : HubId) : Statement (.hubAcceptMessage hub) := by
  intro b hb h
  simp only [Instr.wf] at h ⊢
  exact Build.largest_hasHub hub
theorem leakTick (group : Nat) : Statement (.leakTick group) := by
  intro b hb h
  simp only [Instr.wf, decide_eq_true_eq] at h ⊢
  exact h
theorem quietEnd (pos : Nat) : Statement (.quietEnd pos) := by
  intro b hb h
  simp only [Instr.wf, decide_eq_true_eq] at h ⊢
  exact h
theorem reelMark : Statement (.reelMark) := fun _ _ _ => rfl
theorem reconcileMaskSend (cluster : Nat) : Statement (.reconcileMaskSend cluster) := by
  intro b hb h
  have lim := Build.wf_bounds hb
  simp only [Instr.wf, decide_eq_true_eq] at h ⊢
  exact (by have k := h; show cluster < 256; omega)
theorem reconcileCompare (hub : HubId) (cluster : Nat) : Statement (.reconcileCompare hub cluster) := by
  intro b hb h
  have lim := Build.wf_bounds hb
  simp only [Instr.wf, Bool.and_eq_true, decide_eq_true_eq] at h ⊢
  exact ⟨Build.largest_hasHub hub, (by have k := h.2; show cluster < 256; omega)⟩
theorem accountFetch (record : Nat) : Statement (.accountFetch record) := by
  intro b hb h
  simp only [Instr.wf, decide_eq_true_eq] at h ⊢
  exact h
theorem retakeIssueTimeout (record : Nat) : Statement (.retakeIssueTimeout record) := by
  intro b hb h
  simp only [Instr.wf, decide_eq_true_eq] at h ⊢
  exact h
theorem retakeWaitExpiry (record : Nat) : Statement (.retakeWaitExpiry record) := by
  intro b hb h
  simp only [Instr.wf, decide_eq_true_eq] at h ⊢
  exact h
theorem retakeRunTimeout (record : Nat) : Statement (.retakeRunTimeout record) := by
  intro b hb h
  simp only [Instr.wf, decide_eq_true_eq] at h ⊢
  exact h
theorem writeChecked (engine : Nat) (stream : BitVec 7) (addr : Addr) (job : Job) : Statement (.writeChecked engine stream addr job) := by
  intro b hb h
  have lim := Build.wf_bounds hb
  simp only [Instr.wf, decide_eq_true_eq] at h ⊢
  exact ⟨(by have k := h.1; show engine < 64; omega), h.2⟩
theorem writePlain (engine : Nat) (stream : BitVec 7) (addr : Addr) (job : Job) : Statement (.writePlain engine stream addr job) := by
  intro b hb h
  have lim := Build.wf_bounds hb
  simp only [Instr.wf, decide_eq_true_eq] at h ⊢
  exact ⟨(by have k := h.1; show engine < 64; omega), h.2⟩
theorem writeExpect (engine : Nat) (stream : BitVec 7) (addr : Addr) (job : Job) (d : BitVec 31) : Statement (.writeExpect engine stream addr job d) := by
  intro b hb h
  have lim := Build.wf_bounds hb
  simp only [Instr.wf, decide_eq_true_eq] at h ⊢
  exact ⟨(by have k := h.1; show engine < 64; omega), h.2⟩
theorem writePoison (engine : Nat) (stream : BitVec 7) (addr : Addr) (job : Job) : Statement (.writePoison engine stream addr job) := by
  intro b hb h
  have lim := Build.wf_bounds hb
  simp only [Instr.wf, decide_eq_true_eq] at h ⊢
  exact ⟨(by have k := h.1; show engine < 64; omega), h.2⟩
theorem writeExternal (engine : Nat) (stream : BitVec 7) (addr : Addr) (job : Job) : Statement (.writeExternal engine stream addr job) := by
  intro b hb h
  have lim := Build.wf_bounds hb
  simp only [Instr.wf, decide_eq_true_eq] at h ⊢
  exact ⟨(by have k := h.1; show engine < 64; omega), h.2⟩
theorem writePartial (engine : Nat) (stream : BitVec 7) (addr : Addr) (job : Job) (first last : BitVec 16) : Statement (.writePartial engine stream addr job first last) := by
  intro b hb h
  have lim := Build.wf_bounds hb
  simp only [Instr.wf, decide_eq_true_eq] at h ⊢
  exact ⟨(by have k := h.1; show engine < 64; omega), h.2⟩
theorem read (engine : Nat) (stream : BitVec 7) (addr : Addr) (job : Job) (whole : Bool) : Statement (.read engine stream addr job whole) := by
  intro b hb h
  have lim := Build.wf_bounds hb
  simp only [Instr.wf, decide_eq_true_eq] at h ⊢
  exact ⟨(by have k := h.1; show engine < 64; omega), h.2⟩
theorem tgDataBeat (engine : Nat) (beat : TgBeat) : Statement (.tgDataBeat engine beat) := by
  intro b hb h
  have lim := Build.wf_bounds hb
  simp only [Instr.wf, Bool.and_eq_true, decide_eq_true_eq] at h ⊢
  exact ⟨(by have k := h.1; show engine < 64; omega), h.2⟩
theorem commit (engine : Nat) (addr : Addr) (count : BitVec 16) (job : Job) : Statement (.commit engine addr count job) := by
  intro b hb h
  have lim := Build.wf_bounds hb
  simp only [Instr.wf, decide_eq_true_eq] at h ⊢
  exact (by have k := h; show engine < 64; omega)
theorem poison (engine : Nat) (addr : Addr) (count : BitVec 16) (job : Job) : Statement (.poison engine addr count job) := by
  intro b hb h
  have lim := Build.wf_bounds hb
  simp only [Instr.wf, decide_eq_true_eq] at h ⊢
  exact (by have k := h; show engine < 64; omega)
theorem ledgerOpen (engine : Nat) (receiver : Bool) (addr : Addr) (count : BitVec 16) (job : Job) (round : BitVec 16) (value : W32) : Statement (.ledgerOpen engine receiver addr count job round value) := by
  intro b hb h
  have lim := Build.wf_bounds hb
  simp only [Instr.wf, decide_eq_true_eq] at h ⊢
  exact (by have k := h; show engine < 64; omega)
theorem ledgerClose (engine : Nat) (receiver : Bool) (job : Job) (round : BitVec 16) : Statement (.ledgerClose engine receiver job round) := by
  intro b hb h
  have lim := Build.wf_bounds hb
  simp only [Instr.wf, decide_eq_true_eq] at h ⊢
  exact (by have k := h; show engine < 64; omega)
theorem ledgerPacket (engine : Nat) (packet : DispatchPacket) : Statement (.ledgerPacket engine packet) := by
  intro b hb h
  have lim := Build.wf_bounds hb
  simp only [Instr.wf, decide_eq_true_eq] at h ⊢
  exact (by have k := h; show engine < 64; omega)
theorem sideAck (engine : Nat) (id : BitVec 4) (rdata : W32) (ue : Bool) : Statement (.sideAck engine id rdata ue) := by
  intro b hb h
  have lim := Build.wf_bounds hb
  simp only [Instr.wf, decide_eq_true_eq] at h ⊢
  exact (by have k := h; show engine < 64; omega)
theorem sidecarTimeout (engine : Nat) (id : BitVec 4) : Statement (.sidecarTimeout engine id) := by
  intro b hb h
  have lim := Build.wf_bounds hb
  simp only [Instr.wf, decide_eq_true_eq] at h ⊢
  exact (by have k := h; show engine < 64; omega)
theorem commitBufferFree (engine : Nat) : Statement (.commitBufferFree engine) := by
  intro b hb h
  have lim := Build.wf_bounds hb
  simp only [Instr.wf, decide_eq_true_eq] at h ⊢
  exact (by have k := h; show engine < 64; omega)
theorem tgSourceReply (engine : Nat) (code : BitVec 4) (d : BitVec 31) (addr : Addr) (uses : List SrcUse) : Statement (.tgSourceReply engine code d addr uses) := by
  intro b hb h
  have lim := Build.wf_bounds hb
  simp only [Instr.wf, decide_eq_true_eq] at h ⊢
  exact (by have k := h; show engine < 64; omega)
theorem linkPacketSend (engine : Nat) (packet : LinkPacket) (ledger : Option (BitVec 128)) : Statement (.linkPacketSend engine packet ledger) := by
  intro b hb h
  have lim := Build.wf_bounds hb
  simp only [Instr.wf, decide_eq_true_eq] at h ⊢
  exact (by have k := h; show engine < 64; omega)
theorem linkPacketReceive (engine : Nat) (packet : LinkPacket) (tag : W32) : Statement (.linkPacketReceive engine packet tag) := by
  intro b hb h
  have lim := Build.wf_bounds hb
  simp only [Instr.wf, decide_eq_true_eq] at h ⊢
  exact (by have k := h; show engine < 64; omega)
theorem hostReport (engine : Nat) (line : BitVec 4) (kind : Byte) (addr : Addr) (dests : List Addr) :
    Statement (.hostReport engine line kind addr dests) := by
  intro b hb h
  have lim := Build.wf_bounds hb
  simp only [Instr.wf, decide_eq_true_eq] at h ⊢
  exact (by have k := h; show engine < 64; omega)
theorem inlogEntryWrite : Statement (.inlogEntryWrite) := fun _ _ _ => rfl
theorem stepSync (time : W64) : Statement (.stepSync time) := fun _ _ _ => rfl
theorem syncMissing : Statement (.syncMissing) := fun _ _ _ => rfl
theorem launchCountReached (job : Job) : Statement (.launchCountReached job) := fun _ _ _ => rfl
theorem beaconSend (port : Nat) (width : Byte) : Statement (.beaconSend port width) := by
  intro b hb h
  simp only [Instr.wf, decide_eq_true_eq] at h ⊢
  exact h
theorem beaconReceive (port : Nat) (frame : List Byte) (width : Byte) : Statement (.beaconReceive port frame width) := by
  intro b hb h
  simp only [Instr.wf, decide_eq_true_eq] at h ⊢
  exact h
theorem slateWaitExpiry (job : Job) (step : W64) (port : Nat) : Statement (.slateWaitExpiry job step port) := by
  intro b hb h
  simp only [Instr.wf, decide_eq_true_eq] at h ⊢
  exact h
theorem portSilence (port : Nat) : Statement (.portSilence port) := by
  intro b hb h
  simp only [Instr.wf, decide_eq_true_eq] at h ⊢
  exact h
theorem beaconTxReady (port : Nat) : Statement (.beaconTxReady port) := by
  intro b hb h
  simp only [Instr.wf, decide_eq_true_eq] at h ⊢
  exact h
theorem hkRound : Statement (.hkRound) := fun _ _ _ => rfl
theorem sensorSample (chan : BitVec 9) (data : BitVec 16) : Statement (.sensorSample chan data) := by
  intro b hb h
  have lim := Build.wf_bounds hb
  simp only [Instr.wf, decide_eq_true_eq] at h ⊢
  exact (by have k := h; show chan.toNat < 512; omega)
theorem busSample (chan : BitVec 9) : Statement (.busSample chan) := by
  intro b hb h
  have lim := Build.wf_bounds hb
  simp only [Instr.wf, decide_eq_true_eq] at h ⊢
  exact (by have k := h; show chan.toNat < 512; omega)
theorem marginWindowDone (cluster : Nat) (counts : List (Nat × Nat)) : Statement (.marginWindowDone cluster counts) := by
  intro b hb h
  have lim := Build.wf_bounds hb
  simp only [Instr.wf, decide_eq_true_eq] at h ⊢
  exact (by have k := h; show cluster < 256; omega)
theorem kclkCheckWindow (hub : HubId) (count : Nat) : Statement (.kclkCheckWindow hub count) := by
  intro b hb h
  simp only [Instr.wf] at h ⊢
  exact Build.largest_hasHub hub
theorem curbCombine : Statement (.curbCombine) := fun _ _ _ => rfl
theorem aliveBoundary : Statement (.aliveBoundary) := fun _ _ _ => rfl
theorem hubStrobe (hub : HubId) : Statement (.hubStrobe hub) := by
  intro b hb h
  simp only [Instr.wf] at h ⊢
  exact Build.largest_hasHub hub
theorem hello (hub : HubId) (selfTest : Bool) : Statement (.hello hub selfTest) := by
  intro b hb h
  simp only [Instr.wf] at h ⊢
  exact Build.largest_hasHub hub
theorem heartSend (hub : HubId) : Statement (.heartSend hub) := by
  intro b hb h
  simp only [Instr.wf] at h ⊢
  exact Build.largest_hasHub hub
theorem xlinkFrameReceive (hub : HubId) (frame : BitVec 256) : Statement (.xlinkFrameReceive hub frame) := by
  intro b hb h
  simp only [Instr.wf] at h ⊢
  exact Build.largest_hasHub hub
theorem xlinkResend (hub : HubId) : Statement (.xlinkResend hub) := by
  intro b hb h
  simp only [Instr.wf] at h ⊢
  exact Build.largest_hasHub hub
theorem digestCut : Statement (.digestCut) := fun _ _ _ => rfl
theorem digest (hub : HubId) (seq : W32) (value : W64) : Statement (.digest hub seq value) := by
  intro b hb h
  simp only [Instr.wf] at h ⊢
  exact Build.largest_hasHub hub
theorem sections (hub : HubId) : Statement (.sections hub) := by
  intro b hb h
  simp only [Instr.wf] at h ⊢
  exact Build.largest_hasHub hub
theorem items (hub : HubId) (sec : DigestSection) : Statement (.items hub sec) := by
  intro b hb h
  simp only [Instr.wf] at h ⊢
  exact Build.largest_hasHub hub
theorem propose (action : RelaxAction) (own : Option Nat) : Statement (.propose action own) := fun _ _ _ => rfl
theorem consent : Statement (.consent) := fun _ _ _ => rfl
theorem refuse : Statement (.refuse) := fun _ _ _ => rfl
theorem mirror (hub : HubId) : Statement (.mirror hub) := by
  intro b hb h
  simp only [Instr.wf] at h ⊢
  exact Build.largest_hasHub hub
theorem regWrite (hub : HubId) : Statement (.regWrite hub) := by
  intro b hb h
  simp only [Instr.wf] at h ⊢
  exact Build.largest_hasHub hub
theorem twinSilence (hub : HubId) : Statement (.twinSilence hub) := by
  intro b hb h
  simp only [Instr.wf] at h ⊢
  exact Build.largest_hasHub hub
theorem aliveClaimGrant : Statement (.aliveClaimGrant) := fun _ _ _ => rfl
theorem twinArbitration (passA passB : Bool) : Statement (.twinArbitration passA passB) := fun _ _ _ => rfl
theorem trotDue (agent : Nat) : Statement (.trotDue agent) := by
  intro b hb h
  have lim := Build.wf_bounds hb
  simp only [Instr.wf, decide_eq_true_eq] at h ⊢
  exact (by have k := h; show agent < 4096; omega)
theorem trotIdleAfterExpiry (agent : Nat) : Statement (.trotIdleAfterExpiry agent) := by
  intro b hb h
  have lim := Build.wf_bounds hb
  simp only [Instr.wf, decide_eq_true_eq] at h ⊢
  exact (by have k := h; show agent < 4096; omega)
theorem secretsCleared (region : Region) : Statement (.secretsCleared region) := by
  intro b hb h
  simp only [Instr.wf] at h ⊢
  exact Region.wf_largest hb h
theorem secretsTimeoutExpiry (region : Region) : Statement (.secretsTimeoutExpiry region) := by
  intro b hb h
  simp only [Instr.wf] at h ⊢
  exact Region.wf_largest hb h
theorem trotHostBoundMiss (agent : Nat) : Statement (.trotHostBoundMiss agent) := by
  intro b hb h
  have lim := Build.wf_bounds hb
  simp only [Instr.wf, decide_eq_true_eq] at h ⊢
  exact (by have k := h; show agent < 4096; omega)
theorem tapGrantWaitExpiry : Statement (.tapGrantWaitExpiry) := fun _ _ _ => rfl
theorem scanDone (agent : Nat) (tileSet agentSet : List Checkpoint) : Statement (.scanDone agent tileSet agentSet) := by
  intro b hb h
  have lim := Build.wf_bounds hb
  simp only [Instr.wf, decide_eq_true_eq] at h ⊢
  exact (by have k := h; show agent < 4096; omega)
theorem patternSetFetched (set : PatSet) (data : List Byte) : Statement (.patternSetFetched set data) := fun _ _ _ => rfl
theorem cacheBlockBad (block : Nat) (set : PatSet) (at_ : Nat) (streaming : List Nat) (group : Bool) (reread : List Byte) :
    Statement (.cacheBlockBad block set at_ streaming group reread) := by
  intro b hb h
  have lim := Build.wf_bounds hb
  simp only [Instr.wf] at h ⊢
  exact all_of_all h (fun a q => by simp only [decide_eq_true_eq] at q ⊢; exact (by have k := q; show a < 4096; omega))
theorem persistEraseDone : Statement (.persistEraseDone) := fun _ _ _ => rfl
theorem wrapGroupDone (results : List (Nat × List Checkpoint × List Checkpoint)) : Statement (.wrapGroupDone results) := by
  intro b hb h
  simp only [Instr.wf] at h ⊢
  exact h
theorem wrapRecordWritten (readBack : List Byte) : Statement (.wrapRecordWritten readBack) := fun _ _ _ => rfl
theorem dieLinkLockLoss (link : Nat) : Statement (.dieLinkLockLoss link) := by
  intro b hb h
  simp only [Instr.wf] at h ⊢
  exact Build.hasLinkEnd_largest hb h
theorem dieLinkResendLimit (link : Nat) : Statement (.dieLinkResendLimit link) := by
  intro b hb h
  simp only [Instr.wf] at h ⊢
  exact Build.hasLinkEnd_largest hb h
theorem dieLinkRetrainDone (link lanes : Nat) : Statement (.dieLinkRetrainDone link lanes) := by
  intro b hb h
  simp only [Instr.wf, Bool.and_eq_true, decide_eq_true_eq] at h ⊢
  exact ⟨Build.hasLinkEnd_largest hb h.1, h.2⟩
theorem entdaa (addr : BitVec 7) : Statement (.entdaa addr) := fun _ _ _ => rfl
theorem setdasa (addr : BitVec 7) : Statement (.setdasa addr) := fun _ _ _ => rfl
theorem rstdaa : Statement (.rstdaa) := fun _ _ _ => rfl
theorem enec (events : Byte) : Statement (.enec events) := fun _ _ _ => rfl
theorem disec (events : Byte) : Statement (.disec events) := fun _ _ _ => rfl
theorem getpid : Statement (.getpid) := fun _ _ _ => rfl
theorem getbcr : Statement (.getbcr) := fun _ _ _ => rfl
theorem getdcr : Statement (.getdcr) := fun _ _ _ => rfl
theorem getstatus : Statement (.getstatus) := fun _ _ _ => rfl
theorem getmrl : Statement (.getmrl) := fun _ _ _ => rfl
theorem getmwl : Statement (.getmwl) := fun _ _ _ => rfl
theorem setmrl (n : BitVec 16) : Statement (.setmrl n) := fun _ _ _ => rfl
theorem setmwl (n : BitVec 16) : Statement (.setmwl n) := fun _ _ _ => rfl
theorem mctpDiscard : Statement (.mctpDiscard) := fun _ _ _ => rfl
theorem setEndpointId (eid : Byte) : Statement (.setEndpointId eid) := fun _ _ _ => rfl
theorem getEndpointId : Statement (.getEndpointId) := fun _ _ _ => rfl
theorem getEndpointUuid : Statement (.getEndpointUuid) := fun _ _ _ => rfl
theorem getMctpVersionSupport (type : Byte) : Statement (.getMctpVersionSupport type) := fun _ _ _ => rfl
theorem getMessageTypeSupport : Statement (.getMessageTypeSupport) := fun _ _ _ => rfl
theorem setTid (tid : Byte) : Statement (.setTid tid) := fun _ _ _ => rfl
theorem getTid : Statement (.getTid) := fun _ _ _ => rfl
theorem getPldmVersion (type : Byte) : Statement (.getPldmVersion type) := fun _ _ _ => rfl
theorem getPldmTypes : Statement (.getPldmTypes) := fun _ _ _ => rfl
theorem getPldmCommands (type : Byte) : Statement (.getPldmCommands type) := fun _ _ _ => rfl
theorem setEventReceiver (mode : EventMode) (eid : Byte) (heartbeat : Nat) : Statement (.setEventReceiver mode eid heartbeat) := fun _ _ _ => rfl
theorem getEventReceiver : Statement (.getEventReceiver) := fun _ _ _ => rfl
theorem pollForPlatformEventMessage (offset : Nat) : Statement (.pollForPlatformEventMessage offset) := fun _ _ _ => rfl
theorem eventMessageSupported : Statement (.eventMessageSupported) := fun _ _ _ => rfl
theorem eventMessageBufferSize (n : Nat) : Statement (.eventMessageBufferSize n) := fun _ _ _ => rfl
theorem getSensorReading (id : BitVec 16) : Statement (.getSensorReading id) := fun _ _ _ => rfl
theorem getStateSensorReadings (id : BitVec 16) : Statement (.getStateSensorReadings id) := fun _ _ _ => rfl
theorem getPdrRepositoryInfo : Statement (.getPdrRepositoryInfo) := fun _ _ _ => rfl
theorem getPdr (index : Nat) : Statement (.getPdr index) := fun _ _ _ => rfl
theorem eventSend : Statement (.eventSend) := fun _ _ _ => rfl
theorem eventAcknowledged : Statement (.eventAcknowledged) := fun _ _ _ => rfl
theorem eventResendTimeout : Statement (.eventResendTimeout) := fun _ _ _ => rfl
theorem heartbeatTimer : Statement (.heartbeatTimer) := fun _ _ _ => rfl
theorem scAckFall (agent : Nat) : Statement (.scAckFall agent) := by
  intro b hb h
  have lim := Build.wf_bounds hb
  simp only [Instr.wf, decide_eq_true_eq] at h ⊢
  exact (by have k := h; show agent < 4096; omega)
theorem tapGrantRise (once : Bool) : Statement (.tapGrantRise once) := fun _ _ _ => rfl
theorem crossLinkRetrain  : Statement (.crossLinkRetrain) := by
  intro b hb h
  simp only [Instr.wf, decide_eq_true_eq] at h ⊢
  exact rfl
theorem errorUnsupportedCmd (code : Byte) : Statement (.errorUnsupportedCmd code) := fun _ _ _ => rfl
theorem errorUnsupportedPldmCmd (type code : Byte) : Statement (.errorUnsupportedPldmCmd type code) := fun _ _ _ => rfl

end Laws.WithinLargest

end Sys2Proof
end

