-- ==== Sys2Proof/Tests/Slice0.lean ====
section
/-! SUPPORT. Tests: ill-formed commands, worked examples of the spec, and a witness for the hypotheses of each statement. -/

open Sys2Proof Sys2Proof.Machine

namespace Sys2Proof.Tests

/-! ### A small machine -/

/-- One cluster of four agents, one hub. -/
def small : Build :=
  { agents := 4, clusterSize := 4, clusters := 1, dies := 1, lanes := 32, contexts := 8, hubs := 1, tagEngines := 2,
    hkChannels := 16, clusterDie := [] }

/-- A record at its place. -/
def mk (sec idx : Nat) (ws : List W32) : Rec := { type := bits (ws.getD 0 0) 31 24, words := ws, sec := sec, idx := idx }

/-- The harness of 13_harness, as the worked example there corrects it, without its signature. -/
def recs : List Rec := [mk 0 0 [0x01010003, 0x00020000, 0x0008000F], mk 0 1 [0x03010002, 1],
  mk 1 0 [0x10010006, 0x01000000, 0, 0, 0, 0], mk 1 1 [0x10010006, 0x06000000, 0, 0, 0, 0],
  mk 1 2 [0x11010007, 0x00600000, 0x40000000, 0, 0x40000, 0x80000000, 0], mk 2 0 [0x20010003, 0x06010218, 1536],
  mk 2 1 [0x22010006, 0x050B00B8, 0x04000100, 0x01000400, 0x1000, 0x40000], mk 3 0 [0x60010003, 0x00080000, 0],
  mk 3 1 [0x60010003, 0x00880000, 0], mk 3 2 [0x60010003, 0x01180000, 0], mk 3 3 [0x64010009, 1, 0x4E2000, 0, 0, 0, 0, 0, 0],
  mk 3 4 [0x65010005, 0x5DC578, 0x514500, 0x4B0450, 0x3E8320], mk 3 5 [0x66010002, 65536], mk 4 0 [0x54010004, 0, 1000, 750],
  mk 5 0 [0x70010002, 0x01000000]]

/-- The small machine in a state, with its harness accepted. -/
def at_ (x : HubSt) : State := { build := small, harness := { accepted := true, recs := recs }, hubA := { st := x } }

/-- The small machine with two hubs that have paired. -/
def duo (x : HubSt) : State :=
  { build := { small with hubs := 2 }, harness := { accepted := true, recs := recs }, hubA := { st := x }, hubB := { st := x },
    twin := { paired := true, aAttached := true, bAttached := true } }

/-- Hub A's argument registers. -/
def args (a b c d : W32) (s : State) : State :=
  { s with hubA := { s.hubA with regs := { s.hubA.regs with arg0 := a, arg1 := b, arg2 := c, arg3 := d } } }

/-- Change hub A. -/
def onA (f : Hub → Hub) (s : State) : State := { s with hubA := f s.hubA }

/-- The small machine with one agent, job and concentrator in the given states. -/
def with_ (g : Agent) (j : JobSt := {}) (c : Conc := {}) (x : HubSt := .run) : State :=
  { at_ x with agents := ⟨[(0, g)]⟩, jobs := ⟨[(1, j)]⟩, concs := ⟨[(0, c)]⟩ }

/-! ### Witnesses: the queue, reset, the registers -/

theorem wit_StepRunsTheFrontCommand : ({ State.reset with pending := [.getbcr] } : State).pending = .getbcr :: [] := rfl
theorem wit_EmptyQueueIsOneCycle : State.reset.pending = [] ∧ State.reset.clock.running = false
    ∧ ({ State.reset with clock := { running := true } } : State).clock.hold = none := by decide
theorem wit_HeldWhileResetIsAsserted : ({ State.reset with rstL := true } : State).rstL = true ∧ Instr.getbcr ≠ .rstLAssert := by decide
theorem wit_ChipStopLastsUntilReset : (onA (fun k => { k with s4 := true }) State.reset).chipStopped .a = true := by decide
/-- A beat of `n` elements of tap A. -/
def tapBeat (n : Nat) : TapBeat :=
  { handle := 0, tap := .a, count := n, member := 0, idx0 := 0, idx1 := 0, data := 0, dir := false, scale := 0, poison := false,
    auditOnly := false, sat := 0, cyc := 0 }
/-- A vector beat of `n` elements. -/
def veBeat (n : Nat) : VeBeat := { gid := 0, count := n, data := 0, rowEnd := 0, scale := 0, poison := false }
/-- A descriptor of job 1 with one member, M = N = K = 1, on handle 0. -/
def oneTask : Ctx := { id := 0, state := .accumulating, desc := 0 }
theorem wit_OnlyBrokenBeatsStop :
    (let s := with_ { bound := ⟨[(0, [.ctx 0])]⟩, ctxs := [oneTask], groups := ⟨[(0, some {})]⟩ }
     let p : PrjBeat := { header := false, handle := 0, data := 0, count := 8, member := 0, idx1 := 0, poison := false,
                          auditOnly := false, cyc := 0 }
     (∀ n ∈ [0, 33], s.brokenBound (.tapElementBeat 0 (tapBeat n)) = some 421 ∧ s.brokenBound (.cLast 0 (tapBeat n)) = some 421
       ∧ s.brokenBound (.veBeat 0 (veBeat n)) = some 423)
     ∧ (∀ n ∈ [1, 32], s.brokenBound (.veBeat 0 (veBeat n)) = none)
     ∧ s.brokenBound (.tapElementBeat 0 (tapBeat 1)) = none
     ∧ s.brokenBound (.prjBeat 0 p) = none ∧ s.brokenBound (.prjBeat 0 { p with count := 9 }) = some 421
     ∧ s.brokenBound (.prjBeat 0 { p with count := 0 }) = some 421
     ∧ s.brokenBound (.tapElementBeat 0 { tapBeat 0 with handle := 1 }) = none ∧ s.rstL = false) := by decide
theorem wit_OperandsFitTheLargestBuild : small.wf = true ∧ (Instr.trotDue 3).wf small = true := by decide
theorem wit_PlainRegisterWrite : State.reset.rstL = false ∧ State.reset.answers = true ∧ wordAddr 0x24#16 = 0x24
    ∧ wordAddr 0x3000#16 = 0x3000 + 4 * 0 ∧ wordAddr 0x60#16 = 0x60 ∧ wordAddr 0x8020#16 = 0x8020
    ∧ wordAddr 0x0C#16 = 0x0C ∧ bits 0#32 3 0 = 0 ∧ State.reset.cmd.code ≠ 1 ∧ ownRow 0x38 = true ∧ ownRow 0x17FC = true
    ∧ ownRow 0x24 = false
    ∧ State.reset.twin.paired = false ∧ State.reset.hubUp .a = true ∧ State.reset.twin.serving = .a := by decide
theorem wit_LatchedReads : wordAddr 0x9000#16 = 0x9000 ∧ wordAddr 0x4004#16 = 0x4004 ∧ wordAddr 0x3400#16 = 0x3400
    ∧ wordAddr 0x480#16 = 0x480 ∧ State.reset.rstL = false ∧ State.reset.answers = true ∧ (3#2 ≠ 0#2)
    ∧ (onA (fun k => { k with regs := { k.regs with reelSel := 0x20000000 } }) State.reset).sv.regs.reelSel.getLsbD 29 = true := by
  decide
theorem wit_FaultInjection :
    (let s : State := { duo .run with hubA := { regs := { bootCtl := 0 } } }
     ∀ h ∈ [HubId.a, .b], h = s.twin.serving ∨ s.twin.paired = false → (s.hub h).regs.bootCtl.getLsbD 0 = false)
    ∧ (let s := (onA (fun k => k.modSrc 3 (fun x => { x with injection := some true })) (duo .run))
       (∀ h ∈ [HubId.a, .b], h = s.twin.serving ∨ s.twin.paired = false → ((s.hub h).src 3).injection.isSome = true)
       ∧ s.hubUp .a = true ∧ (s.hubA.src 3).injection.isSome = true)
    ∧ (at_ .run).sv.regs.bootCtl.getLsbD 0 = true ∧ (at_ .run).agentOn (32 * 0 + 3) = true
    ∧ ((at_ .run).sv.src 3).injection = none ∧ (at_ .run).agentOn (32 * 127 + 31) = false
    ∧ ((onA (fun k => k.modSrc 3 (fun x => { x with injection := some true })) (at_ .run)).sv.src 3).injection.isSome = true := by
  decide
theorem wit_IndirectWindow : State.reset.ind.posted = none
    ∧ ({ State.reset with ind := { pending := true } } : State).ind.pending = true
    ∧ (let s : State := { onA (fun k => { k with regs := { k.regs with indSel := 0, indAddr := 0xF8 } }) (at_ .run) with
                          ind := { pending := true, posted := some 1 } }
       s.ind.pending = true ∧ s.ind.posted = some 1 ∧ s.indUnit = some (.agent 0) ∧ s.indAddr = 0xF8 ∧ (1#32).getLsbD 0 = true
       ∧ (onA (fun k => { k with regs := { k.regs with indAddr := 0xF4 } }) s).indAddr ≠ 0xF8
       ∧ (onA (fun k => { k with regs := { k.regs with indAddr := 0xF4 } }) s).indUnit = some (.agent 0))
    ∧ (onA (fun k => { k with regs := { k.regs with indAddr := 0x80000000 } }) State.reset).sv.regs.indAddr.getLsbD 31 = true := by decide
theorem wit_AbortFifoPop : (0x80000000#32 ||| 1#32).getLsbD 0 = true
    ∧ ({ State.reset with abortFifo := [{ job := 1, kind := 7, stamp := 0 }] } : State).abortFifo.length = 1 := by decide

/-! ### Witnesses: the commands of HUB_CMD -/

/-- The pair over a trained cross-link. -/
def talking (x : XSend) (k : Twin → Twin := id) : State :=
  { duo .run with twin := k { (duo .run).twin with lanes := 4 }, xlink := { a := x, b := x } }
/-- The follower's consent to a command in progress can reach the leader (Relaxes). -/
theorem wit_Relaxes : (at_ .run).pairUp = false ∧ (talking {}).pairUp = true
    ∧ Consented 9 (talking {}) (talking {} (fun t => { t with answer := some (.command 9, true) })) := by decide
theorem wit_CommandRefusalsComeInOrder : (at_ .run).answers = true ∧ (at_ .run).cmd.code ≠ 1 ∧ (at_ .run).takes [.run, .degraded]
    ∧ bits (args 3 0 0 0 (at_ .run)).sv.regs.arg0 1 0 = 3 ∧ ({ at_ .run with cmd := { code := 1 } } : State).cmd.code = 1
    ∧ (let s : State := { at_ .bringup with cmd := { code := 1, op := 1 } }
       s.answers = true ∧ s.cmd.code = 1 ∧ s.cmd.op = 1 ∧ s.ld.st = .bringup) := by
  decide
theorem wit_CommandsThatMoveTheState : (at_ .off).argsAre 0 0 0 0 ∧ (at_ .off).takes [.off]
    ∧ ({ at_ .off with harness := { located := true } } : State).harness.located = true
    ∧ (at_ .off).sv.regs.harnessAddrLo.toNat % 4 = 0 ∧ (at_ .off).sv.regs.harnessLen = 0
    ∧ (at_ .saved).takes [.ready, .saved] ∧ (at_ .run).takes [.run, .degraded] ∧ (at_ .run).quiet = true
    ∧ (with_ {} { pending := some (0, 0) }).quiet = false ∧ (with_ {} { pending := some (0, 0) }).takes [.run, .degraded] := by decide
theorem wit_SaveAndRestore : (args 4096 0 0 0 (at_ .ready)).sv.regs.arg1 &&& 0xFFFF0000#32 = 0#32
    ∧ (args 4096 0 0 0 (at_ .ready)).sv.regs.arg0.toNat % 4096 = 0 ∧ (args 4096 0 0 0 (at_ .ready)).takes [.ready, .run, .degraded]
    ∧ (args 4096 0 0 0 (at_ .ready)).saveBlocked = false ∧ (with_ {} { pending := some (0, 0) }).saveBlocked = true := by decide
/-- A save image with no section. -/
def emptyImage : SaveImage :=
  { magic := 0x5A7E, format := 1, idRev := idRev, chipId := 0, harness := [], stepClock := 0, slates := [], envelopes := [], odd := [],
    classes := [], inlogHead := 0, inlogWraps := 0, streams := [], buckets := [], recovery := [], paddock := [], digest := [] }
/-- An image that fits, of this chip and of another one, and one whose MAGIC does not (SaveAndRestore). -/
theorem wit_ImageThatFits : (∀ c : W64, (at_ .ready).imageFits (sealSave { emptyImage with chipId := c }) = true)
    ∧ (at_ .ready).imageFits (sealSave { emptyImage with magic := 0 }) = false ∧ (at_ .ready).keys.chipId ≠ 1 := by
  refine ⟨fun c => ?_, ?_, by decide⟩
  · rw [State.imageFits, sealSave_digest]
    simp only [sealSave, decide_true, Bool.and_true]
    rfl
  · simp only [State.imageFits, sealSave]
    decide
theorem wit_FaultAndTwinCommands : (args 3 0 0 0 (at_ .run)).argsAre (BitVec.ofNat 32 3) 0 0 0 ∧ (at_ .run).agentOn 3 = true
    ∧ (at_ .run).ld.fences? 3 = false ∧ (at_ .run).ld.padRoom 3 = true
    ∧ ((onA (fun k => k.modSrc 8191 (fun x => { x with fault := true })) (at_ .run)).ld.src 8191).fault = true
    ∧ (onA (fun k => { k with regs := { k.regs with bandLo := 1, bandHi := 7 } }) (at_ .run)).sv.regs.bandHi.toNat = 7
    ∧ (args 1 0 0 0 (duo .run)).argsAre (if HubId.b = .b then 1 else 0) 0 0 0 ∧ (duo .run).takes [.ready, .run, .degraded]
    ∧ (duo .run).build.hubs = 2 ∧ (duo .run).pairUp = true ∧ ((duo .run).hub .a).merging = false
    ∧ ((duo .run).hub .a).afterS4 = none ∧ (duo .run).claims .a = false ∧ (duo .run).claims .b = false
    ∧ (duo .run).ordersOut = false
    ∧ (let s : State := { args 0 0 0 0 (duo .run) with jobs := ⟨[(1, { opened := [7] })]⟩ }
       s.argsAre (if s.twin.leader = HubId.b then 1 else 0) 0 0 0 ∧ s.ordersOut = true) := by decide
/-- The small machine with a STREAM record for stream 0 of one weight range. -/
def signing (x : SignStream) (a0 : W32) : State :=
  { args a0 0 0 0 (with_ {} { active := true }) with
    harness := { accepted := true, recs := recs ++ [mk 6 0 [0x81010006, 0x200, 0x40000000, 0, 0x40000100, 0]] }, streams := ⟨[(0, x)]⟩ }
theorem wit_ClearRegisters : (at_ .run).rstL = false ∧ (at_ .run).answers = true ∧ (at_ .run).twin.paired = false
    ∧ (at_ .run).hubUp .a = true := by decide
theorem wit_SigningCommands :
    (let s := signing {} (BitVec.ofNat 32 (1 * 2 ^ 16 + 0 * 2 ^ 8))
     s.takes [.ready, .run, .degraded] ∧ (s.stream? 0).isSome = true ∧ (s.job 1).active = true
     ∧ s.argsAre (BitVec.ofNat 32 (1 * 2 ^ 16 + 0 * 2 ^ 8)) 0 0 0 ∧ (s.streams.get {} 0).bound = false
     ∧ ∀ l ∈ s.weightTags 0 [[0, 0, 0, 0, 0, 0, 0, 0, 0, 0, 0, 0, 0, 0, 0, 0]], ∀ p ∈ l, isPending p.2 = false ∧ isPoison p.2 = false)
    ∧ (let s := signing { bound := true, job := 1 } (BitVec.ofNat 32 (1 * 2 ^ 16 + 0 * 2 ^ 8 + 1))
       (s.streams.get {} 0).bound = true ∧ (s.streams.get {} 0).job.toNat = 1 ∧ (s.streams.get {} 0).elems = []
       ∧ s.argsAre (BitVec.ofNat 32 (1 * 2 ^ 16 + 0 * 2 ^ 8 + 1)) 0 0 0)
    ∧ (let s := signing { bound := true, job := 2 } (BitVec.ofNat 32 (1 * 2 ^ 16 + 0 * 2 ^ 8 + 2))
       (s.streams.get {} 0).job.toNat ≠ 1) := by decide
theorem wit_LaunchUpdateReplayTimeout : (args (BitVec.ofNat 32 (0 * 2 ^ 16 + 1)) 10000 0 0 (with_ {} { active := true })).argsAre
      (BitVec.ofNat 32 (0 * 2 ^ 16 + 1)) 10000 0 0
    ∧ (with_ {} { active := true }).clk + 10000 ≤ (10000#32).toNat ∧ ((with_ {} { active := true }).job 1).active = true
    ∧ ((with_ {} { active := true }).job 1).pending = none ∧ ((with_ {} { active := true }).job 1).opens.length < 2
    ∧ (at_ .run).takes [.run, .degraded] ∧ ({ at_ .run with cmd := { code := 1 } } : State).cmd.code = 1
    ∧ (args (BitVec.ofNat 32 (0 * 2 ^ 8 + 1)) 0x40 0xFFFF 0x100000 (with_ {} { active := true })).argsAre
        (BitVec.ofNat 32 (0 * 2 ^ 8 + 1)) 0x40 0xFFFF (BitVec.ofNat 32 1048576) := by decide

/-! ### Witnesses: steps, gates, beacons -/

/-- The small machine after stage 0 with its step clock at a count. -/
def clocked (n : W64) : State := { at_ .run with clock := { running := true, count := n, synced := true } }
theorem wit_StepClockAndLaunches : (at_ .run).pastStage0 = true ∧ (at_ .run).clock.running = false
    ∧ (clocked 5).clock.count.toNat < (105#64).toNat ∧ 105 - 5 = 100 ∧ (clocked 5).hubUp .a = true ∧ (clocked 5).hubA.afterS4 = none
    ∧ (let s := with_ {} { pending := some (0, 0) }
       (s.job 1).pending = some (0, 0) ∧ (∀ e ∈ s.jobs.entries, ¬ e.1 < 1) ∧ s.clkReaches 0 = true ∧ s.withheld = false
       ∧ ((with_ {} { pending := some (0, 0), active := true }).job 1).active = true ∧ (∀ y ∈ (s.port 0).held, y.1 ≠ 1))
    ∧ 100 < max ((205#64).toNat - (clocked 5).clock.count.toNat) ((clocked 5).clock.count.toNat - (205#64).toNat) := by decide
theorem wit_SlatesAndStepEnds : (at_ .run).answers = true ∧ (at_ .run).ld.st.running = true
    ∧ (let s := with_ {} { opens := [{ step := 0xFFFF, ended := false }] }
       (s.job (bits 0xFFFF0001#32 7 0)).opens = [] ++ { step := 0xFFFF, ended := false } :: []
       ∧ bits (0xFFFF#64) 15 0 = bits 0xFFFF0001#32 31 16 ∧ ((with_ {}).job 1).opens = [] ∧ ((with_ {}).job 1).abortHeld = false
       ∧ (with_ {}).jobAborted (BitVec.ofNat 8 1) = false ∧ (onA (fun k => { k with aborted := [1] }) (with_ {})).jobAborted 1 = true)
    ∧ (let s := with_ {} { opens := [{ step := 7, ended := true }] }
       (s.clusterRec 0).isSome = true ∧ (s.job 1).opens = [] ++ { step := 7, ended := true } :: [] ∧ (s.conc 0).openCount 1 7 = 0)
    ∧ (at_ .run).agentOn 0 = true ∧ ((with_ {} { active := true }).job 1).active = true := by decide
theorem wit_GatesAbortsAndInputLog :
    (let s := with_ {} { opens := [{ step := 7, ended := true, answered := [0] }], active := true }
     s.gateReady 1 { step := 7, ended := true, answered := [0] } = true ∧ s.pairUp = false)
    ∧ (let s := with_ {} { opens := [{ step := 7 }] }
       s.gateReady 1 { step := 7 } = false)
    ∧ (let s := with_ {} { opened := [7] }
       7 ∈ (s.job (1#8).toNat).opened ∧ s.jobAborted 1 = false ∧ s.withheld = false ∧ s.test.wrapping = false)
    ∧ (let s : State := { talking {} with
                          jobs := ⟨[(1, { opens := [{ step := 7 }] })]⟩
                          twin := { (talking {}).twin with refused := [(.openGate 1 7, [], [0])] } }
       (s.job (1#8).toNat).opens = [{ step := 7 }] ∧ s.refusalStands (.openGate 1 7) = true
       ∧ ({ s with twin := { s.twin with refused := [] } } : State).refusalStands (.openGate 1 7) = false)
    ∧ (at_ .run).busyWith 0xA = false
    ∧ (onA (fun k => { k with aborted := [1] }) (with_ {} {})).jobAborted 1 = true := by decide
theorem wit_BeaconPorts : (at_ .run).portsOn = true ∧ ((at_ .run).port 255).tx = [] ∧ parseBeacon [] = none
    ∧ ({ at_ .bringup with stage := some 9 } : State).portsOn = true
    ∧ ({ at_ .run with ports := ⟨[(0, { admitted := true, tx := [[1#8]] })]⟩ } : State).ld.st.pastReady = true
    ∧ (duo .run).portsOn = true ∧ (duo .run).ld.st.pastReady = true ∧ (duo .run).pairUp = true
    ∧ (duo .run).refusalStands (.admitPort 0) = false
    ∧ (let s : State := { with_ {} { opens := [{ step := 7, judged := [(0, false)] }] } with clock := { running := true } }
       s.clock.running = true ∧ s.hubUp s.twin.leader = true ∧ (s.job 1).abortRaised = false
       ∧ ∃ o ∈ (s.job 1).opens, o.step = 7 ∧ (0, false) ∈ o.judged)
    ∧ (at_ .run).ld.s4 = false := by decide
theorem wit_BeaconsReadBack :
    ({ State.reset with harness := { digest := List.replicate 12 0 } } : State).harness.digest.length = 12 := by decide

/-! ### Witnesses: tasks, vectors, retakes -/

theorem wit_DescriptorsAndSampling : (at_ .run).agentOn 0 = true ∧ (at_ .run).shut = false ∧ ((at_ .run).agent 0).fence = false
    ∧ ((at_ .run).agent 0).fenceReq = false ∧ ((at_ .run).agent 0).retakeBind = none ∧ ((at_ .run).agent 0).bound.get [] 31 = []
    ∧ emptyTask 0 = true ∧ (at_ .run).shut = false := by decide
theorem wit_BeatsOfTheTaps :
    (let s := with_ { bound := ⟨[(0, [.ctx 0])]⟩, ctxs := [oneTask] }
     (s.agent 0).bound.get [] 0 = [.ctx oneTask.id] ∧ (s.agent 0).ctx? oneTask.id = some oneTask ∧ oneTask.state = .accumulating
     ∧ oneTask.fill = false ∧ oneTask.retake = none ∧ 32 * fmtWidth (tapFmt oneTask.desc .c) ≤ 256)
    ∧ (let x : Ctx := { oneTask with cache := .waiting }
       ((with_ { ctxs := [x] }).agent 0).ctx? x.id = some x ∧ x.cache = .waiting)
    ∧ (let x : Ctx := { oneTask with retake := some 63 }
       ((with_ { ctxs := [x] }).agent 0).ctx? x.id = some x ∧ x.retake ≠ none ∧ Tap.a ≠ .c)
    ∧ (let s := with_ { bound := ⟨[(0, [.ctx 0])]⟩, ctxs := [oneTask] }
       let b := tapBeat 1
       0 < b.count ∧ b.count ≤ 32 ∧ b.poison = false ∧ b.auditOnly = false ∧ b.count * fmtWidth (tapFmt oneTask.desc b.tap) ≤ 256
       ∧ oneTask.overRate (s.laneRate 0 oneTask) (oneTask.beatOps b) b.cyc = false
       ∧ oneTask.retake = none ∧ (tapBeat 33).count = 33) := by decide
theorem wit_LastElementOfATask :
    oneTask.bounded = false ∧ oneTask.cache ≠ .rejected ∧ oneTask.aborted = false ∧ oneTask.fill = false
    ∧ oneTask.overRate ((with_ {}).laneRate 0 oneTask) 1 0 = false ∧ (with_ {}).jobAborted (tdJob oneTask.desc) = false
    ∧ 1 * fmtWidth (tdFmtC oneTask.desc) ≤ 256
    ∧ (let u : Unchecked := { desc := 0, outcome := .sampledOut }
       ((with_ { bound := ⟨[(0, [.task u])]⟩ }).agent 0).bound.get [] 0 = .task u :: [] ∧ u.outcome = .sampledOut ∧ u.retake = none
       ∧ tdFill u.desc = false ∧ u.poison = false ∧ u.aborted = false ∧ (with_ {}).noCommit = false ∧ ((with_ {}).agent 0).fence = false
       ∧ (((with_ {}).classAt u.epoch (tdClass u.desc)).map clsGated).getD false = false) := by decide
theorem wit_VerdictsOfTheEngine :
    (at_ .run).build.clusterOf 0 = 0 ∧ (∀ x ∈ ((at_ .run).agent 0).ctxs, x.ended = false)
    ∧ (let s := with_ {} {} { engine := [{ agent := 0, ctx := oneTask }] }
       (s.conc 0).engine = [{ agent := 0, ctx := oneTask }] ∧ s.concFenced 0 = false ∧ oneTask.countError = false ∧ oneTask.reasons = []
       ∧ (s.agent 0).verdicts.length < 8 ∧ (s.conc 0).accounts.length < 32)
    ∧ ((with_ { verdicts := List.replicate 8 { ctx := 0, verdict := .pass } }).agent 0).verdicts.length = 8
    ∧ ((with_ {} {} { accounts := List.replicate 32 {} }).conc 0).accounts.length = 32
    ∧ (let s : State := { at_ .run with retakes := ⟨[(63, { used := true })]⟩ }
       63 ≠ closedRecord ∧ (s.retake 63).used = true ∧ (s.retake 62).used = false) := by
  decide
theorem wit_VerdictsAtTheAgent :
    (let s := with_ { verdicts := [{ ctx := 0, verdict := .pass }], ctxs := [oneTask] }
     (s.agent 0).verdicts = [{ ctx := 0, verdict := .pass }] ∧ (s.agent 0).ctx? 0 = some oneTask ∧ oneTask.retake = none
     ∧ oneTask.poison = false ∧ s.jobAborted (tdJob oneTask.desc) = false ∧ s.noCommit = false
     ∧ ((s.class? (tdClass oneTask.desc)).map clsGated).getD false = false)
    ∧ ((with_ { cmt := [{ job := 1, base := 0, count := 1 }] }).agent 0).cmt.length = 1 ∧ (with_ {}).withheld = false
    ∧ (onA (fun k => { k with s4 := true }) (with_ {})).withheld = true
    ∧ (let s : State := { with_ {} with retakes := ⟨[(63, { used := true, phase := .running, runs := [{ agent := 0, acked := true }] })]⟩ }
       s.runLive 63 0 = true ∧ ({ oneTask with retake := some 63 } : Ctx).crcGood = true) := by decide
theorem wit_SelfChecksAndScrubs : (at_ .run).agentOn 0 = true ∧ 31 < (at_ .run).build.lanes ∧ 31 ∉ ((at_ .run).agent 0).retired
    ∧ ((at_ .run).agent 0).katLast.get 0 31 + 10000000 ≤ ({ at_ .run with now := 10000000 } : State).now
    ∧ ((at_ .run).agent 0).ctxs = [] ∧ scrubResult 0 = .clean ∧ (at_ .run).sourceOn (unitSrc (.agent 0)) = true ∧ (at_ .run).sourceOn (unitSrc (.conc 0)) = true := by decide
theorem wit_VectorGroupsAndSummaries : ((at_ .run).agent 0).groups.get none 7 = none
    ∧ (let s := with_ { groups := ⟨[(0, some {})]⟩ }
       (s.agent 0).groups.get none 0 = some {})
    ∧ (let s := with_ { groups := ⟨[(8, some {})]⟩ }
       (s.agent 0).groups.keys.find? (fun k => decide (8 ≤ k ∧ k % 8 = 0)) = some 8)
    ∧ ((with_ { summaries := [{ stat := some 0, running := true }] }).agent 0).summaries.length = 1
    ∧ (let g : Group := { gated := true, complete := true, judged := false }
       g.settled = false ∧ g.poison = false ∧ g.aborted = false ∧ g.stepGated = false ∧ g.judged = false) := by decide
theorem wit_FencesOfAnAgent :
    (let s := onA (fun k => { k with fences := [(0, 0)] }) (at_ .run)
     s.agentOn 0 = true ∧ s.fenceOrdered 0 = true ∧ (s.agent 0).fence = false)
    ∧ ((with_ { fence := true, fenceReq := true }).agent 0).fenceReq = true ∧ (with_ {}).fenceOrdered 0 = false
    ∧ ((with_ { fenceAck := true }).agent 0).fenceAck = true ∧ ((with_ { fenceAck := true }).agent 0).fenceReq = false
    ∧ ((with_ { fenceReq := true }).agent 0).fenceReq ≠ ((with_ { fenceReq := true }).agent 0).fenceAck
    ∧ ((with_ { fenceReq := true }).agent 0).fenceLate = false ∧ ((with_ { fenceLate := true }).agent 0).fenceLate = true
    ∧ (let s := with_ { fence := true, fenceReq := true }
       (∀ r ∈ (s.agent 0).gates, r.opened = false) ∧ (∀ x ∈ (s.agent 0).ctxs, x.opened = false)
       ∧ s.openRetakes (fun r => decide (r.phase = .waitStandin)) = [] ∧ s.noCommit = false) := by decide
/-- The small machine with retake record 63 of agent 0 in a phase. -/
def retaking (p : RetPhase) (l : List Run) (g : Agent) : State :=
  { with_ g with retakes := ⟨[(63, { used := true, phase := p, runs := l })]⟩ }
theorem wit_RetakeOrdersAndControl :
    (let x : Ctx := { oneTask with waiting := true, retake := some 63 }
     let s := retaking .settling [{ agent := 0 }] { ctxs := [x] }
     (s.retake 63).used = true ∧ (s.retake 63).phase = .settling ∧ (s.retake 63).lastIs 0 = true ∧ (s.agent 0).waitingCtx 63 = some x)
    ∧ ((retaking .poisoning [{ agent := 0 }] {}).retake 63).lastIs 0 = true
    ∧ (retaking .poisoning [{ agent := 0 }] {}).busyWith 0xA = false
    ∧ (let s := retaking .requested [{ agent := 0 }] { sc := [{ op := 1, record := 63 }] }
       (s.agent 0).sc = [{ op := 1, record := 63 }] ∧ (s.agent 0).scWaitFall = false ∧ s.withheld = false
       ∧ (s.retake 63).phase = .requested ∧ (s.retake 63).runs = [] ++ [{ agent := 0 }]) := by decide

/-- An account of retake record 63 of agent 0. -/
def account : Account := { retake := some 63, audit := .ok }
theorem wit_RetakeDecisions :
    (let s := { retaking .running [{ agent := 0, acked := true }] {} with concs := ⟨[(0, { accounts := [account] })]⟩ }
     (s.retake 63).used = true ∧ (s.retake 63).phase = .running ∧ (s.retake 63).runs = [] ++ [{ agent := 0, acked := true }]
     ∧ s.runAccount 63 = some account ∧ (∀ z ∈ (s.retake 63).runs, posGroup z.agent = 0)
     ∧ decideRuns ([] ++ [{ agent := 0, acked := true, account := some account }]) true = .again)
    ∧ (let l : List Run := [{ agent := 0, account := some account }]
       let s := { retaking .running (l ++ [{ agent := 1 }]) {} with concs := ⟨[(0, { accounts := [{ account with agent := 1 }] })]⟩ }
       s.runAccount 63 = some { account with agent := 1 }
       ∧ decideRuns (l ++ [{ agent := 1, account := some { account with agent := 1 } }]) true = .code 1)
    ∧ (let l : List Run := [{ account := some { account with s := 1 } }, { account := some { account with s := 2 } }]
       decideRuns (l ++ [{ account := some { account with s := 3, t := 4 } }]) true = .code 5)
    ∧ (retaking .requested [{ agent := 0 }] {}).runAccount 63 = none
    ∧ ((retaking .waitStandin [{ agent := 0 }] {}).retake 63).phase = .waitStandin
    ∧ ((retaking .waitStandin [{ agent := 0 }] {}).job 0).abortRaised = false
    ∧ (let s : State := { at_ .run with retakes := ⟨[(63, { used := true, phase := .waitStandin, runs := [{ agent := 3 }] })]⟩ }
       s.chooseStandin (s.retake 63) = none ∧ (s.retake 63).runs = [] ++ [{ agent := 3 }])
    ∧ (let s : State := { at_ .run with retakes := ⟨[(63, { used := true, phase := .waitStandin, runs := [{ agent := 0 }] })]⟩ }
       s.chooseStandin (s.retake 63) ≠ none)
    ∧ (let s : State := { at_ .run with jobs := ⟨[(0, { abortRaised := true, abortHeld := true })]⟩ }
       (s.job 0).abortRaised = true ∧ (s.job 0).abortHeld = true) := by decide
theorem wit_EpochsAnnouncedAndActive :
    (let s := { at_ .run with epoch := { started := true } }
     s.epoch.announced = false ∧ s.ld.st.working = true ∧ s.shut = false ∧ s.epoch.cur = 0 ∧ ∀ a ∈ s.allAgents, (s.agent a).zeroised = false)
    ∧ (let s := { at_ .run with epoch := { started := true, announced := true } }
       s.clkReaches s.epoch.act.toNat = true) := by decide

/-! ### Witnesses: messages, sources, tags -/

/-- The small machine with a message in hub A's intake. -/
def taking (m : Msg) : State := onA (fun k => { k with intake := { ordinary := [{ msg := m }] } }) (at_ .run)
theorem wit_MessagesOnTheirWay :
    (let m : Msg := { sev := 1 }
     let s := with_ { queue := { ordinary := [{ msg := m }] } }
     s.hubUp .a = true ∧ (s.agent 0).queue.best (fun _ => true) = some (0, { msg := m }) ∧ m.sev.toNat < 2
     ∧ (s.conc (s.build.clusterOf 0)).queue.ordinary.length < 16
     ∧ (s.agent 0).queue.mergedFirst m = false ∧ (s.conc (s.build.clusterOf 0)).queue.takes m = true
     ∧ ((with_ {} {} { queue := { merged := [(1, {})] } }).conc 0).queue.merged ≠ [])
    ∧ (let m : Msg := { sev := 4 }
       (with_ { queue := { reserved := [{ msg := m, bad := 2 }] } }).hopHead (.agent 0) .a = some (0, { msg := m, bad := 2 })
       ∧ (with_ {}).nextHop (.agent 0) .a = some (.conc 0))
    ∧ (let m : Msg := { sev := 1 }
       (with_ { queue := { ordinary := [{ msg := m }], merged := [(1, { sev := 2 })] } }).hopHead (.agent 0) .a = some (0, { msg := m })
       ∧ Queue.mergedFirst { merged := [(1, { sev := 2 })] } m = true ∧ Queue.mergedFirst {} m = false
       ∧ Queue.mergedFirst { merged := [(1, { sev := 2 })] } { sev := 2 } = false)
    ∧ lowestJob (({ merged := [(3, {}), (1, {})] } : Queue)).merged = some (1, {}) := by decide
theorem wit_MessagesAtTheHub :
    (let m : Msg := { source := 0, kind := 0x01, sev := 1 }
     let s := taking m
     s.hubUp .a = true ∧ s.hubA.intake.best (fun _ => true) = some (0, { msg := m }) ∧ s.hubA.intake.mergedFirst m = false
     ∧ s.ld.fails = [] ∧ s.hubA.afterS4 = none ∧ s.sourceOn m.source = true ∧ srcPos m.source = some 0
     ∧ m.counts = true ∧ (s.hubA.src 0).bucket + 1 < s.grpN 0)
    ∧ (let m : Msg := { source := 0, kind := 0x42 }
       let s := onA (fun k => { k with intake := { ordinary := [{ msg := m }], merged := [(1, { sev := 2 })] } }) (at_ .run)
       s.hubA.intake.best (fun _ => true) = some (0, { msg := m }) ∧ s.hubA.intake.mergedFirst m = true)
    ∧ (let m : Msg := { source := 0, kind := 0x04, sev := 2, job := 1 }
       (taking m).aborts m = true ∧ ((taking m).job 1).abortRaised = false)
    ∧ (let m : Msg := { source := 0, kind := 0x42, injected := true }
       (taking m).sourceOn m.source = true ∧ srcPos m.source = some 0)
    ∧ (let m : Msg := { source := 3, kind := 0x40, sev := 3 }
       (taking m).sourceOn m.source = true ∧ failKind m = false ∧ srcPos m.source = some 3)
    ∧ (let m : Msg := { source := 4, kind := 0x40, sev := 4 }
       (taking m).sourceOn m.source = false)
    ∧ (let m : Msg := { source := 0, kind := 0x42, sev := 0 }
       (taking m).sourceOn m.source = true ∧ failKind m = false ∧ m.counts = false ∧ (taking m).aborts m = false) := by decide
theorem wit_SourceStoresStayCanonical : State.reset.hubA.srcs.wf {} = true ∧ State.reset.hubB.srcs.wf {} = true := by decide
theorem wit_LeaksQuietEndsAndMarks : (at_ .run).ticking .a = true ∧ (at_ .off).ticking .a = false ∧ (at_ .off).ticking .b = false
    ∧ (let s := onA (fun k => k.modSrc 4096 (fun x => { x with fault := true })) (at_ .run)
       (s.ld.src 4096).fault = true ∧ s.pairUp = false ∧ posGroup 4096 ≠ 0 ∧ (s.ld.src 4096).recovery + 1 < s.grpL (posGroup 4096))
    ∧ (let s := onA (fun k => k.modSrc 4096 (fun x => { x with fault := true })) (duo .run)
       (s.ld.src 4096).fault = true ∧ s.pairUp = true ∧ (s.ld.src 4096).recovery + 1 < s.grpL (posGroup 4096))
    ∧ (let s := onA (fun k => k.modSrc 4096 (fun x => { x with fault := true, recovery := 7 })) (at_ .run)
       s.grpL (posGroup 4096) ≤ (s.ld.src 4096).recovery + 1)
    ∧ (∀ e ∈ (duo .run).twin.refused, e.1 ≠ .unfence 4096) ∧ (duo .run).twin.answer ≠ some (.unfence 4096, false)
    ∧ (at_ .run).hubUp (at_ .run).twin.leader = true ∧ (at_ .run).ld.s4 = false
    ∧ ((at_ .run).clusterRec 0).isSome = true ∧ ((at_ .run).clusterRec 255).isSome = false
    ∧ (∀ i < 4, ((at_ .run).conc 0).maskSent.getLsbD i = (at_ .run).fencedAt .a (0 * 4 + i))
    ∧ (({ at_ .run with concs := ⟨[(0, { maskSent := 8 })]⟩ } : State).conc 0).maskSent.getLsbD 3 = true := by decide
/-- The small machine with tag engine 0 in a state. -/
def tagged (e : Engine) : State := { at_ .run with engines := ⟨[(0, e)]⟩ }
theorem wit_WritesOpenAndStore : (at_ .run).engineRole 0 = 1 ∧ (at_ .run).engineRole 1 = 2
    ∧ (at_ .run).blockAt 0x40000000 = some 0x40000000 ∧ ((at_ .run).engine 0).stream 63 = none
    ∧ ((at_ .run).engine 0).openWrites < 64 ∧ (at_ .run).frozen 0x40000000 (0x40000000 + (at_ .run).blockBytesAt 0x40000000) = false
    ∧ (let st : Stream := { op := .checked, addr := 0x40000000 }
       ((tagged { streams := ⟨[(63, some st)]⟩ }).engine 0).stream 63 = some st ∧ st.op ≠ .read ∧ st.untagged = false
       ∧ st.closed = false ∧ st.broken = false ∧ st.commitAtClose = false
       ∧ ((tagged {}).engine 0).freeSideId = some 0)
    ∧ (let st : Stream := { op := .read, addr := 0x40000000 }
       ((tagged { streams := ⟨[(1, some st)]⟩ }).engine 0).stream 1 = some st ∧ st.whole = true ∧ st.closed = false
       ∧ (∀ x ∈ ((tagged { streams := ⟨[(1, some st)]⟩ }).engine 0).bound, x.2.closed = false ∧ x.2.writes 0x40000000 = false)
       ∧ (∀ x ∈ ((tagged { streams := ⟨[(1, some { st with requested := true })]⟩ }).engine 0).bound, x.2.requested = true)) := by
  decide
theorem wit_ReadsAndSidecars : ((at_ .run).engine 0).stream 127 = none ∧ (at_ .run).blockAt 0 = none
    ∧ ((at_ .run).engine 0).ownWord ((at_ .run).sideOf 0x40000000) = none
    ∧ (let st : Stream := { op := .read, addr := 0x40000000, closed := true }
       let r : SideReq := { id := 15, purpose := .readWord 64 }
       let s := tagged { streams := ⟨[(64, some st)]⟩, side := [r] }
       (s.engine 0).side.find? (fun r => decide (r.id = 15)) = some r ∧ r.late = false ∧ r.write = false
       ∧ (s.engine 0).sideWait = [] ∧ (s.engine 0).stream 64 = some st ∧ st.held = false ∧ st.whole = true
       ∧ st.word = none ∧ ({ st with word := some (0x7FFFFFFF, false) } : Stream).word = some (0x7FFFFFFF#32, false)
       ∧ isPoison 0x7FFFFFFF = true ∧ isPending 0x80000000 = true ∧ isPoison 0 = false ∧ isPending 0 = false) := by decide
set_option maxRecDepth 8192 in
theorem wit_CommitsAndPoisons : ((at_ .run).engine 0).commits.length < 256
    ∧ 256 ≤ ((tagged { commits := List.replicate 256 {} }).engine 0).commits.length
    ∧ (let r : SideReq := { id := 0, purpose := .commitRead 5 }
       let c : CommitEntry := { key := 5, count := 1 }
       let s := tagged { side := [r], commits := [c] }
       (s.engine 0).side.find? (fun r => decide (r.id = 0)) = some r
       ∧ (s.engine 0).commits.find? (fun c => decide (c.key = 5)) = some c ∧ c.skip.contains c.next = false)
    ∧ (at_ .run).ownBlock 0 0x40000000 0 = some 0x40000000 ∧ (at_ .run).ownBlock 0 0 0 = none
    ∧ (let st : Stream := { op := .part, addr := 0x40000000 }
       ((tagged { streams := ⟨[(1, some st)]⟩ }).engine 0).stream 1 = some st ∧ st.writes 0x40000000 = true) := by decide
theorem wit_LedgersAndPackets : (at_ .run).engineRole 1 ≠ 0
    ∧ (let r : RecvRound := { job := 1, flowsExpected := 1 }
       ((tagged { rounds := [r] }).engine 0).rounds.find? (fun r => decide (r.job = 1 ∧ r.round = 0)) = some r
       ∧ r.flows.length ≠ r.flowsExpected)
    ∧ (let r : SendRound := { job := 1, expected := 1 }
       let s := with_ {} {} { rounds := [r] }
       (s.conc (s.engineHome 1)).rounds.find? (fun r => decide (r.job = 1 ∧ r.round = 0)) = some r ∧ r.total ≠ r.expected)
    ∧ (let s : State := { at_ .run with harness := { recs := [mk 0 0 [0x10010006, 0x07000000, 0, 0, 0, 0]] } }
       s.engineRole 1 = 3 ∧ (s.hostChan? 1 15) = none)
    ∧ (let p : DispatchPacket := { header := 0x8001000100000000D1010000, digits := [5], tag := 0, blocks := [0x40000000] }
       let r : RecvRound := { job := 1 }
       let s := tagged { rounds := [r] }
       hdrOk p.header = true ∧ (s.engine 0).rounds.find? (fun r => decide (r.job = hdrJob p.header ∧ r.round = hdrRound p.header)) = some r
       ∧ (hdrSeq p.header).toNat = 0 ∧ p.digits.length = hdrCount p.header * hdrRowDigits p.header ∧ hdrLast p.header = true
       ∧ s.layBlocks none p.blocks (digitBytes p.digits) = [(0x40000000, 2, 0)] ∧ s.payloadResidue p.digits = p.tag.toNat
       ∧ s.frozen 0x40000000 (0x40000000 + s.blockBytesAt 0x40000000) = false ∧ s.ownerEngine 0x40000000 = some 0
       ∧ (s.engine 0).freeSideId = some 0)
    ∧ ((tagged {}).engine 0).side = [] ∧ ({ job := 1 } : RecvRound).poisoned = [] ∧ (0#32 ≠ 0x7FFFFFFF#32)
    ∧ (let s : State := { at_ .run with harness := { recs := [mk 0 0 [0x10010006, 0x07000000, 0, 0, 0, 0], mk 0 1 [0x41010003, 0x04004800, 0]] } }
       s.engineRole 1 = 3 ∧ (s.hostChan? 1 2).isSome = true)
    ∧ hdrOk 0 = false ∧ ({ linear := true, started := true } : PayloadForm).started = true ∧ (at_ .run).engineRole 1 = 2
    ∧ (∃ g, (at_ .run).regionAt 0x40000000 = some g ∧ ((at_ .run).regionAt 0x40000100).map (fun r => r.key) = some g.key)
    ∧ 2 ≤ (at_ .run).engineRole 1 := by
  refine ⟨by decide, by decide, by decide, by decide, by decide, by decide, by decide, by decide, by decide, by decide, by decide, by decide, ⟨_, rfl, rfl⟩, by decide⟩

/-! ### Witnesses: housekeeping, the twin -/

theorem wit_SamplesRoundsAndMargins : ((at_ .run).chan? 0).isSome = true ∧ ((at_ .run).chan? 511).isSome = false
    ∧ (onA (fun k => { k with busWatch := true }) (at_ .run)).ld.busWatch = true ∧ (at_ .run).ld.busWatch = false
    ∧ (∃ r : Rec, (at_ .run).chan? 2 = some r ∧ r.fld 1 22 19 = 3) ∧ (at_ .run).agentOn 0 = true
    ∧ (at_ .run).build.clusterOf 0 = 0 ∧ (at_ .run).pastStage0 = true ∧ (at_ .run).hubA.fallback = false
    ∧ ((onA (fun k => k.modSrc (4384 + 2) (fun x => { x with lame := true })) (at_ .run)).hubA.src (4384 + 2)).lame = true
    ∧ (0#24 = (at_ .run).curbPort.level) := by
  refine ⟨by decide, by decide, by decide, by decide, ⟨mk 3 2 [0x60010003, 0x01180000, 0], by decide, by decide⟩, ?_⟩
  decide
theorem wit_TheThermalStep : (at_ .run).tWarn 0 ≤ (at_ .run).tCrit 0 ∧ 0 < (at_ .run).tHyst 0
    ∧ (DieThermal.ask {}) = false ∧ (DieThermal.curb {}) = 0
    ∧ (at_ .run).tWarn 0 - (at_ .run).tHyst 0 - 1 < (at_ .run).tCrit 0 ∧ (at_ .run).pairUp = false
    ∧ (∀ s ∈ [at_ .run, duo .run], (∀ e ∈ s.twin.refused, e.1 ≠ .lowerCurb 0) ∧ s.twin.answer ≠ some (.lowerCurb 0, false)
        ∧ HubId.a = s.twin.leader)
    ∧ (duo .run).pairUp = true := by decide
set_option maxRecDepth 65536 in
theorem wit_FramesOfTheCrossLink : (talking {}).pairTalks = true ∧ (at_ .run).pairTalks = false
    ∧ (let s := { talking {} with stage := some 2 }
       s.xlinkOn = true ∧ s.canSend .a = true ∧ s.build.hubs = 2)
    ∧ (talking {}).hubBuilt .b = true
    ∧ ((onA (fun k => { k with merging := true }) (talking {})).hub .a).merging = true
    ∧ (talking {}).firstClass .a = 3 ∧ (talking { writes := [(0x24, 5)] }).firstClass .a = 2
    ∧ frameGood (frameOf .heart 3 4 0) = true ∧ frameType (frameOf .heart 3 4 0) = .heart ∧ frameGood 1 = false
    ∧ (talking { unacked := [{ seq := 1 }] }).xsend .b = { unacked := [{ seq := 1 }] }
    ∧ ((talking {}).xsend .a).unacked.length ≤ 16
    ∧ (∀ h ∈ [HubId.a, .b], ((talking {}).xsend h).wait = [] ∧ ((talking {}).xsend h).cut = none ∧ (talking {}).firstClass h ≠ 0
        ∧ (talking {}).waits h .sections = false)
    ∧ (talking { wait := [(.sections, [])] }).waits .a .sections = true
    ∧ (talking {} (fun t => { t with proposals := [.lowerCurb 0] })).firstClass .a = 0
    ∧ (talking {} (fun t => { t with proposals := [.lowerCurb 0] })).canSend .a = true
    ∧ (talking { unacked := List.replicate 16 { seq := 1 } }).canSend .a = false
    ∧ (let s := { talking {} with clock := { running := true } }
       s.pairUp = true ∧ s.clock.running = true ∧ s.busyWith 0xA = false ∧ s.xlinkOn = true
       ∧ ({ s with xlink := { s.xlink with retraining := true } } : State).xlinkOn = false
       ∧ ({ s with xlink := { s.xlink with retraining := true } } : State).pairUp = true) := by decide
theorem wit_MergesMirrorsAndConsent :
    (let s := talking {} (fun t => { t with proposals := [.lowerCurb 0] })
     .lowerCurb 0 ∈ s.proposable ∧ s.canSend .a = true ∧ s.canSend .b = true)
    ∧ (let s := talking {} (fun t => { t with answer := some (.lowerCurb 0, true) })
       s.twin.answer = some (.lowerCurb 0, true) ∧ s.mirrorFull s.twin.leader = false ∧ s.stopped = false
       ∧ s.dieTemp s.twin.leader 0 = none)
    ∧ (let s : State := { onA (fun k => k.modSrc 4096 (fun x => { x with fault := true })) (at_ .run) with
                          twin := { proposals := [.unfence 4096] } }
       s.pairUp = false ∧ .unfence 4096 ∈ s.twin.proposals ∧ (s.ld.src 4096).fault = true
       ∧ (s.ld.src 4096).recovery + 1 < s.grpL (posGroup 4096) ∧ posGroup 4096 ≠ 0)
    ∧ (let s : State := { talking {} with
                          retakes := ⟨[(63, { used := true, phase := .proposed })]⟩
                          twin := { (talking {}).twin with answer := some (.settle 63, false) } }
       s.twin.answer = some (.settle 63, false) ∧ (s.retake 63).used = true ∧ (s.retake 63).phase = .proposed)
    ∧ (talking {}).waits .b .items = false ∧ (talking { wait := [(.items, [])] }).waits .b .items = true
    ∧ (let s : State := { talking {} (fun t => { t with answer := some (.lowerCurb 0, true) }) with
                          hubA := { st := .run, thermal := ⟨[(0, { release := some 5 })]⟩ } }
       s.ld.thermal.get {} 0 = { release := some 5 } ∧ s.stopped = false)
    ∧ (talking {}).ld.fails = []
    ∧ (let m : Msg := { source := 0, kind := 0x13, sev := 1, addr := 1 }
       ((talking { mirrors := [m] }).xsend .a).mirrors = m :: [] ∧ m.addr.getLsbD 0 = true)
    ∧ 1 ≤ (talking { mirrors := [{}] }).firstClass .b
    ∧ (let m : Msg := { source := 0, sev := 3 }
       ((talking { mirrors := [m] }).xsend .a).mirrors = m :: [] ∧ srcPos m.source = some 0)
    ∧ ((talking { aborts := [(1, 7)] }).xsend .a).aborts = (1, 7) :: []
    ∧ ((talking { writes := [(0x24, 5)] }).xsend .b).writes = (0x24, 5) :: [] := by decide
theorem wit_SilenceArbitrationAndTheAliveCell : (duo .run).pairUp = true ∧ (at_ .run).pairUp = false
    ∧ ({ duo .run with alive := { claimA := true, claimB := true } } : State).alive.claimB = true
    ∧ (let l : Alive := { claimA := true, claimB := true, claimAtA := 41, claimAtB := 79 }
       l.claimAtA / 40 = l.claimAtB / 40 ∧ ({ l with claimAtB := 80 } : Alive).claimAtA / 40 < 80 / 40)
    ∧ (∀ h ∈ [HubId.a, .b], (talking {}).canSend h = true ∧ (talking {}).firstClass h ≠ 0 ∧ ((talking {}).xsend h).wait = [])
    ∧ (at_ .run).pastStage0 = true
    ∧ (talking {} (fun t => { t with arbitration := true })).twin.arbitration = true
    ∧ (at_ .run).hubA.st ≠ .failedBringup ∧ (at_ .failedBringup).hubA.st = .failedBringup
    ∧ (let s := { at_ .run with alive := { started := true, strobed := true } }
       s.alive.stopped = false ∧ s.anyS4 = false) := by decide

/-! ### Witnesses: the management port -/

/-- The small machine with its endpoint active, at an address. -/
def managed (m : Mgmt) : State := { at_ .run with mgmt := { m with active := true } }
theorem wit_TheI3CTarget : (managed {}).mgmtOn = true ∧ (managed {}).staticAddr = 0 ∧ (managed {}).mgmt.dynAddr = 0
    ∧ (managed { dynAddr := 8 }).addressed = true ∧ (managed {}).addressed = false
    ∧ ({ managed {} with harness := { recs := [mk 0 0 [0x90010004, 8, 0, 0]] } } : State).staticAddr = 8
    ∧ (69#16).toNat = 69 ∧ (256#16).toNat = 256 := by decide
theorem wit_AnswersOfTheEndpoint : Build.dieUsed small 0 = true ∧ ((at_ .run).chansOf 3)[0]? = some 2
    ∧ (at_ .run).sensors[0]? = some 1 ∧ (at_ .run).sensors[4]? = some 0x100 ∧ 0x06#8 ∉ pldmCommands 0 ∧ 5 < (6#8).toNat := by decide
theorem wit_EventsAndPolls :
    (let s := managed { dynAddr := 8, receiver := true, mode := .keepAlive, events := [.heartbeat] }
     s.addressed = true ∧ s.mgmt.sends = true ∧ s.mgmt.inFlight = none ∧ s.mgmt.events = .heartbeat :: []
     ∧ s.mgmt.pollable = [])
    ∧ (managed { dynAddr := 8, inFlight := some .heartbeat, resends := 3 }).mgmt.inFlight = some .heartbeat
    ∧ (managed { dynAddr := 8, polled := [.heartbeat] }).mgmt.pollable.head? = some .heartbeat := by decide

/-! ### Witnesses: the call sheet, trot-ups, wrap -/

/-- The small machine in a stage of the call sheet. -/
def inStage (n : Nat) : State := { at_ .bringup with stage := some n }
theorem wit_TheCallSheetUpToTheDieLinks : (inStage 0).stage = some 0 ∧ (inStage 0).stageBudget 0 < 40001 * 1000
    ∧ ({ inStage 1 with keyPort := { req := true } } : State).keyPort.beats.length + 8 = 8 * keyBeats 0
    ∧ gradeOk (BitVec.ofNat 32 (natBE ((bytesBE 8 0x015DCC80).drop 4))) = true
    ∧ (let s := { inStage 1 with keyPort := { req := true, item := 3, beats := List.replicate 24 1#8 } }
       s.keyPort.beats.length + 8 = 8 * keyBeats s.keyPort.item ∧ s.keyPort.beats ++ bytesBE 8 0 ≠ s.keys.checkRoot)
    ∧ ({ inStage 1 with keyPort := { done := 6 } } : State).keyPort.done = 6
    ∧ ((2 : Nat) ≠ small.lanes ∨ (0 : Nat) ≠ small.contexts)
    ∧ (let s : State := { inStage 3 with build := { small with dies := 2 }, links := ⟨[(1, { lanes := 4 }), (2, { lanes := 4 })]⟩ }
       (s.linkEnd 0).lanes = 0 ∧ (s.linkEnd 0).down = false ∧ 0 < 2 * s.build.dies
       ∧ ∀ i < 4, (({ s with links := ⟨[(0, { down := true }), (1, { lanes := 4 }), (2, { lanes := 4 }), (3, { down := true })]⟩ }
            : State).linkEnd i).lanes ≠ 0 ∨ i = 0 ∨ i = 3)
    ∧ (let s := onA (fun k => { k with selfTest := true }) (inStage 2)
       s.build.hubs = 1 ∧ (true && s.hubA.selfTest) = true)
    ∧ (let s : State := { inStage 3 with build := { small with dies := 2 } }
       s.build.dies ≠ 1 ∧ 1 < s.build.dies ∧ (s.linkEnd 1).lanes = 0 ∧ (s.linkEnd 1).down = false ∧ s.farEnd 1 = 2)
    ∧ (let s : State := { inStage 3 with build := { small with dies := 2 }, links := ⟨[(1, { lanes := 4 }), (2, { lanes := 4 })]⟩ }
       s.unreachable = []) := by decide
/-- The small machine with two dies and a die link that has had `n` resends. -/
def resending (n : Nat) : State :=
  { at_ .run with build := { small with dies := 2 }, links := ⟨[(1, { lanes := 4, resentAt := List.replicate n 0 }), (2, { lanes := 4 })]⟩ }
/-- A good packet, one with another index, and both sides of LINK_ERR_MAX (TheCallSheetFromTheHarnessOn). -/
theorem wit_PacketsAndResends : (∀ pl : List Byte, imageGood 2 (imageHeader 2 1 pl) pl = true ∧ bits (imageHeader 2 1 pl) 47 40 = 1
      ∧ imageGood 1 (imageHeader 2 1 pl) pl = false)
    ∧ ({ inStage 5 with image := some (257, 0) } : State).agentOn 3 = true ∧ imagePackets 257 = 2 ∧ imagePackets 256 = 1
    ∧ (resending 17).linkErrMax < (resending 17).recentResends 1 ∧ (resending 16).recentResends 1 ≤ (resending 16).linkErrMax
    ∧ (resending 17).build.dies ≠ 1 ∧ ((resending 17).linkEnd 1).lanes ≠ 0 := by
  refine ⟨fun pl => ⟨imageGood_imageHeader 2 1 pl (by decide) (by decide), imageHeader_index 2 1 pl (by decide), ?_⟩, by decide⟩
  simp [imageGood, imageHeader_index 2 1 pl (by decide)]
theorem wit_TheCallSheetFromTheHarnessOn : (inStage 4).upHubs ≠ [] ∧ (inStage 5).image = none
    ∧ (let s := { inStage 5 with image := some (64, 3) }
       s.agentOn 3 = true ∧ s.incomplete (imagePackets 64) [] 3 = true ∧ (∀ a ∈ s.allAgents, s.agentLame a = false)
       ∧ s.stageFrom + 25000000 ≥ max s.now (s.now + 100000)
       ∧ ∀ a ∈ s.allAgents, ({ s with agents := ⟨(List.range 4).map (fun i => (i, { image := 1 }))⟩ } : State).incomplete
            (imagePackets 64) [] a = false)
    ∧ (inStage 6).flash.usable = none
    ∧ ({ inStage 6 with flash := { copyA := some { sequence := 1, idRev := idRev }, copyB := some { sequence := 2 } } } : State).flash.usable
        = some (false, { sequence := 1, idRev := idRev })
    ∧ (inStage 8).agentOn 3 = true ∧ ((inStage 8).clusterRec 0).isSome = true
    ∧ ((inStage 9).portsResolved = true)
    ∧ ({ inStage 9 with harness := { recs := recs ++ [mk 7 0 [0x71010004, 0, 0, 0]] } } : State).portsResolved = false
    ∧ (inStage 10).agentsMin ≤ ((inStage 10).allAgents.filter (fun a => !(inStage 10).agentLame a)).length
    ∧ (let s : State := { at_ .run with build := { small with dies := 2 }, links := ⟨[(0, { lanes := 4 }), (3, { lanes := 4 })]⟩ }
       (s.linkEnd 0).lanes ≠ 0 ∧ (s.linkEnd 0).retraining = false ∧ s.farEnd 0 = 3) := by decide
/-- The small machine with a paddock entry of agent 0. -/
def padded (e : PadEntry) (t : TestEngine) (g : Agent) : State :=
  onA (fun k => { k with paddock := ⟨[(0, e)]⟩ }) { with_ g with test := t }
theorem wit_TrotUpsPatternsAndTheWrapTest :
    (let e : PadEntry := { valid := true, state := .due }
     let s := padded e { sets := [.tile, .agent] } {}
     s.ld.pad? 0 = some e ∧ e.state ≠ .testing ∧ s.trotsRun 0 = true ∧ s.clkReaches e.due = true ∧ s.testReady = true
     ∧ (s.fresh.advanceClk e.due).firstDue e = true ∧ (s.fresh.advanceClk e.due).standins ≠ [])
    ∧ (let s := with_ { secReq := true, secClr := true, zeroised := true }
       (s.agent 0).secReq = true ∧ (s.agent 0).zeroised = true ∧ s.test.groupAsked = false ∧ s.stopped = false
       ∧ s.testClock = true ∧ s.trot? 0 = none)
    ∧ ((with_ {} {} { secReq := true }).conc 0).secReq = true
    ∧ (onA (fun k => { k with secReq := true, zeroised := true }) (at_ .wrap)).hubA.secReq = true
    ∧ (let s := { with_ { secReq := true, secClr := true } {} {} .wrap with
                  test := { groupAsked := true, groupLeft := [1, 2, 3] }
                  harness := { recs := recs ++ [mk 8 0 [0x52010004, 0, 1000, 0]] } }
       s.groupScanned = [0] ∧ s.trot? 0 = none ∧ (s.agent 0).secClr = true)
    ∧ (let s : State := { duo .wrap with
                          test := { groupAsked := true, wrapNext := 1, sets := [.hub] }
                          harness := { recs := recs ++ [mk 8 0 [0x52010004, 0, 1000, 0]] } }
       s.groupScanned = [4352 + hubIdx .b] ∧ s.hubB.secClr = false ∧ s.testClock = true)
    ∧ (let x : Trot := { agent := 0, step := 4 }
       let s := padded { valid := true } { trots := [x] } { scanEnable := true }
       s.trot? 0 = some x ∧ x.step = 4 ∧ (s.agent 0).scanEnable = true ∧ s.stopped = false ∧ s.checkpoints .tile = 0)
    ∧ (let s : State := { at_ .run with flash := { header := [0x5CA70101, 0, 0, 0, 0x01000001] } }
       0 < s.checkpoints .tile ∧ checkpointMisr { response := [], expected := 1 } ≠ 1)
    ∧ (let x : Trot := { agent := 0, step := 10 }
       let s := padded { valid := true } { trots := [x] } {}
       s.trot? 0 = some x ∧ x.missed = false ∧ x.step ∈ [1, 2, 8, 9, 10] ∧ (s.ld.pad? 0).isSome = true)
    ∧ (let x : Trot := { agent := 0, step := 3, tapWait := true }
       (padded {} { trots := [x] } {}).test.trots.find? (fun y => y.tapWait) = some x)
    ∧ (let s : State := { at_ .wrap with
         harness := { recs := recs ++ [mk 8 0 [0x52010004, 0, 1000, 500]] }, test := { wrapping := true, tapGrant := true } }
       s.test.wrapping = true ∧ s.wrapTested = false ∧ s.test.trots = [] ∧ s.test.wrapNext < s.wrapGroups.1
       ∧ s.groupScanned ≠ [])
    ∧ (let s : State := { at_ .wrap with test := { groupAsked := true, tapWait := true, groupScan := true, rerun := true } }
       s.test.groupAsked = true ∧ s.test.tapWait = true ∧ s.test.groupScan = true ∧ s.test.rerun = true)
    ∧ (let s : State := { at_ .wrap with test := { wrapping := true, imageAbsent := true, eraseDone := true } }
       s.wrapTested = true ∧ s.test.eraseDone = true ∧ s.test.wrapDone = false ∧ s.flash.answers = true) := by
  decide
/-- A pattern image with one set, of no bytes: its header. -/
def imageHeader : List W32 :=
  [0x5CA70101, 0, 0, 0, 0x01000001, 0, 0, 0, 0x38B060A7, 0x51AC9638, 0x4CD9327E, 0xB1B1E36A, 0x21FDB711, 0x14BE0743, 0x4C0CC7BF,
    0x63F6E1DA, 0x274EDEBF, 0xE76F65FB, 0xD51AD2F1, 0x4898B95B] ++ List.replicate 1004 0
/-- The small machine with that image, a harness record of its digest, and some sets in the cache. -/
def imaged (digest : List W32) (sets : List PatSet) : State :=
  { at_ .run with
    flash := { header := imageHeader }
    test := { sets := sets }
    harness := { recs := recs ++ [mk 8 1 (0x5301000D :: digest)] } }
theorem shaStep_length (x : List W64 × List W64) (k : W64) (h : x.2.length = 8) : (shaStep x k).2.length = 8 := by
  unfold shaStep; split <;> simp_all
theorem shaTake_length (h : List W64) (b : List Byte) (hh : h.length = 8) : (shaTake h b).length = 8 := by
  have all : ∀ (l : List W64) (x : List W64 × List W64), x.2.length = 8 → (l.foldl shaStep x).2.length = 8 := by
    intro l
    induction l with
    | nil => exact fun _ h => h
    | cons k l ih => exact fun x h => ih _ (shaStep_length x k h)
  simp [shaTake, hh, all]
theorem bytes_of_halves (w : W64) :
    [(w >>> 32).setWidth 32, w.setWidth 32].flatMap (fun x : W32 => bytesBE 4 x.toNat) = bytesBE 8 w.toNat := by
  simp only [bytesBE, List.flatMap_cons, List.flatMap_nil, List.cons_append, List.nil_append, List.cons.injEq, and_true,
    BitVec.toNat_setWidth, BitVec.toNat_ushiftRight, Nat.shiftRight_eq_div_pow, ← BitVec.toNat_inj, BitVec.toNat_ofNat]
  have := w.isLt
  omega
theorem sha384_words (m : List Byte) : ∃ d : List W32, d.length = 12 ∧ d.flatMap (fun x => bytesBE 4 x.toNat) = sha384 m := by
  have all : ∀ (l : List Nat) (f : Nat → List Byte) (h : List W64), h.length = 8 →
      (l.foldl (fun h i => shaTake h (f i)) h).length = 8 := by
    intro l f
    induction l with
    | nil => exact fun _ h => h
    | cons k l ih => exact fun h hh => ih _ (shaTake_length h _ hh)
  simp only [sha384]
  generalize hg : List.foldl _ shaInit _ = g
  have hl : g.length = 8 := hg ▸ all _ _ _ rfl
  refine ⟨(g.take 6).flatMap (fun w : W64 => [(w >>> 32).setWidth 32, w.setWidth 32]), by simp [List.length_flatMap, List.map_const', hl], ?_⟩
  rw [List.flatMap_assoc]
  simp only [bytes_of_halves]
theorem wit_SetsOfThePatternImage : ∃ d : List W32,
    (let s := imaged d []
     s.ld.st.pastReady = true ∧ s.imageOk = true ∧ (s.flash.dir .tile).isSome = true ∧ s.setFails .tile < 3
     ∧ s.setGood .tile [] = true ∧ s.setGood .tile [0] = false ∧ s.flash.dir .agent = none)
    ∧ (imaged d [.tile]).test.sets.contains .tile = true := by
  obtain ⟨d, hd, h⟩ := sha384_words (imageHeader.flatMap (fun w => bytesBE 4 w.toNat))
  have hr : (imaged d []).rec? 0x53 (fun _ => true) = some (mk 8 1 (0x5301000D :: d)) := by
    have hn : recs.find? (fun r => decide (r.type = 0x53) && true) = none := by decide
    have ht : (mk 8 1 (0x5301000D :: d)).type = 0x53 := show bits 0x5301000D 31 24 = 0x53 by decide
    rw [State.rec?, show (imaged d []).recs = recs ++ [mk 8 1 (0x5301000D :: d)] from rfl, findRec, List.find?_append, hn]
    simpa using ht
  have hF : (imaged d []).flash = { header := imageHeader } := rfl
  have hf : (({ header := imageHeader } : Flash).answers && ({ header := imageHeader } : Flash).headerWf) = true := by decide +kernel
  refine ⟨d, ⟨rfl, ?_, ?_, by simp [State.setFails, imaged], ?_, ?_, ?_⟩, rfl⟩
  · rw [State.imageOk, hr]
    simp only [hF, hf, Bool.true_and]
    exact decide_eq_true (h.symm.trans (congrArg (List.flatMap _) (show d.take 12 = d by simp [← hd]).symm))
  all_goals first | rw [hF] | rw [State.setGood, hF]
  all_goals decide +kernel
theorem wit_MessagesOfUnknownSourcesAreDiscarded :
    (0xFFFF#16).toNat / 8192 = 7 ∧ (0x1000#16).toNat / 8192 = 0 ∧ 4096 ≤ (0x1000#16).toNat % 8192
    ∧ ((0x0004#16).toNat / 8192 = 0 ∧ (at_ .run).agentOn 4 = false)
    ∧ (taking { source := 0xFFFF }).hubA.intake.mergedFirst { source := 0xFFFF } = false
    ∧ (taking { source := 0xFFFF }).hubA.intake.best (fun _ => true) = some (0, { msg := { source := 0xFFFF } }) := by decide
theorem wit_EpochKeysComeFromTheCheckRoot :
    (let s := { inStage 1 with keyPort := { req := true, item := 2, beats := List.replicate 24 1#8 } }
     s.stage = some 1 ∧ s.keyPort.item = 2 ∧ s.keyPort.beats.length = 24) := by decide

/-! ### Ill-formed commands -/

/-- One command for each check of WellFormed, with an operand that breaks it on the small machine. -/
def illFormed : List Instr := [.registerWrite 2 0, .regAccessLatch 1, .injectionTimeout 8192, .stage0Identity 0 [4] [] [] true true,
  .stage0Identity 0 [] [1] [] true true, .stage0Identity 0 [] [] [(4, 0, 0)] true true, .stage8KnownAnswer 0 [(0, 32)] [] [], .stage8KnownAnswer 0 [] [(4, 0)] [],
  .stage8KnownAnswer 0 [] [] [1], .linkTrainAttemptEnd (.die 0) true, .linkTrainAttemptEnd .cross true, .imagePacket 4 0 [], .imagePacket 0 0 [],
  .imageCollect [1], .tdDescriptor 4 0 0 0, .auditBeat 0 .c 0 0 0 false 0, .handoffSlice 1 0, .handoffSlice 0 4, .verdict 1,
  .verdictAtAgent 4, .cmtAccept 0 0, .vhHeader 4 0 0, .vectorGroupVerdict 4 0, .choiceStrobe 4 0, .fenceOrder 4, .fenceAckRise 4,
  .fenceEnd 4, .fenceAckFall 4, .fenceTimeout 4, .scAck 4, .settleOrder 0 64, .poisonOrder 4 0, .laneSelfCheck 0 (.lane 32) false 0,
  .laneSelfCheck 0 (.generator 2) false 0, .summaryJudge 1 0, .concStepAnswer 1 0 0, .messageOrigin (.hub .b) 0 0 0 0 0,
  .messageOrigin (.agent 0) 0 0 5 0 0, .messageHop (.agent 0) .b, .hopBadCrc (.engine 2) .a, .mergedS2Send (.linkEnd 0),
  .hubAcceptMessage .b, .leakTick 7, .quietEnd 8192, .reconcileMaskSend 1, .reconcileCompare .a 1, .accountFetch 64,
  .retakeIssueTimeout 64, .retakeWaitExpiry 64, .retakeRunTimeout 64, .writeChecked 0 64 0 0, .read 0 63 0 0 true, .commit 2 0 0 0,
  .ledgerClose 2 true 0 0, .sidecarTimeout 2 0, .commitBufferFree 2, .hostReport 2 0 0 0 [], .beaconTxReady 256, .busSample 16,
  .marginWindowDone 1 [], .hubStrobe .b, .trotDue 4, .trotIdleAfterExpiry 4, .scanDone 4 [] [], .secretsCleared (.hub .b),
  .secretsTimeoutExpiry (.conc 1), .cacheBlockBad 0 .tile 0 [4] false [], .wrapGroupDone [(8192, [], [])], .dieLinkLockLoss 0,
  .dieLinkRetrainDone 0 3, .scAckFall 4, .crossLinkRetrain]

theorem test_ill_formed_commands_are_refused : ∀ i ∈ illFormed, i.wf small = false := by decide
set_option maxRecDepth 8192 in
theorem test_ill_formed_beats_are_refused :
    (∀ n ∈ [0, 33], TapBeat.wf (tapBeat n) = false)
    ∧ (∀ n ∈ [0, 33], VeBeat.wf (veBeat n) = false)
    ∧ PrjBeat.wf { header := false, handle := 0, data := 0, count := 33, member := 0, idx1 := 0, poison := false, auditOnly := false, cyc := 0 } = false
    ∧ TgBeat.wf { stream := 0, data := List.replicate 257 0#8, dbe := 0, old := [], last := true, poison := false } = false
    ∧ SaveImage.wf small emptyImage = true ∧ SaveImage.wf small { emptyImage with paddock := [(64, 0)] } = false
    ∧ SaveImage.wf small { emptyImage with buckets := [], odd := [(1, 0, 0)] } = false := by decide

/-! ### Worked examples of the spec -/

/-- R54: the value after round 3, the exact and the bounded weight. -/
theorem test_mixing_function : mix 0x1F2E3D4C5B6A7988 0x100 0 5 = 0x277FF51B4A2F3D60
    ∧ exactWeight 0x1F2E3D4C5B6A7988 0x100 0 5 = 422520727 := by decide
/-- R122: content residues with ρ = 5, and the tag word of the gathered block. -/
theorem test_content_residues : contentOf 5 [2, 7, 1, 4] = 2810 ∧ contentOf 5 [3, 0, 5, 6] = 4390
    ∧ contentOf 5 [2, 7, 1, 4, 3, 0, 5, 6] = 2746560 ∧ tagWord false ((2746560 + 2146000000) % p31) = 0x00134541 := by decide
/-- The four summaries of R157's example. -/
def fourSummaries : Envelope :=
  [294912, 295936, 287744, 652288].foldl (fun e y => (e.judge y).1) { mu := 294912, var := 4096, k16 := 128, k16Base := 128, alpha := 4, warm := 4, steps := 4, sigmaMin := 16 }
set_option maxRecDepth 65536 in
/-- R157: the excursion, MU, VAR and K16_EFF after the step. -/
theorem test_running_envelope : fourSummaries.excursion = true ∧ (fourSummaries.update (128, 255)).mu = 296864
    ∧ (fourSummaries.update (128, 255)).var = 7948 ∧ (fourSummaries.update (128, 255)).k16 = 132 := by decide
/-- R411 and the example of 14_management_port: Record ID and unit names. -/
theorem test_record_id : recordId { source := 0x03FE, kind := 0x43, seq := 0x5B, sev := 3, stamp := 0x3A6C1B } = 0x03FE435B603A6C1B
    ∧ (fruText 0x03FE).take 16 = ascii "LENVI AGENT 1022" := by decide
set_option maxRecDepth 65536 in
/-- Example of 13_harness: the corrected records are accepted. -/
theorem test_harness_records : (checkRecords { build := small, grade := 0x015DCC80, auth := [], len := 0, hot := none }
    ([(1, 2), (2, 3), (3, 2), (7, 6), (6, 1), (8, 1)].map (fun x => { type := x.1, records := x.2, offset := 0, bytes := 0, rsvd := true }))
    recs []).first = none := by decide

end Sys2Proof.Tests
end

section
/-! What a step keeps, put together from the lemma of each command (R4, log 2). -/

namespace Sys2Proof.Machine

open Sys2Proof

/-- Every command but the two of RST_L keeps what `Keeps` names: one lemma of Laws/ for each row of the table. -/
theorem exec_keeps {c : Instr} {s t : State} (ha : c ≠ .rstLAssert) (hd : c ≠ .rstLDeassert) (h : exec c s = .next t) :
    Keeps s t := by
  cases c with
  | rstLAssert => exact absurd rfl ha
  | rstLDeassert => exact absurd rfl hd
  | registerWrite => exact execRegisterWrite_keeps _ _ h
  | regAccessLatch => exact execRegAccessLatch_keeps _ h
  | start => exact execStart_keeps _ h
  | loadHarness => exact execLoadHarness_keeps _ h
  | run => exact execRun_keeps _ h
  | quiesce => exact execQuiesce_keeps _ h
  | save => exact execSave_keeps _ h
  | restore => exact execRestore_keeps _ _ h
  | trotUp => exact execTrotUp_keeps _ h
  | clearSource => exact execClearSource_keeps _ h
  | setBand => exact execSetBand_keeps _ h
  | retireTwin => exact execRetireTwin_keeps _ h
  | wrap => exact execWrap_keeps _ h
  | signResultOpen => exact execSignResultOpen_keeps _ _ h
  | signResultSign => exact execSignResultSign_keeps _ h
  | signResultClose => exact execSignResultClose_keeps _ h
  | launchAt => exact execLaunchAt_keeps _ h
  | hotUpdate => exact execHotUpdate_keeps _ _ _ h
  | replay => exact execReplay_keeps _ _ h
  | commandTimeout => exact execCommandTimeout_keeps h
  | stepEnd => exact execStepEnd_keeps _ h
  | slateBegin => exact execSlateBegin_keeps _ h
  | abortFifoPop => exact execAbortFifoPop_keeps _ h
  | stickyClear => exact execStickyClear_keeps _ _ h
  | irqStsClear => exact execIrqStsClear_keeps _ h
  | thrEvtClear => exact execThrEvtClear_keeps _ h
  | overrunClear => exact execOverrunClear_keeps _ h
  | forceWrite => exact execForceWrite_keeps _ _ h
  | injectionTimeout => exact execInjectionTimeout_keeps _ h
  | indSelect => exact execIndSelect_keeps _ _ h
  | indFetchDone => exact execIndFetchDone_keeps h
  | indDataRead => exact execIndDataRead_keeps h
  | indDataWrite => exact execIndDataWrite_keeps _ h
  | reelDataRead => exact execReelDataRead_keeps _ h
  | stage0Identity => exact execStage0Identity_keeps _ _ _ _ _ _ h
  | stage1Keys => exact execStage1Keys_keeps _ h
  | stage2Pairing => exact execStage2Pairing_keeps _ _ _ h
  | stage3DieLinks => exact execStage3DieLinks_keeps _ h
  | stage4Harness => exact execStage4Harness_keeps _ _ _ h
  | stage5AgentImage => exact execStage5AgentImage_keeps _ h
  | stage6LameList => exact execStage6LameList_keeps _ h
  | stage7Housekeeping => exact execStage7Housekeeping_keeps _ _ _ _ h
  | stage8KnownAnswer => exact execStage8KnownAnswer_keeps _ _ _ _ h
  | stage9Discovery => exact execStage9Discovery_keeps _ h
  | discWindowEnd => exact execDiscWindowEnd_keeps h
  | stage10Ready => exact execStage10Ready_keeps _ h
  | stageBudgetExpiry => exact execStageBudgetExpiry_keeps h
  | keyPortBeat => exact execKeyPortBeat_keeps _ _ h
  | keyPortBad => exact execKeyPortBad_keeps h
  | keyItemTimeout => exact execKeyItemTimeout_keeps h
  | linkTrainAttemptEnd => exact execLinkTrainAttemptEnd_keeps _ _ h
  | imagePacket => exact execImagePacket_keeps _ _ _ h
  | imageCollect => exact execImageCollect_keeps _ h
  | tdDescriptor => exact execTdDescriptor_keeps _ _ _ _ h
  | tapElementBeat => exact execTapElementBeat_keeps _ _ h
  | prjBeat => exact execPrjBeat_keeps _ _ h
  | auditBeat => exact execAuditBeat_keeps _ _ _ _ _ _ _ h
  | cLast => exact execCLast_keeps _ _ h
  | handoffSlice => exact execHandoffSlice_keeps _ _ h
  | verdict => exact execVerdict_keeps _ h
  | verdictAtAgent => exact execVerdictAtAgent_keeps _ h
  | cmtAccept => exact execCmtAccept_keeps _ _ h
  | vhHeader => exact execVhHeader_keeps _ _ _ h
  | veBeat => exact execVeBeat_keeps _ _ h
  | vectorGroupVerdict => exact execVectorGroupVerdict_keeps _ _ h
  | choiceStrobe => exact execChoiceStrobe_keeps _ _ h
  | fenceOrder => exact execFenceOrder_keeps _ h
  | fenceAckRise => exact execFenceAckRise_keeps _ h
  | fenceEnd => exact execFenceEnd_keeps _ h
  | fenceAckFall => exact execFenceAckFall_keeps _ h
  | fenceTimeout => exact execFenceTimeout_keeps _ h
  | scAck => exact execScAck_keeps _ h
  | settleOrder => exact execSettleOrder_keeps _ _ h
  | poisonOrder => exact execPoisonOrder_keeps _ _ h
  | gateOpen => exact execGateOpen_keeps _ _ h
  | jobAbortActions => exact execJobAbortActions_keeps _ h
  | epochAnnounce => exact execEpochAnnounce_keeps h
  | epochActivation => exact execEpochActivation_keeps h
  | laneSelfCheck => exact execLaneSelfCheck_keeps _ _ _ _ h
  | scrubAccess => exact execScrubAccess_keeps _ _ _ _ _ _ _ h
  | summaryJudge => exact execSummaryJudge_keeps _ _ h
  | concStepAnswer => exact execConcStepAnswer_keeps _ _ _ h
  | gateDecision => exact execGateDecision_keeps _ h
  | messageOrigin => exact execMessageOrigin_keeps _ _ _ _ _ _ h
  | messageHop => exact execMessageHop_keeps _ _ h
  | hopBadCrc => exact execHopBadCrc_keeps _ _ h
  | mergedS2Send => exact execMergedS2Send_keeps _ h
  | hubAcceptMessage => exact execHubAcceptMessage_keeps _ h
  | leakTick => exact execLeakTick_keeps _ h
  | quietEnd => exact execQuietEnd_keeps _ h
  | reelMark => exact execReelMark_keeps h
  | reconcileMaskSend => exact execReconcileMaskSend_keeps _ h
  | reconcileCompare => exact execReconcileCompare_keeps _ _ h
  | accountFetch => exact execAccountFetch_keeps _ h
  | retakeIssueTimeout => exact execRetakeIssueTimeout_keeps _ h
  | retakeWaitExpiry => exact execRetakeWaitExpiry_keeps _ h
  | retakeRunTimeout => exact execRetakeRunTimeout_keeps _ h
  | writeChecked => exact execWriteChecked_keeps _ _ _ _ h
  | writePlain => exact execWritePlain_keeps _ _ _ _ h
  | writeExpect => exact execWriteExpect_keeps _ _ _ _ _ h
  | writePoison => exact execWritePoison_keeps _ _ _ _ h
  | writeExternal => exact execWriteExternal_keeps _ _ _ _ h
  | writePartial => exact execWritePartial_keeps _ _ _ _ _ _ h
  | read => exact execRead_keeps _ _ _ _ _ h
  | tgDataBeat => exact execTgDataBeat_keeps _ _ h
  | commit => exact execCommit_keeps _ _ _ _ h
  | poison => exact execPoison_keeps _ _ _ _ h
  | ledgerOpen => exact execLedgerOpen_keeps _ _ _ _ _ _ _ h
  | ledgerClose => exact execLedgerClose_keeps _ _ _ _ h
  | ledgerPacket => exact execLedgerPacket_keeps _ _ h
  | sideAck => exact execSideAck_keeps _ _ _ _ h
  | sidecarTimeout => exact execSidecarTimeout_keeps _ _ h
  | commitBufferFree => exact execCommitBufferFree_keeps _ h
  | tgSourceReply => exact execTgSourceReply_keeps _ _ _ _ _ h
  | linkPacketSend => exact execLinkPacketSend_keeps _ _ _ h
  | linkPacketReceive => exact execLinkPacketReceive_keeps _ _ _ h
  | hostReport => exact execHostReport_keeps _ _ _ _ _ h
  | inlogEntryWrite => exact execInlogEntryWrite_keeps h
  | stepSync => exact execStepSync_keeps _ h
  | syncMissing => exact execSyncMissing_keeps h
  | launchCountReached => exact execLaunchCountReached_keeps _ h
  | beaconSend => exact execBeaconSend_keeps _ _ h
  | beaconReceive => exact execBeaconReceive_keeps _ _ _ h
  | slateWaitExpiry => exact execSlateWaitExpiry_keeps _ _ _ h
  | portSilence => exact execPortSilence_keeps _ h
  | beaconTxReady => exact execBeaconTxReady_keeps _ h
  | hkRound => exact execHkRound_keeps h
  | sensorSample => exact execSensorSample_keeps _ _ h
  | busSample => exact execBusSample_keeps _ h
  | marginWindowDone => exact execMarginWindowDone_keeps _ _ h
  | kclkCheckWindow => exact execKclkCheckWindow_keeps _ _ h
  | curbCombine => exact execCurbCombine_keeps h
  | aliveBoundary => exact execAliveBoundary_keeps h
  | hubStrobe => exact execHubStrobe_keeps _ h
  | hello => exact execHello_keeps _ _ h
  | heartSend => exact execHeartSend_keeps _ h
  | xlinkFrameReceive => exact execXlinkFrameReceive_keeps _ _ h
  | xlinkResend => exact execXlinkResend_keeps _ h
  | digestCut => exact execDigestCut_keeps h
  | digest => exact execDigest_keeps _ _ _ h
  | sections => exact execSections_keeps _ h
  | items => exact execItems_keeps _ _ h
  | propose => exact execPropose_keeps _ _ h
  | consent => exact execConsent_keeps h
  | refuse => exact execRefuse_keeps h
  | mirror => exact execMirror_keeps _ h
  | regWrite => exact execRegWrite_keeps _ h
  | twinSilence => exact execTwinSilence_keeps _ h
  | aliveClaimGrant => exact execAliveClaimGrant_keeps h
  | twinArbitration => exact execTwinArbitration_keeps _ _ h
  | trotDue => exact execTrotDue_keeps _ h
  | trotIdleAfterExpiry => exact execTrotIdleAfterExpiry_keeps _ h
  | secretsCleared => exact execSecretsCleared_keeps _ h
  | secretsTimeoutExpiry => exact execSecretsTimeoutExpiry_keeps _ h
  | trotHostBoundMiss => exact execTrotHostBoundMiss_keeps _ h
  | tapGrantWaitExpiry => exact execTapGrantWaitExpiry_keeps h
  | scanDone => exact execScanDone_keeps _ _ _ h
  | patternSetFetched => exact execPatternSetFetched_keeps _ _ h
  | cacheBlockBad => exact execCacheBlockBad_keeps _ _ _ _ _ _ h
  | persistEraseDone => exact execPersistEraseDone_keeps h
  | wrapGroupDone => exact execWrapGroupDone_keeps _ h
  | wrapRecordWritten => exact execWrapRecordWritten_keeps _ h
  | dieLinkLockLoss => exact execDieLinkLockLoss_keeps _ h
  | dieLinkResendLimit => exact execDieLinkResendLimit_keeps _ h
  | dieLinkRetrainDone => exact execDieLinkRetrainDone_keeps _ _ h
  | entdaa => exact execEntdaa_keeps _ h
  | setdasa => exact execSetdasa_keeps _ h
  | rstdaa => exact execRstdaa_keeps h
  | enec => exact execEnec_keeps _ h
  | disec => exact execDisec_keeps _ h
  | getpid => exact execGetpid_keeps h
  | getbcr => exact execGetbcr_keeps h
  | getdcr => exact execGetdcr_keeps h
  | getstatus => exact execGetstatus_keeps h
  | getmrl => exact execGetmrl_keeps h
  | getmwl => exact execGetmwl_keeps h
  | setmrl => exact execSetmrl_keeps _ h
  | setmwl => exact execSetmwl_keeps _ h
  | mctpDiscard => exact execMctpDiscard_keeps h
  | setEndpointId => exact execSetEndpointId_keeps _ h
  | getEndpointId => exact execGetEndpointId_keeps h
  | getEndpointUuid => exact execGetEndpointUuid_keeps h
  | getMctpVersionSupport => exact execGetMctpVersionSupport_keeps _ h
  | getMessageTypeSupport => exact execGetMessageTypeSupport_keeps h
  | setTid => exact execSetTid_keeps _ h
  | getTid => exact execGetTid_keeps h
  | getPldmVersion => exact execGetPldmVersion_keeps _ h
  | getPldmTypes => exact execGetPldmTypes_keeps h
  | getPldmCommands => exact execGetPldmCommands_keeps _ h
  | setEventReceiver => exact execSetEventReceiver_keeps _ _ _ h
  | getEventReceiver => exact execGetEventReceiver_keeps h
  | pollForPlatformEventMessage => exact execPollForPlatformEventMessage_keeps _ h
  | eventMessageSupported => exact execEventMessageSupported_keeps h
  | eventMessageBufferSize => exact execEventMessageBufferSize_keeps _ h
  | getSensorReading => exact execGetSensorReading_keeps _ h
  | getStateSensorReadings => exact execGetStateSensorReadings_keeps _ h
  | getPdrRepositoryInfo => exact execGetPdrRepositoryInfo_keeps h
  | getPdr => exact execGetPdr_keeps _ h
  | eventSend => exact execEventSend_keeps h
  | eventAcknowledged => exact execEventAcknowledged_keeps h
  | eventResendTimeout => exact execEventResendTimeout_keeps h
  | heartbeatTimer => exact execHeartbeatTimer_keeps h
  | scAckFall => exact execScAckFall_keeps _ h
  | tapGrantRise => exact execTapGrantRise_keeps _ h
  | crossLinkRetrain => exact execCrossLinkRetrain_keeps h
  | errorUnsupportedCmd => exact execErrorUnsupportedCmd_keeps _ h
  | errorUnsupportedPldmCmd => exact execErrorUnsupportedPldmCmd_keeps _ _ h

/-- RST_L_ASSERT keeps the build, the time and the queue through the reset. -/
theorem execRstLAssert_keeps_run {s t : State} (h : execRstLAssert s = .next t) :
    t.build = s.build ∧ s.now ≤ t.now ∧ t.pending = s.pending := by
  cases h
  exact ⟨rfl, Nat.le_refl _, rfl⟩

/-- RST_L_DEASSERT changes RST_L and the outputs only. -/
theorem execRstLDeassert_keeps_run {s t : State} (h : execRstLDeassert s = .next t) :
    t.build = s.build ∧ s.now ≤ t.now ∧ t.pending = s.pending := by
  unfold execRstLDeassert at h
  split at h <;> cases h <;> exact ⟨rfl, Nat.le_refl _, rfl⟩

/-- No command changes the build or the rest of the queue, and none turns time back. -/
theorem exec_keeps_run {c : Instr} {s t : State} (h : exec c s = .next t) :
    t.build = s.build ∧ s.now ≤ t.now ∧ t.pending = s.pending := by
  by_cases ha : c = .rstLAssert
  · subst ha; exact execRstLAssert_keeps_run h
  by_cases hd : c = .rstLDeassert
  · subst hd; exact execRstLDeassert_keeps_run h
  have k := exec_keeps ha hd h
  exact ⟨k.build, k.now, k.pending⟩

/-- A step runs the command in front on the rest of the queue; on an empty queue it is one HCLK cycle. -/
theorem step_cases {s t : State} (h : step s = .next t) :
    (s.pending = [] ∧ t = s.tick) ∨ (∃ c rest, s.pending = c :: rest ∧ exec c { s with pending := rest } = .next t) := by
  unfold step at h
  split at h
  next hp => cases h; exact .inl ⟨hp, rfl⟩
  next c rest hp => exact .inr ⟨c, rest, hp, h⟩

/-- Settles O8: every command keeps the build, the time and the queue behind it, and so does an idle cycle. -/
theorem buildIsFixedAndTimeNeverRunsBack : Obligations.BuildIsFixedAndTimeNeverRunsBack := by
  unfold Obligations.BuildIsFixedAndTimeNeverRunsBack
  intro s t h
  obtain ⟨hp, rfl⟩ | ⟨c, rest, hp, he⟩ := step_cases h
  · exact ⟨rfl, Nat.le_add_right _ _, by rw [hp]; exact hp⟩
  · rw [hp]
    exact exec_keeps_run he

end Sys2Proof.Machine
end

section
/-! Operands of every command, put together from the lemma of each command (R4). -/

namespace Sys2Proof.Laws.WithinLargest

open Sys2Proof

/-- Every command, by the lemma of its row in Laws/PerInstr.lean. -/
theorem statement (i : Instr) : Statement i := by
  intro b hb h
  cases i with
  | rstLAssert => exact rstLAssert b hb h
  | rstLDeassert => exact rstLDeassert b hb h
  | registerWrite => exact registerWrite _ _ b hb h
  | regAccessLatch => exact regAccessLatch _ b hb h
  | start => exact start _ b hb h
  | loadHarness => exact loadHarness _ b hb h
  | run => exact run _ b hb h
  | quiesce => exact quiesce _ b hb h
  | save => exact save _ b hb h
  | restore => exact restore _ _ b hb h
  | trotUp => exact trotUp _ b hb h
  | clearSource => exact clearSource _ b hb h
  | setBand => exact setBand _ b hb h
  | retireTwin => exact retireTwin _ b hb h
  | wrap => exact wrap _ b hb h
  | signResultOpen => exact signResultOpen _ _ b hb h
  | signResultSign => exact signResultSign _ b hb h
  | signResultClose => exact signResultClose _ b hb h
  | launchAt => exact launchAt _ b hb h
  | hotUpdate => exact hotUpdate _ _ _ b hb h
  | replay => exact replay _ _ b hb h
  | commandTimeout => exact commandTimeout b hb h
  | stepEnd => exact stepEnd _ b hb h
  | slateBegin => exact slateBegin _ b hb h
  | abortFifoPop => exact abortFifoPop _ b hb h
  | stickyClear => exact stickyClear _ _ b hb h
  | irqStsClear => exact irqStsClear _ b hb h
  | thrEvtClear => exact thrEvtClear _ b hb h
  | overrunClear => exact overrunClear _ b hb h
  | forceWrite => exact forceWrite _ _ b hb h
  | injectionTimeout => exact injectionTimeout _ b hb h
  | indSelect => exact indSelect _ _ b hb h
  | indFetchDone => exact indFetchDone b hb h
  | indDataRead => exact indDataRead b hb h
  | indDataWrite => exact indDataWrite _ b hb h
  | reelDataRead => exact reelDataRead _ b hb h
  | stage0Identity => exact stage0Identity _ _ _ _ _ _ b hb h
  | stage1Keys => exact stage1Keys _ b hb h
  | stage2Pairing => exact stage2Pairing _ _ _ b hb h
  | stage3DieLinks => exact stage3DieLinks _ b hb h
  | stage4Harness => exact stage4Harness _ _ _ b hb h
  | stage5AgentImage => exact stage5AgentImage _ b hb h
  | stage6LameList => exact stage6LameList _ b hb h
  | stage7Housekeeping => exact stage7Housekeeping _ _ _ _ b hb h
  | stage8KnownAnswer => exact stage8KnownAnswer _ _ _ _ b hb h
  | stage9Discovery => exact stage9Discovery _ b hb h
  | discWindowEnd => exact discWindowEnd b hb h
  | stage10Ready => exact stage10Ready _ b hb h
  | stageBudgetExpiry => exact stageBudgetExpiry b hb h
  | keyPortBeat => exact keyPortBeat _ _ b hb h
  | keyPortBad => exact keyPortBad b hb h
  | keyItemTimeout => exact keyItemTimeout b hb h
  | linkTrainAttemptEnd => exact linkTrainAttemptEnd _ _ b hb h
  | imagePacket => exact imagePacket _ _ _ b hb h
  | imageCollect => exact imageCollect _ b hb h
  | tdDescriptor => exact tdDescriptor _ _ _ _ b hb h
  | tapElementBeat => exact tapElementBeat _ _ b hb h
  | prjBeat => exact prjBeat _ _ b hb h
  | auditBeat => exact auditBeat _ _ _ _ _ _ _ b hb h
  | cLast => exact cLast _ _ b hb h
  | handoffSlice => exact handoffSlice _ _ b hb h
  | verdict => exact verdict _ b hb h
  | verdictAtAgent => exact verdictAtAgent _ b hb h
  | cmtAccept => exact cmtAccept _ _ b hb h
  | vhHeader => exact vhHeader _ _ _ b hb h
  | veBeat => exact veBeat _ _ b hb h
  | vectorGroupVerdict => exact vectorGroupVerdict _ _ b hb h
  | choiceStrobe => exact choiceStrobe _ _ b hb h
  | fenceOrder => exact fenceOrder _ b hb h
  | fenceAckRise => exact fenceAckRise _ b hb h
  | fenceEnd => exact fenceEnd _ b hb h
  | fenceAckFall => exact fenceAckFall _ b hb h
  | fenceTimeout => exact fenceTimeout _ b hb h
  | scAck => exact scAck _ b hb h
  | settleOrder => exact settleOrder _ _ b hb h
  | poisonOrder => exact poisonOrder _ _ b hb h
  | gateOpen => exact gateOpen _ _ b hb h
  | jobAbortActions => exact jobAbortActions _ b hb h
  | epochAnnounce => exact epochAnnounce b hb h
  | epochActivation => exact epochActivation b hb h
  | laneSelfCheck => exact laneSelfCheck _ _ _ _ b hb h
  | scrubAccess => exact scrubAccess _ _ _ _ _ _ _ b hb h
  | summaryJudge => exact summaryJudge _ _ b hb h
  | concStepAnswer => exact concStepAnswer _ _ _ b hb h
  | gateDecision => exact gateDecision _ b hb h
  | messageOrigin => exact messageOrigin _ _ _ _ _ _ b hb h
  | messageHop => exact messageHop _ _ b hb h
  | hopBadCrc => exact hopBadCrc _ _ b hb h
  | mergedS2Send => exact mergedS2Send _ b hb h
  | hubAcceptMessage => exact hubAcceptMessage _ b hb h
  | leakTick => exact leakTick _ b hb h
  | quietEnd => exact quietEnd _ b hb h
  | reelMark => exact reelMark b hb h
  | reconcileMaskSend => exact reconcileMaskSend _ b hb h
  | reconcileCompare => exact reconcileCompare _ _ b hb h
  | accountFetch => exact accountFetch _ b hb h
  | retakeIssueTimeout => exact retakeIssueTimeout _ b hb h
  | retakeWaitExpiry => exact retakeWaitExpiry _ b hb h
  | retakeRunTimeout => exact retakeRunTimeout _ b hb h
  | writeChecked => exact writeChecked _ _ _ _ b hb h
  | writePlain => exact writePlain _ _ _ _ b hb h
  | writeExpect => exact writeExpect _ _ _ _ _ b hb h
  | writePoison => exact writePoison _ _ _ _ b hb h
  | writeExternal => exact writeExternal _ _ _ _ b hb h
  | writePartial => exact writePartial _ _ _ _ _ _ b hb h
  | read => exact read _ _ _ _ _ b hb h
  | tgDataBeat => exact tgDataBeat _ _ b hb h
  | commit => exact commit _ _ _ _ b hb h
  | poison => exact poison _ _ _ _ b hb h
  | ledgerOpen => exact ledgerOpen _ _ _ _ _ _ _ b hb h
  | ledgerClose => exact ledgerClose _ _ _ _ b hb h
  | ledgerPacket => exact ledgerPacket _ _ b hb h
  | sideAck => exact sideAck _ _ _ _ b hb h
  | sidecarTimeout => exact sidecarTimeout _ _ b hb h
  | commitBufferFree => exact commitBufferFree _ b hb h
  | tgSourceReply => exact tgSourceReply _ _ _ _ _ b hb h
  | linkPacketSend => exact linkPacketSend _ _ _ b hb h
  | linkPacketReceive => exact linkPacketReceive _ _ _ b hb h
  | hostReport => exact hostReport _ _ _ _ _ b hb h
  | inlogEntryWrite => exact inlogEntryWrite b hb h
  | stepSync => exact stepSync _ b hb h
  | syncMissing => exact syncMissing b hb h
  | launchCountReached => exact launchCountReached _ b hb h
  | beaconSend => exact beaconSend _ _ b hb h
  | beaconReceive => exact beaconReceive _ _ _ b hb h
  | slateWaitExpiry => exact slateWaitExpiry _ _ _ b hb h
  | portSilence => exact portSilence _ b hb h
  | beaconTxReady => exact beaconTxReady _ b hb h
  | hkRound => exact hkRound b hb h
  | sensorSample => exact sensorSample _ _ b hb h
  | busSample => exact busSample _ b hb h
  | marginWindowDone => exact marginWindowDone _ _ b hb h
  | kclkCheckWindow => exact kclkCheckWindow _ _ b hb h
  | curbCombine => exact curbCombine b hb h
  | aliveBoundary => exact aliveBoundary b hb h
  | hubStrobe => exact hubStrobe _ b hb h
  | hello => exact hello _ _ b hb h
  | heartSend => exact heartSend _ b hb h
  | xlinkFrameReceive => exact xlinkFrameReceive _ _ b hb h
  | xlinkResend => exact xlinkResend _ b hb h
  | digestCut => exact digestCut b hb h
  | digest => exact digest _ _ _ b hb h
  | sections => exact sections _ b hb h
  | items => exact items _ _ b hb h
  | propose => exact propose _ _ b hb h
  | consent => exact consent b hb h
  | refuse => exact refuse b hb h
  | mirror => exact mirror _ b hb h
  | regWrite => exact regWrite _ b hb h
  | twinSilence => exact twinSilence _ b hb h
  | aliveClaimGrant => exact aliveClaimGrant b hb h
  | twinArbitration => exact twinArbitration _ _ b hb h
  | trotDue => exact trotDue _ b hb h
  | trotIdleAfterExpiry => exact trotIdleAfterExpiry _ b hb h
  | secretsCleared => exact secretsCleared _ b hb h
  | secretsTimeoutExpiry => exact secretsTimeoutExpiry _ b hb h
  | trotHostBoundMiss => exact trotHostBoundMiss _ b hb h
  | tapGrantWaitExpiry => exact tapGrantWaitExpiry b hb h
  | scanDone => exact scanDone _ _ _ b hb h
  | patternSetFetched => exact patternSetFetched _ _ b hb h
  | cacheBlockBad => exact cacheBlockBad _ _ _ _ _ _ b hb h
  | persistEraseDone => exact persistEraseDone b hb h
  | wrapGroupDone => exact wrapGroupDone _ b hb h
  | wrapRecordWritten => exact wrapRecordWritten _ b hb h
  | dieLinkLockLoss => exact dieLinkLockLoss _ b hb h
  | dieLinkResendLimit => exact dieLinkResendLimit _ b hb h
  | dieLinkRetrainDone => exact dieLinkRetrainDone _ _ b hb h
  | entdaa => exact entdaa _ b hb h
  | setdasa => exact setdasa _ b hb h
  | rstdaa => exact rstdaa b hb h
  | enec => exact enec _ b hb h
  | disec => exact disec _ b hb h
  | getpid => exact getpid b hb h
  | getbcr => exact getbcr b hb h
  | getdcr => exact getdcr b hb h
  | getstatus => exact getstatus b hb h
  | getmrl => exact getmrl b hb h
  | getmwl => exact getmwl b hb h
  | setmrl => exact setmrl _ b hb h
  | setmwl => exact setmwl _ b hb h
  | mctpDiscard => exact mctpDiscard b hb h
  | setEndpointId => exact setEndpointId _ b hb h
  | getEndpointId => exact getEndpointId b hb h
  | getEndpointUuid => exact getEndpointUuid b hb h
  | getMctpVersionSupport => exact getMctpVersionSupport _ b hb h
  | getMessageTypeSupport => exact getMessageTypeSupport b hb h
  | setTid => exact setTid _ b hb h
  | getTid => exact getTid b hb h
  | getPldmVersion => exact getPldmVersion _ b hb h
  | getPldmTypes => exact getPldmTypes b hb h
  | getPldmCommands => exact getPldmCommands _ b hb h
  | setEventReceiver => exact setEventReceiver _ _ _ b hb h
  | getEventReceiver => exact getEventReceiver b hb h
  | pollForPlatformEventMessage => exact pollForPlatformEventMessage _ b hb h
  | eventMessageSupported => exact eventMessageSupported b hb h
  | eventMessageBufferSize => exact eventMessageBufferSize _ b hb h
  | getSensorReading => exact getSensorReading _ b hb h
  | getStateSensorReadings => exact getStateSensorReadings _ b hb h
  | getPdrRepositoryInfo => exact getPdrRepositoryInfo b hb h
  | getPdr => exact getPdr _ b hb h
  | eventSend => exact eventSend b hb h
  | eventAcknowledged => exact eventAcknowledged b hb h
  | eventResendTimeout => exact eventResendTimeout b hb h
  | heartbeatTimer => exact heartbeatTimer b hb h
  | scAckFall => exact scAckFall _ b hb h
  | tapGrantRise => exact tapGrantRise _ b hb h
  | crossLinkRetrain => exact crossLinkRetrain b hb h
  | errorUnsupportedCmd => exact errorUnsupportedCmd _ b hb h
  | errorUnsupportedPldmCmd => exact errorUnsupportedPldmCmd _ _ b hb h

end Sys2Proof.Laws.WithinLargest

namespace Sys2Proof

/-- Settles O11, command by command: every bound of an operand is a parameter that R4 bounds, or no parameter at all. -/
theorem operandsFitTheLargestBuild : Obligations.OperandsFitTheLargestBuild := by
  unfold Obligations.OperandsFitTheLargestBuild
  exact fun i b hb h => Laws.WithinLargest.statement i b hb h

end Sys2Proof
end

section
/-! The register port: what a write at the serving hub leaves, and what a word of the window then reads (R275, R432, R454,
log 113). -/

namespace Sys2Proof.Machine

open Sys2Proof

/-! ### Which hubs a write takes effect at -/

/-- A write on the register port takes effect at this hub at once: at the serving hub, and before the pair has formed at every
hub that acts (log 113). -/
def State.takesWrite (s : State) (h : HubId) : Bool := if s.twin.paired then decide (h = s.twin.serving) else s.hubUp h

theorem State.takesWrite_iff {s : State} (ha : s.answers = true) (h : HubId) :
    s.takesWrite h = true ↔ h = s.twin.serving ∨ s.twin.paired = false ∧ s.hubUp h = true := by
  unfold State.takesWrite
  cases hp : s.twin.paired with
  | true => simp
  | false =>
    simp only [Bool.false_eq_true, if_false, true_and]
    exact ⟨.inr, fun hh => hh.elim (fun e => e ▸ ha) id⟩

theorem State.takesWrite_serving {s : State} (ha : s.answers = true) : s.takesWrite s.twin.serving = true :=
  (State.takesWrite_iff ha _).mpr (.inl rfl)

/-- The two hubs after a change at every hub that takes a write. -/
theorem State.atServing_modHub (s : State) (g : HubId → Hub → Hub) :
    s.atServing (fun h u => u.modHub h (g h)) =
      { s with hubA := if s.takesWrite .a then g .a s.hubA else s.hubA,
               hubB := if s.takesWrite .b then g .b s.hubB else s.hubB } := by
  unfold State.atServing State.takesWrite
  cases hp : s.twin.paired with
  | true => cases hs : s.twin.serving <;> simp [State.modHub]
  | false =>
    unfold State.eachHub State.upHubs
    cases hA : s.hubUp .a <;> cases hB : s.hubUp .b <;> simp [hA, hB, State.modHub]

/-! ### A write that takes effect and is acknowledged -/

/-- A write of a word: `g` at every hub that takes it, the REG_WRITE frame for the other hub, RP_ACK. -/
def State.portWrite (s : State) (a : Nat) (data : W32) (g : HubId → Hub → Hub) : State :=
  ((s.fresh.atServing (fun h u => u.modHub h (g h))).mirrorWrite a data).present .rpWritten

/-- The effect of a write on the register port begins on the fresh state, and RP_ACK follows it (R433). -/
theorem live_portDo {s : State} (hr : s.rstL = false) (ha : s.answers = true) (f : State → State) :
    live s (fun s => s.portDo f) = .next ((f s.fresh).present .rpWritten) := by
  have hf : s.fresh.answers = true := ha
  rw [live_next hr]
  exact congrArg Host.Outcome.next (if_pos hf)

/-- What a command that writes a word at the serving hub answers. -/
theorem live_portDo_regWriteServing {s : State} (hr : s.rstL = false) (ha : s.answers = true) (a : Nat) (data : W32)
    (f : Hub → Hub) :
    live s (fun s => s.portDo fun s => s.regWriteServing a data f) = .next (s.portWrite a data fun _ => f) :=
  live_portDo hr ha _

section portWrite
variable (s : State) (a : Nat) (data : W32) (g : HubId → Hub → Hub)

@[simp] theorem State.portWrite_twin : (s.portWrite a data g).twin = s.twin := by
  simp [State.portWrite, State.atServing_modHub, State.present, State.fresh]
@[simp] theorem State.portWrite_latch : (s.portWrite a data g).latch = s.latch := by
  simp [State.portWrite, State.atServing_modHub, State.present, State.fresh]
@[simp] theorem State.portWrite_abortFifo : (s.portWrite a data g).abortFifo = s.abortFifo := by
  simp [State.portWrite, State.atServing_modHub, State.present, State.fresh]

theorem State.portWrite_hub (h : HubId) :
    (s.portWrite a data g).hub h = if s.takesWrite h then g h (s.hub h) else s.hub h := by
  cases h <;> simp [State.portWrite, State.atServing_modHub, State.hub] <;> rfl

variable {s}

theorem State.portWrite_sv (ha : s.answers = true) : (s.portWrite a data g).sv = g s.twin.serving s.sv := by
  rw [State.sv, State.portWrite_twin, State.portWrite_hub, if_pos (State.takesWrite_serving ha)]
  rfl

variable {g}

/-- Only what `g` makes of the hubs as they stand counts. -/
theorem State.portWrite_congr {g' : HubId → Hub → Hub} (h : ∀ k, s.takesWrite k = true → g k (s.hub k) = g' k (s.hub k)) :
    s.portWrite a data g = s.portWrite a data g' := by
  unfold State.portWrite
  rw [State.atServing_modHub, State.atServing_modHub]
  have hA : (if s.fresh.takesWrite .a then g .a s.fresh.hubA else s.fresh.hubA)
      = if s.fresh.takesWrite .a then g' .a s.fresh.hubA else s.fresh.hubA := by
    split
    next e => exact h .a e
    next => rfl
  have hB : (if s.fresh.takesWrite .b then g .b s.fresh.hubB else s.fresh.hubB)
      = if s.fresh.takesWrite .b then g' .b s.fresh.hubB else s.fresh.hubB := by
    split
    next e => exact h .b e
    next => rfl
  rw [hA, hB]

end portWrite

/-! ### The clear registers -/

section clear
variable {s : State} (hr : s.rstL = false) (ha : s.answers = true) (data : W32)
include hr ha

theorem exec_stickyClear (w : Byte) :
    exec (.stickyClear w data) s = .next (s.portWrite (0x1000 + 4 * w.toNat) data fun _ => (·.clearSticky w.toNat data)) :=
  live_portDo_regWriteServing hr ha _ _ _

theorem exec_irqStsClear :
    exec (.irqStsClear data) s = .next (s.portWrite 0x38 data fun _ k => { k with irq := k.irq &&& ~~~data }) :=
  live_portDo_regWriteServing hr ha _ _ _

theorem exec_thrEvtClear :
    exec (.thrEvtClear data) s = .next (s.portWrite 0x400C data fun _ k => { k with thrEvt := k.thrEvt &&& ~~~data }) :=
  live_portDo_regWriteServing hr ha _ _ _

theorem exec_overrunClear :
    exec (.overrunClear data) s = .next
      (({ s.fresh with cmd := { s.cmd with overrun := s.cmd.overrun && !(data.getLsbD 8) } }.mirrorWrite 0x20 data).present
        .rpWritten) :=
  live_portDo hr ha _

end clear

@[simp] theorem Hub.clearSticky_self (k : Hub) (w : Nat) (data : W32) :
    (k.clearSticky w data).sticky.get 0 w = k.sticky.get 0 w &&& ~~~data := SMap.get_mod_self _ _ _ _

theorem Hub.clearSticky_other (k : Hub) {w v : Nat} (h : v ≠ w) (data : W32) :
    (k.clearSticky w data).sticky.get 0 v = k.sticky.get 0 v := SMap.get_mod_other _ _ h _

/-- IRQ_STS.ABORT_PENDING shows the FIFO, not the hub's cause bits (R466). -/
theorem State.regRead_irqSts_abortPending (s : State) : (s.regRead 0x38).getLsbD 8 = !s.abortFifo.isEmpty := by
  have h : s.regRead 0x38 = (s.sv.irq &&& 0xCF#32) ||| at32 (b2n !s.abortFifo.isEmpty) 8 := rfl
  rw [h, BitVec.getLsbD_or, BitVec.getLsbD_and]
  cases s.abortFifo.isEmpty <;> simp [at32, b2n]

/-- STICKY_CLEAR at a hub that takes the write. -/
theorem stickyClear_clears {s : State} (w : Byte) (data : W32) {h : HubId} (ht : s.takesWrite h = true) :
    let t := s.portWrite (0x1000 + 4 * w.toNat) data fun _ => (·.clearSticky w.toNat data)
    (t.hub h).sticky.get 0 w.toNat = (s.hub h).sticky.get 0 w.toNat &&& ~~~data
      ∧ ∀ v, v ≠ w.toNat → (t.hub h).sticky.get 0 v = (s.hub h).sticky.get 0 v := by
  intro t
  have e : t.hub h = (s.hub h).clearSticky w.toNat data := by
    show (s.portWrite _ _ _).hub h = _
    rw [State.portWrite_hub, if_pos ht]
  rw [e]
  exact ⟨Hub.clearSticky_self _ _ _, fun v hv => Hub.clearSticky_other _ hv _⟩

/-- Settles O13: the four writes are one write at the serving hub, with the effect of each row. -/
theorem clearRegisters : Obligations.ClearRegisters := by
  unfold Obligations.ClearRegisters
  intro s data hr ha
  refine ⟨fun w => ⟨_, exec_stickyClear hr ha data w, ?_, ?_⟩, ⟨_, exec_irqStsClear hr ha data, ?_, ?_⟩,
    ⟨_, exec_thrEvtClear hr ha data, ?_⟩, ⟨_, exec_overrunClear hr ha data, ?_, ?_⟩⟩
  · exact fun h hh => stickyClear_clears w data ((State.takesWrite_iff ha h).mpr hh)
  · refine State.portWrite_congr _ _ fun k hk => ?_
    rw [State.portWrite_hub, if_pos hk]
    rfl
  · exact State.portWrite_congr _ _ fun _ _ => rfl
  · rw [State.regRead_irqSts_abortPending, State.regRead_irqSts_abortPending, State.portWrite_abortFifo]
  · exact State.portWrite_congr _ _ fun _ _ => rfl
  · exact State.mirrorWrite_cmd _ _ _
  · rw [State.present_cmd, State.mirrorWrite_cmd]

end Sys2Proof.Machine
end

section
/-! REGISTER_WRITE: what a plain write makes of each register, and what the window then reads (R15, R454, R455, R460). -/

namespace Sys2Proof.Machine

open Sys2Proof

/-! ### The plain RW words -/

/-- The words of plain RW registers, each with its fields that a write sets (R460, R467 to R476). -/
def plainFields : List (Nat × W32) :=
  [(0x24, 0xFFFFFFFF#32), (0x28, 0xFFFFFFFF#32), (0x2C, 0xFFFFFFFF#32), (0x30, 0xFFFFFFFF#32),
   (0x100, 0xFFFFFFFF#32), (0x104, 0x0000FFFF#32), (0x108, 0xFFFFFFFF#32), (0x404, 0x000000FF#32), (0x1840, 0xFFF000FF#32),
   (0x1844, 0xFFFFFFFF#32), (0x1848, 0x0000FFFF#32), (0x1850, 0x00001FFF#32), (0x30C4, 0x000000FF#32), (0x3200, 0x000000FF#32),
   (0x4010, 0x0000FF07#32), (0x4014, 0xFFFFFFFF#32), (0x4018, 0xFFFFFFFF#32), (0x7000, 0xE000FFFF#32)]

/-- The register of a plain RW word, at a hub. -/
def Regs.plain (r : Regs) : Nat → W32
  | 0x24 => r.arg0 | 0x28 => r.arg1 | 0x2C => r.arg2 | 0x30 => r.arg3
  | 0x100 => r.harnessAddrLo | 0x104 => r.harnessAddrHi | 0x108 => r.harnessLen | 0x404 => r.gateSel
  | 0x1840 => r.forceCtrl | 0x1844 => r.forceAddrLo | 0x1848 => r.forceAddrHi | 0x1850 => r.srcSel
  | 0x30C4 => r.slateSel | 0x3200 => r.tccSel | 0x4010 => r.bandSel | 0x4014 => r.bandLo | 0x4018 => r.bandHi
  | 0x7000 => r.reelSel
  | _ => 0

/-- The window shows the serving hub's register: none of the plain words is latched. -/
theorem State.regRead_plain (s : State) : ∀ p ∈ plainFields, s.regRead p.1 = s.sv.regs.plain p.1 := by
  unfold plainFields
  iterate 18 refine List.forall_mem_cons.mpr ⟨rfl, ?_⟩
  exact nofun

/-- A write sets the fields of the register and leaves 0 in its RSVD bits. -/
theorem Regs.plain_write (r : Regs) (data : W32) : ∀ p ∈ plainFields, (r.write p.1 data).plain p.1 = data &&& p.2 := by
  unfold plainFields
  iterate 18 refine List.forall_mem_cons.mpr ⟨rfl, ?_⟩
  exact nofun

theorem Regs.write_bootCtl (r : Regs) (data : W32) :
    (r.write 0x60 data).bootCtl = if r.bootLocked then r.bootCtl else data &&& 1#32 := by
  show (if r.bootLocked then r else { r with bootCtl := data &&& 1#32 }).bootCtl = _
  split <;> rfl

/-! ### The staged slate -/

/-- A driver word of the staged slate takes the data. -/
theorem Regs.write_slate (r : Regs) (data : W32) {w : Nat} (hw : w < 42) (hd : driverWord w = true) :
    r.write (0x3000 + 4 * w) data = { r with slate := r.slate.set 0 w data } := by
  have hi : (0x3000 + 4 * w - 0x3000) / 4 = w := by omega
  unfold Regs.write
  split
  case h_20 => rw [if_pos ⟨by omega, by omega, by rw [hi]; exact hd⟩, hi]
  all_goals omega

theorem State.regRead_slate (s : State) {w : Nat} (hw : w < 42) : s.regRead (0x3000 + 4 * w) = s.sv.regs.slate.get 0 w := by
  have hl : ∀ w < 42, latchGroup (0x3000 + 4 * w) = none := by decide
  have hi : (0x3000 + 4 * w - 0x3000) / 4 = w := by omega
  unfold State.regRead
  rw [hl w hw]
  show s.regLive (0x3000 + 4 * w) = _
  unfold State.regLive
  iterate 6 rw [if_neg (by omega)]
  rw [if_pos (by omega)]
  unfold State.readSlate
  rw [if_pos (by omega), hi]

/-! ### Read-only words -/

/-- The read-only words of the statement. -/
def readOnlyWords : List Nat :=
  [0x00, 0x04, 0x08, 0x10, 0x14, 0x18, 0x1C, 0x34, 0x40, 0x44, 0x48, 0x4C, 0x50, 0x54, 0x58, 0x5C, 0x10C, 0x110,
   0x114, 0x118, 0x408, 0x488, 0x48C, 0x490, 0x1854, 0x30C8, 0x30CC, 0x30D0, 0x3100, 0x3104, 0x3108, 0x3204, 0x3208, 0x320C,
   0x3210, 0x3214, 0x3300, 0x330C, 0x3520, 0x4000, 0x4004, 0x4008, 0x600C, 0x7004, 0x8000, 0x8020]

/-- A write has a register to go to only at the plain words, BOOT_CTL and the staged slate. -/
theorem Regs.write_other (r : Regs) (data : W32) {a : Nat} (hp : ∀ p ∈ plainFields, p.1 ≠ a) (hb : a ≠ 0x60)
    (hs : ¬ (0x3000 ≤ a ∧ a < 0x30A8)) : r.write a data = r := by
  simp only [plainFields, List.forall_mem_cons] at hp
  unfold Regs.write
  split
  case h_20 => exact if_neg fun h => hs ⟨h.1, h.2.1⟩
  all_goals simp at hp hb

theorem Regs.write_readOnly (r : Regs) (data : W32) {a : Nat} (h : a ∈ readOnlyWords) : r.write a data = r := by
  have hw : ∀ a ∈ readOnlyWords, (∀ p ∈ plainFields, p.1 ≠ a) ∧ a ≠ 0x60 ∧ ¬ (0x3000 ≤ a ∧ a < 0x30A8) := by decide
  obtain ⟨hp, hb, hs⟩ := hw a h
  exact Regs.write_other r data hp hb hs

/-! ### The command -/

/-- IRQ_STS, THR_EVT, IND_SEL and IND_ADDR have rows of their own (log 28). -/
theorem ownRow_of_mem : ∀ a ∈ [0x38, 0x400C, 0x6000, 0x6004], ownRow a = true := by decide

/-- The row of REGISTER_WRITE. -/
theorem exec_registerWrite (addr : BitVec 16) (data : W32) (s : State) :
    exec (.registerWrite addr data) s = execRegisterWrite addr data s := rfl

section command
variable {s : State} (hr : s.rstL = false) (addr : BitVec 16) (data : W32)
include hr

/-- A word with a row of its own is left to that row (log 28). -/
theorem exec_registerWrite_ownRow (h : ownRow (wordAddr addr) = true ∨ wordAddr addr = 0x0C ∧ bits data 3 0 ≠ 0) :
    exec (.registerWrite addr data) s = .next s.fresh := by
  rw [exec_registerWrite, execRegisterWrite, live_next hr, if_pos h]
  rfl

/-- A plain write: at every hub that takes it, in that hub's own registers. -/
theorem exec_registerWrite_plain (ha : s.answers = true) (hc : wordAddr addr ≠ 0x0C) (ho : ownRow (wordAddr addr) = false) :
    exec (.registerWrite addr data) s = .next
      (s.portWrite (wordAddr addr) data fun _ k => { k with regs := k.regs.write (wordAddr addr) data }) := by
  have hn : ¬ (ownRow (wordAddr addr) = true ∨ wordAddr addr = 0x0C ∧ bits data 3 0 ≠ 0) := by simp [ho, hc]
  rw [← live_portDo_regWriteServing hr ha, exec_registerWrite, execRegisterWrite]
  simp only [if_neg hn, if_neg hc]

/-- HUB_CMD with the reserved OP 0 (R461). -/
theorem exec_registerWrite_reservedOp (ha : s.answers = true) (hc : wordAddr addr = 0x0C) (hb : bits data 3 0 = 0) :
    exec (.registerWrite addr data) s = .next ((s.fresh.reservedOp data).present .rpWritten) := by
  have hn : ¬ (ownRow (wordAddr addr) = true ∨ wordAddr addr = 0x0C ∧ bits data 3 0 ≠ 0) := by
    rw [hc]
    simp [hb, ownRow]
  rw [← live_portDo hr ha (·.reservedOp data), exec_registerWrite, execRegisterWrite]
  simp only [if_neg hn, if_pos hc]

end command

/-! ### HUB_CMD with the reserved OP -/

/-- The reserved OP while nothing is BUSY: accepted with its TAG, and ended ARG_INVALID with CMD_DONE at both hubs. -/
theorem State.reservedOp_idle {s : State} (data : W32) (h : s.cmd.code ≠ 1) :
    let t := s.reservedOp data
    t.cmd.op = 0 ∧ t.cmd.code = 3 ∧ t.cmd.tag.toNat = bits data 15 8 ∧ t.sv.irq = s.sv.irq ||| 8#32 ∧ t.out = s.out := by
  intro t
  have ht : t = (s.acceptCmd 0 (BitVec.ofNat 8 (bits data 15 8))).endCmd 3 := if_neg h
  have hb : bits data 15 8 < 2 ^ 8 := Nat.mod_lt _ (by decide)
  rw [ht]
  refine ⟨?_, rfl, ?_, ?_, ?_⟩
  · simp [State.endCmd, State.acceptCmd]
  · simpa [State.endCmd, State.acceptCmd] using hb
  · cases hs : s.twin.serving <;> simp [State.endCmd, State.acceptCmd, State.sv, State.hub, State.modHubs, hs]
  · simp [State.endCmd, State.acceptCmd]

/-- The reserved OP while a command is BUSY: OVERRUN, and counted. -/
theorem State.reservedOp_busy {s : State} (data : W32) (h : s.cmd.code = 1) :
    s.reservedOp data = { s with cmd := { s.cmd with overrun := true, refusedCnt := satInc s.cmd.refusedCnt } } := if_pos h

/-- Settles O12: the three rows of the write (own row, reserved OP, plain), and for a plain one what each kind of word reads. -/
theorem plainRegisterWrite : Obligations.PlainRegisterWrite := by
  unfold Obligations.PlainRegisterWrite
  intro s addr data hr ha
  refine ⟨fun hc ho => ⟨_, exec_registerWrite_plain hr addr data ha hc ho, ?_, ?_, ?_, ?_, ?_⟩, fun h => ?_,
    fun hc hb => ⟨fun hi => ?_, fun hbusy => ?_⟩⟩
  · refine State.portWrite_congr _ _ fun k hk => ?_
    rw [State.portWrite_hub, if_pos hk]
  · intro m hm
    rw [State.regRead_plain _ _ hm, State.portWrite_sv _ _ _ ha]
    exact Regs.plain_write _ data _ hm
  · intro h60 h hh
    rw [State.portWrite_hub, if_pos ((State.takesWrite_iff ha h).mpr hh), h60]
    exact Regs.write_bootCtl _ data
  · intro w hw hd hwa
    rw [State.regRead_slate _ hw, State.portWrite_sv _ _ _ ha, hwa, Regs.write_slate _ data hw (decide_eq_true hd)]
    exact SMap.get_set_self _ _ _ _
  · intro hro
    rw [State.portWrite_sv _ _ _ ha]
    exact Regs.write_readOnly _ data hro
  · refine ⟨_, exec_registerWrite_ownRow hr addr data ?_, rfl⟩
    rcases h with h | h | h
    · exact .inl (decide_eq_true (.inl h))
    · exact .inl (ownRow_of_mem _ h)
    · exact .inr h
  · refine ⟨_, exec_registerWrite_reservedOp hr addr data ha hc hb, ?_⟩
    obtain ⟨hop, hcode, htag, hirq, hout⟩ := State.reservedOp_idle (s := s.fresh) data hi
    exact ⟨hop, hcode, htag, hirq, congrArg (· ++ [PortOut.rpWritten]) hout⟩
  · refine ⟨_, exec_registerWrite_reservedOp hr addr data ha hc hb, ?_⟩
    rw [State.reservedOp_busy (s := s.fresh) data hbusy]
    rfl

end Sys2Proof.Machine
end

section
/-! The hub window right after reset, block by block (R214, R231, R455, R457, R460, R467). -/

namespace Sys2Proof.Machine

open Sys2Proof

/-! ### Words of a quantity that is 0 -/

@[simp] theorem wordLE_zero {w : Nat} (i : Nat) : wordLE (0#w) i = 0#32 := by simp [wordLE]

@[simp] theorem word384_zero (i : Nat) : word384 0 i = 0#32 := by simp [word384]

@[simp] theorem at32_zero (lo : Nat) : at32 0 lo = 0#32 := by simp [at32]

/-! ### The blocks -/

theorem reset_readIdent (a : Nat) :
    State.reset.readIdent a = if a = 0x0000 then 0x7A34C210#32 else if a = 0x0060 then 1#32 else 0#32 := by
  unfold State.readIdent
  dsimp only
  split
  case h_24 => rw [if_neg ‹a = 0x0000 → False›, if_neg ‹a = 0x0060 → False›]; rfl
  all_goals rfl

theorem reset_readHarness (a : Nat) : State.reset.readHarness a = 0#32 := by
  unfold State.readHarness
  dsimp only
  split
  case h_8 => split <;> rfl
  all_goals rfl

theorem reset_readStage (a : Nat) : State.reset.readStage a = 0#32 := by
  have hr : State.reset.stages.get {} ((a - 0x200) / 16) = {} := rfl
  unfold State.readStage
  simp only [hr]
  split
  · split <;> rfl
  · rfl

theorem reset_readGate (a : Nat) : State.reset.readGate a = 0#32 := by
  have hj (n : Nat) : (State.reset.job n).history = [] := rfl
  have hf : State.reset.abortFifo.head? = none := rfl
  unfold State.readGate
  simp only [hj, hf, List.drop_nil, List.head?_nil]
  repeat' split
  all_goals rfl

/-- The group words hold the defaults of R214: no harness gives another value. -/
theorem reset_readFault (a : Nat) : State.reset.readFault a =
    if 0x1800 ≤ a ∧ a < 0x1838 then (if a % 8 = 0 then BitVec.ofNat 32 (60 * 2 ^ 20 + 3 * 2 ^ 16 + 8) else 10000#32)
    else if a = 0x1840 then 0x00100000#32 else 0#32 := by
  have hq (g : Nat) : State.reset.grpQ g = 60 := rfl
  have hl (g : Nat) : State.reset.grpL g = 3 := rfl
  have hn (g : Nat) : State.reset.grpN g = 8 := rfl
  have hw (g : Nat) : State.reset.grpW g = 10000 := rfl
  unfold State.readFault
  dsimp only
  by_cases h0 : a < 0x1400
  · rw [if_pos h0, if_neg (by omega), if_neg (by omega)]
    rfl
  by_cases h1 : a < 0x1800
  · rw [if_neg h0, if_pos h1, if_neg (by omega), if_neg (by omega)]
    rfl
  rw [if_neg h0, if_neg h1]
  by_cases h2 : a < 0x1838
  · rw [if_pos h2, if_pos (by omega : 0x1800 ≤ a ∧ a < 0x1838)]
    simp only [hq, hl, hn, hw]
    split <;> decide
  rw [if_neg h2, if_neg (fun h => h2 h.2 : ¬ (0x1800 ≤ a ∧ a < 0x1838))]
  by_cases h3 : a = 0x1840
  · rw [if_pos h3, if_pos h3]
    rfl
  · rw [if_neg h3, if_neg h3]
    repeat' split
    all_goals rfl

theorem reset_readRetake (a : Nat) : State.reset.readRetake a = 0#32 := by
  have hp (n : Nat) : (State.reset.sv.paddock.get {} n).pack = 0#64 := rfl
  have hl (n : Nat) : State.reset.retakeLog.get none n = none := rfl
  unfold State.readRetake
  simp only [hp, hl, wordLE_zero]
  repeat' split
  all_goals rfl

theorem reset_readSlate (a : Nat) : State.reset.readSlate a = 0#32 := by
  unfold State.readSlate
  dsimp only
  split
  · rfl
  · split <;> rfl

theorem reset_readClock (a : Nat) : State.reset.readClock a = 0#32 := by
  unfold State.readClock
  dsimp only
  split <;> rfl

theorem reset_readReplay (a : Nat) : State.reset.readReplay a = 0#32 := by
  unfold State.readReplay
  dsimp only
  split
  case h_9 =>
    repeat' split
    all_goals rfl
  all_goals rfl

theorem reset_readSign (a : Nat) : State.reset.readSign a = 0#32 := by
  have hh : natBE State.reset.sign.head = 0 := rfl
  have hr : State.reset.sign.r = 0 := rfl
  have hs : State.reset.sign.s = 0 := rfl
  have hx : State.reset.keys.pubX = 0 := rfl
  have hy : State.reset.keys.pubY = 0 := rfl
  unfold State.readSign
  simp only [hh, hr, hs, hx, hy, word384_zero]
  split
  case h_7 =>
    repeat' split
    all_goals rfl
  all_goals rfl

theorem reset_readSlateWord (a : Nat) : State.reset.readSlateWord a = 0#32 := rfl

theorem reset_readHk (a : Nat) : State.reset.readHk a = 0#32 := by
  have hc (n : Nat) : State.reset.sv.chans.get {} n = {} := rfl
  have hs (n : Nat) : State.reset.sv.src n = {} := rfl
  unfold State.readHk
  simp only [hc, hs]
  split
  case h_8 => split <;> rfl
  all_goals rfl

theorem reset_readMgmt (a : Nat) : State.reset.readMgmt a = 0#32 := by
  unfold State.readMgmt
  dsimp only
  split <;> rfl

theorem reset_readWindow (a : Nat) : State.reset.readWindow a = 0#32 := by
  have he : State.reset.reelEntry = 0#128 := rfl
  unfold State.readWindow
  simp only [he, wordLE_zero]
  split
  case h_7 => split <;> rfl
  all_goals rfl

theorem reset_readTest (a : Nat) : State.reset.readTest a = 0#32 := by
  unfold State.readTest
  dsimp only
  split <;> rfl

theorem reset_portEntry (p : Nat) : State.reset.portEntry p = 0#128 := rfl

/-- Every word of the window right after reset, whatever its address. -/
theorem reset_regLive (a : Nat) : State.reset.regLive a =
    if a = 0x0000 then 0x7A34C210#32
    else if a = 0x0060 then 1#32
    else if 0x1800 ≤ a ∧ a < 0x1838 then
      (if a % 8 = 0 then BitVec.ofNat 32 (60 * 2 ^ 20 + 3 * 2 ^ 16 + 8) else 10000#32)
    else if a = 0x1840 then 0x00100000#32
    else 0#32 := by
  unfold State.regLive
  by_cases h0 : a < 0x100
  · rw [if_pos h0, reset_readIdent, if_neg (by omega : ¬ (0x1800 ≤ a ∧ a < 0x1838)), if_neg (by omega : a ≠ 0x1840)]
  by_cases hf : 0x1000 ≤ a ∧ a < 0x1900
  · rw [if_neg h0, if_neg (by omega), if_neg (by omega), if_neg (by omega), if_pos hf, reset_readFault,
      if_neg (by omega : a ≠ 0x0000), if_neg (by omega : a ≠ 0x0060)]
  rw [if_neg (by omega : a ≠ 0x0000), if_neg (by omega : a ≠ 0x0060), if_neg (by omega : ¬ (0x1800 ≤ a ∧ a < 0x1838)),
    if_neg (by omega : a ≠ 0x1840)]
  simp only [h0, hf, if_false, reset_readHarness, reset_readStage, reset_readGate, reset_readRetake, reset_readSlate,
    reset_readClock, reset_readReplay, reset_readSign, reset_readSlateWord, reset_readHk, reset_readMgmt, reset_readWindow,
    reset_readTest, reset_portEntry, wordLE_zero, BitVec.ofNat_eq_ofNat, ite_self]

/-- Nothing is latched at reset, so every read returns the present value. -/
theorem reset_regRead (a : Nat) : State.reset.regRead a = State.reset.regLive a := by
  unfold State.regRead
  split
  next => rfl
  next => exact ite_self _

/-- Settles O3, block by block of the window. -/
theorem resetWindow : Obligations.ResetWindow := by
  unfold Obligations.ResetWindow
  exact ⟨rfl, rfl, rfl, rfl, fun a => (reset_regRead _).trans (reset_regLive _)⟩

end Sys2Proof.Machine
end

section
/-! Vector groups and their summaries: what a header, an element beat, a verdict and a judged summary leave (R148 to R150,
R153, R155, R158, R159, R423, R479, R481). -/

/-! ### A store's keys -/

namespace Sys2Proof

theorem SMap.lookup_of_notMem {α : Type} {k : Nat} {l : List (Nat × α)} (h : k ∉ l.map (·.1)) : SMap.lookup k l = none := by
  induction l with
  | nil => rfl
  | cons p r ih =>
    rw [List.map_cons, List.mem_cons, not_or] at h
    obtain ⟨hp, hr⟩ := h
    exact (if_neg (Ne.symm hp)).trans (ih hr)

/-- A key that is not listed reads the default. -/
theorem SMap.get_of_notMem {α : Type} {d : α} {m : SMap α} {k : Nat} (h : k ∉ m.keys) : m.get d k = d :=
  congrArg (·.getD d) (SMap.lookup_of_notMem h)

end Sys2Proof

namespace Sys2Proof.Machine

open Sys2Proof

/-! ### Where a judged group waits -/

/-- One step of the search for the last key of an id. -/
theorem foldl_lastKey (gid : Nat) (l : List Nat) : ∀ m : Nat, m % 8 = gid % 8 →
    let n := l.foldl (fun m k => if k % 8 = gid % 8 then max m k else m) m
    n % 8 = gid % 8 ∧ m ≤ n ∧ ∀ k ∈ l, k % 8 = gid % 8 → k ≤ n := by
  induction l with
  | nil => exact fun m hm => ⟨hm, Nat.le_refl m, nofun⟩
  | cons j r ih =>
    intro m hm
    have hstep : (if j % 8 = gid % 8 then max m j else m) % 8 = gid % 8
        ∧ m ≤ (if j % 8 = gid % 8 then max m j else m)
        ∧ (j % 8 = gid % 8 → j ≤ (if j % 8 = gid % 8 then max m j else m)) := by
      split <;> omega
    obtain ⟨hmod, hle, hj⟩ := hstep
    obtain ⟨hmod', hle', hr⟩ := ih _ hmod
    refine ⟨hmod', Nat.le_trans hle hle', fun k hk hkm => ?_⟩
    rcases List.mem_cons.mp hk with rfl | hk
    · exact Nat.le_trans (hj hkm) hle'
    · exact hr k hk hkm

/-- The waiting place lies behind the group ids, in step with its id. -/
theorem Agent.waitKey_mod (x : Agent) {gid : Nat} (h : gid < 8) : 8 ≤ x.waitKey gid ∧ x.waitKey gid % 8 = gid := by
  obtain ⟨hmod, _, _⟩ := foldl_lastKey gid x.groups.keys gid rfl
  unfold Agent.waitKey
  omega

/-- The waiting place is free. -/
theorem Agent.get_waitKey (x : Agent) (gid : Nat) : x.groups.get none (x.waitKey gid) = none := by
  refine SMap.get_of_notMem fun hk => ?_
  obtain ⟨hmod, _, hmax⟩ := foldl_lastKey gid x.groups.keys gid rfl
  have hle := hmax _ hk (by unfold Agent.waitKey; omega)
  unfold Agent.waitKey at hle
  omega

/-! ### Open counts -/

section opens
variable (s : State) (a : Nat) (job : Job) (step : Option W64)

@[simp] theorem State.openInc_agent (b : Nat) : (s.openInc a job step).agent b = s.agent b := by cases step <;> rfl
@[simp] theorem State.openDec_agent (b : Nat) : (s.openDec a job step).agent b = s.agent b := by cases step <;> rfl
@[simp] theorem State.openDec_noCommit : (s.openDec a job step).noCommit = s.noCommit := by cases step <;> rfl
@[simp] theorem State.openDec_jobAborted (j : Job) : (s.openDec a job step).jobAborted j = s.jobAborted j := by cases step <;> rfl

/-- Of the concentrators only the open counts change. -/
theorem State.openDec_conc (c : Nat) :
    (s.openDec a job step).conc c = { s.conc c with opens := ((s.openDec a job step).conc c).opens } := by
  cases step with
  | none => rfl
  | some st =>
    unfold State.openDec
    by_cases h : c = s.build.clusterOf a
    · rw [h]
      simp
    · simp [State.conc_modConc_other s h]

@[simp] theorem State.openDec_env (c : Nat) : ((s.openDec a job step).conc c).env = (s.conc c).env :=
  (congrArg Conc.env (s.openDec_conc a job step c)).trans rfl
@[simp] theorem State.openDec_concJobs (c : Nat) : ((s.openDec a job step).conc c).jobs = (s.conc c).jobs :=
  (congrArg Conc.jobs (s.openDec_conc a job step c)).trans rfl

end opens

@[simp] theorem State.modAgent_noCommit (s : State) (i : Nat) (f : Agent → Agent) : (s.modAgent i f).noCommit = s.noCommit := rfl
@[simp] theorem State.modAgent_jobAborted (s : State) (i : Nat) (f : Agent → Agent) (j : Job) :
    (s.modAgent i f).jobAborted j = s.jobAborted j := rfl

/-! ### Presentations of a group's range -/

/-- The commit action of a group's range. -/
def Group.cmt (g : Group) (poison : Bool) : Cmt :=
  { poison := poison, job := vhJob g.head, base := vhBase g.head, count := vhCount g.head }

/-- A presentation that nothing withholds joins the agent's commit channel. -/
theorem State.presentCmt_agent {s : State} {a : Nat} {c : Cmt}
    (h : c.poison = true ∨ s.noCommit = false ∧ (s.agent a).fence = false) :
    (s.presentCmt a c).agent a = { s.agent a with cmt := (s.agent a).cmt ++ [c] } := by
  have hn : ¬ (!c.poison && (s.noCommit || (s.agent a).fence)) = true := by
    rcases h with h | ⟨hc, hf⟩ <;> simp [*]
  unfold State.presentCmt
  rw [if_neg hn]
  dsimp only
  split <;> simp

theorem State.groupRange_poison (s : State) (a : Nat) (g : Group) :
    (s.groupRange a g true).agent a = { s.agent a with cmt := (s.agent a).cmt ++ [g.cmt true] } :=
  State.presentCmt_agent (c := g.cmt true) (.inl rfl)

/-- A range that no gate defers and nothing withholds commits at once. -/
theorem State.groupRange_commit {s : State} {a : Nat} {g : Group} (hg : g.stepGated = false)
    (hj : s.jobAborted (vhJob g.head) = false) (hc : s.noCommit = false) (hf : (s.agent a).fence = false) :
    (s.groupRange a g false).agent a = { s.agent a with cmt := (s.agent a).cmt ++ [g.cmt false] } := by
  have e : s.groupRange a g false = s.presentCmt a (g.cmt false) := by
    simp [State.groupRange, State.commitAction, hg, hj, hc, Group.cmt]
  rw [e]
  exact State.presentCmt_agent (.inr ⟨hc, hf⟩)

/-- Nothing but the commit channel, the gate list and the contexts of an agent has changed. -/
def Agent.SameButCommits (x y : Agent) : Prop := y = { x with cmt := y.cmt, gates := y.gates, ctxs := y.ctxs }

namespace Agent.SameButCommits

theorem refl (x : Agent) : x.SameButCommits x := rfl

theorem trans {x y z : Agent} (h : x.SameButCommits y) (k : y.SameButCommits z) : x.SameButCommits z := by
  unfold SameButCommits at *
  rw [k, h]

variable {x y : Agent} (h : x.SameButCommits y)
include h

theorem queue_eq : y.queue = x.queue := (congrArg Agent.queue h).trans rfl
theorem groups_eq : y.groups = x.groups := (congrArg Agent.groups h).trans rfl
theorem summaries_eq : y.summaries = x.summaries := (congrArg Agent.summaries h).trans rfl
theorem runSkipped_eq : y.runSkipped = x.runSkipped := (congrArg Agent.runSkipped h).trans rfl

end Agent.SameButCommits

theorem State.presentCmt_frame (s : State) (a : Nat) (c : Cmt) : (s.agent a).SameButCommits ((s.presentCmt a c).agent a) := by
  unfold State.presentCmt
  split
  · exact .refl _
  · dsimp only
    split <;> simp [Agent.SameButCommits]

theorem State.deferCmt_frame (s : State) (a : Nat) (r : GateRange) : (s.agent a).SameButCommits ((s.deferCmt a r).1.agent a) := by
  unfold State.deferCmt
  dsimp only
  split
  · simp [Agent.SameButCommits]
  · split
    · simp [Agent.SameButCommits]
    · exact .refl _

theorem State.commitAction_frame (s : State) (a : Nat) (gated : Bool) (step : Option W64) (job : Job) (base : Addr)
    (count : BitVec 16) : (s.agent a).SameButCommits ((s.commitAction a gated step job base count).1.agent a) := by
  unfold State.commitAction
  split
  · exact s.presentCmt_frame a _
  split
  · exact .refl _
  split
  · exact s.deferCmt_frame a _
  · exact s.presentCmt_frame a _

theorem State.groupRange_frame (s : State) (a : Nat) (g : Group) (p : Bool) :
    (s.agent a).SameButCommits ((s.groupRange a g p).agent a) := by
  unfold State.groupRange
  dsimp only
  split
  · exact s.presentCmt_frame a _
  · refine (s.commitAction_frame a g.stepGated g.step (vhJob g.head) (vhBase g.head) (vhCount g.head)).trans ?_
    split
    · simp [Agent.SameButCommits]
    · exact .refl _

/-! ### Messages -/

/-- A report enters the agent's queue; the rest of the agent stays. -/
theorem State.report_agent (s : State) (a : Nat) (kind : Byte) (sev : BitVec 3) (addr : Addr) (job : Job) :
    (s.report a kind sev addr job).agent a =
      { s.agent a with queue := ((s.report a kind sev addr job).agent a).queue } := by
  simp [State.report, State.emit, State.setQueue]

theorem State.report_emits (s : State) (a : Nat) (kind : Byte) (sev : BitVec 3) (addr : Addr) (job : Job) :
    Emitted (.agent a) { source := srcId 0 a, kind := kind, sev := sev, addr := addr, job := job } s
      (s.report a kind sev addr job) :=
  congrArg Agent.queue (s.agent_modAgent_self a _)

/-- Only the queue, the step clock and the time count for what a unit emits, and only the queue at the end. -/
theorem Emitted.congr {u : NetUnit} {m : Msg} {s s' t t' : State} (hq : s'.queueOf u = s.queueOf u)
    (hc : s'.clock = s.clock) (hn : s'.now = s.now) (ht : t'.queueOf u = t.queueOf u) (h : Emitted u m s' t') : Emitted u m s t := by
  unfold Emitted State.stamp State.clk at *
  rw [← ht, h, hq, hc, hn]

/-! ### A command begins on the fresh state -/

theorem live_fresh {s : State} (hr : s.rstL = false) (f : State → State) : live s f = .next (f s.fresh) := live_next hr f

theorem liveIf_fresh {s : State} (hr : s.rstL = false) {bad : Bool} (hb : bad = false) (rule : Nat) (f : State → State) :
    liveIf s bad rule f = .next (f s.fresh) := by
  unfold liveIf
  rw [hr, hb]
  exact live_fresh hr f

theorem liveIf_bad {s : State} (hr : s.rstL = false) {bad : Bool} (hb : bad = true) (rule : Nat) (f : State → State) :
    liveIf s bad rule f = .fault (.hostContract rule) := by
  unfold liveIf
  rw [hr, hb]
  rfl

@[simp] theorem State.fresh_agent (s : State) (a : Nat) : s.fresh.agent a = s.agent a := rfl
@[simp] theorem State.fresh_conc (s : State) (c : Nat) : s.fresh.conc c = s.conc c := rfl
@[simp] theorem State.fresh_agentOn (s : State) (a : Nat) : s.fresh.agentOn a = s.agentOn a := rfl
@[simp] theorem State.fresh_shut (s : State) : s.fresh.shut = s.shut := rfl
@[simp] theorem State.fresh_vclass? (s : State) (v : Nat) : s.fresh.vclass? v = s.vclass? v := rfl

/-! ### VH_HEADER -/

/-- The group that a header binds to an id that is free, at an agent without a fence. -/
def State.headed (s : State) (a : Nat) (data : BitVec 110) : Group :=
  let r := s.vclass? (vhClass data)
  let w1 := (r.map (·.word 1)).getD 0
  { head := data, judged := r.isSome && decide ((s.agent a).openJudged < 4) && decide (vhFmt data ≤ 11),
    gated := gatedWord w1, hasRecord := r.isSome, stepGated := bit w1 11,
    step := (s.agent a).steps.get none (vhJob data).toNat, params := (r.map (·.words)).getD [] }

/-- A header binds its free group id and counts its group among the outcomes that its step awaits. -/
theorem exec_vhHeader_free {s : State} {a : Nat} {gid : BitVec 3} {data : BitVec 110} (hr : s.rstL = false)
    (hon : s.agentOn a = true) (hs : s.shut = false) (hf : (s.agent a).fence = false) (hq : (s.agent a).fenceReq = false)
    (hg : (s.agent a).groups.get none gid.toNat = none) :
    exec (.vhHeader a gid data) s = .next ((s.fresh.modAgent a (fun x =>
      { x with groups := x.groups.set none gid.toNat (some (s.headed a data)),
               groupsUnchecked := if (s.headed a data).judged then x.groupsUnchecked else satInc x.groupsUnchecked })).openInc
        a (vhJob data) (s.headed a data).step) := by
  show execVhHeader a gid data s = _
  unfold execVhHeader State.headed
  rw [live_fresh hr]
  simp [hon, hs, hg, hf, hq]

/-! ### VE_BEAT -/

section beat
variable {s : State} {a : Nat} {b : VeBeat} (hr : s.rstL = false) (hon : s.agentOn a = true)
include hr hon

/-- Elements of an id that no header has bound. -/
theorem exec_veBeat_stray (hg : (s.agent a).groups.get none b.gid.toNat = none) :
    exec (.veBeat a b) s = .next (s.fresh.modAgent a (fun x => { x with tapStray := satInc x.tapStray })) := by
  show execVeBeat a b s = _
  unfold execVeBeat
  rw [liveIf_fresh hr (by simp [hg])]
  simp [hon, hg]

variable {g : Group} (hg : (s.agent a).groups.get none b.gid.toNat = some g)
include hg

/-- A beat of a bound id carries 1 to 32 elements (R423). -/
theorem exec_veBeat_badCount (hc : b.count = 0 ∨ 32 < b.count) : exec (.veBeat a b) s = .fault (.hostContract 423) :=
  liveIf_bad hr (by simp [hon, hg, hc]) _ _

variable (h0 : 0 < b.count) (h32 : b.count ≤ 32) {g' : Group} {n : Nat}
  (ht : Group.takeElems b b.count 0 { g with poison := g.poison || b.poison } = (g', n))
include h0 h32 ht

/-- A beat after which the group awaits more elements. -/
theorem exec_veBeat_more (hc : g'.complete = false) : exec (.veBeat a b) s =
    .next (s.fresh.modAgent a (fun x => { x with groups := x.groups.set none b.gid.toNat (some g') })) := by
  show execVeBeat a b s = _
  unfold execVeBeat
  rw [liveIf_fresh hr (by simp; omega)]
  simp [hon, hg, ht, hc]

/-- A beat whose last element is the group's last. -/
theorem exec_veBeat_last (hc : g'.complete = true) (hn : n = b.count) :
    exec (.veBeat a b) s = .next (s.fresh.endGroup a b.gid.toNat g') := by
  show execVeBeat a b s = _
  unfold execVeBeat
  rw [liveIf_fresh hr (by simp; omega)]
  simp [hon, hg, ht, hc, hn]

end beat

/-! ### The last element of a group -/

/-- A group that is not judged, gated and without poison: its range is committed as it ends. -/
theorem State.endGroup_unjudged (s : State) (a gid : Nat) {g : Group} (hj : g.judged = false) (hg : g.gated = true)
    (hs : g.settled = false) (hp : g.poison = false) (ha : g.aborted = false) :
    s.endGroup a gid g = ((s.modAgent a (fun x => { x with groups := x.groups.set none gid none })).openDec a
      (vhJob g.head) g.step).groupRange a g false := by
  simp [State.endGroup, State.endUnjudged, hj, hg, hs, hp, ha]

/-- A judged group with the settled test of its nonfinite elements (R151). -/
def Group.tested (g : Group) : Group := g.failIf 0 (decide (g.fld 2 31 16 < g.nonfinite))

theorem Group.failIf_poison (g : Group) (t : Nat) (c : Bool) : (g.failIf t c).poison = g.poison := by
  unfold Group.failIf
  split <;> rfl

@[simp] theorem Group.tested_poison (g : Group) : g.tested.poison = g.poison := g.failIf_poison _ _

@[simp] theorem State.settleTests_group (s : State) (a : Nat) (g : Group) : (s.settleTests a g).2 = g.tested := by
  unfold State.settleTests
  dsimp only
  split <;> rfl

/-- The state in which a judged group has left its id and is counted, its tests settled. -/
def State.counted (s : State) (a gid : Nat) (g : Group) : State :=
  ((s.modAgent a (fun x => { x with groups := x.groups.set none gid none })).settleTests a g).1

section counted
variable (s : State) (a gid : Nat) (g : Group)

theorem State.counted_agent : let x := (s.counted a gid g).agent a
    x = { s.agent a with groups := (s.agent a).groups.set none gid none, groupsJudged := satInc (s.agent a).groupsJudged,
                         failBits := x.failBits, groupRing := x.groupRing, groupRingHead := x.groupRingHead } := by
  unfold State.counted State.settleTests
  dsimp only
  split <;> simp

@[simp] theorem State.counted_queue : ((s.counted a gid g).agent a).queue = (s.agent a).queue :=
  (congrArg Agent.queue (s.counted_agent a gid g)).trans rfl

@[simp] theorem State.counted_clock : (s.counted a gid g).clock = s.clock := by
  unfold State.counted State.settleTests
  dsimp only
  split <;> rfl

@[simp] theorem State.counted_now : (s.counted a gid g).now = s.now := by
  unfold State.counted State.settleTests
  dsimp only
  split <;> rfl

end counted

section reports
variable (s : State) (a : Nat) {g : Group} (hp : g.poison = false)
include hp

theorem State.groupReports_passed (hf : g.failed = []) : s.groupReports a g = s := by
  simp [State.groupReports, hp, hf]

theorem State.groupReports_failed (hf : g.failed ≠ []) : s.groupReports a g =
    s.report a (if 0 ∈ g.failed then 0x06 else 0x05) (if g.mustPoison then 2 else 0) (vhBase g.head) (vhJob g.head) := by
  simp [State.groupReports, hp, hf]

/-- A group without poison is at most reported: of its agent only the queue changes. -/
theorem State.groupReports_agent :
    (s.groupReports a g).agent a = { s.agent a with queue := ((s.groupReports a g).agent a).queue } := by
  by_cases hf : g.failed = []
  · rw [s.groupReports_passed a hp hf]
  · rw [s.groupReports_failed a hp hf]
    exact s.report_agent a _ _ _ _

end reports

section judged
variable (s : State) (a gid : Nat) {g : Group} (hp : g.poison = false)
include hp

/-- A judged group without poison is counted, reported, and waits for its verdict. -/
theorem State.endGroup_judged (hj : g.judged = true) : s.endGroup a gid g =
    ((s.counted a gid g).groupReports a g.tested).modAgent a (fun x =>
      { x with groups := x.groups.set none (x.waitKey gid) (some g.tested) }) := by
  have hnow : (g.tested.gated && g.tested.poison && !g.tested.settled) = false := by simp [hp]
  simp only [State.endGroup, hj, if_true, State.settleTests_group, hnow, Bool.false_eq_true, if_false, Bool.or_false]
  rfl

/-- The agent of a judged group before the group takes its waiting place. -/
theorem State.reported_agent : let x := ((s.counted a gid g).groupReports a g.tested).agent a
    x.groups = (s.agent a).groups.set none gid none ∧ x.cmt = (s.agent a).cmt
      ∧ x.groupsJudged = satInc (s.agent a).groupsJudged := by
  intro x
  have hx : x = { (s.counted a gid g).agent a with queue := x.queue } :=
    (s.counted a gid g).groupReports_agent a (g.tested_poison.trans hp)
  have hu := s.counted_agent a gid g
  rw [hx]
  exact ⟨(congrArg Agent.groups hu).trans rfl, (congrArg Agent.cmt hu).trans rfl, (congrArg Agent.groupsJudged hu).trans rfl⟩

/-- A failing group is reported once, with the KIND and the severity of its tests (R153). -/
theorem State.endGroup_reports (hj : g.judged = true) (hf : g.tested.failed ≠ []) :
    Emitted (.agent a) { source := srcId 0 a, kind := if 0 ∈ g.tested.failed then 0x06 else 0x05,
                         sev := if g.tested.mustPoison then 2 else 0, addr := vhBase g.tested.head,
                         job := vhJob g.tested.head } s (s.endGroup a gid g) := by
  refine Emitted.congr (s.counted_queue a gid g) (s.counted_clock a gid g) (s.counted_now a gid g) ?_
    ((s.counted a gid g).report_emits a _ _ _ _)
  rw [s.endGroup_judged a gid hp hj, State.groupReports_failed _ a (g.tested_poison.trans hp) hf]
  simp [State.queueOf]

/-- A group that passes its tests sends no message. -/
theorem State.endGroup_silent (hj : g.judged = true) (hf : g.tested.failed = []) :
    ((s.endGroup a gid g).agent a).queue = (s.agent a).queue := by
  rw [s.endGroup_judged a gid hp hj, State.groupReports_passed _ a (g.tested_poison.trans hp) hf,
    State.agent_modAgent_self]
  exact s.counted_queue a gid g

/-- The group leaves its id for a place that was free. -/
theorem State.endGroup_waits (hj : g.judged = true) (hgid : gid < 8) : let x := (s.endGroup a gid g).agent a
    x.groups.get none gid = none ∧ x.cmt = (s.agent a).cmt
      ∧ (∃ k : Nat, 8 ≤ k ∧ k % 8 = gid ∧ (s.agent a).groups.get none k = none ∧ x.groups.get none k = some g.tested)
      ∧ x.groupsJudged = satInc (s.agent a).groupsJudged := by
  intro x
  obtain ⟨hgr, hcmt, hcnt⟩ := s.reported_agent a gid hp
  let y := ((s.counted a gid g).groupReports a g.tested).agent a
  have hx : x = { y with groups := y.groups.set none (y.waitKey gid) (some g.tested) } := by
    show (s.endGroup a gid g).agent a = _
    rw [s.endGroup_judged a gid hp hj, State.agent_modAgent_self]
  obtain ⟨hk8, hkm⟩ := y.waitKey_mod hgid
  have hne : y.waitKey gid ≠ gid := by omega
  have hfree : (s.agent a).groups.get none (y.waitKey gid) = none := by
    rw [← SMap.get_set_other none _ hne none, ← hgr]
    exact y.get_waitKey gid
  rw [hx]
  refine ⟨?_, hcmt, ⟨y.waitKey gid, hk8, hkm, hfree, SMap.get_set_self _ _ _ _⟩, hcnt⟩
  rw [SMap.get_set_other _ _ hne.symm, hgr, SMap.get_set_self]

end judged

/-! ### VECTOR_GROUP_VERDICT -/

/-- A group leaves its waiting place for its verdict. -/
def State.takeWaiting (s : State) (a k : Nat) : State :=
  s.modAgent a (fun x => { x with groups := x.groups.set none k none })

@[simp] theorem State.takeWaiting_agent (s : State) (a k : Nat) :
    (s.takeWaiting a k).agent a = { s.agent a with groups := (s.agent a).groups.set none k none } := s.agent_modAgent_self a _

theorem exec_vectorGroupVerdict_waiting {s : State} {a : Nat} {gid : BitVec 3} {k : Nat} {g : Group} (hr : s.rstL = false)
    (hk : (s.agent a).groups.keys.find? (fun k => decide (8 ≤ k ∧ k % 8 = gid.toNat)) = some k)
    (hg : (s.agent a).groups.get none k = some g) : exec (.vectorGroupVerdict a gid) s =
      .next ((s.fresh.takeWaiting a k).groupVerdict a g) := by
  show execVectorGroupVerdict a gid s = _
  unfold execVectorGroupVerdict
  rw [live_fresh hr]
  simp only [State.fresh_agent, hk, hg]
  rfl

/-- The state in which a verdict has settled the range of its group. -/
def State.verdictRange (s : State) (a : Nat) (g : Group) : State :=
  if g.gated ∧ !g.settled then s.groupRange a g (g.poison || g.mustPoison) else s

/-- The summary that a verdict sends (R158). -/
def Group.summary (g : Group) : Summary :=
  { job := vhJob g.head, step := g.step, vclass := vhClass g.head, stat := g.stat, failed := g.failed, running := g.runs 6,
    poisoned := g.poisoned }

theorem State.verdictRange_frame (s : State) (a : Nat) (g : Group) :
    (s.agent a).SameButCommits ((s.verdictRange a g).agent a) := by
  unfold State.verdictRange
  split
  · exact s.groupRange_frame a g _
  · exact .refl _

/-- After its range is settled, a verdict sends its summary where the agent has room for it, and counts it otherwise. -/
theorem State.groupVerdict_agent (s : State) (a : Nat) (g : Group) : (s.groupVerdict a g).agent a =
    if ((s.verdictRange a g).agent a).summaries.length < 8 then
      { (s.verdictRange a g).agent a with summaries := ((s.verdictRange a g).agent a).summaries ++ [g.summary] }
    else { (s.verdictRange a g).agent a with runSkipped := satInc ((s.verdictRange a g).agent a).runSkipped } := by
  show (if ((s.verdictRange a g).agent a).summaries.length < 8 then _ else _ : State).agent a = _
  split
  · exact State.agent_modAgent_self _ a _
  · split
    · exact State.agent_modAgent_self _ a _
    · exact (State.openDec_agent _ a _ _ a).trans (State.agent_modAgent_self _ a _)

/-- What a verdict leaves at its agent. -/
theorem State.groupVerdict_fields (s : State) (a : Nat) (g : Group) : let x := (s.groupVerdict a g).agent a
    x.groups = (s.agent a).groups ∧ x.queue = (s.agent a).queue ∧ x.cmt = ((s.verdictRange a g).agent a).cmt
      ∧ ((s.agent a).summaries.length < 8 → x.summaries = (s.agent a).summaries ++ [g.summary])
      ∧ (8 ≤ (s.agent a).summaries.length → x.runSkipped = satInc (s.agent a).runSkipped) := by
  intro x
  have hv := s.verdictRange_frame a g
  have hx := s.groupVerdict_agent a g
  rw [hv.summaries_eq, hv.runSkipped_eq] at hx
  by_cases h : (s.agent a).summaries.length < 8
  · have hx : x = _ := hx.trans (if_pos h)
    rw [hx]
    exact ⟨hv.groups_eq, hv.queue_eq, rfl, fun _ => rfl, fun h8 => absurd h (Nat.not_lt.mpr h8)⟩
  · have hx : x = _ := hx.trans (if_neg h)
    rw [hx]
    exact ⟨hv.groups_eq, hv.queue_eq, rfl, fun h8 => absurd h8 h, fun _ => rfl⟩

section range
variable {s : State} {a : Nat} {g : Group}

/-- A group of a class that is not gated, or one that a fence has settled, presents nothing. -/
theorem State.verdictRange_none (h : g.gated = false ∨ g.settled = true) : s.verdictRange a g = s := by
  refine if_neg fun ⟨hg, hs⟩ => ?_
  rcases h with h | h <;> simp [h] at hg hs

variable (hg : g.gated = true) (hs : g.settled = false)
include hg hs

theorem State.verdictRange_poison (h : g.poison = true ∨ g.mustPoison = true) :
    ((s.verdictRange a g).agent a).cmt = (s.agent a).cmt ++ [g.cmt true] := by
  have hp : (g.poison || g.mustPoison) = true := by simpa using h
  have e : s.verdictRange a g = s.groupRange a g true := (if_pos ⟨hg, by simp [hs]⟩).trans (congrArg _ hp)
  rw [e, State.groupRange_poison]

theorem State.verdictRange_commit (hp : g.poison = false) (hm : g.mustPoison = false) (hst : g.stepGated = false)
    (hj : s.jobAborted (vhJob g.head) = false) (hc : s.noCommit = false) (hf : (s.agent a).fence = false) :
    ((s.verdictRange a g).agent a).cmt = (s.agent a).cmt ++ [g.cmt false] := by
  have hpm : (g.poison || g.mustPoison) = false := by simp [hp, hm]
  have e : s.verdictRange a g = s.groupRange a g false := (if_pos ⟨hg, by simp [hs]⟩).trans (congrArg _ hpm)
  rw [e, State.groupRange_commit hst hj hc hf]

end range

/-! ### SUMMARY_JUDGE -/

theorem exec_summaryJudge_empty {s : State} {c a : Nat} (hr : s.rstL = false) (hb : s.build.clusterOf a = c)
    (hm : (s.agent a).summaries = []) : exec (.summaryJudge c a) s = .next s.fresh := by
  have hb' : s.fresh.build.clusterOf a = c := hb
  show execSummaryJudge c a s = _
  unfold execSummaryJudge
  rw [live_fresh hr, if_neg (not_not_intro hb'), State.fresh_agent, hm]

/-- The job's counts at its concentrator after an excursion. -/
def State.countExcursion (s : State) (c a : Nat) (m : Summary) : State :=
  (s.modConc c (fun x => { x with jobs := x.jobs.mod {} m.job.toNat (fun y =>
    { y with excTotal := satInc y.excTotal,
             excStep := if decide (m.step = (s.agent a).steps.get none m.job.toNat) then y.excStep + 1 else y.excStep,
             agentMask := if decide (m.step = (s.agent a).steps.get none m.job.toNat) then
               y.agentMask ||| 1#16 <<< (a % s.build.clusterSize) else y.agentMask }) })).numbersOdd c m.job

/-- Numbers odd leaves the agents, the envelopes and the excursions of a job. -/
theorem State.numbersOdd_frame (s : State) (c : Nat) (job : Job) (a : Nat) :
    (s.numbersOdd c job).agent a = s.agent a ∧ ((s.numbersOdd c job).conc c).env = (s.conc c).env
      ∧ (((s.numbersOdd c job).conc c).jobs.get {} job.toNat).excTotal = ((s.conc c).jobs.get {} job.toNat).excTotal := by
  unfold State.numbersOdd
  dsimp only
  split
  · simp [State.emit, State.setQueue]
  · exact ⟨rfl, rfl, rfl⟩

theorem State.countExcursion_fields (s : State) (c a : Nat) (m : Summary) :
    (s.countExcursion c a m).agent a = s.agent a ∧ ((s.countExcursion c a m).conc c).env = (s.conc c).env
      ∧ (((s.countExcursion c a m).conc c).jobs.get {} m.job.toNat).excTotal
        = satInc ((s.conc c).jobs.get {} m.job.toNat).excTotal := by
  obtain ⟨ha, he, hx⟩ := State.numbersOdd_frame _ c m.job a
  unfold State.countExcursion
  rw [ha, he, hx]
  simp

/-- The state in which a concentrator has taken a summary into the sums of its class. -/
def State.summed (s : State) (c a : Nat) (m : Summary) (r : List Summary) (y : Int) : State :=
  (s.modAgent a (fun x => { x with summaries := r })).modConc c (fun x =>
    { x with env := x.env.set {} m.vclass (((s.conc c).env.get {} m.vclass).judge y).1 })

/-- After the sums, an excursion is counted for the summary's job. -/
def State.judgedSummary (s : State) (c a : Nat) (m : Summary) (r : List Summary) (y : Int) : State :=
  if (((s.conc c).env.get {} m.vclass).judge y).2 then (s.summed c a m r y).countExcursion c a m else s.summed c a m r y

/-- A summary with a statistic, of a class that RUNNING judges for its job, whose group has failed no test. -/
theorem exec_summaryJudge_running {s : State} {c a : Nat} {m : Summary} {r : List Summary} {y : Int} (hr : s.rstL = false)
    (hb : s.build.clusterOf a = c) (hs : (s.agent a).summaries = m :: r) (hy : m.stat = some y) (hm : m.running = true)
    (ho : s.ownerOf m.vclass = some m.job.toNat) (hf : m.failed = []) :
    exec (.summaryJudge c a) s = .next (if m.poisoned then s.fresh.judgedSummary c a m r y
      else (s.fresh.judgedSummary c a m r y).openDec a m.job m.step) := by
  have hb' : s.fresh.build.clusterOf a = c := hb
  have ho' : (s.fresh.modAgent a (fun x => { x with summaries := r })).ownerOf m.vclass = some m.job.toNat := ho
  show execSummaryJudge c a s = _
  unfold execSummaryJudge
  rw [live_fresh hr, if_neg (not_not_intro hb'), State.fresh_agent, hs]
  simp only [hy, hm, ho', hf, and_self, if_true, Option.map_some, Option.getD_some, ne_eq, not_true_eq_false, decide_false,
    Bool.or_false]
  rfl

section judgedSummary
variable (s : State) (c a : Nat) (m : Summary) (r : List Summary) (y : Int)

theorem State.summed_fields : ((s.summed c a m r y).agent a).summaries = r
    ∧ ((s.summed c a m r y).conc c).env.get {} m.vclass = (((s.conc c).env.get {} m.vclass).judge y).1
    ∧ ((s.summed c a m r y).conc c).jobs = (s.conc c).jobs := by
  simp [State.summed]

/-- The summary leaves its agent, and its class's envelope takes it. -/
theorem State.judgedSummary_fields : ((s.judgedSummary c a m r y).agent a).summaries = r
    ∧ ((s.judgedSummary c a m r y).conc c).env.get {} m.vclass = (((s.conc c).env.get {} m.vclass).judge y).1 := by
  obtain ⟨hsum, henv, _⟩ := s.summed_fields c a m r y
  unfold State.judgedSummary
  split
  · obtain ⟨ha, he, _⟩ := (s.summed c a m r y).countExcursion_fields c a m
    rw [ha, he]
    exact ⟨hsum, henv⟩
  · exact ⟨hsum, henv⟩

theorem State.judgedSummary_excursion (h : (((s.conc c).env.get {} m.vclass).judge y).2 = true) :
    (((s.judgedSummary c a m r y).conc c).jobs.get {} m.job.toNat).excTotal
      = satInc ((s.conc c).jobs.get {} m.job.toNat).excTotal := by
  obtain ⟨_, _, hx⟩ := (s.summed c a m r y).countExcursion_fields c a m
  obtain ⟨_, _, hjobs⟩ := s.summed_fields c a m r y
  rw [State.judgedSummary, if_pos h, hx, hjobs]

theorem State.judgedSummary_inBand (h : (((s.conc c).env.get {} m.vclass).judge y).2 = false) :
    ((s.judgedSummary c a m r y).conc c).jobs = (s.conc c).jobs := by
  obtain ⟨_, _, hjobs⟩ := s.summed_fields c a m r y
  rw [State.judgedSummary, h, if_neg Bool.false_ne_true, hjobs]

end judgedSummary

theorem Envelope.judge_outcome (e : Envelope) (y : Int) :
    (e.judge y).2 = (decide (e.warm ≤ e.steps) && decide (e.half < ((y - e.mu).natAbs : Int))) := rfl

theorem Envelope.judge_excursion (e : Envelope) (y : Int) : (e.judge y).1.excursion = (e.excursion || (e.judge y).2) := rfl

/-- A statistic outside the band of a warm envelope is an excursion (R155). -/
theorem Envelope.judge_outside {e : Envelope} {y : Int} (hw : e.warm ≤ e.steps) (hy : e.half < ((y - e.mu).natAbs : Int)) :
    (e.judge y).2 = true ∧ (e.judge y).1.excursion = true := by
  have hx : (e.judge y).2 = true := by
    rw [e.judge_outcome, decide_eq_true hw, decide_eq_true hy, Bool.and_self]
  exact ⟨hx, by rw [e.judge_excursion, hx, Bool.or_true]⟩

/-- A statistic in the band, or one of a cold envelope, is none. -/
theorem Envelope.judge_inside {e : Envelope} {y : Int} (h : e.steps < e.warm ∨ ((y - e.mu).natAbs : Int) ≤ e.half) :
    (e.judge y).2 = false ∧ (e.judge y).1.excursion = e.excursion := by
  have hx : (e.judge y).2 = false := by
    rw [e.judge_outcome]
    rcases h with h | h
    · rw [decide_eq_false (Nat.not_le.mpr h), Bool.false_and]
    · rw [decide_eq_false (Int.not_lt.mpr h), Bool.and_false]
  exact ⟨hx, by rw [e.judge_excursion, hx, Bool.or_false]⟩

/-! ### The commands -/

/-- What the verdict of a waiting group leaves at its agent. -/
theorem State.waitingVerdict_fields (s : State) (a k : Nat) (g : Group) :
    let x := ((s.takeWaiting a k).groupVerdict a g).agent a
    x.groups.get none k = none ∧ x.queue = (s.agent a).queue ∧ x.cmt = (((s.takeWaiting a k).verdictRange a g).agent a).cmt
      ∧ ((s.agent a).summaries.length < 8 → x.summaries = (s.agent a).summaries ++ [g.summary])
      ∧ (8 ≤ (s.agent a).summaries.length → x.runSkipped = satInc (s.agent a).runSkipped) := by
  intro x
  obtain ⟨hgr, hrest⟩ := (s.takeWaiting a k).groupVerdict_fields a g
  rw [State.takeWaiting_agent] at hgr hrest
  exact ⟨(congrArg (SMap.get none · k) hgr).trans (SMap.get_set_self _ _ _ _), hrest⟩

/-- A group that is not judged commits at its last element, and its id is free. -/
theorem State.endGroup_commits {s : State} (a gid : Nat) {g : Group} (hj : g.judged = false) (hg : g.gated = true)
    (hs : g.settled = false) (hp : g.poison = false) (ha : g.aborted = false) (hst : g.stepGated = false)
    (hab : s.jobAborted (vhJob g.head) = false) (hc : s.noCommit = false) (hf : (s.agent a).fence = false) :
    let x := (s.endGroup a gid g).agent a
    x.groups.get none gid = none ∧ x.cmt = (s.agent a).cmt ++ [g.cmt false] := by
  dsimp only
  rw [s.endGroup_unjudged a gid hj hg hs hp ha,
    State.groupRange_commit hst (by simpa using hab) (by simpa using hc) (by simpa using hf), State.openDec_agent,
    State.agent_modAgent_self]
  exact ⟨SMap.get_set_self _ _ _ _, rfl⟩

theorem summaryJudge_fields {s : State} {c a : Nat} {m : Summary} {r : List Summary} {y : Int} (hr : s.rstL = false)
    (hb : s.build.clusterOf a = c) (hs : (s.agent a).summaries = m :: r) (hy : m.stat = some y) (hm : m.running = true)
    (ho : s.ownerOf m.vclass = some m.job.toNat) (hf : m.failed = []) :
    ∃ t, exec (.summaryJudge c a) s = .next t ∧ (t.agent a).summaries = r
      ∧ (t.conc c).env.get {} m.vclass = (((s.conc c).env.get {} m.vclass).judge y).1
      ∧ (t.conc c).jobs = ((s.fresh.judgedSummary c a m r y).conc c).jobs := by
  obtain ⟨hsum, henv⟩ := s.fresh.judgedSummary_fields c a m r y
  refine ⟨_, exec_summaryJudge_running hr hb hs hy hm ho hf, ?_⟩
  split
  · exact ⟨hsum, henv, rfl⟩
  · rw [State.openDec_agent, State.openDec_env, State.openDec_concJobs]
    exact ⟨hsum, henv, rfl⟩

/-- Settles O35, command by command: the header's group, the beat by what it finds and completes, the verdict by what becomes of
the range, the summary by its place in the band. -/
theorem vectorGroupsAndSummaries : Obligations.VectorGroupsAndSummaries := by
  unfold Obligations.VectorGroupsAndSummaries
  intro s hr
  refine ⟨?header, fun a b hon => ⟨?stray, fun g hg => ⟨fun h0 h32 g' n ht => ⟨?more, ?unjudged, ?judged⟩, ?badCount⟩⟩,
    ?verdict, ?summary, ?noSummary⟩
  case header =>
    intro a gid data hon hs hf hq hg
    refine ⟨_, exec_vhHeader_free hr hon hs hf hq hg, s.headed a data, ?_, rfl, rfl, rfl, rfl, rfl, ?_⟩
    · rw [State.openInc_agent, State.agent_modAgent_self]
      exact SMap.get_set_self _ _ _ _
    · rw [State.openInc_agent, State.agent_modAgent_self]
      rfl
  case stray =>
    exact fun hg => ⟨_, exec_veBeat_stray hr hon hg, by simp⟩
  case more =>
    exact fun hc => ⟨_, exec_veBeat_more hr hon hg h0 h32 ht hc, by simp⟩
  case unjudged =>
    intro hc hn hj hgt hs hp ha hst hab hnc hf
    exact ⟨_, exec_veBeat_last hr hon hg h0 h32 ht hc hn, State.endGroup_commits a _ hj hgt hs hp ha hst hab hnc hf⟩
  case judged =>
    rintro e rfl hc hn hj hp
    obtain ⟨hid, hcmt, hk, hcnt⟩ := s.fresh.endGroup_waits a b.gid.toNat hp hj b.gid.isLt
    exact ⟨_, exec_veBeat_last hr hon hg h0 h32 ht hc hn, hid, hcmt, hk, hcnt,
      s.fresh.endGroup_reports a b.gid.toNat hp hj, s.fresh.endGroup_silent a b.gid.toNat hp hj⟩
  case badCount => exact exec_veBeat_badCount hr hon hg
  case verdict =>
    intro a gid k g hk hg
    obtain ⟨hgr, hq, hcmt, hsum, hskip⟩ := s.fresh.waitingVerdict_fields a k g
    refine ⟨_, exec_vectorGroupVerdict_waiting hr hk hg, hgr, hq, hsum, hskip, fun h => ?_, fun hgt hs h => ?_,
      fun hgt hs hp hm hst hab hnc hf => ?_⟩
    · rw [hcmt, State.verdictRange_none h, State.takeWaiting_agent]
      rfl
    · rw [hcmt, State.verdictRange_poison hgt hs h, State.takeWaiting_agent]
      rfl
    · have hf' : ((s.fresh.takeWaiting a k).agent a).fence = false := by simpa using hf
      rw [hcmt, State.verdictRange_commit (s := s.fresh.takeWaiting a k) hgt hs hp hm hst hab hnc hf', State.takeWaiting_agent]
      rfl
  case summary =>
    rintro c a m r y hb hs hy hm ho hf e rfl
    obtain ⟨t, ht, hsum, henv, hjobs⟩ := summaryJudge_fields hr hb hs hy hm ho hf
    refine ⟨t, ht, hsum, ?_⟩
    rw [henv, hjobs]
    refine ⟨rfl, rfl, rfl, fun hw hout => ?_, fun hin => ?_⟩
    · obtain ⟨hx, hexc⟩ := Envelope.judge_outside hw hout
      exact ⟨hexc, s.fresh.judgedSummary_excursion c a m r y hx⟩
    · obtain ⟨hx, hexc⟩ := Envelope.judge_inside hin
      exact ⟨hexc, s.fresh.judgedSummary_inBand c a m r y hx⟩
  case noSummary => exact fun c a hb hm => ⟨_, exec_summaryJudge_empty hr hb hm, rfl⟩

end Sys2Proof.Machine
end

section
/-! An order that an agent ignores, and a settling decision whose proposal the follower has refused: what the
command still does (R166, R185, R277, R286, R293). -/

namespace Sys2Proof.Machine

open Sys2Proof

/-! ### POISON_ORDER that finds no order -/

/-- No poison order of the record is outstanding at the agent. -/
theorem State.poisonOrdered_ignored {s : State} {a n : Nat}
    (h : (s.retake n).used = false ∨ (s.retake n).phase ≠ .poisoning ∨ (s.retake n).lastIs a = false) :
    s.poisonOrdered a n = s := by
  refine if_neg fun hk => ?_
  rw [Bool.and_eq_true, Bool.and_eq_true, decide_eq_true_iff] at hk
  obtain ⟨⟨hu, hp⟩, hl⟩ := hk
  rcases h with h | h | h
  · exact Bool.false_ne_true (h.symm.trans hu)
  · exact h hp
  · exact Bool.false_ne_true (h.symm.trans hl)

/-- An order that the agent ignores still lets RETIRE_TWIN go on (R286). -/
theorem exec_poisonOrder_ignored {s : State} {a n : Nat} (hr : s.rstL = false)
    (h : (s.retake n).used = false ∨ (s.retake n).phase ≠ .poisoning ∨ (s.retake n).lastIs a = false) :
    exec (.poisonOrder a n) s = .next s.fresh.endRetire := by
  show execPoisonOrder a n s = _
  unfold execPoisonOrder
  rw [live_fresh hr, State.poisonOrdered_ignored (s := s.fresh) h]

/-- Hub A leads a pair, and a RETIRE_TWIN that names it has waited 10 µs for the poison order of record 0: the lead is to pass
(R286). -/
def State.leadToPass : State :=
  { now := 10000, hubA := { st := .run }, hubB := { st := .run },
    retakes := ⟨[(0, { used := true, phase := .poisoning, runs := [{ agent := 0, acked := true }] })]⟩,
    cmd := { op := 0xA, code := 1 }, twin := { paired := true, aAttached := true, bAttached := true } }

/-- The command that names record 1, which is not in use, ends RETIRE_TWIN. -/
theorem State.leadToPass_poisonOrder : ∃ t, exec (.poisonOrder 0 1) State.leadToPass = .next t ∧ t.cmd.code = 0 :=
  ⟨_, exec_poisonOrder_ignored rfl (.inl rfl), by decide⟩

/-- Refutes O37: a poison order that finds no order of its record is no command without effect where a RETIRE_TWIN of the leader has
waited 10 µs. The lead passes with it and RETIRE_TWIN ends DONE (R286). -/
theorem not_retakeOrdersAndControl : ¬ Obligations.RetakeOrdersAndControl := by
  unfold Obligations.RetakeOrdersAndControl
  intro h
  obtain ⟨_, _, _, hignored, _⟩ := h State.leadToPass 0 rfl
  obtain ⟨t, ht, rfl⟩ := hignored 1 (.inl rfl)
  obtain ⟨u, hu, hdone⟩ := State.leadToPass_poisonOrder
  cases ht.symm.trans hu
  exact absurd hdone (by decide)

/-! ### ACCOUNT_FETCH of a record whose settle order the follower has refused -/

/-- An action whose refusal stands is not taken, by a hub alone either (R277, R293). -/
theorem State.relax_refused {s : State} {x : RelaxAction} (h : s.refusalStands x = true) (act : State → State) : s.relax x act = s :=
  if_pos h

/-- A settling decision whose refusal stands leaves the record proposed. -/
theorem State.decideStep_refused {s : State} {n d : Nat} {more : Bool} (hd : decideRuns (s.retake n).runs more = .code d)
    (h3 : d ≤ 3) (h : s.refusalStands (.settle n) = true) :
    s.decideStep n more = s.modRetake n (fun r => { r with phase := .proposed, decision := d }) := by
  unfold State.decideStep
  simp only [hd, if_pos h3]
  exact State.relax_refused (s := s.modRetake n _) h _

/-- The hub holds the account of the record's most recent run. -/
def State.holdAccount (s : State) (n : Nat) (x : Run) (y : Account) : State :=
  s.modRetake n (fun r => { r with runs := r.runs.dropLast ++ [{ x with account := some y }], waitFrom := y.since })

theorem State.holdAccount_runs {s : State} {n : Nat} {pre : List Run} {x : Run} (hl : (s.retake n).runs = pre ++ [x]) (y : Account) :
    ((s.holdAccount n x y).retake n).runs = pre ++ [{ x with account := some y }] := by
  rw [State.holdAccount, State.retake_modRetake_self, hl, List.dropLast_concat]

/-- ACCOUNT_FETCH of a record that runs, once its concentrator holds the account: the hub decides. -/
theorem exec_accountFetch_running {s : State} {n : Nat} {pre : List Run} {x : Run} {y : Account} (hr : s.rstL = false)
    (hu : (s.retake n).used = true) (hp : (s.retake n).phase = .running) (hl : (s.retake n).runs = pre ++ [x])
    (hy : s.runAccount n = some y) : exec (.accountFetch n) s = .next ((s.fresh.holdAccount n x y).decideStep n true) := by
  have hretake : s.fresh.retake n = s.retake n := rfl
  have hacc : s.fresh.runAccount n = some y := hy
  show execAccountFetch n s = _
  unfold execAccountFetch
  rw [live_fresh hr]
  simp [hretake, hu, hp, hl, hacc, State.holdAccount]

/-- The first run of a record, its audit without a result. -/
def RefusedAlone.first : Run := { agent := 0, acked := true, account := some {} }

/-- The second run, at another agent. -/
def RefusedAlone.second : Run := { agent := 1, acked := true }

/-- The account of the second run: a good audit, and the first run's `s`. -/
def RefusedAlone.account : Account := { agent := 1, retake := some 0, audit := .ok }

/-- Hub A has survived its follower, whose refusal of the settle order of record 0 stands; the account of the record's second run is
to be fetched. -/
def State.refusedAlone : State :=
  { hubA := { st := .run },
    retakes := ⟨[(0, { used := true, phase := .running, runs := [RefusedAlone.first, RefusedAlone.second] })]⟩,
    concs := ⟨[(0, { accounts := [RefusedAlone.account] })]⟩,
    twin := { paired := true, aAttached := true, mode := 3, answer := some (.settle 0, false) } }

theorem State.refusedAlone_runAccount : State.refusedAlone.runAccount 0 = some RefusedAlone.account := by decide

/-- The two runs settle the record. -/
theorem RefusedAlone.decideRuns_eq :
    decideRuns ([first] ++ [{ second with account := some account }]) true = .code 1 := by decide

/-- The hub fetches the account and leaves the record proposed. -/
theorem State.refusedAlone_accountFetch : ∃ t, exec (.accountFetch 0) State.refusedAlone = .next t ∧ (t.retake 0).phase = .proposed := by
  have hruns : (State.refusedAlone.fresh.retake 0).runs = [RefusedAlone.first] ++ [RefusedAlone.second] := rfl
  have hheld := State.holdAccount_runs hruns RefusedAlone.account
  have hrefused : (State.refusedAlone.fresh.holdAccount 0 RefusedAlone.second RefusedAlone.account).refusalStands (.settle 0) = true := by
    decide
  refine ⟨_, exec_accountFetch_running rfl rfl rfl hruns State.refusedAlone_runAccount, ?_⟩
  rw [State.decideStep_refused (hheld ▸ RefusedAlone.decideRuns_eq) (by decide) hrefused, State.retake_modRetake_self]

/-- Refutes O38: a settling code of a lone hub leaves the record proposed, not settling, where the follower that it has survived has
refused the settle order. The refusal stands, and no settle order follows (R277, R293). -/
theorem not_retakeDecisions : ¬ Obligations.RetakeDecisions := by
  unfold Obligations.RetakeDecisions
  intro h
  obtain ⟨_, hfetch, _⟩ := h State.refusedAlone rfl
  obtain ⟨hdecided, _⟩ := hfetch 0 [RefusedAlone.first] RefusedAlone.second RefusedAlone.account rfl rfl rfl
    State.refusedAlone_runAccount
  have hagents : ∀ z ∈ (State.refusedAlone.retake 0).runs, posGroup z.agent = 0 := by decide
  have hlone : State.refusedAlone.pairUp = false := rfl
  obtain ⟨hsettle, _⟩ := hdecided 1 hagents RefusedAlone.decideRuns_eq
  obtain ⟨t, ht, hsettling, _⟩ := hsettle (by decide) hlone
  obtain ⟨u, hu, hproposed⟩ := State.refusedAlone_accountFetch
  cases ht.symm.trans hu
  exact absurd (hsettling.symm.trans hproposed) (by decide)

end Sys2Proof.Machine
end
